-- ==== Sys2Proof/Word.lean ====
section
/-! DEFINITION. The bit-vector types of the model. A register is a `Word` (spec/00 R7: 32 bits), memory and structures are
made of `Byte`s (R6). Counts, resource numbers and times are `Nat`s; level codes and voltages are numbers too. -/

namespace Sys2Proof

/-- A register's content (R7). -/
abbrev Word := BitVec 32

/-- One byte of memory or of a structure (R6). -/
abbrev Byte := BitVec 8

end Sys2Proof
end

