-- ==== Sys2Proof/Machine/Bits.lean ====
section
/-! DEFINITION. Helpers of the model: bit fields of words, little-endian byte strings (spec/00 R6), two's complement,
rounding, and sparse maps from numbers held as lists of pairs. -/

namespace Sys2Proof.Machine

/-- A field of a word: its least significant bit and its width (spec/00, "Bit ranges are written [msb:lsb]"). -/
structure Fld where
  lsb : Nat
  width : Nat
  deriving DecidableEq, Repr

/-- The value of field `f` of the number `n`. -/
def natField (n : Nat) (f : Fld) : Nat := n / 2 ^ f.lsb % 2 ^ f.width

/-- `n` with field `f` replaced by `v` (`v` cut to the field's width). -/
def natSetField (n : Nat) (f : Fld) (v : Nat) : Nat :=
  n / 2 ^ (f.lsb + f.width) * 2 ^ (f.lsb + f.width) + v % 2 ^ f.width * 2 ^ f.lsb + n % 2 ^ f.lsb

/-- The value of field `f` of a word. -/
def getBits (w : Word) (f : Fld) : Nat := natField w.toNat f

/-- A word with field `f` replaced by `v`. -/
def setBits (w : Word) (f : Fld) (v : Nat) : Word := BitVec.ofNat 32 (natSetField w.toNat f v)

/-- A Bool as a bit. -/
def bit (b : Bool) : Nat := if b then 1 else 0

/-- Bit `i` of a number. -/
def tbit (n i : Nat) : Bool := n / 2 ^ i % 2 == 1

/-- A number with bit `i` made `b`. -/
def setTbit (n i : Nat) (b : Bool) : Nat := if tbit n i then (if b then n else n - 2 ^ i) else (if b then n + 2 ^ i else n)

/-- The positions below `w` of the 1 bits of `n`, rising. -/
def bitList (n w : Nat) : List Nat := (List.range w).filter (fun i => tbit n i)

/-- The number with 1 bits at the listed positions. -/
def maskOf (l : List Nat) : Nat := l.foldl (fun m i => if tbit m i then m else m + 2 ^ i) 0

/-- Two's complement: the signed value of the low `w` bits of `n`. -/
def sgn (n w : Nat) : Int := if n % 2 ^ w < 2 ^ (w - 1) then (n % 2 ^ w : Int) else (n % 2 ^ w : Int) - 2 ^ w

/-- Two's complement: the `w`-bit code of a signed value. -/
def unsgn (i : Int) (w : Nat) : Nat := (i % (2 ^ w : Int)).toNat

/-- `i / d` rounded to nearest, half away from zero. -/
def roundHalfAway (i : Int) (d : Nat) : Int :=
  if i ≥ 0 then ((2 * i + d) / (2 * d) : Int) else -((2 * (-i) + d) / (2 * d) : Int)

/-- `n / d` rounded up. -/
def ceilDiv (n d : Nat) : Nat := (n + d - 1) / d

/-- `n` raised to the next multiple of `d`. -/
def roundUp (n d : Nat) : Nat := ceilDiv n d * d

/-- `n` held at a greatest value. -/
def capAt (n top : Nat) : Nat := if n < top then n else top

/-- The `n` bytes of a number, least first (R6). -/
def bytesOf : Nat → Nat → List Byte
  | 0, _ => []
  | n + 1, v => BitVec.ofNat 8 v :: bytesOf n (v / 256)

/-- The number that bytes spell, least first (R6). -/
def natOf : List Byte → Nat
  | [] => 0
  | b :: bs => b.toNat + 256 * natOf bs

/-- `n` bytes of a byte string from `off` on, zeros past its end. -/
def slice (bs : List Byte) (off n : Nat) : List Byte :=
  let part := (bs.drop off).take n
  part ++ List.replicate (n - part.length) 0

/-- The number in `n` bytes at offset `off` (R6). -/
def fieldAt (bs : List Byte) (off n : Nat) : Nat := natOf (slice bs off n)

/-- A byte string with `new` written over it from `off` on. -/
def splice (bs : List Byte) (off : Nat) (new : List Byte) : List Byte :=
  slice bs 0 off ++ new ++ bs.drop (off + new.length)

/-- Whether `n` bytes from `off` on are all zero. -/
def zeroAt (bs : List Byte) (off n : Nat) : Bool := (slice bs off n).all (· == 0)

/-! ### Sparse maps: lists of (number, value) pairs, keys rising -/

/-- The entry of a key, if the map lists one. -/
def mapFind {α : Type} : List (Nat × α) → Nat → Option α
  | [], _ => none
  | (k, v) :: t, i => if k = i then some v else mapFind t i

/-- The map with key `i` at `v`. -/
def mapSet {α : Type} : List (Nat × α) → Nat → α → List (Nat × α)
  | [], i, v => [(i, v)]
  | (k, w) :: t, i, v =>
    if i < k then (i, v) :: (k, w) :: t
    else if i = k then (i, v) :: t
    else (k, w) :: mapSet t i v

/-- The map without key `i`. -/
def mapErase {α : Type} (m : List (Nat × α)) (i : Nat) : List (Nat × α) := m.filter (fun p => p.1 != i)

/-- The value of a key; an unlisted key has the value `d`. -/
def mapGet {α : Type} (m : List (Nat × α)) (i : Nat) (d : α) : α := (mapFind m i).getD d

/-- `f` applied to the value of key `i`; an unlisted key has the value `d`. -/
def mapMod {α : Type} (m : List (Nat × α)) (i : Nat) (d : α) (f : α → α) : List (Nat × α) := mapSet m i (f (mapGet m i d))

/-- The keys a map lists. -/
def mapKeys {α : Type} (m : List (Nat × α)) : List Nat := m.map (·.1)

/-- The least element of a list of numbers. -/
def listMin? (l : List Nat) : Option Nat :=
  l.foldl (fun m x => match m with | none => some x | some y => some (if x < y then x else y)) none

/-- Insert a number into a rising list without repeats. -/
def insertNat : Nat → List Nat → List Nat
  | x, [] => [x]
  | x, y :: t => if x < y then x :: y :: t else if x = y then y :: t else y :: insertNat x t

/-- The numbers of a list, rising, without repeats. -/
def sortNats (l : List Nat) : List Nat := l.foldl (fun acc x => insertNat x acc) []

/-- The element at a position, or `d`. -/
def nth {α : Type} (l : List α) (i : Nat) (d : α) : α := l.getD i d

/-- The list with position `i` replaced. -/
def setNth {α : Type} (l : List α) (i : Nat) (v : α) : List α := l.set i v

/-- The first failing check of a list of optional failures. -/
def firstSome {α : Type} : List (Option α) → Option α
  | [] => none
  | some a :: _ => some a
  | none :: t => firstSome t

/-- `some a` when the condition fails. -/
def failWhen {α : Type} (c : Bool) (a : α) : Option α := if c then some a else none

end Sys2Proof.Machine
end

