-- ==== Sys2Proof/Machine/TypesImage.lean ====
section
/-! DEFINITION. A loaded Zyn image as data (spec/05 R131, R132, R134, R138–R143, R146, R156, R158, R161, R163). -/

namespace Sys2Proof.Machine

/-- One run of a body: how many consecutive vectors take this control byte and this symbol row (R140, R141). The row is a
number whose base-16 digit i is the symbol of image pin i. -/
structure Run where
  count : Nat
  ctrl : Nat
  row : Nat
  deriving DecidableEq, Repr

/-- A granule (R138): encoding, instruction code, operand, place, stored length, and its resolved body (R139). -/
structure Gran where
  enc : Nat
  encArg : Nat
  op : Nat
  operand : Nat
  off : Nat
  len : Nat
  body : List Run
  deriving DecidableEq, Repr

/-- The instruction of a granule with its operands (R146). -/
inductive ZIns where
  | nop
  | rep (count : Nat)
  | loopBegin (count : Nat)
  | loopEnd
  | call (target ret : Nat)
  | ret
  | jump (target lpop : Nat)
  | jumpIf (target lpop vec cond : Nat) (neg clear : Bool) (pin : Nat)
  | wait (event pin level maxrep : Nat)
  | holdPoint (hold : Nat)
  | rendezvous (rdv : Nat)
  | halt
  | setreg (value reg : Nat)
  | refused
  deriving DecidableEq, Repr

/-- A segment-table entry (R143). -/
structure Seg where
  off : Nat
  len : Nat
  first : Nat
  granules : Nat
  rate : Nat
  deriving DecidableEq, Repr

/-- A branch-table entry (R156). -/
structure Branch where
  granule : Nat
  segment : Nat
  off : Nat
  kind : Nat
  deriving DecidableEq, Repr

/-- A hold-point-table entry (R158). -/
structure HoldPt where
  granule : Nat
  neutral : Bool
  deriving DecidableEq, Repr

/-- A rendezvous-table entry (R161). -/
structure RdvPt where
  granule : Nat
  id : Nat
  cond : Nat
  flags : Nat
  target : Nat
  deriving DecidableEq, Repr

/-- A resource claim (R163). -/
structure Claim where
  kind : Nat
  slot : Nat
  pin : Nat
  amount : Nat
  deriving DecidableEq, Repr

/-- A parsed image. -/
structure ZImage where
  noHolds : Bool
  bytes : Nat
  w : Nat
  rowBytes : Nat
  setMask : Nat
  entryIndex : Nat
  windowGuard : Nat
  dictCount : Nat
  pinFlags : List Nat
  segs : List Seg
  branches : List Branch
  holds : List HoldPt
  rdvs : List RdvPt
  claims : List Claim
  grans : List Gran
  deriving DecidableEq, Repr

/-- The first failing load check (R165, R167): code, INDEX, byte offset (ARG1). -/
structure LoadFail where
  check : Nat
  index : Nat
  arg1 : Nat
  deriving DecidableEq, Repr

end Sys2Proof.Machine
end

