-- ==== Sys2Proof/Machine/TypesTiming.lean ====
section
/-! DEFINITION. Timing sets as data (spec/04 R112, R115). -/

namespace Sys2Proof.Machine

/-- One pin entry of a set image (R115): format byte, strobe byte, whether a reserved byte is not zero, six edges in ps. -/
structure PinTiming where
  format : Nat
  strobe : Nat
  resvBad : Bool
  edges : List Nat
  deriving DecidableEq, Repr

/-- A set image (R115). -/
structure TimSet where
  periodPs : Nat
  set : Nat
  flags : Nat
  resvBad : Bool
  pins : List PinTiming
  deriving DecidableEq, Repr

/-- A failing timing check, with what HRT_TIM_REFUSE reports of it (R123, R128). -/
structure TimFail where
  check : Nat
  setA : Nat
  setB : Nat
  pin : Nat
  edgeA : Nat
  edgeB : Nat
  pair : Bool
  deriving DecidableEq, Repr

end Sys2Proof.Machine
end

