-- ==== Sys2Proof/Machine/TypesSeq.lean ====
section
/-! DEFINITION. The state of the site sequencers, stream engines, capture units, level sets, DDS units and of what commits
make live (spec/03 R81, spec/06 R170–R201, spec/07 R208–R215, spec/08 R228–R252, spec/10 R287–R298). -/

namespace Sys2Proof.Machine

/-- The run states of R19. -/
inductive RunState where
  | idle | armed | starting | running | stopping | complete
  deriving DecidableEq, Repr

/-- The end causes of R194. -/
inductive EndCause where
  | none | halt | stackFault | stop | smother | douse
  deriving DecidableEq, Repr

/-- Domain states of a grate (R98) and of a TMU group (spec/17 R445). -/
inductive Dom where
  | off | waking | settling | on
  deriving DecidableEq, Repr

/-- What a driver does (R73–R76). -/
inductive Drv where
  | z | l | h
  deriving DecidableEq, Repr

/-- The comparator's level states (R77). -/
inductive Level where
  | mid | low | high
  deriving DecidableEq, Repr

/-- The levels of one channel in a level set (R81): VOH, VOL, termination mode. -/
structure PinLevel where
  voh : Nat
  vol : Nat
  term : Nat
  deriving DecidableEq, Repr

/-- The static PPMU force of a level set (R81, R92). -/
structure StaticPpmu where
  pin : Nat
  mode : Nat
  range : Nat
  value : Nat
  clampHi : Nat
  clampLo : Nat
  deriving DecidableEq, Repr

/-- A level-set entry (R81). -/
structure LevelEntry where
  vih : Nat
  vil : Nat
  vtt : Nat
  relay : Bool
  spare : Bool
  pins : List PinLevel
  ppmu : Option StaticPpmu
  deriving DecidableEq, Repr

/-- A site binding (R170). -/
structure Binding where
  image : Nat
  gang : Bool
  multi : Bool
  hearths : Nat
  chs : List Nat
  deriving DecidableEq, Repr

/-- A record-window definition (R229). -/
structure CapWin where
  kind : Nat
  meas : Nat
  pin : Nat
  start : Nat
  stop : Nat
  deriving DecidableEq, Repr

/-- A capture plan (R228). -/
structure CapPlan where
  overload : Nat
  fine : Bool
  w : Nat
  relax : Nat
  drain : Nat
  bufBase : Nat
  bufBytes : Nat
  resBase : Nat
  resEntries : Nat
  wins : List CapWin
  modes : List Nat
  deriving DecidableEq, Repr

/-- A DDS list set (R288). -/
structure DdsList where
  stepSrc : Nat
  freqLoop : Nat
  ampLoop : Nat
  alignEvery : Nat
  ftw : List Nat
  phase : List Nat
  amp : List Nat
  deriving DecidableEq, Repr

/-- A claim resolved at a commit (R164): site, kind (R163), image pin, unit number, channel, amount in KiB; for a TMU channel the amount is RATE in MB/s
and `record` RECORD, as the commit takes them (R272). -/
structure LiveClaim where
  site : Nat
  kind : Nat
  pin : Nat
  unit : Nat
  ch : Nat
  amount : Nat
  record : Bool
  deriving DecidableEq, Repr

/-- An entry of the loop stack (R145). -/
structure LoopEnt where
  start : Nat
  remaining : Nat
  deriving DecidableEq, Repr

/-- Where the timing hardware places an event (R111 step 4): grid tick, counted from T(0) of the site's vector clock, and interpolator setting. -/
structure Interp where
  tick : Nat
  setting : Nat
  deriving DecidableEq, Repr

/-- A driver event that has spilled into the next vector and is still to come (R119): channel, output, nominal instant. -/
structure Spill where
  ch : Nat
  drv : Drv
  t : Nat
  deriving DecidableEq, Repr

/-- What a vector gave on an image pin (R233): FAIL of the outcome sample, level sample, place of S1 in the vector in codes, whether
each sample came from a spilled strobe; where the pin's strobes are placed (R111); the direction of an outcome's change, and FINE with the tick
of its stamp for either direction, on TMU channel `tmu` (R256). -/
structure Samp where
  pin : Nat
  fail : Option Bool
  level : Option Level
  s1 : Nat
  spillFail : Bool
  spillLevel : Bool
  places : List Interp
  up : Option Bool
  tmu : Nat
  rise : Option (Nat × Nat)
  fall : Option (Nat × Nat)
  deriving DecidableEq, Repr

/-- A counted vector as the capture unit sees it: VC, control byte, period in codes, counted time before it, samples in ascending
pin, TARGET index when a late jump is taken at it (R240). -/
structure VecRec where
  vc : Nat
  ctrl : Nat
  pq : Nat
  ct : Nat
  samps : List Samp
  late : Option Nat
  deriving DecidableEq, Repr

/-- What a capture unit has still to deal with, in order: counted vectors and granule boundaries. A vector waits while a strobe of its has
spilled and is still to come (`spilled`, R119), and while the late jump taken at it is still to be made (`jump`, R240). -/
inductive CapItem where
  | vec (v : VecRec) (spilled jump : Bool)
  | boundary
  deriving DecidableEq, Repr

/-- The part of the sequencer state that the prediction of R212 tracks: PC, stacks, counters, flags (R145). -/
structure Flow where
  pc : Nat
  back : Bool
  loops : List LoopEnt
  calls : List Nat
  cnt : List Nat
  flags : Nat
  deriving DecidableEq, Repr

/-- A taken JUMP_IF with VEC of 49 or more, waiting for the end of its prefix (R151). -/
structure LateJump where
  target : Nat
  index : Nat
  deriving DecidableEq, Repr

/-- A wait in idle executions: a hold or a rendezvous wait (R182, R196). `cause` is the report's CAUSE, `point` the table
index, `vc` and `t` where it began, `epoch` the SYNC epoch it began in. -/
structure IdleWait where
  rdv : Bool
  cause : Nat
  point : Nat
  rdvId : Nat
  vc : Nat
  t : Nat
  epoch : Nat
  limitHit : Bool
  deriving DecidableEq, Repr

/-- An instance of a record window (R249, R250). -/
structure WinInst where
  win : Nat
  inst : Nat
  startVc : Nat
  endVc : Nat
  openAtEnd : Bool
  fails : Nat
  sat : Bool
  firstFail : Nat
  lastFail : Nat
  bin : Option Bool
  edges : Nat
  rises : Nat
  firstRise : Nat
  lastRise : Nat
  highSum : Nat
  highs : Nat
  riseOpen : Bool
  deriving DecidableEq, Repr

/-- The capture unit's state for a site in a run (R234–R252). Occupancy `o` is in units of 1/1,024,000 byte (R243). -/
structure CapRun where
  k : Nat
  o : Nat
  oLast : Nat
  dampRecs : Nat
  lowStreak : Nat
  dampDue : Bool
  lastRec : List (Nat × Nat)
  prevSamp : List (Nat × Nat)
  dropped : Nat
  droppedDamp : Nat
  markersDropped : Nat
  records : Nat
  stopped : Bool
  ovfDue : Bool
  overflow : Bool
  bufferFull : Bool
  results : Nat
  resultsFull : Bool
  resultsLost : Nat
  maxK : Nat
  opened : List WinInst
  closing : List WinInst
  marks : Nat
  nextInst : List Nat
  posted : Nat
  finished : Bool
  todo : List CapItem
  deriving DecidableEq, Repr

/-- The sequencer state of a site in a run (R145, R187). `spill` holds the driver events of the last vector that are still to come, `sureFail`
and `surePins` the fail latches without the outcomes of its spilled strobes (R119, R123). `vec` is the next vector of the granule (64: the body is done),
`t` the vector clock T in codes (R106), `ct` the counted time CT (R188, R250), `idle` whether the execution is idle. -/
structure SiteRun where
  flow : Flow
  vec : Nat
  prevGran : Option Nat
  rep : Nat
  siteFail : Bool
  pinFails : List Nat
  vc : Nat
  t : Nat
  ct : Nat
  idle : Bool
  condTrue : Bool
  late : Option LateJump
  waitHit : Option Nat
  waitMore : Bool
  waitCt : Nat
  wait : Option IdleWait
  prevSyms : List Nat
  smother : List Nat
  stop : Bool
  rdvDone : Option Nat
  spill : List Spill
  sureFail : Bool
  surePins : List Nat
  deriving DecidableEq, Repr

/-- A site (R19, R194, HRT_SITE registers). `seconds` and `ns` are the device time at which vector 0 was issued or the site
entered STOPPING (R239); `lastPc` is the last granule that the last run executed (HRT_SITE_PCj). -/
structure Site where
  st : RunState
  endCause : EndCause
  reason : Nat
  reasons : List Nat
  invalid : Bool
  holds : Nat
  holdTicks : Nat
  lateJump : Bool
  group : Nat
  start : Nat
  run : SiteRun
  cap : CapRun
  summary : Nat
  holdsOut : Nat
  lastPc : Nat
  seconds : Nat
  ns : Nat
  deriving DecidableEq, Repr

/-- A lockstep group (R175), held under a key of the model's own; its identity is its lowest member. Members are the running (or starting) sites. `since` is the grid tick, from epoch 0, in
which it became pending for an engine; `span` its first granule's segment while it has no engine (R179). -/
structure Group where
  image : Nat
  hearths : List Nat
  members : List Nat
  hasEngine : Bool
  since : Nat
  span : Option Nat
  refill : Bool
  deriving DecidableEq, Repr

/-- A granule held in an engine's ring (R212): its number, whether it has been executed, whether it arrived poisoned. -/
structure RingGran where
  gran : Nat
  done : Bool
  poison : Bool
  deriving DecidableEq, Repr

/-- A stream engine (R176, R212): the key of the group it serves, its ring. -/
structure Engine where
  group : Option Nat
  ring : List RingGran
  deriving DecidableEq, Repr

/-- A loaded image (R165, R205): parsed, its base address, segments pinned (R210), loop bodies (R213: LOOP_BEGIN granule,
matching LOOP_END granule), and per hearth the granules of which its pool holds poisoned bytes (R218). -/
structure Image where
  z : ZImage
  base : Nat
  pinned : List Nat
  loops : List (Nat × Nat)
  poisoned : List (Nat × List Nat)
  deriving DecidableEq, Repr

/-- An accepted start (R24). -/
structure Start where
  id : Nat
  ring : Nat
  hostSeq : Nat
  sites : List Nat
  epoch : Nat
  result : Nat
  unadmitted : Bool
  irq : Bool
  event : Bool
  multi : Bool
  deriving DecidableEq, Repr

/-- The shadow or live state that commits move (R15, R20, R360): timing sets per hearth, level entries per grate, bindings and
capture plans per site, DDS list sets per site × 65,536 + image pin. -/
structure SetUp where
  timing : List (Nat × List (Nat × TimSet))
  levels : List (Nat × LevelEntry)
  binds : List (Nat × Binding)
  plans : List (Nat × CapPlan)
  dds : List (Nat × DdsList)
  deriving DecidableEq, Repr

/-- A commit taken up and pending (R20–R22): the hearths it names, those where it has applied, the shadow state of its take-up (R364),
the claims that it resolved (R164), and ENGINES of the hearths it names, as its checks took them (R221, R223). -/
structure PendCommit where
  ring : Nat
  hostSeq : Nat
  origin : Nat
  irq : Bool
  hearths : List Nat
  applied : List Nat
  setUp : SetUp
  claims : List LiveClaim
  engines : List (Nat × Nat)
  deriving DecidableEq, Repr

/-- A settle time that runs (R82, R98, R291): what settles, for which number, and the sites held by it. -/
inductive Settle where
  | level (grate : Nat)
  | relay (grate : Nat)
  | spare (hearth : Nat)
  | ddsAmp (site : Nat)
  deriving DecidableEq, Repr

/-- A grate (R82, R92, R98): its domain, whether its relay drive sinks, whether a douse has put the static force off. -/
structure Grate where
  dom : Dom
  relay : Bool
  forceOff : Bool
  deriving DecidableEq, Repr

/-- A channel out of the pin safe state (R87): driver, termination connected, put in high-impedance by an overload (R89), DDS
output connected; `lastT` is the instant of its last driver transition (codes), `place` where it was placed (R111). -/
structure Chan where
  drv : Drv
  term : Bool
  overload : Bool
  dds : Bool
  lastT : Nat
  place : Interp
  deriving DecidableEq, Repr

/-- A hearth's live streaming state (R208, R209, R220), and whether its spare relay drive sinks (R83). -/
structure Hearth where
  engines : Nat
  poolKib : Nat
  ringKib : Nat
  loading : Bool
  chargeMbps : Nat
  spare : Bool
  deriving DecidableEq, Repr

/-- A DDS unit (R283–R298): the claim it serves (index of a live claim's site, pin), indices, tuning word, phase at the instant
`loadT` (codes of the site's vector clock), counters. -/
structure DdsUnit where
  i : Nat
  a : Nat
  ftw : Nat
  phase : Nat
  loadT : Nat
  n : Nat
  connected : Bool
  steps : Nat
  aligns : Nat
  delayed : Nat
  deriving DecidableEq, Repr

/-- A hold report waiting for its slot (R191): its 32 bytes, SEQ among them, and the site it is for. -/
structure HoldReport where
  site : Nat
  bytes : List Byte
  deriving DecidableEq, Repr

/-- A report that a rendezvous of a start has gathered (R197): device, withdrawn, lowest ID, arrival epoch, fail latches of
multi-device sites. -/
structure RdvReport where
  device : Nat
  withdrawn : Bool
  id : Nat
  epoch : Nat
  fails : List Nat
  deriving DecidableEq, Repr

/-- Rendezvous bookkeeping of a start (R197, R198): the reports gathered, and whether this device has reported for the present
meeting, and whether it has reported that it is withdrawn. -/
structure RdvMeet where
  start : Nat
  reports : List RdvReport
  sent : Bool
  gone : Bool
  deriving DecidableEq, Repr

/-- The sequencers, streams and set-up of the device. `met` holds the starts whose part here has ended while other devices may still meet (R198);
`reportSeq` counts hold reports, written or lost, since ENABLE last rose (R191). -/
structure SeqState where
  sites : List (Nat × Site)
  groups : List (Nat × Group)
  engines : List (Nat × Engine)
  images : List (Nat × Image)
  imageDraws : Nat
  starts : List Start
  nextStart : Nat
  shadow : SetUp
  live : SetUp
  claims : List LiveClaim
  commits : List PendCommit
  hearths : List (Nat × Hearth)
  grates : List (Nat × Grate)
  chans : List (Nat × Chan)
  settles : List Settle
  dds : List (Nat × DdsUnit)
  reports : List HoldReport
  reportSeq : Nat
  meets : List RdvMeet
  met : List Start
  deriving DecidableEq, Repr

end Sys2Proof.Machine
end

