-- ==== Sys2Proof/Machine/TypesSys.lean ====
section
/-! DEFINITION. The state of the board inputs, OTP, flash, kindling, faults and douses, power and DUT supplies, device time,
ledger and audit log (spec/02 R57–R62, spec/17, spec/18, spec/20, spec/21). -/

namespace Sys2Proof.Machine

/-- The grades that exist (R1). -/
inductive Grade where
  | g20 | g12
  deriving DecidableEq, Repr

/-- The fused code of a grade and its minimum vector period in ps (R47). -/
def Grade.code : Grade → Nat
  | .g20 => 0x14 | .g12 => 0x0C
def Grade.minPeriod : Grade → Nat
  | .g20 => 500 | .g12 => 834

/-- The one-time-programmable memory (R2, R47, R533, R534, R540, R547, R478). Key digests are byte strings, `none` while not
programmed; `revoked` is one bit per key (R548 REVOKED); counters 0–128 per stage. -/
structure Otp where
  grade : Grade
  stepping : Nat
  serial : Nat
  maker : Nat
  field : Bool
  rhokemund : Vector (Option (List Byte)) 4
  customer : Vector (Option (List Byte)) 4
  revoked : Nat
  counters : Vector Nat 5
  idSecret : List Byte
  bootRom : List Byte
  deriving DecidableEq, Repr

/-- What a board profile says (R528 step 4): absent channels (R70), the value of every "Table" register field as (offset,
word), the ledger's RELAY_LIMIT per drive (R85), rings that are remote (R353), workers listed in the tree (R336), the audit
region in sectors, whether the thermal class reaches the doubled refresh rate (R224), absent management ports. -/
structure Profile where
  absent : List Nat
  regs : List (Nat × Word)
  relayLimit : List (Nat × Nat)
  remote : Nat
  tree : List Nat
  auditEntries : Nat
  thermal2x : Bool
  dueDays : List (Nat × Nat)
  deriving DecidableEq, Repr

/-- A stage that runs (R532–R537): stage, slot, VERSION, signer slot whose key signed it, key index, measurement. -/
structure StageRun where
  stage : Nat
  slot : Nat
  version : Nat
  signer : Nat
  key : Nat
  measurement : List Byte
  deriving DecidableEq, Repr

/-- The ember-domain recovery copy of R477: (register offset, value) pairs, none when none exists. -/
structure LlkCopy where
  regs : List (Nat × Word)
  deriving DecidableEq, Repr

/-- Board inputs and what kindling has loaded. `fused`: the factory has programmed the OTP, which nothing programs again (R2). -/
structure Board where
  douseLow : Bool
  resetLow : Bool
  faultEmber : Bool
  refPresent : Bool
  otp : Otp
  fused : Bool
  profile : Profile
  recovery : Option LlkCopy
  profileLoaded : Bool
  flash : List Host.Cell
  stopped : Bool
  running : List StageRun
  factory : Bool
  resetDue : Bool
  deriving DecidableEq, Repr

/-- A step of a douse (R469). -/
inductive DouseStep where
  | supply | relay
  deriving DecidableEq, Repr

/-- An active douse (R467–R471): causes (R473), the closed scope as a mask of channels, the step it waits for, whether a device
reset follows its relay step (R60, R61). -/
structure Douse where
  cause : Nat
  scope : Nat
  step : DouseStep
  resetAfter : Bool
  deriving DecidableEq, Repr

/-- The fault collector (R464) beside its registers: units of the set bits, class and reaction that each set bit took at its assertion (R465),
active douses. -/
structure Faults where
  units : List (Nat × Nat)
  held : List (Nat × Nat × Nat)
  douses : List Douse
  deriving DecidableEq, Repr

/-- A running DUT-supply sequence (R458, R459): up or down, the step in progress, whether it waits for power-good (else for its
DELAY), the supplies it enabled, the step of its first failed PMB1 transaction. -/
structure SupSeq where
  up : Bool
  step : Nat
  waitPg : Bool
  enabled : List Nat
  pmbErr : Option Nat
  deriving DecidableEq, Repr

/-- Power (R448–R463): the supply sequence that runs; the target of a descent in progress, whether it is the cold variant, and the state it
left; whether an enabled wake cause came during the descent; the state an ascent in progress began from; whether hearth state is still to be restored (R452 step 7), the
last epoch number before the descent and the RTC seconds spent below GLOW since (R454); the exponents of VOUT_MODE that kindling read
from the regulators of DUT supplies (R461). -/
structure Power where
  seq : Option SupSeq
  descent : Option (Nat × Bool × Nat)
  wakePending : Bool
  ascent : Option Nat
  restoring : Bool
  lastEpoch : Nat
  belowSecs : Nat
  voutExp : List (Nat × Nat)
  deriving DecidableEq, Repr

/-- A timestamp of a management port (R506). -/
structure PtpStamp where
  tx : Bool
  type : Nat
  seqId : Nat
  ns : Nat
  secs : Nat
  frac : Nat
  deriving DecidableEq, Repr

/-- A ledger checkpoint slot in flash (R513): whether it passes its checks, RTC seconds, device epoch, audit entry count and chain
head, items. -/
structure LedgerSlot where
  good : Bool
  rtc : Nat
  epoch : Nat
  count : Nat
  chain : List Byte
  items : List (Nat × Nat)
  deriving DecidableEq, Repr

/-- Device time, RTC, PTP and ledger (R501–R515). `frac` is the fraction of a nanosecond in 2^-32, `inc` MGT_TIME_INC in the same unit;
`incPend`, `adjPend` and `setPend` wait for the next tick; `master` is the applied MGT_PTP_MASTER, `syncs` who sent
a Sync since the last time-out; `ckptIn` the RTC seconds until the
next checkpoint falls due; `slots` the checkpoint slots of flash, newest last. -/
structure TimeState where
  secs : Nat
  ns : Nat
  frac : Nat
  incPend : Option Nat
  inc : Nat
  adjPend : List Int
  setPend : Option Nat
  lastIncLogged : Nat
  lastIncSecs : Nat
  master : List Nat
  syncs : List (List Nat)
  tsFifo : List (Nat × List PtpStamp)
  rtcSecs : Nat
  rtcSub : Nat
  ckptIn : Nat
  ckptSecs : Nat
  slots : List LedgerSlot
  ledger : List (Nat × Nat)
  residue : List (Nat × Nat)
  deriving DecidableEq, Repr

/-- A VIOLATION entry whose 1 ms of folding runs (R521): origin, address, kind, device time in ns of the first refusal, count. -/
structure OpenViol where
  origin : Nat
  addr : Nat
  kind : Nat
  secs : Nat
  ns : Nat
  count : Nat
  deriving DecidableEq, Repr

/-- The audit log (R519–R525): entries logged to date, chain value, entries in the on-chip buffer (number, bytes), flash region
(number, bytes) with the chain value after its last entry, checkpoints (number, 256 bytes), chain heads whose checkpoint is still to be
written, lost since reset and to date, entries in the ember tail. -/
structure Audit where
  count : Nat
  chain : List Byte
  buffer : List (Nat × List Byte)
  flash : List (Nat × List Byte)
  flashChain : List Byte
  ckpts : List (Nat × List Byte)
  heads : List (Nat × List Byte)
  lost : Nat
  lostTotal : Nat
  lossFrom : Option Nat
  tail : List (List Byte)
  folding : List OpenViol
  deriving DecidableEq, Repr

end Sys2Proof.Machine
end

