-- ==== Sys2Proof/Machine/TypesComm.lean ====
section
/-! DEFINITION. The state of rings (spec/13), Flue (spec/12), PPMU plans (spec/03 R93–R97) and what the device sends out. -/

namespace Sys2Proof.Machine

/-- A consumed descriptor (R357): its 64 bytes, origin identity, and the address of its command slot. -/
structure Desc where
  bytes : List Byte
  origin : Nat
  slot : Nat
  deriving DecidableEq, Repr

/-- A completion before it is written (R367). FLAGS holds REMOTE_EVENT, RESULT_LOST and IRQ at their bits; `counted` when it answers
a consumed descriptor, which IN_PROGRESS counts until the completion is written (R373, R381). -/
structure Completion where
  hostSeq : Nat
  opcode : Nat
  status : Nat
  flags : Nat
  arg0 : Nat
  arg1 : Nat
  counted : Bool
  deriving DecidableEq, Repr

/-- A ring pair's state outside its registers (R352–R383). `slotBytes` is the descriptor a remote ring has fetched (R382); `events` are starts
that came as Flue events and are held (R344, R381); `startSent`: the event of the start that waits at the front has been sent (R344); `dmaMoved`
counts the bytes a FLUE_DMA in progress has moved (R361); `blockDue`: a write of the state block waits for its retry (R383). -/
structure RingSt where
  cmdPi : Nat
  cmpCi : Nat
  waiting : List Desc
  immediate : List Desc
  current : Option Desc
  held : List Completion
  lastConsumed : Nat
  gen : Nat
  fetchTries : Nat
  fetching : Bool
  slotBytes : Option (List Byte)
  owned : List Nat
  faultErr : Nat
  events : List Desc
  startSent : Bool
  dmaMoved : Nat
  blockDue : Bool
  deriving DecidableEq, Repr

/-- A PPMU step (R93). -/
structure PpmuStep where
  n : Nat
  ch : Nat
  mode : Nat
  range : Nat
  value : Nat
  clampHi : Nat
  clampLo : Nat
  settle : Nat
  samplesLog2 : Nat
  keep : Bool
  draught : Bool
  deriving DecidableEq, Repr

/-- A measurement plan (R94–R97): whether it has begun (R96), the steps not yet ended, results executed and skipped, whether a douse
reached it. -/
structure PpmuPlan where
  ring : Nat
  hostSeq : Nat
  irq : Bool
  result : Nat
  started : Bool
  steps : List PpmuStep
  executed : Nat
  skipped : Nat
  doused : Bool
  deriving DecidableEq, Repr

/-- A calibration commit (R490): tables still to apply, tables applied whose settle time may run. -/
structure CalCommit where
  ring : Nat
  hostSeq : Nat
  irq : Bool
  tables : List Nat
  applied : List Nat
  forced : Bool
  origin : Nat
  deriving DecidableEq, Repr

/-- A Flue packet (R329): header fields, address, payload blocks of 64 bits. -/
structure Packet where
  type : Nat
  dest : Nat
  src : Nat
  tag : Nat
  be : Nat
  arg : Nat
  addr : Nat
  payload : List Nat
  deriving DecidableEq, Repr

/-- A 66-bit block of a lane after descrambling (R323): a control block with its type and its payload bits 55:0, or a data block. -/
inductive FlueBlock where
  | ctl (type payload : Nat)
  | data (bits : Nat)
  deriving DecidableEq, Repr

/-- A control block that the device sends (R323), the exit burst and the training pattern (R327). -/
inductive CtlBlock where
  | link (ackSeq : Nat) (nak ackValid : Bool) (ev rsp req : Nat)
  | probe
  | ident (device role port : Nat)
  | exitBurst
  | training
  deriving DecidableEq, Repr

/-- What the device has sent to the outside or answered, newest last. -/
inductive Output where
  | readData (origin addr : Nat) (w : Word)
  | busError (origin addr : Nat)
  | packet (port seq : Nat) (p : Packet)
  | block (port : Nat) (b : CtlBlock)
  | frame (port : Nat) (bytes : List Byte)
  | leloisk (port dest : Nat) (payload : List Byte)
  | agentFrame (port : Nat) (bytes : List Byte)
  | pmbus (bus addr page cmd data : Nat)
  | syncPulse
  | tdo (bits : Nat) (value : Nat)
  | boundary (drive : Bool)
  | event (code : Nat) (site : Nat) (epoch : Nat)
  deriving DecidableEq, Repr

/-- Which request a READ serves (R338): a remote register access to a device, half `high` of its block; the fetch of a ring from device 0; 64
bytes of a ring's FLUE_DMA. -/
inductive ReadFor where
  | racc (dest high : Nat)
  | fetch (ring : Nat)
  | dma (ring dest : Nat)
  deriving DecidableEq, Repr

/-- A Flue port's link state outside its registers (R331, R332, R336). Credits are blocks that may still be sent; `taps` is the content of
FLU_PORTp_EQ that its transmitter took at its last training (R325). -/
structure FluePort where
  txSeq : Nat
  rxSeq : Nat
  replay : List (Nat × Packet)
  queue : List Packet
  replays : Nat
  evCr : Nat
  rspCr : Nat
  reqCr : Nat
  identOk : Bool
  taps : Word
  deriving DecidableEq, Repr

/-- A skew measurement (R348): twice the θ of each pair done, in 1/8 ps, the present pair's t1, and whether the worker's probe of the
pair has been sent. -/
structure Skew where
  twice : List Int
  t1 : Option Int
  sent : Bool
  temp : Nat
  deriving DecidableEq, Repr

/-- Flue (R323–R350). `assign` is the number an accepted marker gives the next edge; `stops` STOPs waiting for their epoch, each with its
(site, start) pairs (R347); `fails` the (site, start) pairs to smother after the next SYNC edge (R345); `joined`: the join wait has ended, with
`kids` the downstream ports whose neighbour is present (R336); `joinDue`: a downstream port has joined since the last marker, `marked` the epoch
that marker named (R341). -/
structure Flue where
  ports : List (Nat × FluePort)
  known : Bool
  epoch : Nat
  everKnown : Bool
  genCount : Nat
  assign : Option Nat
  reads : List (Nat × ReadFor)
  nextTag : Nat
  skew : Option Skew
  stops : List (Nat × List (Nat × Nat))
  fails : List (Nat × Nat)
  joined : Bool
  kids : List Nat
  joinDue : Bool
  marked : Option Nat
  deriving DecidableEq, Repr

/-- Rings, measurement plans and calibration commits. -/
structure RingState where
  rings : List (Nat × RingSt)
  plans : List PpmuPlan
  calCommits : List CalCommit
  deriving DecidableEq, Repr

end Sys2Proof.Machine
end

