-- ==== Sys2Proof/Machine/TypesMisc.lean ====
section
/-! DEFINITION. The state of the TMU (spec/09), PLLs (spec/11), draught scheduler (spec/14), mailboxes and locks (spec/15), DRAM
controller (spec/16), calibration (spec/19), Leloisk and JTAG (spec/18 R475, spec/21 R547); and `Dev`, everything the device
holds. Registers whose content is only what a register table says live in `Dev.regs` and nowhere else. -/

namespace Sys2Proof.Machine

/-- An open difference interval (R277): start time in 1/8 ps, its fine code and tick, whether the start is unreferenced. -/
structure TmuOpen where
  start : Nat
  code : Nat
  tick : Nat
  unref : Bool
  deriving DecidableEq, Repr

/-- A GAP record to be written (R268, R269): first SEQ lost (none while only markers are), how many SEQ values, cause bits (1 FIFO, 2 BUFFER). -/
structure TmuGap where
  first : Option Nat
  lost : Nat
  cause : Nat
  deriving DecidableEq, Repr

/-- A record in a channel's FIFO (R269) with the GAP that precedes it and the TB at which it was taken; `stamp` says whether its loss
counts as a lost stamp. -/
structure TmuItem where
  gap : Option TmuGap
  stamp : Bool
  seq : Nat
  tb : Nat
  bytes : List Byte
  deriving DecidableEq, Repr

/-- A stamp whose flags are not yet committed (R265, R267): SEQ, tick and fine code as taken, converted time, edge direction; for a stop
edge the interval it closes; `after` the records that were taken after it and wait for it (R269). -/
structure TmuStamp where
  seq : Nat
  tb : Nat
  code : Nat
  ticks : Nat
  fineQ3 : Nat
  rise : Bool
  unref : Bool
  closes : Option TmuOpen
  after : List TmuItem
  deriving DecidableEq, Repr

/-- A TMU channel (R258–R279). `st` is TMU_CHn_STATUS.STATE; `byReg` armed by register, `claimRun` armed for a run of its claiming
site, `calWant` its code-density test waits, `lastAt` the raw instant of the last stamped edge in 1/256 ps, `written` the buffer
addresses and TBs of stamps written since the last SYNC edge, `recent` committed stamps kept for fine times (R256). -/
structure TmuCh where
  st : Nat
  byReg : Bool
  claimRun : Bool
  seq : Nat
  lastAt : Option Nat
  held : List TmuStamp
  fifo : List TmuItem
  fifoGap : Option TmuGap
  bufGap : Option TmuGap
  interval : Option TmuOpen
  written : List (Nat × Nat)
  calWant : Bool
  recent : List TmuStamp
  deriving DecidableEq, Repr

/-- A capture record whose FINE came from a stamp (R256): TMU channel, the stamp's tick, the record's address. -/
structure FineRef where
  tmu : Nat
  tb : Nat
  place : Nat
  deriving DecidableEq, Repr

/-- The TMU. `tb` is TB at the latest instant a command told of, `syncTb` TB at the last SYNC edge; `groups` the power states of the two
groups (R275); `calTemp` the temperature sampled when the present code-density test began (R496); `fineRefs` capture records whose flags may still
change; `pulse` the tick of the test source's last pulse (R260). -/
structure Tmu where
  tb : Nat
  syncTb : Nat
  chs : List (Nat × TmuCh)
  groups : List (Nat × Dom)
  calTemp : Nat
  fineRefs : List FineRef
  pulse : Option Nat
  deriving DecidableEq, Repr

/-- The TMU after reset. -/
def Tmu.reset : Tmu := ⟨0, 0, [], [], 0, [], none⟩

/-- A PLL beside its registers (R306, R310): N and POST of the acquisition in progress or in use, whether a second band was tried. -/
structure Pll where
  n : Nat
  post : Nat
  retried : Bool
  deriving DecidableEq, Repr

/-- Clocks beside their registers: band tables (PLL × 64 + band, as CLK_BAND_DATA), PLLs, the entry being measured, and the PLLs whose settle count
the declaration of REFCLK's absence broke (R313). -/
structure Clocks where
  bands : List (Nat × Word)
  plls : List (Nat × Pll)
  measuring : Option Nat
  cut : List Nat
  deriving DecidableEq, Repr

/-- Where an entry of the matching store stands (R390, R398–R401). -/
inductive DrtSt where
  | opened | complete | queued | done
  deriving DecidableEq, Repr

/-- An entry of the matching store (R390). `recipe` is 0xFF for a single-operand event; `ops` has one place per source of the
recipe; `core`, `reason` and `slot` are set at dispatch; `order` is the order in
which entries became complete, equal for those of one instant; `relOrder` that in which they became releasable, 0 before. -/
structure DrtEntry where
  flow : Nat
  eseq : Nat
  recipe : Nat
  sources : List Nat
  ops : List (Option (List Byte))
  st : DrtSt
  close : Nat
  order : Nat
  relOrder : Nat
  core : Nat
  reason : Nat
  slot : Nat
  round : Nat
  result : List Byte
  deriving DecidableEq, Repr

/-- A flow (R386, R390, R397). -/
structure DrtFlow where
  eseq : Nat
  core : Nat
  deriving DecidableEq, Repr

/-- An operand offered by a producer and not yet accepted (R388, R391). `held` while it is held for want of an entry; `inRun`
when a producer posted it while the site was in STARTING, RUNNING or STOPPING; `place` is the DRAM entry that a window operand is offered from (R253). -/
structure DrtOperand where
  site : Nat
  source : Nat
  payload : List Byte
  place : Option Nat
  held : Bool
  inRun : Bool
  deriving DecidableEq, Repr

/-- An entry that aged out and the sources it still lacked (R394). -/
structure DrtAged where
  flow : Nat
  recipe : Nat
  eseq : Nat
  lacking : List Nat
  deriving DecidableEq, Repr

/-- The draught scheduler beside its registers. `awaiting` lists (site, flow, ESEQ) of the run events of R396 not yet released. -/
structure Draught where
  entries : List DrtEntry
  flows : List (Nat × DrtFlow)
  offers : List DrtOperand
  aged : List DrtAged
  rounds : List (Nat × Nat)
  nextOrder : Nat
  relSeq : Nat
  awaiting : List (Nat × Nat × Nat)
  deriving DecidableEq, Repr

/-- A mailbox entry (R406). -/
structure MbxMsg where
  word : Nat
  sender : Nat
  senderEpoch : Nat
  recvEpoch : Nat
  deriving DecidableEq, Repr

/-- An endpoint's wait (R412): mode, result, whether the last ended TIMEOUT (later arrivals count as LATE), LATE. -/
structure MbxWait where
  mode : Nat
  result : Nat
  late : Nat
  deriving DecidableEq, Repr

/-- A mailbox beside MBX_n_CFG, INT_EN and the W1C bits of STATUS. -/
structure Mbx where
  ab : List MbxMsg
  ba : List MbxMsg
  waitA : MbxWait
  waitB : MbxWait
  deriving DecidableEq, Repr

/-- Mailboxes and locks (R406, R416): a held lock has (owner, owner's epoch at acquisition). -/
structure MbxState where
  boxes : List (Nat × Mbx)
  locks : List (Nat × (Nat × Nat))
  deriving DecidableEq, Repr

/-- Where a physical address lies in the DRAM (R422). -/
structure DramAddr where
  channel : Nat
  sub : Nat
  byte : Nat
  burst : Nat
  group : Nat
  bank : Nat
  row : Nat
  chip : Nat
  deriving DecidableEq, Repr

/-- A request of a port (R438): whether it writes, and the whole line (R426); its address; its arrival time in ns; for a TMU record, whether a
claimed channel wrote it. -/
structure DramReq where
  port : Nat
  write : Bool
  whole : Bool
  addr : Nat
  time : Nat
  claimed : Bool
  deriving DecidableEq, Repr

/-- A request in a channel's queue with its deadline in ns (R428, R439). -/
structure DramWait where
  req : DramReq
  deadline : Nat
  deriving DecidableEq, Repr

/-- A DRAM channel beside its registers: refreshes fallen due while parked (R437); whether a retraining pause waits (R430); the requests queued, in
arrival order, the open row of each bank, and which of the last 999 bursts during which best-effort requests waited served one, the latest first
(R439, R440); the next line of the patrol scrub (R427). -/
structure DramCh where
  parkedDue : Nat
  pauseDue : Bool
  reqs : List DramWait
  rows : List (Nat × Nat)
  floor : List Bool
  scrub : Nat
  deriving DecidableEq, Repr

/-- The DRAM controller. `hotBefore`: a channel was hot in the last window (R442). -/
structure Dram where
  chs : List (Nat × DramCh)
  hotBefore : Bool
  deriving DecidableEq, Repr

/-- A calibration table copy (R480, R481). -/
structure CalTab where
  count : Nat
  secs : Nat
  temp : Nat
  dueDays : Nat
  drift : Nat
  body : List Byte
  deriving DecidableEq, Repr

/-- A procedure in progress (R486, R487): PROC, hearths that still wait for their boundary, hearths in which it runs with the
CAL_TEMP sampled when the filling began. -/
structure CalProc where
  proc : Nat
  waiting : List Nat
  running : List (Nat × Nat)
  deriving DecidableEq, Repr

/-- Calibration beside its registers: live and shadow copies (an unlisted table has the default values of R495), and the slots of the
flash (2 × table + slot): whether the image passes its checks, and its content. -/
structure CalState where
  stored : List (Nat × (Bool × CalTab))
  live : List (Nat × CalTab)
  shadow : List (Nat × CalTab)
  proc : Option CalProc
  deriving DecidableEq, Repr

/-- An accepted Leloisk request waiting (R475): port, source, op, SEQ, ARG. -/
structure LlkReq where
  port : Nat
  src : Nat
  op : Nat
  seq : Nat
  arg : Nat
  deriving DecidableEq, Repr

/-- The TAP (R547): instruction register, boundary register, the data register selected. -/
structure Jtag where
  ir : Nat
  boundary : Nat
  dr : Nat
  drBits : Nat
  deriving DecidableEq, Repr

/-- Everything the device holds. `fresh` counts the free values drawn. -/
structure Dev where
  regs : List (Nat × Word)
  mem : List Host.Cell
  poison : List Nat
  board : Board
  faults : Faults
  power : Power
  time : TimeState
  audit : Audit
  seq : SeqState
  rings : RingState
  flue : Flue
  tmu : Tmu
  clk : Clocks
  drt : Draught
  mbx : MbxState
  dram : Dram
  cal : CalState
  llk : List LlkReq
  jtag : Jtag
  outbox : List Output
  fresh : Nat
  deriving DecidableEq, Repr

end Sys2Proof.Machine
end

