-- ==== Sys2Proof/Machine/TypesEnv.lean ====
section
/-! DEFINITION. What a command brings from outside the device: observations, readings, frames, judgements (log entry 1). -/

namespace Sys2Proof.Machine

/-- The two endpoints. -/
inductive Side where
  | a | b
  deriving DecidableEq, Repr

/-- The origin of a register access or message (R13). -/
inductive Origin where
  | kernel (core : Fin 8)
  | user (core : Fin 8)
  | supervisor
  | agent
  | manager (port : Fin 4)
  | factory
  deriving DecidableEq, Repr

/-- The identity of an origin (R13). -/
def Origin.id : Origin → Nat
  | .kernel c => 1 + c.val
  | .user c => 0x11 + c.val
  | .supervisor => 0x20
  | .agent => 0x30
  | .manager p => 0x40 + p.val
  | .factory => 0x7F

/-- What the DUT shows the comparator of a channel in a vector: the level state at S1, and the further level states from S1 to S2 of a
window strobe (R77, R79). -/
structure PinObs where
  ch : Nat
  s1 : Level
  during : List Level
  deriving DecidableEq, Repr

/-- What a reading of a supply over PMB1 gives (R462). The exponent of VOUT is that which kindling read (R461). -/
structure SupReading where
  vout : Nat
  iout : Nat
  status : Nat
  err : Bool
  deriving DecidableEq, Repr

/-- A frame of Ethertype 0x88B5: port, destination, source, payload fields, and how many earlier requests the MAC has finished (R475). -/
structure LlkFrame where
  port : Nat
  dest : Nat
  src : Nat
  version : Nat
  seq : Nat
  arg : Nat
  serial : Nat
  done : Nat
  deriving DecidableEq, Repr

/-- The judgement of a read. -/
inductive Ecc where
  | good | corrected | uncorrectable
  deriving DecidableEq, Repr

/-- A message that the ports stamp: its domain, messageType (0 Sync, 1 Delay_Req), sequenceId, and the source port identity as
MGT_PTP_MASTER holds it. -/
structure PtpMsg where
  domain : Nat
  type : Nat
  seqId : Nat
  source : List Nat
  deriving DecidableEq, Repr

/-- How a descriptor fetch of a remote pair ends (R382). -/
inductive FetchEnd where
  | arrived (bytes : List Byte)
  | denied
  | timeout
  deriving DecidableEq, Repr

/-- The endpoint that resets. -/
inductive ResetEnd where
  | core (c : Nat)
  | supervisor
  | agent
  deriving DecidableEq, Repr

/-- What kindling meets: the ROLE straps (R58), the content of the selected board profile (R528 step 4), the measured band tables as (64 × PLL
+ band, CLK_BAND_DATA) (R305), the DRAM channels, as a mask, whose training or configuration check fails (R419), whether the checkpoint write fails, the edge
counts of the code-density test for each TMU channel in turn (R279), the mean die temperature in 1/16 °C, the VOUT_MODE exponents of the
DUT supplies with a regulator (R461); and, when the factory has programmed the part before
this power-on, what it put in OTP and flash (log entry 4). -/
structure KindleEnv where
  strap : Nat
  profile : Profile
  bands : List (Nat × Word)
  dramFail : Nat
  ckptFails : Bool
  counts : List (List Nat)
  temp : Nat
  voutExp : List (Nat × Nat)
  otp : Option Otp
  flash : Option (List Host.Cell)
  deriving DecidableEq, Repr

/-- How the Flue READs by which the ring engine reads an area of device 0 end (R338, R380): all answered, one answered with another status than
OK, or one past its deadline. -/
inductive ReadEnd where
  | done | denied | late
  deriving DecidableEq, Repr

/-- What Flue READs of device 0 bring a remote pair: the bytes and how they end. -/
structure RemoteRead where
  bytes : List Byte
  stop : ReadEnd
  deriving DecidableEq, Repr

/-- The end of READs of which one was answered with another STATUS than OK, or passed its deadline. -/
def readEnd (denied late : Bool) : ReadEnd := if denied then .denied else if late then .late else .done

/-- What the training of a port brought: the lane registers with their adapted values, and whether the neighbour has accepted this side's IDENT. -/
structure Trained where
  lanes : List Word
  both : Bool
  deriving DecidableEq, Repr

/-- Whom a PTP message comes from: its domain and its source port identity as MGT_PTP_MASTER holds it. -/
structure PtpSender where
  domain : Nat
  source : List Nat
  deriving DecidableEq, Repr

end Sys2Proof.Machine
end

