-- ==== Sys2Proof/Syntax.lean ====
section
/-! DEFINITION. The commands of the device: one constructor per row of spec/opcode_table.json. A command is an event on a pin, a register
access, a packet or frame that arrives, or an engine of the device taking its next action; its operands name the resource and bring what comes
from outside the device (log entry 1). -/

namespace Sys2Proof

open Machine

/-- The commands. -/
inductive Instr where
  /-- POWER_ON (R545): `e`: what kindling meets. -/
  | powerOn (e : KindleEnv)
  /-- VDD_EMBER_LOSS (R552). -/
  | vddEmberLoss
  /-- RESET_N (R60): low for `ns` nanoseconds. -/
  | resetN (ns : Nat)
  /-- DEVICE_RESET_AFTER_DOUSE (R60): `e`: what kindling meets. -/
  | deviceResetAfterDouse (e : KindleEnv)
  /-- DOUSE_N (R59): low for `ns` nanoseconds. -/
  | douseN (ns : Nat)
  /-- FAULT_LINE_ASSERT (R464): error lines asserted in one cycle, each with its unit. -/
  | faultLineAssert (lines : List (Nat × Nat))
  /-- DOUSE_SUPPLY_STEP (R460): `pmbFail`: supplies whose PMB1 transaction fails. -/
  | douseSupplyStep (pmbFail : List Nat)
  /-- DOUSE_RELAY_STEP (R469). -/
  | douseRelayStep
  /-- FLT_DOUSE (R473). -/
  | fltDouse (o : Origin) (w : Word)
  /-- FLT_WORD_CLEAR (R464): `held`: error lines still asserted. -/
  | fltWordClear (o : Origin) (hi : Bool) (w : Word) (held : Nat)
  /-- FLT_CFG_WRITE (R465). -/
  | fltCfgWrite (o : Origin) (k : Fin 8) (w : Word)
  /-- FLT_INJECT (R478). -/
  | fltInject (o : Origin) (hi : Bool) (w : Word)
  /-- DRV_OVL (R89): `pin`: the driver, or none for the VTT buffer. -/
  | drvOvl (g : Fin 128) (pin : Option (Fin 8))
  /-- LELOISK_WAKE (R476). -/
  | leloiskWake (f : LlkFrame)
  /-- LELOISK_DOUSE (R476). -/
  | leloiskDouse (f : LlkFrame)
  /-- READ_FAULT (R476). -/
  | readFault (f : LlkFrame)
  /-- READ_LEDGER (R476). -/
  | readLedger (f : LlkFrame)
  /-- LELOISK_DISCARD (R475): `op`: the OP field of the frame. -/
  | leloiskDiscard (f : LlkFrame) (op : Nat)
  /-- FAULT_READ (R474). -/
  | faultRead
  /-- IDCODE (R547). -/
  | idcode
  /-- EXTEST (R547): the level of RESET_N, the length of the boundary register and what it samples. -/
  | extest (resetLow : Bool) (len sample : Nat)
  /-- SAMPLE_PRELOAD (R547). -/
  | samplePreload (len sample preload : Nat)
  /-- CLAMP (R547). -/
  | clamp (resetLow : Bool)
  /-- HIGHZ (R547). -/
  | highz (resetLow : Bool)
  /-- UNLOCK (R547). -/
  | unlock (ok : Bool)
  /-- BYPASS (R547). -/
  | bypass (ir : Nat)
  /-- DOORBELL_WRITE (R355). -/
  | doorbellWrite (n : Fin 64) (pi ci : Word)
  /-- CONSUME_DESCRIPTOR (R362). -/
  | consumeDescriptor (n : Fin 64)
  /-- NOP (R358). -/
  | nop (n : Fin 64)
  /-- IMAGE_LOAD (R165): `remote`: what Flue READs of device 0 bring, for a remote pair, here and below. -/
  | imageLoad (n : Fin 64) (remote : RemoteRead)
  /-- IMAGE_UNLOAD (R168). -/
  | imageUnload (n : Fin 64)
  /-- TIMING_LOAD (R114). -/
  | timingLoad (n : Fin 64) (remote : RemoteRead)
  /-- LEVELS_LOAD (R81). -/
  | levelsLoad (n : Fin 64) (remote : RemoteRead)
  /-- BIND_LOAD (R170). -/
  | bindLoad (n : Fin 64) (remote : RemoteRead)
  /-- CAPTURE_LOAD (R227). -/
  | captureLoad (n : Fin 64) (remote : RemoteRead)
  /-- DDS_LOAD (R287). -/
  | ddsLoad (n : Fin 64) (remote : RemoteRead)
  /-- CAL_LOAD (R485). -/
  | calLoad (n : Fin 64) (remote : RemoteRead)
  /-- PPMU_MEASURE (R94). -/
  | ppmuMeasure (n : Fin 64) (remote : RemoteRead)
  /-- PPMU_STEP_DONE (R95): `total`: the sum of the samples; `limit`: a clamp was reached. -/
  | ppmuStepDone (g : Fin 128) (total : Int) (limit : Bool)
  /-- COMMIT (R561). -/
  | commit (n : Fin 64)
  /-- RUN_BOUNDARY_APPLY (R20). -/
  | runBoundaryApply (h : Fin 16)
  /-- POOL_LOAD_DONE (R209). -/
  | poolLoadDone (h : Fin 16)
  /-- SETTLE_TIME_END (R82). -/
  | settleTimeEnd (x : Settle)
  /-- CAL_COMMIT (R490): `fails`: tables whose store to flash fails. -/
  | calCommit (n : Fin 64) (fails : List Nat)
  /-- CAL_TABLE_APPLY (R490). -/
  | calTableApply (k : Fin 19) (fails : Bool)
  /-- START (R24). -/
  | start (n : Fin 64)
  /-- STOP (R193). -/
  | stop (n : Fin 64)
  /-- FLUE_DMA (R361): what the READs of a remote pair's area bring, and whether one was refused or late. -/
  | flueDma (n : Fin 64) (bytes : List Byte) (denied late : Bool)
  /-- COMPLETION_WRITE (R370): `refused`: the remote memory refuses it. -/
  | completionWrite (n : Fin 64) (refused : Bool)
  /-- RING_ENABLE (R374). -/
  | ringEnable (o : Origin) (n : Fin 64) (w : Word)
  /-- RING_DISABLE (R374). -/
  | ringDisable (o : Origin) (n : Fin 64) (w : Word)
  /-- RING_DRAINED (R374). -/
  | ringDrained (n : Fin 64)
  /-- HALT_RING (R375). -/
  | haltRing (o : Origin) (n : Fin 64) (w : Word)
  /-- RESUME (R377). -/
  | resume (o : Origin) (n : Fin 64) (w : Word)
  /-- RING_SEQ_WRITE (R377). -/
  | ringSeqWrite (o : Origin) (n : Fin 64) (w : Word)
  /-- DESCRIPTOR_FETCH (R382). -/
  | descriptorFetch (n : Fin 64) (e : FetchEnd)
  /-- REMOTE_WRITE_RETRY (R383). -/
  | remoteWriteRetry (n : Fin 64) (refused : Bool)
  /-- SYNC_EDGE (R316): `tick`: TB in the first tick in which SYNC is sampled high; the edge falls DELAY_TICKS later. -/
  | syncEdge (tick : Nat)
  /-- SYNC_MISSING (R316). -/
  | syncMissing
  /-- SYNC_PULSE_GEN (R317). -/
  | syncPulseGen
  /-- VECTOR_ZERO (R25). -/
  | vectorZero
  /-- VECTOR (R106): `obs`: what the comparators see. -/
  | vector (site : Fin 256) (obs : List PinObs)
  /-- NOP_INSTR (R147). -/
  | nopInstr (site : Fin 256)
  /-- REPEAT (R147). -/
  | repeat_ (site : Fin 256)
  /-- LOOP_BEGIN (R147). -/
  | loopBegin (site : Fin 256)
  /-- LOOP_END (R147). -/
  | loopEnd (site : Fin 256)
  /-- CALL (R147). -/
  | call (site : Fin 256)
  /-- RETURN (R147). -/
  | return_ (site : Fin 256)
  /-- JUMP (R147). -/
  | jump (site : Fin 256)
  /-- JUMP_IF (R151). -/
  | jumpIf (site : Fin 256)
  /-- LATE_JUMP (R151). -/
  | lateJump (site : Fin 256)
  /-- WAIT (R154). -/
  | wait (site : Fin 256)
  /-- HOLD_POINT (R182). -/
  | holdPoint (site : Fin 256)
  /-- HOLD_RESUME (R182). -/
  | holdResume (site : Fin 256)
  /-- RENDEZVOUS (R196). -/
  | rendezvous (site : Fin 256)
  /-- RDV_RESUME (R200). -/
  | rdvResume (site : Fin 256)
  /-- RDV_WAIT_LIMIT (R202). -/
  | rdvWaitLimit (site : Fin 256)
  /-- HALT (R147). -/
  | halt (site : Fin 256)
  /-- SETREG (R153). -/
  | setreg (site : Fin 256)
  /-- GRANULE_FETCH (R212): `poisoned`: the granule came poisoned. -/
  | granuleFetch (e : Fin 64) (poisoned : Bool)
  /-- SITE_COMPLETE (R27). -/
  | siteComplete (site : Fin 256)
  /-- HOLD_REPORT_WRITE (R191). -/
  | holdReportWrite
  /-- HRT_HOLD_CTRL_WRITE (R191). -/
  | hrtHoldCtrlWrite (o : Origin) (w : Word)
  /-- HRT_HOLD_CI_WRITE (R191). -/
  | hrtHoldCiWrite (o : Origin) (w : Word)
  /-- SUMMARY_POST (R387). -/
  | summaryPost (site : Fin 256)
  /-- WINDOW_OPERAND_POST (R253). -/
  | windowOperandPost (site : Fin 256)
  /-- OPERAND_ACCEPT (R390). -/
  | operandAccept (site : Fin 256)
  /-- AGE_OUT (R394): the entry of a flow by ESEQ. -/
  | ageOut (flow : Fin 1024) (eseq : Nat)
  /-- DISPATCH (R398). -/
  | dispatch
  /-- DRT_QC_CI_WRITE (R400). -/
  | drtQcCiWrite (o : Origin) (c : Fin 8) (w : Word)
  /-- RELEASE (R401). -/
  | release
  /-- DRT_RES_CI_WRITE (R401). -/
  | drtResCiWrite (o : Origin) (w : Word)
  /-- DRT_CFG_WRITE (R402). -/
  | drtCfgWrite (o : Origin) (w : Word)
  /-- MBX_TX (R408). -/
  | mbxTx (o : Origin) (n : Fin 16) (w : Word)
  /-- MBX_RX_DATA (R409). -/
  | mbxRxData (o : Origin) (n : Fin 16)
  /-- MBX_WAIT (R412). -/
  | mbxWait (o : Origin) (n : Fin 16) (w : Word)
  /-- MBX_WAIT_TIMEOUT (R412). -/
  | mbxWaitTimeout (n : Fin 16) (side : Side)
  /-- MBX_CFG_WRITE (R407). -/
  | mbxCfgWrite (o : Origin) (n : Fin 16) (w : Word)
  /-- MBX_EVENT_CLEAR (R415). -/
  | mbxEventClear (o : Origin) (n : Fin 16)
  /-- LOCK_READ (R416). -/
  | lockRead (o : Origin) (k : Fin 32)
  /-- LOCK_RELEASE (R416). -/
  | lockRelease (o : Origin) (k : Fin 32)
  /-- MBX_LOCK_FREE (R417). -/
  | mbxLockFree (o : Origin) (w : Word)
  /-- ENDPOINT_RESET (R410). -/
  | endpointReset (e : ResetEnd)
  /-- FLUE_PORT_ENABLE (R327). -/
  | fluePortEnable (o : Origin) (p : Fin 4) (on : Bool) (w : Word)
  /-- RETRAIN (R327). -/
  | retrain (o : Origin) (p : Fin 4) (w : Word)
  /-- IDENT (R336): the neighbour block, POL_INV and what the training brought. -/
  | ident (p : Fin 4) (device role port polarity : Nat) (trained : Trained)
  /-- TRAIN_TIMEOUT (R327). -/
  | trainTimeout (p : Fin 4)
  /-- PORT_IDLE_ENTRY (R328). -/
  | portIdleEntry (p : Fin 4)
  /-- PORT_WAKE (R327). -/
  | portWake (p : Fin 4)
  /-- WAKE_BURST_ALIGNED (R327). -/
  | wakeBurstAligned (p : Fin 4)
  /-- WAKE_TIMEOUT (R327). -/
  | wakeTimeout (p : Fin 4)
  /-- LINK (R332). -/
  | link (p : Fin 4) (ack : Nat) (nak valid : Bool) (ev rsp req : Nat)
  /-- REPLAY_TIMEOUT (R332). -/
  | replayTimeout (p : Fin 4)
  /-- PROBE (R348): `stamp`: its stamp less the tick it was due at, in 1/8 ps. -/
  | probe (p : Fin 4) (stamp : Int)
  /-- READ (R337). -/
  | read (p : Fin 4) (k : Packet)
  /-- WRITE (R337). -/
  | write (p : Fin 4) (k : Packet)
  /-- DOORBELL (R337). -/
  | doorbell (p : Fin 4) (k : Packet)
  /-- RESPONSE (R338). -/
  | response (p : Fin 4) (k : Packet)
  /-- MESSAGE (R408). -/
  | message (p : Fin 4) (k : Packet)
  /-- PACKET_FORWARD (R335). -/
  | packetForward (p : Fin 4) (k : Packet)
  /-- RSP_TIMEOUT (R338). -/
  | rspTimeout (tag : Fin 1024)
  /-- FLU_RACC_GO (R338). -/
  | fluRaccGo (o : Origin) (w : Word)
  /-- JOIN_TIMEOUT (R336): `reach`: devices reachable over ACTIVE ports. -/
  | joinTimeout (reach : List Nat)
  /-- EPOCH_MARKER_SEND (R341). -/
  | epochMarkerSend
  /-- EPOCH_MARKER (R341). -/
  | epochMarker (p : Fin 4) (k : Packet)
  /-- START_EVENT (R344). -/
  | startEvent (p : Fin 4) (k : Packet)
  /-- STOP_EVENT (R347). -/
  | stopEvent (p : Fin 4) (k : Packet)
  /-- FAIL_EVENT (R345). -/
  | failEvent (p : Fin 4) (k : Packet)
  /-- RDV_REPORT (R198). -/
  | rdvReport (p : Fin 4) (k : Packet)
  /-- RDV_RELEASE (R199). -/
  | rdvRelease (p : Fin 4) (k : Packet)
  /-- SKEW_START (R348). -/
  | skewStart (o : Origin) (w : Word)
  /-- SKEW_DONE (R349). -/
  | skewDone
  /-- CLK_PLL_CTRL_WRITE (R310). -/
  | clkPllCtrlWrite (o : Origin) (p : Fin 6) (w : Word)
  /-- PLL_IN_LOCK_WINDOW (R307). -/
  | pllInLockWindow (p : Fin 6)
  /-- ACQ_TIMEOUT (R307). -/
  | acqTimeout (p : Fin 6)
  /-- SETTLE_END (R307). -/
  | settleEnd (p : Fin 6)
  /-- LOCK_LOSS (R308). -/
  | lockLoss (p : Fin 6)
  /-- NEAR_RAIL (R314). -/
  | nearRail (p : Fin 6)
  /-- REFCLK_ABSENT (R263): `lastTick`: TB at the last REFCLK edge. -/
  | refclkAbsent (lastTick : Nat)
  /-- REFCLK_PRESENT (R312). -/
  | refclkPresent
  /-- MEASURE (R305). -/
  | measure (o : Origin) (w : Word)
  /-- BAND_MEASURE_DONE (R305): the counts at the two clamps. -/
  | bandMeasureDone (low high : Nat)
  /-- GRID_PHASE_STEP (R315). -/
  | gridPhaseStep
  /-- CLK_OUT_CFG_WRITE (R319). -/
  | clkOutCfgWrite (o : Origin) (p : Fin 4) (w : Word)
  /-- EMBER_CLK_FAIL (R302). -/
  | emberClkFail
  /-- EMBER_CLK_RETURN (R302). -/
  | emberClkReturn
  /-- TMU_EDGE (R266): TB, fine code and direction of the edge. -/
  | tmuEdge (n : Fin 32) (tick code : Nat) (rise : Bool)
  /-- TMU_STAMP_COMMIT (R265). -/
  | tmuStampCommit (n : Fin 32)
  /-- TMU_RECORD_DRAIN (R269). -/
  | tmuRecordDrain (n : Fin 32)
  /-- ARM (R271). -/
  | arm (o : Origin) (n : Fin 32) (w : Word)
  /-- DISARM (R271). -/
  | disarm (o : Origin) (n : Fin 32) (w : Word)
  /-- TMU_DIFF_TIMEOUT (R277). -/
  | tmuDiffTimeout (n : Fin 32)
  /-- TMU_TEST_PULSE (R260). -/
  | tmuTestPulse (tick : Nat)
  /-- TMU_CAL_START (R279). -/
  | tmuCalStart (o : Origin) (w : Word)
  /-- TMU_CAL_DONE (R279): edge counts per bin. -/
  | tmuCalDone (n : Fin 32) (counts : List Nat)
  /-- DDS_TRANSITION (R284). -/
  | ddsTransition (u : Fin 64)
  /-- HRT_GRT_PWR_WRITE (R99). -/
  | hrtGrtPwrWrite (o : Origin) (g : Fin 128) (w : Word)
  /-- GRATE_WAKE_DONE (R98). -/
  | grateWakeDone (g : Fin 128)
  /-- GRATE_SETTLE_DONE (R98). -/
  | grateSettleDone (g : Fin 128)
  /-- GRATE_IDLE_OFF (R99). -/
  | grateIdleOff (g : Fin 128)
  /-- DESCEND_SMOULDER (R450). -/
  | descendSmoulder (o : Origin)
  /-- DESCEND_BANKED (R450): `cold`: the cold variant. -/
  | descendBanked (o : Origin) (cold : Bool)
  /-- REQUEST (R452). -/
  | request (o : Origin)
  /-- DESCENT_DONE (R450). -/
  | descentDone (ckptFails : Bool)
  /-- WAKE_N (R455). -/
  | wakeN
  /-- ALARM (R455). -/
  | alarm
  /-- ASCENT (R452): `sub`: sub-second count of the RTC; `bands`: remeasured band tables. -/
  | ascent (sub : Nat) (bands : List (Nat × Word)) (ckptFails : Bool)
  /-- ASCENT_RESTORED (R452). -/
  | ascentRestored
  /-- RAIL_PG_TIMEOUT (R453). -/
  | railPgTimeout (rail : Nat)
  /-- PWR_DOMAIN_CTRL_WRITE (R447). -/
  | pwrDomainCtrlWrite (o : Origin) (w : Word)
  /-- UP (R459). -/
  | up (o : Origin) (w : Word) (pmbFail : Bool)
  /-- DOWN (R459). -/
  | down (o : Origin) (w : Word) (pmbFail : Bool)
  /-- SUP_STEP_ADVANCE (R458): `powerGood`: SUP_PG. -/
  | supStepAdvance (pmbFail : Bool) (powerGood : Word)
  /-- PG_TIMEOUT (R459). -/
  | pgTimeout
  /-- SUP_PG_FALL (R459). -/
  | supPgFall (n : Fin 32)
  /-- PWR_SUP_READ_GO (R462): `r`: what the regulator answers. -/
  | pwrSupReadGo (o : Origin) (w : Word) (r : SupReading)
  /-- PMB_ALERT (R461): `answer`: the address that answers. -/
  | pmbAlert (answer : Option Nat)
  /-- TEMP_SAMPLE (R558): the 16 sensors, in 1/16 °C. -/
  | tempSample (temps : List Int)
  /-- REFRESH_DUE (R431). -/
  | refreshDue (c : Fin 8) (realTime : Bool)
  /-- MAKEUP_BURST (R432). -/
  | makeupBurst (c : Fin 8)
  /-- MR4_POLL (R434). -/
  | mr4Poll (c : Fin 8) (mr4 : Nat) (twice hot : Bool)
  /-- RETRAIN_PAUSE (R429). -/
  | retrainPause (c : Fin 8) (gap expired : Bool) (ns : Nat) (fails : Bool)
  /-- SCRUB_READ (R427): of the channel's next line. -/
  | scrubRead (c : Fin 8) (e : Ecc)
  /-- DRAM_READ_COMPLETE (R424, R439): `arrivals` the requests that have reached the controller since the last such command, `now` the time in ns
  at which the request that the channel takes completes. -/
  | dramReadComplete (c : Fin 8) (arrivals : List DramReq) (now : Nat) (e : Ecc)
  /-- ALERT_N_PARITY (R443). -/
  | alertNParity (c : Fin 8) (rings : List Nat)
  /-- HOT_WINDOW_END (R442): bytes moved and busy ns per channel. -/
  | hotWindowEnd (bytes busy : List Nat)
  /-- LINEARITY (R486). -/
  | linearity (o : Origin) (hearths : Nat)
  /-- LEVELS (R486). -/
  | levels (o : Origin) (hearths : Nat)
  /-- DESKEW (R486). -/
  | deskew (o : Origin) (hearths : Nat)
  /-- CAL_PROC_DONE (R487): `fail`: OUTCOME and pin; `measured`: the measured table body. -/
  | calProcDone (h : Fin 16) (fail : Option (Nat × Nat)) (measured : List Byte)
  /-- DEVICE_TIME_TICK (R501). -/
  | deviceTimeTick
  /-- MGT_TIME_INC_WRITE (R503). -/
  | mgtTimeIncWrite (o : Origin) (w : Word)
  /-- MGT_TIME_ADJ_WRITE (R503). -/
  | mgtTimeAdjWrite (o : Origin) (w : Word)
  /-- MGT_TIME_SET_SEC_WRITE (R503). -/
  | mgtTimeSetSecWrite (o : Origin) (w : Word)
  /-- MGT_PTP_MASTER_WRITE (R508). -/
  | mgtPtpMasterWrite (o : Origin) (w : Word)
  /-- PTP_TIMESTAMP (R506): `delta` how far, in 2^-16 ns, the stamp lies from device time. -/
  | ptpTimestamp (p : Fin 2) (tx : Bool) (type seqId : Nat) (sender : PtpSender) (delta : Int)
  /-- SYNC_TIMEOUT (R508). -/
  | syncTimeout
  /-- MGT_FRAME_RECEIVE (R499): `bytes` without FCS; `residence` in 2^-16 ns. -/
  | mgtFrameReceive (p : Fin 2) (bytes : List Byte) (fcsOk : Bool) (residence : Int)
  /-- MGT_TSP_INFO_READ (R506). -/
  | mgtTspInfoRead (o : Origin) (p : Fin 2)
  /-- LDG_SERVICE (R512). -/
  | ldgService (o : Origin) (w : Word)
  /-- LEDGER_CHECKPOINT (R513). -/
  | ledgerCheckpoint (fails : Bool)
  /-- AUDIT_FLUSH (R523). -/
  | auditFlush (entries : Nat)
  /-- AUDIT_CHECKPOINT (R524). -/
  | auditCheckpoint
  /-- AUD_RD_GO (R525). -/
  | audRdGo (o : Origin) (w : Word)
  /-- AUD_PERM_WRITE (R517). -/
  | audPermWrite (o : Origin) (b : Option (Fin 32)) (w : Word)
  /-- ATTEST (R541). -/
  | attest (o : Origin) (arg : Nat)
  /-- CONFIRM (R543). -/
  | confirm (o : Origin) (arg : Nat)
  /-- RAISE (R534). -/
  | raise (o : Origin) (arg : Nat)
  /-- KEY_PROGRAM (R543). -/
  | keyProgram (o : Origin) (arg : Nat)
  /-- KEY_REVOKE (R543). -/
  | keyRevoke (o : Origin) (arg : Nat)
  /-- DEVICE_RESET (R543). -/
  | deviceReset (o : Origin) (arg : Nat)
  /-- FLASH_ERASE (R544). -/
  | flashErase (o : Origin) (arg : Nat)
  /-- FLASH_PROGRAM (R544). -/
  | flashProgram (o : Origin) (arg : Nat)
  /-- FLASH_READ (R543). -/
  | flashRead (o : Origin) (arg : Nat)
  /-- KICK (R545). -/
  | kick (o : Origin) (w : Word)
  /-- WATCHDOG_EXPIRY (R539). -/
  | watchdogExpiry
  /-- REGISTER_WRITE (R10): any address of R43, `size` bytes. -/
  | registerWrite (o : Origin) (addr size value : Nat)
  /-- DOUSE_N_HIGH (R59). -/
  | douseNHigh
  /-- MGT_LINK_CHANGE (R498). -/
  | mgtLinkChange (p : Fin 2) (up anDone speedBad : Bool)
  /-- RTC_SECOND (R510). -/
  | rtcSecond
  /-- TMU_GROUP_ON (R275). -/
  | tmuGroupOn (g : Fin 2)
  /-- FLUE_PACKET_DISCARD (R332): the blocks received. -/
  | fluePacketDiscard (p : Fin 4) (blocks : List FlueBlock)
  /-- PROBE_SEND (R348). -/
  | probeSend (p : Fin 4)
  /-- DDS_AMP_SETTLE_END (R291). -/
  | ddsAmpSettleEnd (site : Fin 256)
  deriving DecidableEq, Repr

end Sys2Proof
end

