-- ==== Sys2Proof/Config.lean ====
section
/-! DEFINITION. What an implementation fixes and the specification leaves open: free values. Each is a constant without a body,
applied to a counter of the state (`Dev.fresh`) or to the operands it depends on, so that no statement can rest on its value. -/

namespace Sys2Proof

/-- A free truth value per draw: whether a pulse in a band that R59 or R60 leave open is recognised, which way a quotient rounds (log entry 7). -/
opaque Config.freeBool : Nat → Bool

/-- A free number per draw: the image number a load issues (R165), the real occupancy of a capture FIFO (R257), and the
further values of log entry 7. -/
opaque Config.freeNat : Nat → Nat

/-- How many codes the fixed internal latency of the edge placement exceeds 2,048 (R111; log entry 120). -/
opaque Config.latencyExtra : Nat

/-- The 57-byte seed of the device identity key, of the 57-byte OTP secret (R540): SHAKE256 with the string "ISV-4610 identity"; how
secret and string are joined the specification does not say (log entry 10). -/
opaque Config.idSeed : List Byte → List Byte

end Sys2Proof
end

