-- ==== Sys2Proof/Machine/Hash.lean ====
section
/-! DEFINITION. The check words the spec names: CRC-32C (spec/05 R133: Castagnoli polynomial, initial value 0xFFFF_FFFF,
final complement) and SHAKE256. The spec names the functions and does not write them out: both are taken from their public
standards (PRESUMED, log entry 9). -/

namespace Sys2Proof.Machine

/-- One bit of a reflected CRC with polynomial `poly`. -/
def crcBit (poly : BitVec 32) (c : BitVec 32) : BitVec 32 :=
  if c.getLsbD 0 then (c >>> 1) ^^^ poly else c >>> 1

/-- One byte of a reflected CRC. -/
def crcByte (poly : BitVec 32) (c : BitVec 32) (b : Byte) : BitVec 32 :=
  (List.range 8).foldl (fun x _ => crcBit poly x) (c ^^^ b.zeroExtend 32)

/-- A reflected 32-bit CRC, initial value all ones, complemented at the end. -/
def crcReflected (poly : BitVec 32) (bs : List Byte) : BitVec 32 := ~~~(bs.foldl (crcByte poly) 0xFFFFFFFF#32)

/-- CRC-32C (R133). -/
def crc32c (bs : List Byte) : Nat := (crcReflected 0x82F63B78#32 bs).toNat

/-- CRC-32 of IEEE 802.3, the packet check of spec/12 R330. -/
def crc32 (bs : List Byte) : Nat := (crcReflected 0xEDB88320#32 bs).toNat

/-- A lane of SHAKE256's state of 25. -/
abbrev Lane := BitVec 64

/-- When the standard's walk over the lanes reaches each of lanes 1 to 24. -/
def laneTurn : List Nat := [0, 18, 6, 12, 7, 23, 2, 9, 22, 1, 3, 17] ++ [16, 20, 13, 8, 4, 5, 15, 19, 10, 21, 14, 11]

/-- By how much a lane rotates: the triangular number of its turn. -/
def laneShift (i : Nat) : Nat := if i = 0 then 0 else let t := laneTurn.getD (i - 1) 0; (t + 1) * (t + 2) / 2 % 64

/-- The rounds: bit j of an entry stands for bit 2^j - 1 of the constant that the round adds to lane 0. -/
def shakeRounds : List Nat := [1, 26, 94, 112, 31, 33, 121, 85] ++ [14, 12, 53, 38, 63, 79, 93, 83] ++ [82, 72, 22, 102, 121, 88, 33, 116]

/-- The constant of a round. -/
def roundLane (k : Nat) : Lane := BitVec.ofNat 64 ((List.range 7).foldl (fun v j => if k.testBit j then v + 2 ^ (2 ^ j - 1) else v) 0)

/-- The parity of a column. -/
def columnLane (s : List Lane) (x : Nat) : Lane := [x, x + 5, x + 10, x + 15, x + 20].foldl (fun v i => v ^^^ s.getD i 0) 0

/-- Lane `i` after the linear part of a round: it comes from another place, with the parities of two columns, rotated. -/
def mixedLane (s cols : List Lane) (i : Nat) : Lane :=
  let x := (i % 5 + 3 * (i / 5)) % 5
  let v := s.getD (x + 5 * (i % 5)) 0 ^^^ cols.getD ((x + 4) % 5) 0
  (v ^^^ (cols.getD ((x + 1) % 5) 0).rotateLeft 1).rotateLeft (laneShift (x + 5 * (i % 5)))

/-- One round of the permutation. -/
def shakeRound (s : List Lane) (k : Nat) : List Lane :=
  let cols := (List.range 5).map (columnLane s)
  let rows := (List.range 5).map (fun y => (List.range 5).map (fun x => mixedLane s cols (5 * y + x)))
  let out := rows.flatMap (fun r => (List.range 5).map (fun x =>
    r.getD x 0 ^^^ (r.getD ((x + 2) % 5) 0 &&& ~~~(r.getD ((x + 1) % 5) 0))))
  match out with
  | [] => []
  | v :: rest => (v ^^^ roundLane k) :: rest

/-- The permutation. -/
def shakePermute (s : List Lane) : List Lane := shakeRounds.foldl shakeRound s

/-- Eight bytes as a lane. -/
def laneOf (bs : List Byte) : Lane := BitVec.ofNat 64 (natOf bs)

/-- The padding of SHAKE256 to blocks of 136 bytes. -/
def shakePad (bs : List Byte) : List Byte :=
  let gap := 136 - bs.length % 136
  if gap = 1 then bs ++ [0x9F#8] else bs ++ [0x1F#8] ++ List.replicate (gap - 2) 0#8 ++ [0x80#8]

/-- A block of 136 bytes enters the state. -/
def shakeBlock (s : List Lane) (bs : List Byte) : List Lane :=
  shakePermute ((List.range 17).map (fun i => s.getD i 0 ^^^ laneOf (slice bs (8 * i) 8)) ++ s.drop 17)

/-- The first `n` bytes (at most 136) of SHAKE256 over a byte string. -/
def shake256 (n : Nat) (bs : List Byte) : List Byte :=
  let p := shakePad bs
  let s := (List.range (p.length / 136)).foldl (fun s i => shakeBlock s (slice p (136 * i) 136)) (List.replicate 25 0)
  (s.flatMap (fun l => bytesOf 8 l.toNat)).take n

end Sys2Proof.Machine
end

