-- ==== Sys2Proof/Machine/Levels.lean ====
section
/-! DEFINITION. Level sets (spec/03 R71, R72, R81), bindings (spec/06 R170, R171), capture plans (spec/08 R228–R231) and DDS list
sets (spec/10 R288, R289): parsing, and the checks made at the descriptor. -/

namespace Sys2Proof.Machine

/-! ### Level sets -/

/-- Minimum settle time in µs and full scale of a PPMU range (R90). -/
def ppmuMinSettle (range : Nat) : Nat := match range with | 0 => 1000 | 1 => 200 | 2 => 50 | _ => 20

/-- Whether a code is legal for VIH, VIL, VTT and PPMU voltages (R71). -/
def levelCodeOk (c : Nat) : Bool := decide (2000 ≤ c ∧ c ≤ 56000)

/-- Whether a code is legal for VOH and VOL (R71). -/
def threshCodeOk (c : Nat) : Bool := decide (2000 ≤ c ∧ c ≤ 60000)

/-- Whether a PPMU force value is legal for its mode (R71, R91): a voltage code in FVMI, a signed code in FIMV. -/
def ppmuValueOk (mode value : Nat) : Bool :=
  if mode = 1 then levelCodeOk value else if mode = 2 then value != 0x8000 else true

/-- A failing descriptor check of a level set: code, grate, byte offset from SRC (R72). -/
structure LevelFail where
  check : Nat
  grate : Nat
  off : Nat
  deriving DecidableEq, Repr

/-- The least offset of a list that fails a predicate. -/
def firstOff (l : List (Bool × Nat)) : Option Nat := (l.find? (·.1)).map (·.2)

/-- The descriptor checks of one entry of grate g at offset `o` of SRC, in ascending code (R72). -/
def levelChecks (absent : Nat → Bool) (bs : List Byte) (g o : Nat) : Option LevelFail :=
  let f2 (i : Nat) := fieldAt bs (o + i) 2
  let f1 (i : Nat) := fieldAt bs (o + i) 1
  let present := (List.range 8).filter (fun k => !(absent (8 * g + k)))
  let pin := f1 48
  let named := decide (pin < 8)
  let at? (c : Nat) (l : List (Bool × Nat)) : Option LevelFail := (firstOff l).map (fun i => ⟨c, g, o + i⟩)
  firstSome [
    at? 0x18 ([(!(levelCodeOk (f2 0)), 0), (!(levelCodeOk (f2 2)), 2), (!(levelCodeOk (f2 4)), 4)] ++
      present.flatMap (fun k => [(!(threshCodeOk (f2 (8 + 4 * k))), 8 + 4 * k), (!(threshCodeOk (f2 (10 + 4 * k))), 10 + 4 * k)]) ++
      (if named then [(!(ppmuValueOk (f1 49) (f2 52)), 52), (f1 49 == 2 && !(levelCodeOk (f2 54)), 54),
        (f1 49 == 2 && !(levelCodeOk (f2 56)), 56)] else [])),
    at? 0x19 [(decide (f2 0 < f2 2 + 2000), 0)],
    at? 0x1A (present.map (fun k => (decide (f2 (8 + 4 * k) < f2 (10 + 4 * k)), 8 + 4 * k))),
    at? 0x1B ([(decide (f2 6 ≥ 4), 6)] ++
      present.map (fun k => (decide (f1 (40 + k) ≥ 3), 40 + k)) ++
      [(decide (pin ≥ 8) && pin != 0xFF, 48),
       ((named && !(f1 49 == 1 || f1 49 == 2)) || (pin == 0xFF && f1 49 != 0), 49),
       (decide (f1 50 > 3), 50), (f1 51 != 0, 51), (!(zeroAt bs (o + 58) 6), 58)]),
    at? 0x1C [(named && absent (8 * g + pin), 48)]]

/-- The levels of a channel at reset (R101). -/
def PinLevel.reset : PinLevel := ⟨0x2EE0, 0x2EE0, 0⟩

/-- The entry of grate g at offset `o` (R81). The slots of an absent channel are ignored: it keeps the levels of reset (R70). -/
def parseLevel (absent : Nat → Bool) (bs : List Byte) (g o : Nat) : LevelEntry :=
  let f2 (i : Nat) := fieldAt bs (o + i) 2
  let f1 (i : Nat) := fieldAt bs (o + i) 1
  { vih := f2 0, vil := f2 2, vtt := f2 4
    relay := tbit (f2 6) 0, spare := tbit (f2 6) 1
    pins := (List.range 8).map (fun k => if absent (8 * g + k) then PinLevel.reset else ⟨f2 (8 + 4 * k), f2 (10 + 4 * k), f1 (40 + k) % 4⟩)
    ppmu := if f1 48 < 8 then some ⟨f1 48, f1 49, f1 50, f2 52, f2 54, f2 56⟩ else none }

/-- The level entry at reset (R101): every code 0x2EE0, relays released, terminations OFF, no static pin. -/
def LevelEntry.reset : LevelEntry :=
  ⟨0x2EE0, 0x2EE0, 0x2EE0, false, false, List.replicate 8 PinLevel.reset, none⟩

/-- Levels of pin k of an entry. -/
def LevelEntry.pin (e : LevelEntry) (k : Nat) : PinLevel := nth e.pins k PinLevel.reset

/-! ### Bindings -/

/-- A failing binding check: code, site, image pin (R171, HRT_SEQ_REFUSE). -/
structure BindFail where
  check : Nat
  site : Nat
  pin : Nat
  index : Nat
  deriving DecidableEq, Repr

/-- Length of a binding entry (R170, R171): 16 bytes when it unbinds. -/
def bindLen (bs : List Byte) (o : Nat) : Nat :=
  if fieldAt bs (o + 2) 2 = 0xFFFF then 16 else 16 + 8 * ceilDiv (fieldAt bs (o + 4) 2) 4

/-- The channels of an entry. -/
def bindChs (bs : List Byte) (o : Nat) : List Nat :=
  if fieldAt bs (o + 2) 2 = 0xFFFF then [] else (List.range (fieldAt bs (o + 4) 2)).map (fun i => fieldAt bs (o + 16 + 2 * i) 2)

/-- The hearths a list of channels lies in, with the home hearth of a site, as a mask (R171). -/
def hearthsOf (site : Nat) (chs : List Nat) : Nat :=
  maskOf ((site / 16) :: (chs.filter (· < 1024)).map (· / 64))

/-- The field checks of one binding entry (R171): BIND_FIELD, BIND_CHANNEL, BIND_HEARTHS. CH slots beyond W are ignored (R170). SITE above 255 is taken as
BIND_FIELD (DEDUCED, log entry 32). -/
def bindChecks (absent : Nat → Bool) (bs : List Byte) (o idx : Nat) : Option BindFail :=
  let site := fieldAt bs o 2
  let image := fieldAt bs (o + 2) 2
  let pins := fieldAt bs (o + 4) 2
  let flags := fieldAt bs (o + 6) 1
  let gang := tbit flags 0
  let multi := tbit flags 1
  let chs := bindChs bs o
  let fail (c p : Nat) : BindFail := ⟨c, site % 256, p, idx⟩
  firstSome [
    failWhen (decide (site > 255 ∨ flags ≥ 4) || fieldAt bs (o + 7) 1 != 0 || !(zeroAt bs (o + 10) 6) ||
      (pins == 0 && image != 0xFFFF) || decide (pins > 1024) || (pins != 0 && image == 0xFFFF) || (multi && !gang)) (fail 0x40 0),
    if image = 0xFFFF then none else
      firstSome [
        (chs.zipIdx.find? (fun (c, i) =>
          if c = 0xFFFF then !multi
          else decide (c > 1023) || absent c || (chs.take i).contains c || (!gang && c / 64 != site / 16))).map
          (fun (_, i) => fail 0x41 i),
        failWhen (!(chs.any (· < 1024))) (fail 0x41 0)],
    failWhen (fieldAt bs (o + 8) 2 != hearthsOf (site % 256) chs) (fail 0x42 0)]

/-- The binding an entry describes (R170); none unbinds. -/
def parseBind (bs : List Byte) (o : Nat) : Nat × Option Binding :=
  let flags := fieldAt bs (o + 6) 1
  (fieldAt bs o 2,
    if fieldAt bs (o + 2) 2 = 0xFFFF then none
    else some ⟨fieldAt bs (o + 2) 2, tbit flags 0, tbit flags 1, fieldAt bs (o + 8) 2, bindChs bs o⟩)

/-! ### Capture plans -/

/-- A failing capture-plan check (R231, HRT_CAP_REFUSE). -/
structure CapFail where
  check : Nat
  site : Nat
  win : Nat
  pin : Nat
  index : Nat
  deriving DecidableEq, Repr

/-- Length of a plan entry (R228). -/
def capLen (bs : List Byte) (o : Nat) : Nat := 64 + 16 * fieldAt bs (o + 6) 1 + 16 * ceilDiv (fieldAt bs (o + 4) 2) 64

/-- A window definition (R229). -/
def parseWin (bs : List Byte) (o : Nat) : CapWin :=
  ⟨fieldAt bs o 1, fieldAt bs (o + 1) 1, fieldAt bs (o + 2) 2, fieldAt bs (o + 4) 6, fieldAt bs (o + 10) 6⟩

/-- Capture mode of image pin i (R228, R230). -/
def capMode (bs : List Byte) (o i : Nat) : Nat :=
  fieldAt bs (o + 64 + 16 * fieldAt bs (o + 6) 1 + i / 4) 1 / 4 ^ (i % 4) % 4

/-- Whether a window definition breaks a field rule of R229 (refused code, reserved bit, no measurement). -/
def winFieldBad (w : CapWin) : Bool :=
  decide (w.kind > 2 ∨ w.meas = 0 ∨ w.meas > 3) || (w.kind == 1 && w.start != 0) || (w.kind == 2 && w.stop != 0)

/-- Whether a window definition fails CAP_WINDOW (R231). -/
def winBad (w : CapWin) (pins : Nat) : Bool :=
  (w.kind == 0 && decide (w.stop < w.start)) || (w.kind == 1 && (w.stop % 64 != 0 || decide (w.stop < 64))) ||
  (tbit w.meas 1 && w.pin == 0xFFFF) || (w.pin != 0xFFFF && decide (w.pin ≥ pins))

/-- CAP_FIELD of one plan entry (R231). -/
def capFieldCheck (bs : List Byte) (o idx : Nat) : Option CapFail :=
  let site := fieldAt bs o 2
  let flags := fieldAt bs (o + 2) 2
  let pins := fieldAt bs (o + 4) 2
  let wins := fieldAt bs (o + 6) 1
  let valid := tbit flags 0
  let fail (c w p : Nat) : CapFail := ⟨c, site % 256, w, p, idx⟩
  let ws := (List.range (capAt wins 16)).map (fun w => parseWin bs (o + 64 + 16 * w))
  if !valid then failWhen (decide (site > 255 ∨ flags ≥ 16 ∨ wins > 16)) (fail 0x60 0 0)
  else
    firstSome [
      failWhen (decide (site > 255 ∨ flags ≥ 16 ∨ flags / 2 % 4 > 1 ∨ wins > 16) || fieldAt bs (o + 7) 1 == 0 ||
        decide (fieldAt bs (o + 8) 4 < 1 ∨ fieldAt bs (o + 8) 4 > 8000) || !(zeroAt bs (o + 12) 4) || !(zeroAt bs (o + 44) 20) ||
        fieldAt bs (o + 16) 8 % 4096 != 0 || fieldAt bs (o + 24) 8 % 4096 != 0 || decide (fieldAt bs (o + 24) 8 < 8192) ||
        fieldAt bs (o + 32) 8 % 64 != 0 || (wins == 0 && (fieldAt bs (o + 32) 8 != 0 || fieldAt bs (o + 40) 4 != 0))) (fail 0x60 0 0),
      (ws.zipIdx.find? (fun (w, _) => winFieldBad w)).map (fun (_, i) => fail 0x60 i 0),
      ((List.range (64 * ceilDiv pins 64)).find? (fun i =>
        if i < pins then capMode bs o i == 3 else capMode bs o i != 0)).map (fun i => fail 0x60 0 (i % 1024))]

/-- CAP_WINDOW of one plan entry (R231). A window whose PIN lies beyond the image's pins names that pin, in its ten bits. -/
def capWindowCheck (bs : List Byte) (o idx : Nat) : Option CapFail :=
  let pins := fieldAt bs (o + 4) 2
  if !(tbit (fieldAt bs (o + 2) 2) 0) then none
  else
    (((List.range (capAt (fieldAt bs (o + 6) 1) 16)).map (fun w => parseWin bs (o + 64 + 16 * w))).zipIdx.find? (fun (w, _) => winBad w pins)).map
      (fun (w, i) => ⟨0x61, fieldAt bs o 2 % 256, i, if w.pin ≠ 0xFFFF ∧ w.pin ≥ pins then w.pin % 1024 else 0, idx⟩)

/-- The plan an entry describes (R228); none removes. -/
def parseCap (bs : List Byte) (o : Nat) : Nat × Option CapPlan :=
  let flags := fieldAt bs (o + 2) 2
  let pins := fieldAt bs (o + 4) 2
  (fieldAt bs o 2,
    if !(tbit flags 0) then none
    else some
      { overload := flags / 2 % 4, fine := tbit flags 3, w := pins, relax := fieldAt bs (o + 7) 1, drain := fieldAt bs (o + 8) 4
        bufBase := fieldAt bs (o + 16) 8, bufBytes := fieldAt bs (o + 24) 8, resBase := fieldAt bs (o + 32) 8
        resEntries := fieldAt bs (o + 40) 4
        wins := (List.range (fieldAt bs (o + 6) 1)).map (fun w => parseWin bs (o + 64 + 16 * w))
        modes := (List.range pins).map (capMode bs o) })

/-! ### DDS list sets -/

/-- A failing DDS check (R289, HRT_DDS_REFUSE). -/
structure DdsFail where
  check : Nat
  site : Nat
  pin : Nat
  index : Nat
  deriving DecidableEq, Repr

/-- Length of a list-set entry (R288). -/
def ddsLen (bs : List Byte) (o : Nat) : Nat := 16 + 16 * (fieldAt bs (o + 5) 1 + 1) + 16 * ceilDiv (fieldAt bs (o + 7) 1) 8

/-- Least and greatest FTW (R283). -/
def ftwOk (f : Nat) : Bool := decide (70368745 ≤ f ∧ f ≤ 2 ^ 46)

/-- DDS_FIELD of one entry (R288, R289). SITE above 255 and an image pin above 1023 are taken as DDS_FIELD (DEDUCED, log
entry 32). -/
def ddsFieldBad (bs : List Byte) (o : Nat) : Bool :=
  let n := fieldAt bs (o + 5) 1 + 1
  let al := fieldAt bs (o + 7) 1
  let ampOff := o + 16 + 16 * n
  decide (fieldAt bs o 2 > 255 ∨ fieldAt bs (o + 2) 2 > 1023 ∨ fieldAt bs (o + 4) 1 ≥ 8 ∨ fieldAt bs (o + 6) 1 ≥ n ∨ al > 64) ||
  (if al = 0 then fieldAt bs (o + 8) 1 != 0 else decide (fieldAt bs (o + 8) 1 ≥ al)) ||
  fieldAt bs (o + 9) 1 != 0 || !(zeroAt bs (o + 12) 4) ||
  (List.range n).any (fun i => !(ftwOk (fieldAt bs (o + 16 + 16 * i) 8)) || decide (fieldAt bs (o + 24 + 16 * i) 8 ≥ 2 ^ 48)) ||
  (List.range al).any (fun a => !(levelCodeOk (fieldAt bs (ampOff + 2 * a) 2))) ||
  !(zeroAt bs (ampOff + 2 * al) (16 * ceilDiv al 8 - 2 * al))

/-- The list set an entry describes, with its key (site × 65,536 + image pin); none removes (R287, R288). -/
def parseDds (bs : List Byte) (o : Nat) : Nat × Option DdsList :=
  let n := fieldAt bs (o + 5) 1 + 1
  let al := fieldAt bs (o + 7) 1
  let flags := fieldAt bs (o + 4) 1
  (fieldAt bs o 2 * 65536 + fieldAt bs (o + 2) 2,
    if !(tbit flags 0) then none
    else some
      { stepSrc := flags / 2 % 4, freqLoop := fieldAt bs (o + 6) 1, ampLoop := fieldAt bs (o + 8) 1
        alignEvery := fieldAt bs (o + 10) 2
        ftw := (List.range n).map (fun i => fieldAt bs (o + 16 + 16 * i) 6)
        phase := (List.range n).map (fun i => fieldAt bs (o + 24 + 16 * i) 6)
        amp := (List.range al).map (fun a => fieldAt bs (o + 16 + 16 * n + 2 * a) 2) })

/-! ### Entry lists -/

/-- The offsets of COUNT entries whose lengths come from their own fields; `inr` a DESC_FIELD failure (index, offset) when entry
i would end beyond LEN or the entries end before it (R363). -/
def entryOffsets (bs : List Byte) (len : Nat) (entLen : List Byte → Nat → Nat) : Nat → Nat → Nat → List Nat ⊕ (Nat × Nat)
  | 0, i, o => if o < len then .inr (i, o) else .inl []
  | n + 1, i, o =>
    let l := entLen bs o
    if o + l > len then .inr (i, o)
    else
      match entryOffsets bs len entLen n (i + 1) (o + l) with
      | .inl t => .inl (o :: t)
      | .inr e => .inr e

/-- Apply parsed entries in the order carried: `some` replaces, `none` removes. -/
def applyEntries {α : Type} (m : List (Nat × α)) (l : List (Nat × Option α)) : List (Nat × α) :=
  l.foldl (fun m e => match e.2 with | some v => mapSet m e.1 v | none => mapErase m e.1) m

end Sys2Proof.Machine
end

