-- ==== Sys2Proof/Machine/Regs.lean ====
section
/-! DEFINITION. The register map of spec/01 R46, R47 and the register tables of the owning chapters: for every register its
offset from 0xF00_0000_0000 (namespace R; arrays take the resource number), for every field its place (namespace F), and the
table of field types, reset values and run-lock marks (R10, R12, R17). A reset value the spec does not give as a number
(Table, OTP, Strap, Ledger, Ember, Flash, Shadow, Previous + 1) stands as 0 here: DESIGN CHOICE, log entry 3. -/

namespace Sys2Proof.Machine

namespace R

/-! Registers of spec/01_architecture.md R47. -/
abbrev GLB_ID : Nat := 0x0
abbrev GLB_STEPPING : Nat := 0x4
abbrev GLB_GRADE : Nat := 0x8
abbrev GLB_SERIAL_LO : Nat := 0xc
abbrev GLB_SERIAL_HI : Nat := 0x10
abbrev GLB_STRAP : Nat := 0x14
abbrev GLB_ROLE : Nat := 0x18
abbrev GLB_DEVICE_EPOCH : Nat := 0x1c
abbrev GLB_CAPACITY : Nat := 0x20

/-! Registers of spec/03_pin_channel.md R101. -/
abbrev HRT_GRT_PWR (g : Nat) : Nat := 0x108000 + 65536 * (g / 8) + 4096 * (g % 8)
abbrev HRT_GRT_LIVE_DRV (g : Nat) : Nat := 0x108004 + 65536 * (g / 8) + 4096 * (g % 8)
abbrev HRT_GRT_LIVE_TERM (g : Nat) : Nat := 0x108008 + 65536 * (g / 8) + 4096 * (g % 8)
abbrev HRT_GRT_RELAY (g : Nat) : Nat := 0x10800c + 65536 * (g / 8) + 4096 * (g % 8)
abbrev HRT_GRT_STATUS (g : Nat) : Nat := 0x108010 + 65536 * (g / 8) + 4096 * (g % 8)
abbrev HRT_GRT_INT_EN (g : Nat) : Nat := 0x108014 + 65536 * (g / 8) + 4096 * (g % 8)
abbrev HRT_GRT_PPMU_STATUS (g : Nat) : Nat := 0x108018 + 65536 * (g / 8) + 4096 * (g % 8)
abbrev HRT_GRT_PPMU_LAST (g : Nat) : Nat := 0x10801c + 65536 * (g / 8) + 4096 * (g % 8)
abbrev HRT_GRT_PIN_THR (ch : Nat) : Nat := 0x108020 + 65536 * (ch / 64) + 4096 * (ch / 8 % 8) + 4 * (ch % 8)
abbrev HRT_GRT_PIN_STATE (ch : Nat) : Nat := 0x108040 + 65536 * (ch / 64) + 4096 * (ch / 8 % 8) + 4 * (ch % 8)
abbrev HRT_GRT_SPARE_RELAY (h : Nat) : Nat := 0x108060 + 65536 * h

/-! Registers of spec/04_edge_timing.md R128. -/
abbrev HRT_TIM_LIVE_VALID (h : Nat) : Nat := 0x100400 + 65536 * h
abbrev HRT_TIM_SHADOW_VALID (h : Nat) : Nat := 0x100404 + 65536 * h
abbrev HRT_TIM_REFUSE (h : Nat) : Nat := 0x100408 + 65536 * h
abbrev HRT_TIM_RB_SEL (h : Nat) : Nat := 0x10040c + 65536 * h
abbrev HRT_TIM_RB_PERIOD (h : Nat) : Nat := 0x100410 + 65536 * h
abbrev HRT_TIM_RB_MODE (h : Nat) : Nat := 0x100414 + 65536 * h
abbrev HRT_TIM_RB_EDGE (h i : Nat) : Nat := 0x100418 + 65536 * h + 4 * i

/-! Registers of spec/06_site_sequencers.md R204. -/
abbrev HRT_SEQ_CFG : Nat := 0x100000
abbrev HRT_SEQ_ENGINES (h : Nat) : Nat := 0x100004 + 65536 * h
abbrev HRT_SEQ_ENGINE_OWNER (h : Nat) : Nat := 0x100008 + 65536 * h
abbrev HRT_INT_ROUTE (h : Nat) : Nat := 0x10000c + 65536 * h
abbrev HRT_INT_STATUS (h : Nat) : Nat := 0x100010 + 65536 * h
abbrev HRT_INT_EN (h : Nat) : Nat := 0x100014 + 65536 * h
abbrev HRT_SEQ_REFUSE (h : Nat) : Nat := 0x100018 + 65536 * h
abbrev HRT_HOLD_CTRL : Nat := 0x100020
abbrev HRT_HOLD_BASE : Nat := 0x100024
abbrev HRT_HOLD_PI : Nat := 0x100028
abbrev HRT_HOLD_CI : Nat := 0x10002c
abbrev HRT_HOLD_STATUS : Nat := 0x100030
abbrev HRT_SITE_STATUS (site : Nat) : Nat := 0x100100 + 65536 * (site / 16) + 32 * (site % 16)
abbrev HRT_SITE_PC (site : Nat) : Nat := 0x100104 + 65536 * (site / 16) + 32 * (site % 16)
abbrev HRT_SITE_VC_LO (site : Nat) : Nat := 0x100108 + 65536 * (site / 16) + 32 * (site % 16)
abbrev HRT_SITE_VC_HI (site : Nat) : Nat := 0x10010c + 65536 * (site / 16) + 32 * (site % 16)
abbrev HRT_SITE_HOLD (site : Nat) : Nat := 0x100110 + 65536 * (site / 16) + 32 * (site % 16)
abbrev HRT_SITE_HOLD_US (site : Nat) : Nat := 0x100114 + 65536 * (site / 16) + 32 * (site % 16)
abbrev HRT_SITE_BIND (site : Nat) : Nat := 0x100118 + 65536 * (site / 16) + 32 * (site % 16)
abbrev HRT_SITE_HEARTHS (site : Nat) : Nat := 0x10011c + 65536 * (site / 16) + 32 * (site % 16)

/-! Registers of spec/07_pattern_streaming.md R225. -/
abbrev HRT_STR_CFG (h : Nat) : Nat := 0x100600 + 65536 * h
abbrev HRT_STR_WINDOW (h : Nat) : Nat := 0x100604 + 65536 * h
abbrev HRT_STR_CHARGE (h : Nat) : Nat := 0x100608 + 65536 * h
abbrev HRT_STR_REFUSE (h : Nat) : Nat := 0x10060c + 65536 * h
abbrev HRT_STR_MARGIN (u : Nat) : Nat := 0x100610 + 65536 * (u / 4) + 4 * (u % 4)
abbrev HRT_STR_LOW (u : Nat) : Nat := 0x100620 + 65536 * (u / 4) + 4 * (u % 4)
abbrev HRT_STR_COUNTS (h : Nat) : Nat := 0x100630 + 65536 * h
abbrev HRT_STR_ADM_LIMIT : Nat := 0x100640
abbrev HRT_STR_ADM_USED : Nat := 0x100644
abbrev HRT_STR_ADM_STATUS : Nat := 0x100648

/-! Registers of spec/08_capture.md R257. -/
abbrev HRT_CAP_REFUSE (h : Nat) : Nat := 0x100800 + 65536 * h
abbrev HRT_CAP_SHARE (h : Nat) : Nat := 0x100804 + 65536 * h
abbrev HRT_CAP_DRAIN (h : Nat) : Nat := 0x100808 + 65536 * h
abbrev HRT_CAP_PEAK (h : Nat) : Nat := 0x10080c + 65536 * h
abbrev HRT_CAP_STATUS (site : Nat) : Nat := 0x100900 + 65536 * (site / 16) + 16 * (site % 16)
abbrev HRT_CAP_RECORDS (site : Nat) : Nat := 0x100904 + 65536 * (site / 16) + 16 * (site % 16)
abbrev HRT_CAP_DROPPED (site : Nat) : Nat := 0x100908 + 65536 * (site / 16) + 16 * (site % 16)
abbrev HRT_CAP_MODEL (site : Nat) : Nat := 0x10090c + 65536 * (site / 16) + 16 * (site % 16)

/-! Registers of spec/09_time_measurement.md R281. -/
abbrev TMU_REF_STATUS : Nat := 0xc0000
abbrev TMU_TB_STATUS : Nat := 0xc0004
abbrev TMU_TB_LO : Nat := 0xc0008
abbrev TMU_TB_HI : Nat := 0xc000c
abbrev TMU_CAL_MASK : Nat := 0xc0010
abbrev TMU_CAL_CTRL : Nat := 0xc0014
abbrev TMU_CAL_FAIL : Nat := 0xc0018
abbrev TMU_INT_STATUS : Nat := 0xc0020
abbrev TMU_INT_EN : Nat := 0xc0024
abbrev TMU_INT_ROUTE : Nat := 0xc0028
abbrev TMU_TEST : Nat := 0xc0030
abbrev TMU_CH_CFG (i : Nat) : Nat := 0xc0100 + 64 * i
abbrev TMU_CH_CTRL (i : Nat) : Nat := 0xc0104 + 64 * i
abbrev TMU_CH_STATUS (i : Nat) : Nat := 0xc0108 + 64 * i
abbrev TMU_CH_BUF_BASE (i : Nat) : Nat := 0xc010c + 64 * i
abbrev TMU_CH_BUF_SIZE (i : Nat) : Nat := 0xc0110 + 64 * i
abbrev TMU_CH_WR (i : Nat) : Nat := 0xc0114 + 64 * i
abbrev TMU_CH_RD (i : Nat) : Nat := 0xc0118 + 64 * i
abbrev TMU_CH_MISSED (i : Nat) : Nat := 0xc011c + 64 * i
abbrev TMU_CH_LOST (i : Nat) : Nat := 0xc0120 + 64 * i
abbrev TMU_CH_DIFF_MAX (i : Nat) : Nat := 0xc0124 + 64 * i

/-! Registers of spec/10_clock_synthesis.md R298. -/
abbrev HRT_DDS_REFUSE (h : Nat) : Nat := 0x100a00 + 65536 * h
abbrev HRT_DDS_STATUS (u : Nat) : Nat := 0x100a40 + 65536 * (u / 4) + 32 * (u % 4)
abbrev HRT_DDS_FTW_LO (u : Nat) : Nat := 0x100a44 + 65536 * (u / 4) + 32 * (u % 4)
abbrev HRT_DDS_FTW_HI (u : Nat) : Nat := 0x100a48 + 65536 * (u / 4) + 32 * (u % 4)
abbrev HRT_DDS_STEPS (u : Nat) : Nat := 0x100a4c + 65536 * (u / 4) + 32 * (u % 4)
abbrev HRT_DDS_ALIGNS (u : Nat) : Nat := 0x100a50 + 65536 * (u / 4) + 32 * (u % 4)
abbrev HRT_DDS_DELAYED (u : Nat) : Nat := 0x100a54 + 65536 * (u / 4) + 32 * (u % 4)

/-! Registers of spec/11_clocks_plls.md R322. -/
abbrev CLK_STATUS : Nat := 0x30000
abbrev CLK_INT_STATUS : Nat := 0x30004
abbrev CLK_INT_EN : Nat := 0x30008
abbrev CLK_INT_ROUTE : Nat := 0x3000c
abbrev CLK_SYNC_CFG : Nat := 0x30010
abbrev CLK_SYNC_STATUS : Nat := 0x30014
abbrev CLK_EMBER_STATUS : Nat := 0x30018
abbrev CLK_BAND_SEL : Nat := 0x30020
abbrev CLK_BAND_DATA : Nat := 0x30024
abbrev CLK_PLL_CTRL (i : Nat) : Nat := 0x30100 + 32 * i
abbrev CLK_PLL_LIMIT (i : Nat) : Nat := 0x30104 + 32 * i
abbrev CLK_PLL_STATUS (i : Nat) : Nat := 0x30108 + 32 * i
abbrev CLK_GRID_PHASE : Nat := 0x3010c
abbrev CLK_OUT_CFG (i : Nat) : Nat := 0x30200 + 16 * i
abbrev CLK_OUT_STATUS (i : Nat) : Nat := 0x30204 + 16 * i

/-! Registers of spec/12_flue_hierarchy.md R351. -/
abbrev FLU_CFG : Nat := 0xa0000
abbrev FLU_STATUS : Nat := 0xa0004
abbrev FLU_EPOCH_LO : Nat := 0xa0008
abbrev FLU_EPOCH_HI : Nat := 0xa000c
abbrev FLU_LATE : Nat := 0xa0010
abbrev FLU_INT_STATUS : Nat := 0xa0014
abbrev FLU_INT_EN : Nat := 0xa0018
abbrev FLU_INT_ROUTE : Nat := 0xa001c
abbrev FLU_TREE_PRESENT (i : Nat) : Nat := 0xa0020 + 4 * i
abbrev FLU_RACC_CTRL : Nat := 0xa0040
abbrev FLU_RACC_ADDR_LO : Nat := 0xa0044
abbrev FLU_RACC_ADDR_HI : Nat := 0xa0048
abbrev FLU_RACC_DATA : Nat := 0xa004c
abbrev FLU_SKEW_CTRL : Nat := 0xa0060
abbrev FLU_SKEW_RESULT : Nat := 0xa0064
abbrev FLU_PORT_CTRL (i : Nat) : Nat := 0xa0100 + 256 * i
abbrev FLU_PORT_STATUS (i : Nat) : Nat := 0xa0104 + 256 * i
abbrev FLU_PORT_EQ (i : Nat) : Nat := 0xa0108 + 256 * i
abbrev FLU_PORT_ERRORS (i : Nat) : Nat := 0xa010c + 256 * i
abbrev FLU_PORT_LANE (i j : Nat) : Nat := 0xa0140 + 256 * i + 4 * j

/-! Registers of spec/13_rings.md R384. -/
abbrev RING_PENDING_LO : Nat := 0x60000
abbrev RING_PENDING_HI : Nat := 0x60004
abbrev RING_CTRL (i : Nat) : Nat := 0x60100 + 64 * i
abbrev RING_SIZE (i : Nat) : Nat := 0x60104 + 64 * i
abbrev RING_CMD_BASE (i : Nat) : Nat := 0x60108 + 64 * i
abbrev RING_CMP_BASE (i : Nat) : Nat := 0x6010c + 64 * i
abbrev RING_DB_LO (i : Nat) : Nat := 0x60110 + 64 * i
abbrev RING_DB_HI (i : Nat) : Nat := 0x60114 + 64 * i
abbrev RING_SB_LO (i : Nat) : Nat := 0x60118 + 64 * i
abbrev RING_SB_HI (i : Nat) : Nat := 0x6011c + 64 * i
abbrev RING_SEQ (i : Nat) : Nat := 0x60120 + 64 * i
abbrev RING_CI (i : Nat) : Nat := 0x60124 + 64 * i
abbrev RING_DEV_SEQ (i : Nat) : Nat := 0x60128 + 64 * i
abbrev RING_STATUS (i : Nat) : Nat := 0x6012c + 64 * i
abbrev RING_INT (i : Nat) : Nat := 0x60130 + 64 * i
abbrev RING_ERRORS (i : Nat) : Nat := 0x60134 + 64 * i

/-! Registers of spec/14_draught_scheduler.md R405. -/
abbrev DRT_CFG : Nat := 0x70000
abbrev DRT_AGE : Nat := 0x70004
abbrev DRT_STATUS : Nat := 0x70008
abbrev DRT_INT_STATUS : Nat := 0x7000c
abbrev DRT_INT_EN : Nat := 0x70010
abbrev DRT_INT_ROUTE : Nat := 0x70014
abbrev DRT_COUNTS : Nat := 0x70018
abbrev DRT_RECIPE_STATUS : Nat := 0x7001c
abbrev DRT_RES_BASE : Nat := 0x70020
abbrev DRT_TRACE_BASE : Nat := 0x70024
abbrev DRT_Q_BASE (i : Nat) : Nat := 0x70100 + 32 * i
abbrev DRT_RES_SIZE : Nat := 0x70028
abbrev DRT_RES_PI : Nat := 0x7002c
abbrev DRT_RES_CI : Nat := 0x70030
abbrev DRT_TRACE_CTRL : Nat := 0x70034
abbrev DRT_RECIPE (i : Nat) : Nat := 0x70040 + 4 * i
abbrev DRT_STAGED (i : Nat) : Nat := 0x70080 + 4 * i
abbrev DRT_Q_CTRL (i : Nat) : Nat := 0x70104 + 32 * i
abbrev DRT_Q_PI (i : Nat) : Nat := 0x70108 + 32 * i
abbrev DRT_Q_CI (i : Nat) : Nat := 0x7010c + 32 * i
abbrev DRT_Q_STATUS (i : Nat) : Nat := 0x70110 + 32 * i
abbrev DRT_Q_DISPATCHED (i : Nat) : Nat := 0x70114 + 32 * i
abbrev DRT_Q_SPILLED (i : Nat) : Nat := 0x70118 + 32 * i

/-! Registers of spec/15_mailboxes.md R418. -/
abbrev MBX_FLUE_DROPS : Nat := 0x50000
abbrev MBX_EPOCH_CORE_LO : Nat := 0x50004
abbrev MBX_EPOCH_CORE_HI : Nat := 0x50008
abbrev MBX_EPOCH_OTHER : Nat := 0x5000c
abbrev MBX_EPOCH_FLUE : Nat := 0x50010
abbrev MBX_LOCK_FREE : Nat := 0x50014
abbrev MBX_CFG (i : Nat) : Nat := 0x50100 + 64 * i
abbrev MBX_STATUS (i : Nat) : Nat := 0x50104 + 64 * i
abbrev MBX_TX (i : Nat) : Nat := 0x50108 + 64 * i
abbrev MBX_RX_DATA (i : Nat) : Nat := 0x5010c + 64 * i
abbrev MBX_RX_HEAD (i : Nat) : Nat := 0x50110 + 64 * i
abbrev MBX_WAIT (i : Nat) : Nat := 0x50114 + 64 * i
abbrev MBX_WAIT_STATUS (i : Nat) : Nat := 0x50118 + 64 * i
abbrev MBX_INT_EN (i : Nat) : Nat := 0x5011c + 64 * i
abbrev MBX_LOCK (i : Nat) : Nat := 0x50800 + 4 * i

/-! Registers of spec/16_dram.md R444. -/
abbrev DMC_CFG : Nat := 0x90000
abbrev DMC_REGION : Nat := 0x90004
abbrev DMC_REFRESH : Nat := 0x90008
abbrev DMC_TRFC : Nat := 0x9000c
abbrev DMC_THERMAL : Nat := 0x90010
abbrev DMC_SCRUB : Nat := 0x90014
abbrev DMC_HOT_CFG : Nat := 0x90018
abbrev DMC_INT_STATUS : Nat := 0x9001c
abbrev DMC_INT_EN : Nat := 0x90020
abbrev DMC_INT_ROUTE : Nat := 0x90024
abbrev DMC_PORT_CFG (i : Nat) : Nat := 0x90100 + 8 * i
abbrev DMC_PORT_MISSED (i : Nat) : Nat := 0x90104 + 8 * i
abbrev DMC_CH_STATUS (i : Nat) : Nat := 0x80000 + 8192 * i
abbrev DMC_CH_ECC (i : Nat) : Nat := 0x80004 + 8192 * i
abbrev DMC_CH_ERR_LO (i : Nat) : Nat := 0x80008 + 8192 * i
abbrev DMC_CH_ERR_HI (i : Nat) : Nat := 0x8000c + 8192 * i
abbrev DMC_CH_MR4 (i : Nat) : Nat := 0x80010 + 8192 * i
abbrev DMC_CH_REFSTAT (i : Nat) : Nat := 0x80014 + 8192 * i
abbrev DMC_CH_RETRAIN (i : Nat) : Nat := 0x80018 + 8192 * i
abbrev DMC_CH_HOT (i : Nat) : Nat := 0x8001c + 8192 * i

/-! Registers of spec/17_power.md R463. -/
abbrev EMB_PSTATE : Nat := 0x10200
abbrev EMB_PSTATE_REQ : Nat := 0x10204
abbrev EMB_WAKE_CFG : Nat := 0x10208
abbrev EMB_WAKE_CAUSE : Nat := 0x1020c
abbrev EMB_WAKE_ALARM_LO : Nat := 0x10210
abbrev EMB_WAKE_ALARM_HI : Nat := 0x10214
abbrev EMB_SAVE_BASE : Nat := 0x10218
abbrev EMB_RESUME_LO : Nat := 0x1021c
abbrev EMB_RESUME_HI : Nat := 0x10220
abbrev EMB_RAIL (i : Nat) : Nat := 0x10240 + 4 * i
abbrev PWR_SUP_CTRL : Nat := 0x20010
abbrev PWR_SUP_EN : Nat := 0x20014
abbrev PWR_SUP_PG : Nat := 0x20018
abbrev PWR_SUP_FAULT : Nat := 0x2001c
abbrev PWR_SUP_READ : Nat := 0x20020
abbrev PWR_SUP_VALUE : Nat := 0x20024
abbrev PWR_SUP_VSTATUS : Nat := 0x20028
abbrev PWR_INT_STATUS : Nat := 0x20030
abbrev PWR_INT_EN : Nat := 0x20034
abbrev PWR_INT_ROUTE : Nat := 0x20038
abbrev PWR_DOMAIN_STATE (i : Nat) : Nat := 0x20040 + 4 * i
abbrev PWR_DOMAIN_CTRL : Nat := 0x200a0
abbrev PWR_SUP_CFG (i : Nat) : Nat := 0x20100 + 4 * i
abbrev PWR_SEQ_UP (i : Nat) : Nat := 0x20200 + 4 * i
abbrev PWR_SEQ_DOWN (i : Nat) : Nat := 0x20240 + 4 * i

/-! Registers of spec/18_faults_douse.md R479. -/
abbrev FLT_WORD_LO : Nat := 0x40000
abbrev FLT_WORD_HI : Nat := 0x40004
abbrev FLT_PREV_LO : Nat := 0x40008
abbrev FLT_PREV_HI : Nat := 0x4000c
abbrev FLT_CFG (i : Nat) : Nat := 0x40010 + 4 * i
abbrev FLT_FIRST : Nat := 0x40030
abbrev FLT_DOUSE : Nat := 0x40034
abbrev FLT_DOUSE_STATUS : Nat := 0x40038
abbrev FLT_DOUSE_COUNT : Nat := 0x4003c
abbrev FLT_INT_ROUTE : Nat := 0x40040
abbrev FLT_LLK_CFG : Nat := 0x40044
abbrev FLT_LLK_COUNTS : Nat := 0x40048
abbrev FLT_LLK_SRC_LO (i : Nat) : Nat := 0x40050 + 8 * i
abbrev FLT_LLK_SRC_HI (i : Nat) : Nat := 0x40054 + 8 * i
abbrev FLT_INJECT_LO : Nat := 0x40070
abbrev FLT_INJECT_HI : Nat := 0x40074

/-! Registers of spec/19_calibration.md R497. -/
abbrev CAL_PROC : Nat := 0xd0000
abbrev CAL_PROC_STATUS : Nat := 0xd0004
abbrev CAL_CFG : Nat := 0xd0008
abbrev CAL_INT_STATUS : Nat := 0xd000c
abbrev CAL_INT_EN : Nat := 0xd0010
abbrev CAL_INT_ROUTE : Nat := 0xd0014
abbrev CAL_DUE : Nat := 0xd0018
abbrev CAL_PENDING : Nat := 0xd001c
abbrev CAL_TAB_COUNT (i : Nat) : Nat := 0xd0100 + 16 * i
abbrev CAL_TAB_TIME_LO (i : Nat) : Nat := 0xd0104 + 16 * i
abbrev CAL_TAB_TIME_HI (i : Nat) : Nat := 0xd0108 + 16 * i
abbrev CAL_TAB_STATUS (i : Nat) : Nat := 0xd010c + 16 * i

/-! Registers of spec/20_time_ledger_audit.md R526. -/
abbrev MGT_PORT_CTRL (i : Nat) : Nat := 0xb0000 + 16 * i
abbrev MGT_PORT_STATUS (i : Nat) : Nat := 0xb0004 + 16 * i
abbrev MGT_PORT_MAC_LO (i : Nat) : Nat := 0xb0008 + 16 * i
abbrev MGT_PORT_MAC_HI (i : Nat) : Nat := 0xb000c + 16 * i
abbrev MGT_TIME_NS : Nat := 0xb0040
abbrev MGT_TIME_SEC_LO : Nat := 0xb0044
abbrev MGT_TIME_SEC_HI : Nat := 0xb0048
abbrev MGT_TIME_INC_LO : Nat := 0xb004c
abbrev MGT_TIME_INC_HI : Nat := 0xb0050
abbrev MGT_TIME_ADJ : Nat := 0xb0054
abbrev MGT_TIME_SET_SEC_LO : Nat := 0xb0058
abbrev MGT_TIME_SET_SEC_HI : Nat := 0xb005c
abbrev MGT_TIME_STATUS : Nat := 0xb0060
abbrev MGT_PTP_CFG : Nat := 0xb0064
abbrev MGT_PTP_MASTER (i : Nat) : Nat := 0xb0068 + 4 * i
abbrev MGT_TS_INFO (i : Nat) : Nat := 0xb0080 + 16 * i
abbrev MGT_TS_NS (i : Nat) : Nat := 0xb0084 + 16 * i
abbrev MGT_TS_SEC_LO (i : Nat) : Nat := 0xb0088 + 16 * i
abbrev MGT_TS_SEC_HI (i : Nat) : Nat := 0xb008c + 16 * i
abbrev MGT_INT_STATUS : Nat := 0xb00a0
abbrev MGT_INT_EN : Nat := 0xb00a4
abbrev MGT_INT_ROUTE : Nat := 0xb00a8

/-! Registers of spec/20_time_ledger_audit.md R527. -/
abbrev EMB_RTC_SEC_LO : Nat := 0x10100
abbrev EMB_RTC_SEC_HI : Nat := 0x10104
abbrev EMB_RTC_STATUS : Nat := 0x10108
abbrev LDG_SEL : Nat := 0xe0000
abbrev LDG_DATA_LO : Nat := 0xe0004
abbrev LDG_DATA_HI : Nat := 0xe0008
abbrev LDG_STATUS : Nat := 0xe000c
abbrev LDG_SERVICE : Nat := 0xe0010
abbrev AUD_STATUS : Nat := 0xe8000
abbrev AUD_COUNT_LO : Nat := 0xe8004
abbrev AUD_COUNT_HI : Nat := 0xe8008
abbrev AUD_RD_INDEX_LO : Nat := 0xe8010
abbrev AUD_RD_INDEX_HI : Nat := 0xe8014
abbrev AUD_RD_CTRL : Nat := 0xe8018
abbrev AUD_RD_DATA (i : Nat) : Nat := 0xe8100 + 4 * i
abbrev AUD_PERM_REG (i : Nat) : Nat := 0xe8200 + 4 * i
abbrev AUD_PERM_DESC : Nat := 0xe8280
abbrev AUD_VIOL_ADDR_LO : Nat := 0xe8290
abbrev AUD_VIOL_ADDR_HI : Nat := 0xe8294
abbrev AUD_VIOL_INFO : Nat := 0xe8298

/-! Registers of spec/21_kindling_security.md R548. -/
abbrev SEC_CTRL : Nat := 0xf0000
abbrev SEC_STATUS : Nat := 0xf0004
abbrev SEC_KINDLE : Nat := 0xf0008
abbrev SEC_ADDR_LO : Nat := 0xf000c
abbrev SEC_ADDR_HI : Nat := 0xf0010
abbrev SEC_FLASH_OFF : Nat := 0xf0014
abbrev SEC_WDOG : Nat := 0xf0018
abbrev SEC_BOOT (i : Nat) : Nat := 0xf0020 + 4 * i
abbrev SEC_DATA (i : Nat) : Nat := 0xf0040 + 4 * i
abbrev SEC_IDKEY (i : Nat) : Nat := 0xf0080 + 4 * i

/-! Registers of spec/22_electrical.md R559. -/
abbrev PWR_TEMP (i : Nat) : Nat := 0x20300 + 4 * i
abbrev PWR_TEMP_MAX : Nat := 0x20340
end R

namespace F
abbrev GLB_ID_VENDOR : Fld := ⟨16, 16⟩
abbrev GLB_ID_PART : Fld := ⟨0, 16⟩
abbrev GLB_STEPPING_MAJOR : Fld := ⟨8, 8⟩
abbrev GLB_STEPPING_MINOR : Fld := ⟨0, 8⟩
abbrev GLB_GRADE_MIN_PERIOD_PS : Fld := ⟨16, 12⟩
abbrev GLB_GRADE_GRADE : Fld := ⟨0, 8⟩
abbrev GLB_SERIAL_LO_SERIAL : Fld := ⟨0, 32⟩
abbrev GLB_SERIAL_HI_SERIAL : Fld := ⟨0, 32⟩
abbrev GLB_STRAP_ROLE : Fld := ⟨0, 2⟩
abbrev GLB_ROLE_STRAP_BAD : Fld := ⟨31, 1⟩
abbrev GLB_ROLE_UPSTREAM_PORT : Fld := ⟨16, 2⟩
abbrev GLB_ROLE_DEVICE_NUM : Fld := ⟨8, 7⟩
abbrev GLB_ROLE_TREE_LEVEL : Fld := ⟨4, 3⟩
abbrev GLB_ROLE_ROLE : Fld := ⟨0, 2⟩
abbrev GLB_DEVICE_EPOCH_EPOCH : Fld := ⟨0, 32⟩
abbrev GLB_CAPACITY_DRAM_GIB : Fld := ⟨0, 12⟩
abbrev HRT_GRT_PWR_IDLE_MS : Fld := ⟨16, 16⟩
abbrev HRT_GRT_PWR_STATE : Fld := ⟨4, 3⟩
abbrev HRT_GRT_PWR_POLICY : Fld := ⟨0, 2⟩
abbrev HRT_GRT_LIVE_DRV_VIL : Fld := ⟨16, 16⟩
abbrev HRT_GRT_LIVE_DRV_VIH : Fld := ⟨0, 16⟩
abbrev HRT_GRT_LIVE_TERM_VTT : Fld := ⟨0, 16⟩
abbrev HRT_GRT_RELAY_SETTLE_US : Fld := ⟨16, 16⟩
abbrev HRT_GRT_RELAY_DUE : Fld := ⟨2, 1⟩
abbrev HRT_GRT_RELAY_SETTLING : Fld := ⟨1, 1⟩
abbrev HRT_GRT_RELAY_LIVE : Fld := ⟨0, 1⟩
abbrev HRT_GRT_STATUS_LVL_SETTLED : Fld := ⟨8, 1⟩
abbrev HRT_GRT_STATUS_OVL_PIN : Fld := ⟨4, 3⟩
abbrev HRT_GRT_STATUS_PPMU_CLAMP : Fld := ⟨2, 1⟩
abbrev HRT_GRT_STATUS_VTT_OVL : Fld := ⟨1, 1⟩
abbrev HRT_GRT_STATUS_DRV_OVL : Fld := ⟨0, 1⟩
abbrev HRT_GRT_INT_EN_SETTLED : Fld := ⟨8, 1⟩
abbrev HRT_GRT_INT_EN_PPMU_CLAMP : Fld := ⟨2, 1⟩
abbrev HRT_GRT_INT_EN_VTT_OVL : Fld := ⟨1, 1⟩
abbrev HRT_GRT_INT_EN_DRV_OVL : Fld := ⟨0, 1⟩
abbrev HRT_GRT_PPMU_STATUS_PIN : Fld := ⟨8, 3⟩
abbrev HRT_GRT_PPMU_STATUS_BUSY : Fld := ⟨5, 1⟩
abbrev HRT_GRT_PPMU_STATUS_STATIC : Fld := ⟨4, 1⟩
abbrev HRT_GRT_PPMU_STATUS_RANGE : Fld := ⟨2, 2⟩
abbrev HRT_GRT_PPMU_STATUS_MODE : Fld := ⟨0, 2⟩
abbrev HRT_GRT_PPMU_LAST_OVERRANGE : Fld := ⟨17, 1⟩
abbrev HRT_GRT_PPMU_LAST_CLAMP : Fld := ⟨16, 1⟩
abbrev HRT_GRT_PPMU_LAST_CODE : Fld := ⟨0, 16⟩
abbrev HRT_GRT_PIN_THR_VOL : Fld := ⟨16, 16⟩
abbrev HRT_GRT_PIN_THR_VOH : Fld := ⟨0, 16⟩
abbrev HRT_GRT_PIN_STATE_BOUND : Fld := ⟨16, 1⟩
abbrev HRT_GRT_PIN_STATE_SITE : Fld := ⟨8, 8⟩
abbrev HRT_GRT_PIN_STATE_LEVEL : Fld := ⟨6, 2⟩
abbrev HRT_GRT_PIN_STATE_DDS : Fld := ⟨5, 1⟩
abbrev HRT_GRT_PIN_STATE_PPMU : Fld := ⟨4, 1⟩
abbrev HRT_GRT_PIN_STATE_SAFE : Fld := ⟨3, 1⟩
abbrev HRT_GRT_PIN_STATE_PRESENT : Fld := ⟨2, 1⟩
abbrev HRT_GRT_PIN_STATE_TERM : Fld := ⟨0, 2⟩
abbrev HRT_GRT_SPARE_RELAY_SETTLE_US : Fld := ⟨16, 16⟩
abbrev HRT_GRT_SPARE_RELAY_DUE : Fld := ⟨2, 1⟩
abbrev HRT_GRT_SPARE_RELAY_SETTLING : Fld := ⟨1, 1⟩
abbrev HRT_GRT_SPARE_RELAY_LIVE : Fld := ⟨0, 1⟩
abbrev HRT_TIM_LIVE_VALID_VALID : Fld := ⟨0, 32⟩
abbrev HRT_TIM_SHADOW_VALID_VALID : Fld := ⟨0, 32⟩
abbrev HRT_TIM_REFUSE_CHECK : Fld := ⟨24, 8⟩
abbrev HRT_TIM_REFUSE_EDGE_B : Fld := ⟨21, 3⟩
abbrev HRT_TIM_REFUSE_EDGE_A : Fld := ⟨18, 3⟩
abbrev HRT_TIM_REFUSE_PIN : Fld := ⟨12, 6⟩
abbrev HRT_TIM_REFUSE_SET_B : Fld := ⟨7, 5⟩
abbrev HRT_TIM_REFUSE_SET_A : Fld := ⟨2, 5⟩
abbrev HRT_TIM_REFUSE_PAIR : Fld := ⟨1, 1⟩
abbrev HRT_TIM_REFUSE_VALID : Fld := ⟨0, 1⟩
abbrev HRT_TIM_RB_SEL_PIN : Fld := ⟨8, 6⟩
abbrev HRT_TIM_RB_SEL_SET : Fld := ⟨0, 5⟩
abbrev HRT_TIM_RB_PERIOD_TICKS : Fld := ⟨8, 24⟩
abbrev HRT_TIM_RB_PERIOD_FINE : Fld := ⟨0, 8⟩
abbrev HRT_TIM_RB_MODE_SET_VALID : Fld := ⟨15, 1⟩
abbrev HRT_TIM_RB_MODE_STROBE : Fld := ⟨3, 2⟩
abbrev HRT_TIM_RB_MODE_FORMAT : Fld := ⟨0, 3⟩
abbrev HRT_TIM_RB_EDGE_CODES : Fld := ⟨0, 32⟩
abbrev HRT_SEQ_CFG_RDV_MAX_EPOCHS : Fld := ⟨16, 16⟩
abbrev HRT_SEQ_CFG_RDV_LEAD : Fld := ⟨0, 8⟩
abbrev HRT_SEQ_ENGINES_PENDING : Fld := ⟨16, 5⟩
abbrev HRT_SEQ_ENGINES_BUSY : Fld := ⟨0, 4⟩
abbrev HRT_SEQ_ENGINE_OWNER_OWNER3 : Fld := ⟨24, 8⟩
abbrev HRT_SEQ_ENGINE_OWNER_OWNER2 : Fld := ⟨16, 8⟩
abbrev HRT_SEQ_ENGINE_OWNER_OWNER1 : Fld := ⟨8, 8⟩
abbrev HRT_SEQ_ENGINE_OWNER_OWNER0 : Fld := ⟨0, 8⟩
abbrev HRT_INT_ROUTE_TARGET : Fld := ⟨3, 2⟩
abbrev HRT_INT_ROUTE_CORE : Fld := ⟨0, 3⟩
abbrev HRT_INT_STATUS_STACK_FAULT : Fld := ⟨12, 1⟩
abbrev HRT_INT_STATUS_SMOTHER : Fld := ⟨11, 1⟩
abbrev HRT_INT_STATUS_PENDING : Fld := ⟨10, 1⟩
abbrev HRT_INT_STATUS_HOLD : Fld := ⟨9, 1⟩
abbrev HRT_INT_STATUS_SITE_END : Fld := ⟨8, 1⟩
abbrev HRT_INT_STATUS_GRATE : Fld := ⟨0, 8⟩
abbrev HRT_INT_EN_EN : Fld := ⟨8, 5⟩
abbrev HRT_SEQ_REFUSE_CHECK : Fld := ⟨24, 8⟩
abbrev HRT_SEQ_REFUSE_SITE : Fld := ⟨16, 8⟩
abbrev HRT_SEQ_REFUSE_PIN : Fld := ⟨1, 10⟩
abbrev HRT_SEQ_REFUSE_VALID : Fld := ⟨0, 1⟩
abbrev HRT_HOLD_CTRL_ENABLE : Fld := ⟨31, 1⟩
abbrev HRT_HOLD_CTRL_LOG2 : Fld := ⟨0, 5⟩
abbrev HRT_HOLD_BASE_ADDR : Fld := ⟨0, 32⟩
abbrev HRT_HOLD_PI_INDEX : Fld := ⟨0, 32⟩
abbrev HRT_HOLD_CI_INDEX : Fld := ⟨0, 32⟩
abbrev HRT_HOLD_STATUS_LOST : Fld := ⟨16, 16⟩
abbrev HRT_HOLD_STATUS_QUEUED : Fld := ⟨0, 9⟩
abbrev HRT_SITE_STATUS_GROUP : Fld := ⟨24, 8⟩
abbrev HRT_SITE_STATUS_GANG_MEMBER : Fld := ⟨22, 1⟩
abbrev HRT_SITE_STATUS_RDV_WAIT : Fld := ⟨21, 1⟩
abbrev HRT_SITE_STATUS_HOLDING : Fld := ⟨20, 1⟩
abbrev HRT_SITE_STATUS_PENDING : Fld := ⟨19, 1⟩
abbrev HRT_SITE_STATUS_ENGINE_VALID : Fld := ⟨18, 1⟩
abbrev HRT_SITE_STATUS_ENGINE : Fld := ⟨16, 2⟩
abbrev HRT_SITE_STATUS_REASON : Fld := ⟨8, 8⟩
abbrev HRT_SITE_STATUS_INVALID : Fld := ⟨7, 1⟩
abbrev HRT_SITE_STATUS_END_CAUSE : Fld := ⟨4, 3⟩
abbrev HRT_SITE_STATUS_STATE : Fld := ⟨0, 4⟩
abbrev HRT_SITE_PC_PC : Fld := ⟨0, 32⟩
abbrev HRT_SITE_VC_LO_VC : Fld := ⟨0, 32⟩
abbrev HRT_SITE_VC_HI_VC : Fld := ⟨0, 16⟩
abbrev HRT_SITE_HOLD_COUNT : Fld := ⟨0, 16⟩
abbrev HRT_SITE_HOLD_US_TOTAL_US : Fld := ⟨0, 32⟩
abbrev HRT_SITE_BIND_MULTI_DEVICE : Fld := ⟨18, 1⟩
abbrev HRT_SITE_BIND_GANG : Fld := ⟨17, 1⟩
abbrev HRT_SITE_BIND_BOUND : Fld := ⟨16, 1⟩
abbrev HRT_SITE_BIND_IMAGE : Fld := ⟨0, 16⟩
abbrev HRT_SITE_HEARTHS_HEARTHS : Fld := ⟨0, 16⟩
abbrev HRT_STR_CFG_ENGINES : Fld := ⟨0, 3⟩
abbrev HRT_STR_WINDOW_POOL_KIB : Fld := ⟨16, 13⟩
abbrev HRT_STR_WINDOW_RING_KIB : Fld := ⟨0, 13⟩
abbrev HRT_STR_CHARGE_CHARGE_MBPS : Fld := ⟨0, 32⟩
abbrev HRT_STR_REFUSE_CHECK : Fld := ⟨24, 8⟩
abbrev HRT_STR_REFUSE_IMAGE : Fld := ⟨8, 16⟩
abbrev HRT_STR_REFUSE_VALID : Fld := ⟨0, 1⟩
abbrev HRT_STR_MARGIN_MARGIN : Fld := ⟨0, 32⟩
abbrev HRT_STR_LOW_LOW : Fld := ⟨0, 32⟩
abbrev HRT_STR_COUNTS_UNDERRUNS : Fld := ⟨16, 16⟩
abbrev HRT_STR_COUNTS_REFILL_HOLDS : Fld := ⟨0, 16⟩
abbrev HRT_STR_ADM_LIMIT_LIMIT_MBPS : Fld := ⟨0, 32⟩
abbrev HRT_STR_ADM_USED_USED_MBPS : Fld := ⟨0, 32⟩
abbrev HRT_STR_ADM_STATUS_OVER : Fld := ⟨31, 1⟩
abbrev HRT_STR_ADM_STATUS_T_GAP_NS : Fld := ⟨0, 16⟩
abbrev HRT_CAP_REFUSE_CHECK : Fld := ⟨24, 8⟩
abbrev HRT_CAP_REFUSE_SITE : Fld := ⟨16, 8⟩
abbrev HRT_CAP_REFUSE_WINDOW : Fld := ⟨12, 4⟩
abbrev HRT_CAP_REFUSE_PIN : Fld := ⟨2, 10⟩
abbrev HRT_CAP_REFUSE_VALID : Fld := ⟨0, 1⟩
abbrev HRT_CAP_SHARE_CLAIMED_KIB : Fld := ⟨16, 9⟩
abbrev HRT_CAP_SHARE_PLANS : Fld := ⟨0, 16⟩
abbrev HRT_CAP_DRAIN_DRAIN_MBPS : Fld := ⟨0, 32⟩
abbrev HRT_CAP_PEAK_PEAK_KIB : Fld := ⟨0, 9⟩
abbrev HRT_CAP_STATUS_PLAN : Fld := ⟨16, 1⟩
abbrev HRT_CAP_STATUS_K : Fld := ⟨12, 4⟩
abbrev HRT_CAP_STATUS_RESULTS_FULL : Fld := ⟨8, 1⟩
abbrev HRT_CAP_STATUS_BUFFER_FULL : Fld := ⟨7, 1⟩
abbrev HRT_CAP_STATUS_STOPPED : Fld := ⟨6, 1⟩
abbrev HRT_CAP_RECORDS_RECORDS : Fld := ⟨0, 32⟩
abbrev HRT_CAP_DROPPED_DROPPED : Fld := ⟨0, 32⟩
abbrev HRT_CAP_MODEL_O_BYTES : Fld := ⟨0, 32⟩
abbrev TMU_REF_STATUS_LOSS_COUNT : Fld := ⟨16, 16⟩
abbrev TMU_REF_STATUS_EPOCH_KNOWN : Fld := ⟨3, 1⟩
abbrev TMU_REF_STATUS_TB_VALID : Fld := ⟨2, 1⟩
abbrev TMU_REF_STATUS_GRID_LOCK : Fld := ⟨1, 1⟩
abbrev TMU_REF_STATUS_PRESENT : Fld := ⟨0, 1⟩
abbrev TMU_TB_STATUS_SLIP_COUNT : Fld := ⟨16, 16⟩
abbrev TMU_TB_STATUS_SLIP : Fld := ⟨0, 1⟩
abbrev TMU_TB_LO_TB : Fld := ⟨0, 32⟩
abbrev TMU_TB_HI_TB : Fld := ⟨0, 32⟩
abbrev TMU_CAL_MASK_MASK : Fld := ⟨0, 32⟩
abbrev TMU_CAL_CTRL_BUSY : Fld := ⟨1, 1⟩
abbrev TMU_CAL_CTRL_START : Fld := ⟨0, 1⟩
abbrev TMU_CAL_FAIL_FAIL : Fld := ⟨0, 32⟩
abbrev TMU_INT_STATUS_GAP : Fld := ⟨3, 1⟩
abbrev TMU_INT_STATUS_CAL_DONE : Fld := ⟨2, 1⟩
abbrev TMU_INT_STATUS_SLIP : Fld := ⟨1, 1⟩
abbrev TMU_INT_STATUS_REF_LOSS : Fld := ⟨0, 1⟩
abbrev TMU_INT_EN_EN : Fld := ⟨0, 4⟩
abbrev TMU_INT_ROUTE_TARGET : Fld := ⟨3, 2⟩
abbrev TMU_INT_ROUTE_CORE : Fld := ⟨0, 3⟩
abbrev TMU_TEST_INTERVAL : Fld := ⟨0, 24⟩
abbrev TMU_CH_CFG_RATE : Fld := ⟨26, 6⟩
abbrev TMU_CH_CFG_RECORD : Fld := ⟨16, 1⟩
abbrev TMU_CH_CFG_POLARITY : Fld := ⟨14, 2⟩
abbrev TMU_CH_CFG_PIN : Fld := ⟨8, 6⟩
abbrev TMU_CH_CFG_THRESH : Fld := ⟨7, 1⟩
abbrev TMU_CH_CFG_MODE : Fld := ⟨4, 1⟩
abbrev TMU_CH_CFG_SOURCE : Fld := ⟨0, 4⟩
abbrev TMU_CH_CTRL_DISARM : Fld := ⟨1, 1⟩
abbrev TMU_CH_CTRL_ARM : Fld := ⟨0, 1⟩
abbrev TMU_CH_STATUS_SITE : Fld := ⟨24, 8⟩
abbrev TMU_CH_STATUS_CLAIM : Fld := ⟨23, 1⟩
abbrev TMU_CH_STATUS_ARM_ERR : Fld := ⟨16, 3⟩
abbrev TMU_CH_STATUS_STATE : Fld := ⟨0, 3⟩
abbrev TMU_CH_BUF_BASE_BASE : Fld := ⟨0, 32⟩
abbrev TMU_CH_BUF_SIZE_BUF_4K : Fld := ⟨0, 20⟩
abbrev TMU_CH_WR_WR : Fld := ⟨0, 32⟩
abbrev TMU_CH_RD_RD : Fld := ⟨0, 32⟩
abbrev TMU_CH_MISSED_MISSED : Fld := ⟨0, 32⟩
abbrev TMU_CH_LOST_LOST : Fld := ⟨0, 32⟩
abbrev TMU_CH_DIFF_MAX_TICKS : Fld := ⟨0, 32⟩
abbrev HRT_DDS_REFUSE_CHECK : Fld := ⟨24, 8⟩
abbrev HRT_DDS_REFUSE_SITE : Fld := ⟨16, 8⟩
abbrev HRT_DDS_REFUSE_PIN : Fld := ⟨2, 10⟩
abbrev HRT_DDS_REFUSE_VALID : Fld := ⟨0, 1⟩
abbrev HRT_DDS_STATUS_SITE : Fld := ⟨24, 8⟩
abbrev HRT_DDS_STATUS_INDEX : Fld := ⟨16, 8⟩
abbrev HRT_DDS_STATUS_AMP_INDEX : Fld := ⟨10, 6⟩
abbrev HRT_DDS_STATUS_PIN : Fld := ⟨4, 6⟩
abbrev HRT_DDS_STATUS_AMP : Fld := ⟨3, 1⟩
abbrev HRT_DDS_STATUS_ACTIVE : Fld := ⟨2, 1⟩
abbrev HRT_DDS_STATUS_CONNECTED : Fld := ⟨1, 1⟩
abbrev HRT_DDS_STATUS_CLAIMED : Fld := ⟨0, 1⟩
abbrev HRT_DDS_FTW_LO_FTW : Fld := ⟨0, 32⟩
abbrev HRT_DDS_FTW_HI_FTW : Fld := ⟨0, 16⟩
abbrev HRT_DDS_STEPS_STEPS : Fld := ⟨0, 32⟩
abbrev HRT_DDS_ALIGNS_ALIGNS : Fld := ⟨0, 32⟩
abbrev HRT_DDS_DELAYED_DELAYED : Fld := ⟨0, 32⟩
abbrev CLK_STATUS_ON_BYPASS : Fld := ⟨16, 6⟩
abbrev CLK_STATUS_LOCKED : Fld := ⟨8, 6⟩
abbrev CLK_STATUS_OSC50_OK : Fld := ⟨1, 1⟩
abbrev CLK_STATUS_REF_PRESENT : Fld := ⟨0, 1⟩
abbrev CLK_INT_STATUS_PLL_ERROR : Fld := ⟨13, 1⟩
abbrev CLK_INT_STATUS_SYNC_MISSING : Fld := ⟨12, 1⟩
abbrev CLK_INT_STATUS_EMBER : Fld := ⟨11, 1⟩
abbrev CLK_INT_STATUS_NEAR_RAIL : Fld := ⟨10, 1⟩
abbrev CLK_INT_STATUS_REF_RETURN : Fld := ⟨9, 1⟩
abbrev CLK_INT_STATUS_REF_LOSS : Fld := ⟨8, 1⟩
abbrev CLK_INT_STATUS_LOCK_LOSS : Fld := ⟨0, 6⟩
abbrev CLK_INT_EN_EN : Fld := ⟨0, 14⟩
abbrev CLK_INT_ROUTE_TARGET : Fld := ⟨3, 2⟩
abbrev CLK_INT_ROUTE_CORE : Fld := ⟨0, 3⟩
abbrev CLK_SYNC_CFG_DELAY_TICKS : Fld := ⟨0, 12⟩
abbrev CLK_SYNC_STATUS_MISSED : Fld := ⟨16, 16⟩
abbrev CLK_SYNC_STATUS_UNREF : Fld := ⟨1, 1⟩
abbrev CLK_SYNC_STATUS_GEN : Fld := ⟨0, 1⟩
abbrev CLK_EMBER_STATUS_FAIL_COUNT : Fld := ⟨16, 16⟩
abbrev CLK_EMBER_STATUS_ON_BACKUP : Fld := ⟨0, 1⟩
abbrev CLK_BAND_SEL_BUSY : Fld := ⟨31, 1⟩
abbrev CLK_BAND_SEL_MEASURE : Fld := ⟨30, 1⟩
abbrev CLK_BAND_SEL_PLL : Fld := ⟨8, 3⟩
abbrev CLK_BAND_SEL_BAND : Fld := ⟨0, 6⟩
abbrev CLK_BAND_DATA_VALID : Fld := ⟨31, 1⟩
abbrev CLK_BAND_DATA_FMAX : Fld := ⟨12, 12⟩
abbrev CLK_BAND_DATA_FMIN : Fld := ⟨0, 12⟩
abbrev CLK_PLL_CTRL_ENABLE : Fld := ⟨31, 1⟩
abbrev CLK_PLL_CTRL_AUTO_RELOCK : Fld := ⟨30, 1⟩
abbrev CLK_PLL_CTRL_BAND : Fld := ⟨16, 6⟩
abbrev CLK_PLL_CTRL_POST : Fld := ⟨8, 3⟩
abbrev CLK_PLL_CTRL_N : Fld := ⟨0, 8⟩
abbrev CLK_PLL_LIMIT_SETTLE : Fld := ⟨16, 16⟩
abbrev CLK_PLL_LIMIT_CEIL_BAND : Fld := ⟨0, 6⟩
abbrev CLK_PLL_STATUS_LOSS_COUNT : Fld := ⟨16, 16⟩
abbrev CLK_PLL_STATUS_NEAR_RAIL : Fld := ⟨9, 1⟩
abbrev CLK_PLL_STATUS_BYPASS_SRC : Fld := ⟨6, 2⟩
abbrev CLK_PLL_STATUS_ERR : Fld := ⟨4, 2⟩
abbrev CLK_PLL_STATUS_STATE : Fld := ⟨0, 3⟩
abbrev CLK_GRID_PHASE_CURRENT : Fld := ⟨16, 8⟩
abbrev CLK_GRID_PHASE_STEP_INTERVAL : Fld := ⟨8, 8⟩
abbrev CLK_GRID_PHASE_TARGET : Fld := ⟨0, 8⟩
abbrev CLK_OUT_CFG_ENABLE : Fld := ⟨31, 1⟩
abbrev CLK_OUT_CFG_STOP_ON_BYPASS : Fld := ⟨30, 1⟩
abbrev CLK_OUT_CFG_FORMAT : Fld := ⟨18, 2⟩
abbrev CLK_OUT_CFG_SOURCE : Fld := ⟨16, 2⟩
abbrev CLK_OUT_CFG_DIV : Fld := ⟨0, 16⟩
abbrev CLK_OUT_STATUS_FOLLOWING : Fld := ⟨2, 1⟩
abbrev CLK_OUT_STATUS_HELD : Fld := ⟨1, 1⟩
abbrev CLK_OUT_STATUS_RUNNING : Fld := ⟨0, 1⟩
abbrev FLU_CFG_JOIN_TIMEOUT_MS : Fld := ⟨24, 8⟩
abbrev FLU_CFG_RSP_TIMEOUT_US : Fld := ⟨16, 8⟩
abbrev FLU_CFG_MARKER_EVERY : Fld := ⟨8, 8⟩
abbrev FLU_CFG_STOP_LEAD : Fld := ⟨0, 8⟩
abbrev FLU_STATUS_MISMATCH_COUNT : Fld := ⟨16, 16⟩
abbrev FLU_STATUS_MARKER_SEEN : Fld := ⟨1, 1⟩
abbrev FLU_STATUS_EPOCH_KNOWN : Fld := ⟨0, 1⟩
abbrev FLU_EPOCH_LO_EPOCH : Fld := ⟨0, 32⟩
abbrev FLU_EPOCH_HI_EPOCH : Fld := ⟨0, 32⟩
abbrev FLU_LATE_RESPONSES : Fld := ⟨16, 16⟩
abbrev FLU_LATE_EVENTS : Fld := ⟨0, 16⟩
abbrev FLU_INT_STATUS_JOIN_DONE : Fld := ⟨5, 1⟩
abbrev FLU_INT_STATUS_SKEW_DONE : Fld := ⟨4, 1⟩
abbrev FLU_INT_STATUS_EPOCH_MISMATCH : Fld := ⟨3, 1⟩
abbrev FLU_INT_STATUS_LATE : Fld := ⟨2, 1⟩
abbrev FLU_INT_STATUS_PORT_UP : Fld := ⟨1, 1⟩
abbrev FLU_INT_STATUS_PORT_DOWN : Fld := ⟨0, 1⟩
abbrev FLU_INT_EN_EN : Fld := ⟨0, 6⟩
abbrev FLU_INT_ROUTE_TARGET : Fld := ⟨3, 2⟩
abbrev FLU_INT_ROUTE_CORE : Fld := ⟨0, 3⟩
abbrev FLU_TREE_PRESENT_PRESENT : Fld := ⟨0, 32⟩
abbrev FLU_RACC_CTRL_BUSY : Fld := ⟨31, 1⟩
abbrev FLU_RACC_CTRL_GO : Fld := ⟨30, 1⟩
abbrev FLU_RACC_CTRL_WRITE : Fld := ⟨29, 1⟩
abbrev FLU_RACC_CTRL_STATUS : Fld := ⟨24, 3⟩
abbrev FLU_RACC_CTRL_DEST : Fld := ⟨8, 7⟩
abbrev FLU_RACC_ADDR_LO_ADDR : Fld := ⟨2, 30⟩
abbrev FLU_RACC_ADDR_HI_ADDR : Fld := ⟨0, 12⟩
abbrev FLU_RACC_DATA_DATA : Fld := ⟨0, 32⟩
abbrev FLU_SKEW_CTRL_BUSY : Fld := ⟨31, 1⟩
abbrev FLU_SKEW_CTRL_START : Fld := ⟨30, 1⟩
abbrev FLU_SKEW_CTRL_OUTCOME : Fld := ⟨28, 2⟩
abbrev FLU_SKEW_CTRL_SPREAD : Fld := ⟨0, 16⟩
abbrev FLU_SKEW_RESULT_THETA : Fld := ⟨0, 32⟩
abbrev FLU_PORT_CTRL_ENABLE : Fld := ⟨31, 1⟩
abbrev FLU_PORT_CTRL_RETRAIN : Fld := ⟨30, 1⟩
abbrev FLU_PORT_CTRL_IDLE_ALLOWED : Fld := ⟨29, 1⟩
abbrev FLU_PORT_CTRL_IDLE_DELAY : Fld := ⟨0, 16⟩
abbrev FLU_PORT_STATUS_NEIGHBOUR : Fld := ⟨24, 8⟩
abbrev FLU_PORT_STATUS_LANES_UP : Fld := ⟨16, 4⟩
abbrev FLU_PORT_STATUS_POL_INV : Fld := ⟨12, 4⟩
abbrev FLU_PORT_STATUS_ERR : Fld := ⟨4, 4⟩
abbrev FLU_PORT_STATUS_STATE : Fld := ⟨0, 3⟩
abbrev FLU_PORT_EQ_ASYM_PS : Fld := ⟨16, 16⟩
abbrev FLU_PORT_EQ_POST : Fld := ⟨10, 5⟩
abbrev FLU_PORT_EQ_MAIN : Fld := ⟨4, 6⟩
abbrev FLU_PORT_EQ_PRE : Fld := ⟨0, 4⟩
abbrev FLU_PORT_ERRORS_REPLAYS : Fld := ⟨16, 16⟩
abbrev FLU_PORT_ERRORS_CRC_ERRORS : Fld := ⟨0, 16⟩
abbrev FLU_PORT_LANE_EYE_MV : Fld := ⟨24, 8⟩
abbrev FLU_PORT_LANE_DFE1 : Fld := ⟨18, 6⟩
abbrev FLU_PORT_LANE_CTLE : Fld := ⟨12, 4⟩
abbrev FLU_PORT_LANE_SKEW_BLOCKS : Fld := ⟨3, 5⟩
abbrev FLU_PORT_LANE_ALIGNED : Fld := ⟨1, 1⟩
abbrev FLU_PORT_LANE_LOCK : Fld := ⟨0, 1⟩
abbrev RING_PENDING_LO_PENDING : Fld := ⟨0, 32⟩
abbrev RING_PENDING_HI_PENDING : Fld := ⟨0, 32⟩
abbrev RING_CTRL_ENABLE : Fld := ⟨31, 1⟩
abbrev RING_CTRL_HALT : Fld := ⟨30, 1⟩
abbrev RING_CTRL_RESUME : Fld := ⟨29, 1⟩
abbrev RING_CTRL_REMOTE : Fld := ⟨28, 1⟩
abbrev RING_CTRL_ORIGIN : Fld := ⟨8, 8⟩
abbrev RING_SIZE_CMP_LOG2 : Fld := ⟨8, 5⟩
abbrev RING_SIZE_CMD_LOG2 : Fld := ⟨0, 5⟩
abbrev RING_CMD_BASE_ADDR : Fld := ⟨0, 32⟩
abbrev RING_CMP_BASE_ADDR : Fld := ⟨0, 32⟩
abbrev RING_DB_LO_ADDR : Fld := ⟨6, 26⟩
abbrev RING_DB_HI_ADDR : Fld := ⟨0, 12⟩
abbrev RING_SB_LO_ADDR : Fld := ⟨8, 24⟩
abbrev RING_SB_HI_ADDR : Fld := ⟨0, 12⟩
abbrev RING_SEQ_EXPECT : Fld := ⟨0, 32⟩
abbrev RING_CI_CI : Fld := ⟨0, 32⟩
abbrev RING_DEV_SEQ_DEV_SEQ : Fld := ⟨0, 32⟩
abbrev RING_STATUS_IN_PROGRESS : Fld := ⟨16, 16⟩
abbrev RING_STATUS_ERR_INT : Fld := ⟨10, 1⟩
abbrev RING_STATUS_CMP_INT : Fld := ⟨9, 1⟩
abbrev RING_STATUS_ERR : Fld := ⟨4, 4⟩
abbrev RING_STATUS_STATE : Fld := ⟨0, 3⟩
abbrev RING_INT_MODE : Fld := ⟨5, 1⟩
abbrev RING_INT_TARGET : Fld := ⟨3, 2⟩
abbrev RING_INT_CORE : Fld := ⟨0, 3⟩
abbrev RING_ERRORS_FETCH_TIMEOUTS : Fld := ⟨16, 16⟩
abbrev RING_ERRORS_SEQ_GAPS : Fld := ⟨0, 16⟩
abbrev DRT_CFG_ENABLE : Fld := ⟨31, 1⟩
abbrev DRT_CFG_HASH_SHIFT : Fld := ⟨16, 4⟩
abbrev DRT_CFG_CORE_EN : Fld := ⟨8, 8⟩
abbrev DRT_AGE_AGE_US : Fld := ⟨0, 20⟩
abbrev DRT_STATUS_FULL : Fld := ⟨31, 1⟩
abbrev DRT_STATUS_READY : Fld := ⟨16, 14⟩
abbrev DRT_STATUS_USED : Fld := ⟨0, 14⟩
abbrev DRT_INT_STATUS_RECIPE_BAD : Fld := ⟨5, 1⟩
abbrev DRT_INT_STATUS_FULL : Fld := ⟨4, 1⟩
abbrev DRT_INT_STATUS_SPILL : Fld := ⟨3, 1⟩
abbrev DRT_INT_STATUS_LATE : Fld := ⟨2, 1⟩
abbrev DRT_INT_STATUS_CLOSED : Fld := ⟨1, 1⟩
abbrev DRT_INT_STATUS_RELEASE : Fld := ⟨0, 1⟩
abbrev DRT_INT_EN_EN : Fld := ⟨0, 6⟩
abbrev DRT_INT_ROUTE_TARGET : Fld := ⟨3, 2⟩
abbrev DRT_INT_ROUTE_CORE : Fld := ⟨0, 3⟩
abbrev DRT_COUNTS_AGED : Fld := ⟨16, 16⟩
abbrev DRT_COUNTS_LATE : Fld := ⟨0, 16⟩
abbrev DRT_RECIPE_STATUS_INVALID : Fld := ⟨0, 16⟩
abbrev DRT_RES_BASE_ADDR : Fld := ⟨0, 32⟩
abbrev DRT_TRACE_BASE_ADDR : Fld := ⟨0, 32⟩
abbrev DRT_Q_BASE_ADDR : Fld := ⟨0, 32⟩
abbrev DRT_RES_SIZE_LOG2 : Fld := ⟨0, 5⟩
abbrev DRT_RES_PI_INDEX : Fld := ⟨0, 32⟩
abbrev DRT_RES_CI_INDEX : Fld := ⟨0, 32⟩
abbrev DRT_TRACE_CTRL_ENABLE : Fld := ⟨31, 1⟩
abbrev DRT_TRACE_CTRL_WR : Fld := ⟨0, 12⟩
abbrev DRT_RECIPE_SRC3 : Fld := ⟨24, 8⟩
abbrev DRT_RECIPE_SRC2 : Fld := ⟨16, 8⟩
abbrev DRT_RECIPE_SRC1 : Fld := ⟨8, 8⟩
abbrev DRT_RECIPE_SRC0 : Fld := ⟨0, 8⟩
abbrev DRT_STAGED_STAGED : Fld := ⟨0, 32⟩
abbrev DRT_Q_CTRL_SPILL_THRESH : Fld := ⟨8, 8⟩
abbrev DRT_Q_CTRL_LOG2 : Fld := ⟨0, 5⟩
abbrev DRT_Q_PI_INDEX : Fld := ⟨0, 32⟩
abbrev DRT_Q_CI_INDEX : Fld := ⟨0, 32⟩
abbrev DRT_Q_STATUS_PEAK : Fld := ⟨16, 16⟩
abbrev DRT_Q_STATUS_OCCUPANCY : Fld := ⟨0, 16⟩
abbrev DRT_Q_DISPATCHED_COUNT : Fld := ⟨0, 32⟩
abbrev DRT_Q_SPILLED_COUNT : Fld := ⟨0, 32⟩
abbrev MBX_FLUE_DROPS_WRONG : Fld := ⟨16, 16⟩
abbrev MBX_FLUE_DROPS_FULL : Fld := ⟨0, 16⟩
abbrev MBX_EPOCH_CORE_LO_EPOCH : Fld := ⟨0, 32⟩
abbrev MBX_EPOCH_CORE_HI_EPOCH : Fld := ⟨0, 32⟩
abbrev MBX_EPOCH_OTHER_AGENT : Fld := ⟨8, 8⟩
abbrev MBX_EPOCH_OTHER_SUPERVISOR : Fld := ⟨0, 8⟩
abbrev MBX_EPOCH_FLUE_EPOCH : Fld := ⟨0, 32⟩
abbrev MBX_LOCK_FREE_FREE : Fld := ⟨0, 32⟩
abbrev MBX_CFG_ENABLE : Fld := ⟨31, 1⟩
abbrev MBX_CFG_B : Fld := ⟨8, 8⟩
abbrev MBX_CFG_A : Fld := ⟨0, 8⟩
abbrev MBX_STATUS_OVERFLOW_BA : Fld := ⟨31, 1⟩
abbrev MBX_STATUS_OVERFLOW_AB : Fld := ⟨30, 1⟩
abbrev MBX_STATUS_B_RESULT : Fld := ⟨20, 3⟩
abbrev MBX_STATUS_A_RESULT : Fld := ⟨16, 3⟩
abbrev MBX_STATUS_BA_COUNT : Fld := ⟨12, 4⟩
abbrev MBX_STATUS_AB_COUNT : Fld := ⟨8, 4⟩
abbrev MBX_STATUS_B_EVENT : Fld := ⟨1, 1⟩
abbrev MBX_STATUS_A_EVENT : Fld := ⟨0, 1⟩
abbrev MBX_TX_DATA : Fld := ⟨0, 32⟩
abbrev MBX_RX_DATA_DATA : Fld := ⟨0, 32⟩
abbrev MBX_RX_HEAD_VALID : Fld := ⟨31, 1⟩
abbrev MBX_RX_HEAD_PRE_RESET : Fld := ⟨30, 1⟩
abbrev MBX_RX_HEAD_SENDER_RESET : Fld := ⟨29, 1⟩
abbrev MBX_RX_HEAD_COUNT : Fld := ⟨16, 4⟩
abbrev MBX_RX_HEAD_SENDER_EPOCH : Fld := ⟨8, 8⟩
abbrev MBX_RX_HEAD_SENDER : Fld := ⟨0, 8⟩
abbrev MBX_WAIT_MODE : Fld := ⟨30, 2⟩
abbrev MBX_WAIT_TIMEOUT_US : Fld := ⟨0, 24⟩
abbrev MBX_WAIT_STATUS_LATE : Fld := ⟨16, 16⟩
abbrev MBX_WAIT_STATUS_MODE : Fld := ⟨4, 2⟩
abbrev MBX_WAIT_STATUS_RESULT : Fld := ⟨0, 3⟩
abbrev MBX_INT_EN_B_EN : Fld := ⟨1, 1⟩
abbrev MBX_INT_EN_A_EN : Fld := ⟨0, 1⟩
abbrev MBX_LOCK_EPOCH : Fld := ⟨8, 8⟩
abbrev MBX_LOCK_OWNER : Fld := ⟨0, 8⟩
abbrev DMC_CFG_INIT_DONE : Fld := ⟨31, 1⟩
abbrev DMC_CFG_THERMAL_2X : Fld := ⟨30, 1⟩
abbrev DMC_CFG_RATE : Fld := ⟨16, 8⟩
abbrev DMC_CFG_CONFIG : Fld := ⟨8, 4⟩
abbrev DMC_CFG_GRAIN_LOG2 : Fld := ⟨0, 5⟩
abbrev DMC_REGION_HOST_GIB : Fld := ⟨0, 12⟩
abbrev DMC_REFRESH_MODE : Fld := ⟨31, 1⟩
abbrev DMC_REFRESH_POSTPONE_MAX : Fld := ⟨16, 4⟩
abbrev DMC_REFRESH_TREFI_NS : Fld := ⟨0, 16⟩
abbrev DMC_TRFC_TRFCSB_NS : Fld := ⟨16, 16⟩
abbrev DMC_TRFC_TRFC_NS : Fld := ⟨0, 16⟩
abbrev DMC_THERMAL_POLL_MS : Fld := ⟨0, 8⟩
abbrev DMC_SCRUB_ENABLE : Fld := ⟨31, 1⟩
abbrev DMC_SCRUB_PERIOD_H : Fld := ⟨0, 16⟩
abbrev DMC_HOT_CFG_THRESH : Fld := ⟨24, 8⟩
abbrev DMC_HOT_CFG_WINDOW_US : Fld := ⟨0, 20⟩
abbrev DMC_INT_STATUS_RETRAIN_FAIL : Fld := ⟨8, 1⟩
abbrev DMC_INT_STATUS_CONTENT_SUSPECT : Fld := ⟨7, 1⟩
abbrev DMC_INT_STATUS_DEADLINE : Fld := ⟨6, 1⟩
abbrev DMC_INT_STATUS_HOT : Fld := ⟨5, 1⟩
abbrev DMC_INT_STATUS_THERMAL_UNADMITTED : Fld := ⟨4, 1⟩
abbrev DMC_INT_STATUS_OVERTEMP : Fld := ⟨3, 1⟩
abbrev DMC_INT_STATUS_RATE_CHANGE : Fld := ⟨2, 1⟩
abbrev DMC_INT_STATUS_UE : Fld := ⟨1, 1⟩
abbrev DMC_INT_STATUS_CE : Fld := ⟨0, 1⟩
abbrev DMC_INT_EN_EN : Fld := ⟨0, 9⟩
abbrev DMC_INT_ROUTE_TARGET : Fld := ⟨3, 2⟩
abbrev DMC_INT_ROUTE_CORE : Fld := ⟨0, 3⟩
abbrev DMC_PORT_CFG_REALTIME : Fld := ⟨31, 1⟩
abbrev DMC_PORT_CFG_LAT_NS : Fld := ⟨0, 16⟩
abbrev DMC_PORT_MISSED_MISSED : Fld := ⟨0, 32⟩
abbrev DMC_CH_STATUS_TRAINED : Fld := ⟨31, 1⟩
abbrev DMC_CH_STATUS_TRAIN_FAIL : Fld := ⟨30, 1⟩
abbrev DMC_CH_STATUS_CONTENT_SUSPECT : Fld := ⟨29, 1⟩
abbrev DMC_CH_STATUS_RATE_2X : Fld := ⟨28, 1⟩
abbrev DMC_CH_STATUS_ALLOW : Fld := ⟨20, 4⟩
abbrev DMC_CH_STATUS_POSTPONED : Fld := ⟨16, 4⟩
abbrev DMC_CH_STATUS_STATE : Fld := ⟨0, 3⟩
abbrev DMC_CH_ECC_UE : Fld := ⟨16, 16⟩
abbrev DMC_CH_ECC_CE : Fld := ⟨0, 16⟩
abbrev DMC_CH_ERR_LO_ADDR : Fld := ⟨6, 26⟩
abbrev DMC_CH_ERR_HI_VALID : Fld := ⟨31, 1⟩
abbrev DMC_CH_ERR_HI_SCRUB : Fld := ⟨30, 1⟩
abbrev DMC_CH_ERR_HI_PARITY : Fld := ⟨29, 1⟩
abbrev DMC_CH_ERR_HI_ADDR : Fld := ⟨0, 12⟩
abbrev DMC_CH_MR4_MR4 : Fld := ⟨0, 8⟩
abbrev DMC_CH_REFSTAT_MAKEUP : Fld := ⟨16, 16⟩
abbrev DMC_CH_REFSTAT_URGENT : Fld := ⟨0, 16⟩
abbrev DMC_CH_RETRAIN_COUNT : Fld := ⟨16, 16⟩
abbrev DMC_CH_RETRAIN_LAST_NS : Fld := ⟨0, 12⟩
abbrev DMC_CH_HOT_WINDOWS : Fld := ⟨0, 32⟩
abbrev EMB_PSTATE_RAIL : Fld := ⟨16, 4⟩
abbrev EMB_PSTATE_RESTORED : Fld := ⟨15, 1⟩
abbrev EMB_PSTATE_COLD : Fld := ⟨14, 1⟩
abbrev EMB_PSTATE_ERR : Fld := ⟨12, 2⟩
abbrev EMB_PSTATE_REFUSE : Fld := ⟨8, 3⟩
abbrev EMB_PSTATE_TARGET : Fld := ⟨4, 3⟩
abbrev EMB_PSTATE_STATE : Fld := ⟨0, 3⟩
abbrev EMB_PSTATE_REQ_COLD : Fld := ⟨3, 1⟩
abbrev EMB_PSTATE_REQ_TARGET : Fld := ⟨0, 3⟩
abbrev EMB_WAKE_CFG_EN : Fld := ⟨0, 4⟩
abbrev EMB_WAKE_CAUSE_CAUSE : Fld := ⟨0, 4⟩
abbrev EMB_WAKE_ALARM_LO_SECONDS : Fld := ⟨0, 32⟩
abbrev EMB_WAKE_ALARM_HI_ALARM_EN : Fld := ⟨31, 1⟩
abbrev EMB_WAKE_ALARM_HI_SECONDS : Fld := ⟨0, 16⟩
abbrev EMB_SAVE_BASE_ADDR : Fld := ⟨0, 32⟩
abbrev EMB_RESUME_LO_ADDR : Fld := ⟨2, 30⟩
abbrev EMB_RESUME_HI_ADDR : Fld := ⟨0, 12⟩
abbrev EMB_RAIL_VALID : Fld := ⟨31, 1⟩
abbrev EMB_RAIL_LEVEL : Fld := ⟨29, 2⟩
abbrev EMB_RAIL_DELAY_MS : Fld := ⟨16, 8⟩
abbrev EMB_RAIL_PEC : Fld := ⟨15, 1⟩
abbrev EMB_RAIL_ADDR : Fld := ⟨8, 7⟩
abbrev EMB_RAIL_PAGE : Fld := ⟨0, 8⟩
abbrev PWR_SUP_CTRL_BUSY : Fld := ⟨31, 1⟩
abbrev PWR_SUP_CTRL_UP : Fld := ⟨30, 1⟩
abbrev PWR_SUP_CTRL_DOWN : Fld := ⟨29, 1⟩
abbrev PWR_SUP_CTRL_OUTCOME : Fld := ⟨26, 3⟩
abbrev PWR_SUP_CTRL_STEP : Fld := ⟨16, 4⟩
abbrev PWR_SUP_EN_STATE : Fld := ⟨0, 32⟩
abbrev PWR_SUP_PG_STATE : Fld := ⟨0, 32⟩
abbrev PWR_SUP_FAULT_FAULT : Fld := ⟨0, 32⟩
abbrev PWR_SUP_READ_GO : Fld := ⟨31, 1⟩
abbrev PWR_SUP_READ_BUSY : Fld := ⟨30, 1⟩
abbrev PWR_SUP_READ_DRAUGHT : Fld := ⟨29, 1⟩
abbrev PWR_SUP_READ_SUPPLY : Fld := ⟨24, 5⟩
abbrev PWR_SUP_READ_SITE : Fld := ⟨8, 8⟩
abbrev PWR_SUP_VALUE_IOUT : Fld := ⟨16, 16⟩
abbrev PWR_SUP_VALUE_VOUT : Fld := ⟨0, 16⟩
abbrev PWR_SUP_VSTATUS_STATUS : Fld := ⟨16, 16⟩
abbrev PWR_SUP_VSTATUS_FLAGS : Fld := ⟨0, 3⟩
abbrev PWR_INT_STATUS_ALERT : Fld := ⟨3, 1⟩
abbrev PWR_INT_STATUS_SUP_FAULT : Fld := ⟨2, 1⟩
abbrev PWR_INT_STATUS_READ_DONE : Fld := ⟨1, 1⟩
abbrev PWR_INT_STATUS_SEQ_DONE : Fld := ⟨0, 1⟩
abbrev PWR_INT_EN_EN : Fld := ⟨0, 4⟩
abbrev PWR_INT_ROUTE_TARGET : Fld := ⟨3, 2⟩
abbrev PWR_INT_ROUTE_CORE : Fld := ⟨0, 3⟩
abbrev PWR_DOMAIN_STATE_STATE : Fld := ⟨0, 32⟩
abbrev PWR_DOMAIN_CTRL_CORE_ON : Fld := ⟨0, 8⟩
abbrev PWR_SUP_CFG_HEARTHS : Fld := ⟨16, 16⟩
abbrev PWR_SUP_CFG_USE_PMBUS : Fld := ⟨15, 1⟩
abbrev PWR_SUP_CFG_PEC : Fld := ⟨14, 1⟩
abbrev PWR_SUP_CFG_ADDR : Fld := ⟨7, 7⟩
abbrev PWR_SUP_CFG_PAGE : Fld := ⟨0, 6⟩
abbrev PWR_SEQ_UP_STEP : Fld := ⟨0, 32⟩
abbrev PWR_SEQ_DOWN_STEP : Fld := ⟨0, 32⟩
abbrev FLT_WORD_LO_WORD : Fld := ⟨0, 32⟩
abbrev FLT_WORD_HI_WORD : Fld := ⟨0, 32⟩
abbrev FLT_PREV_LO_WORD : Fld := ⟨0, 32⟩
abbrev FLT_PREV_HI_WORD : Fld := ⟨0, 32⟩
abbrev FLT_CFG_REACT0 : Fld := ⟨2, 2⟩
abbrev FLT_CFG_CLASS0 : Fld := ⟨0, 2⟩
abbrev FLT_CFG_REACT1 : Fld := ⟨6, 2⟩
abbrev FLT_CFG_CLASS1 : Fld := ⟨4, 2⟩
abbrev FLT_CFG_REACT2 : Fld := ⟨10, 2⟩
abbrev FLT_CFG_CLASS2 : Fld := ⟨8, 2⟩
abbrev FLT_CFG_REACT3 : Fld := ⟨14, 2⟩
abbrev FLT_CFG_CLASS3 : Fld := ⟨12, 2⟩
abbrev FLT_CFG_REACT4 : Fld := ⟨18, 2⟩
abbrev FLT_CFG_CLASS4 : Fld := ⟨16, 2⟩
abbrev FLT_CFG_REACT5 : Fld := ⟨22, 2⟩
abbrev FLT_CFG_CLASS5 : Fld := ⟨20, 2⟩
abbrev FLT_CFG_REACT6 : Fld := ⟨26, 2⟩
abbrev FLT_CFG_CLASS6 : Fld := ⟨24, 2⟩
abbrev FLT_CFG_REACT7 : Fld := ⟨30, 2⟩
abbrev FLT_CFG_CLASS7 : Fld := ⟨28, 2⟩
abbrev FLT_FIRST_VALID : Fld := ⟨31, 1⟩
abbrev FLT_FIRST_BIT : Fld := ⟨24, 6⟩
abbrev FLT_FIRST_UNIT : Fld := ⟨0, 16⟩
abbrev FLT_DOUSE_GO : Fld := ⟨31, 1⟩
abbrev FLT_DOUSE_ALL : Fld := ⟨30, 1⟩
abbrev FLT_DOUSE_HEARTHS : Fld := ⟨0, 16⟩
abbrev FLT_DOUSE_STATUS_ACTIVE : Fld := ⟨31, 1⟩
abbrev FLT_DOUSE_STATUS_DOUSE_N : Fld := ⟨30, 1⟩
abbrev FLT_DOUSE_STATUS_STEP : Fld := ⟨28, 2⟩
abbrev FLT_DOUSE_STATUS_PMB_ERR : Fld := ⟨24, 4⟩
abbrev FLT_DOUSE_STATUS_CAUSE : Fld := ⟨16, 5⟩
abbrev FLT_DOUSE_STATUS_HEARTHS : Fld := ⟨0, 16⟩
abbrev FLT_DOUSE_COUNT_COUNT : Fld := ⟨0, 32⟩
abbrev FLT_INT_ROUTE_TARGET : Fld := ⟨3, 2⟩
abbrev FLT_INT_ROUTE_CORE : Fld := ⟨0, 3⟩
abbrev FLT_LLK_CFG_ENABLE : Fld := ⟨31, 1⟩
abbrev FLT_LLK_CFG_WAKE_EN : Fld := ⟨30, 1⟩
abbrev FLT_LLK_CFG_DOUSE_EN : Fld := ⟨29, 1⟩
abbrev FLT_LLK_CFG_READ_EN : Fld := ⟨28, 1⟩
abbrev FLT_LLK_COUNTS_DISCARDED : Fld := ⟨16, 16⟩
abbrev FLT_LLK_COUNTS_ANSWERED : Fld := ⟨0, 16⟩
abbrev FLT_LLK_SRC_LO_MAC : Fld := ⟨0, 32⟩
abbrev FLT_LLK_SRC_HI_VALID : Fld := ⟨31, 1⟩
abbrev FLT_LLK_SRC_HI_MAC : Fld := ⟨0, 16⟩
abbrev FLT_INJECT_LO_INJECT : Fld := ⟨0, 32⟩
abbrev FLT_INJECT_HI_INJECT : Fld := ⟨0, 32⟩
abbrev CAL_PROC_GO : Fld := ⟨31, 1⟩
abbrev CAL_PROC_PROC : Fld := ⟨16, 3⟩
abbrev CAL_PROC_HEARTHS : Fld := ⟨0, 16⟩
abbrev CAL_PROC_STATUS_BUSY : Fld := ⟨31, 1⟩
abbrev CAL_PROC_STATUS_OUTCOME : Fld := ⟨28, 3⟩
abbrev CAL_PROC_STATUS_PIN : Fld := ⟨22, 6⟩
abbrev CAL_PROC_STATUS_HEARTH : Fld := ⟨16, 4⟩
abbrev CAL_PROC_STATUS_DONE : Fld := ⟨0, 16⟩
abbrev CAL_CFG_DUE_DAYS : Fld := ⟨16, 16⟩
abbrev CAL_CFG_DRIFT : Fld := ⟨0, 16⟩
abbrev CAL_INT_STATUS_CHECK : Fld := ⟨4, 1⟩
abbrev CAL_INT_STATUS_STORE_ERR : Fld := ⟨3, 1⟩
abbrev CAL_INT_STATUS_DUE : Fld := ⟨2, 1⟩
abbrev CAL_INT_STATUS_PROC_DONE : Fld := ⟨1, 1⟩
abbrev CAL_INT_STATUS_APPLIED : Fld := ⟨0, 1⟩
abbrev CAL_INT_EN_EN : Fld := ⟨0, 5⟩
abbrev CAL_INT_ROUTE_TARGET : Fld := ⟨3, 2⟩
abbrev CAL_INT_ROUTE_CORE : Fld := ⟨0, 3⟩
abbrev CAL_DUE_TABLES : Fld := ⟨0, 19⟩
abbrev CAL_PENDING_TABLES : Fld := ⟨0, 19⟩
abbrev CAL_TAB_COUNT_COUNT : Fld := ⟨0, 32⟩
abbrev CAL_TAB_TIME_LO_SECONDS : Fld := ⟨0, 32⟩
abbrev CAL_TAB_TIME_HI_TEMP : Fld := ⟨16, 16⟩
abbrev CAL_TAB_TIME_HI_SECONDS : Fld := ⟨0, 16⟩
abbrev CAL_TAB_STATUS_DUE : Fld := ⟨31, 1⟩
abbrev CAL_TAB_STATUS_DEFAULT : Fld := ⟨30, 1⟩
abbrev CAL_TAB_STATUS_STORE_ERR : Fld := ⟨29, 1⟩
abbrev CAL_TAB_STATUS_SHADOW_DIRTY : Fld := ⟨28, 1⟩
abbrev CAL_TAB_STATUS_PENDING : Fld := ⟨27, 1⟩
abbrev CAL_TAB_STATUS_FORCED : Fld := ⟨26, 1⟩
abbrev CAL_TAB_STATUS_LIVE_SLOT : Fld := ⟨24, 2⟩
abbrev CAL_TAB_STATUS_DUE_DAYS : Fld := ⟨0, 16⟩
abbrev MGT_PORT_CTRL_ENABLE : Fld := ⟨31, 1⟩
abbrev MGT_PORT_CTRL_MODE : Fld := ⟨30, 1⟩
abbrev MGT_PORT_CTRL_FORWARD : Fld := ⟨29, 1⟩
abbrev MGT_PORT_STATUS_SPEED_BAD : Fld := ⟨2, 1⟩
abbrev MGT_PORT_STATUS_AN_DONE : Fld := ⟨1, 1⟩
abbrev MGT_PORT_STATUS_LINK : Fld := ⟨0, 1⟩
abbrev MGT_PORT_MAC_LO_MAC : Fld := ⟨0, 32⟩
abbrev MGT_PORT_MAC_HI_MAC : Fld := ⟨0, 16⟩
abbrev MGT_TIME_NS_NS : Fld := ⟨0, 32⟩
abbrev MGT_TIME_SEC_LO_SECONDS : Fld := ⟨0, 32⟩
abbrev MGT_TIME_SEC_HI_SECONDS : Fld := ⟨0, 32⟩
abbrev MGT_TIME_INC_LO_INC : Fld := ⟨0, 32⟩
abbrev MGT_TIME_INC_HI_INC : Fld := ⟨0, 8⟩
abbrev MGT_TIME_ADJ_ADJ : Fld := ⟨0, 32⟩
abbrev MGT_TIME_SET_SEC_LO_SECONDS : Fld := ⟨0, 32⟩
abbrev MGT_TIME_SET_SEC_HI_SECONDS : Fld := ⟨0, 16⟩
abbrev MGT_TIME_STATUS_UNSET : Fld := ⟨4, 1⟩
abbrev MGT_TIME_STATUS_FROM_RTC : Fld := ⟨3, 1⟩
abbrev MGT_TIME_STATUS_BYPASS : Fld := ⟨2, 1⟩
abbrev MGT_TIME_STATUS_MASTER_CHANGE : Fld := ⟨1, 1⟩
abbrev MGT_TIME_STATUS_HOLDOVER : Fld := ⟨0, 1⟩
abbrev MGT_PTP_CFG_TC_EN : Fld := ⟨31, 1⟩
abbrev MGT_PTP_CFG_SYNC_TIMEOUT_MS : Fld := ⟨8, 16⟩
abbrev MGT_PTP_CFG_DOMAIN : Fld := ⟨0, 8⟩
abbrev MGT_PTP_MASTER_ID : Fld := ⟨0, 32⟩
abbrev MGT_TS_INFO_VALID : Fld := ⟨31, 1⟩
abbrev MGT_TS_INFO_OVERFLOW : Fld := ⟨30, 1⟩
abbrev MGT_TS_INFO_TX : Fld := ⟨20, 1⟩
abbrev MGT_TS_INFO_TYPE : Fld := ⟨16, 4⟩
abbrev MGT_TS_INFO_SEQ_ID : Fld := ⟨0, 16⟩
abbrev MGT_TS_NS_TIME : Fld := ⟨0, 32⟩
abbrev MGT_TS_SEC_LO_TIME : Fld := ⟨0, 32⟩
abbrev MGT_TS_SEC_HI_TIME : Fld := ⟨0, 32⟩
abbrev MGT_INT_STATUS_LINK : Fld := ⟨3, 1⟩
abbrev MGT_INT_STATUS_TS : Fld := ⟨2, 1⟩
abbrev MGT_INT_STATUS_MASTER_CHANGE : Fld := ⟨1, 1⟩
abbrev MGT_INT_STATUS_HOLDOVER : Fld := ⟨0, 1⟩
abbrev MGT_INT_EN_EN : Fld := ⟨0, 4⟩
abbrev MGT_INT_ROUTE_TARGET : Fld := ⟨3, 2⟩
abbrev MGT_INT_ROUTE_CORE : Fld := ⟨0, 3⟩
abbrev EMB_RTC_SEC_LO_SECONDS : Fld := ⟨0, 32⟩
abbrev EMB_RTC_SEC_HI_SUBSEC : Fld := ⟨16, 15⟩
abbrev EMB_RTC_SEC_HI_SECONDS : Fld := ⟨0, 16⟩
abbrev EMB_RTC_STATUS_INVALID : Fld := ⟨1, 1⟩
abbrev EMB_RTC_STATUS_DEGRADED : Fld := ⟨0, 1⟩
abbrev LDG_SEL_INDEX : Fld := ⟨0, 11⟩
abbrev LDG_DATA_LO_DATA : Fld := ⟨0, 32⟩
abbrev LDG_DATA_HI_DATA : Fld := ⟨0, 32⟩
abbrev LDG_STATUS_NO_CKPT : Fld := ⟨2, 1⟩
abbrev LDG_STATUS_CKPT_ERR : Fld := ⟨1, 1⟩
abbrev LDG_STATUS_RESTORED : Fld := ⟨0, 1⟩
abbrev LDG_SERVICE_GO : Fld := ⟨31, 1⟩
abbrev LDG_SERVICE_INDEX : Fld := ⟨0, 8⟩
abbrev AUD_STATUS_LOST : Fld := ⟨16, 16⟩
abbrev AUD_STATUS_BUFFERED : Fld := ⟨0, 14⟩
abbrev AUD_COUNT_LO_COUNT : Fld := ⟨0, 32⟩
abbrev AUD_COUNT_HI_COUNT : Fld := ⟨0, 32⟩
abbrev AUD_RD_INDEX_LO_INDEX : Fld := ⟨0, 32⟩
abbrev AUD_RD_INDEX_HI_INDEX : Fld := ⟨0, 32⟩
abbrev AUD_RD_CTRL_GO : Fld := ⟨31, 1⟩
abbrev AUD_RD_CTRL_BUSY : Fld := ⟨30, 1⟩
abbrev AUD_RD_CTRL_GONE : Fld := ⟨29, 1⟩
abbrev AUD_RD_CTRL_CHECKPOINT : Fld := ⟨0, 1⟩
abbrev AUD_RD_DATA_DATA : Fld := ⟨0, 32⟩
abbrev AUD_PERM_REG_MASK : Fld := ⟨0, 12⟩
abbrev AUD_PERM_DESC_LOCK : Fld := ⟨31, 1⟩
abbrev AUD_PERM_DESC_MASK : Fld := ⟨0, 30⟩
abbrev AUD_VIOL_ADDR_LO_ADDR : Fld := ⟨0, 32⟩
abbrev AUD_VIOL_ADDR_HI_ADDR : Fld := ⟨0, 12⟩
abbrev AUD_VIOL_INFO_VALID : Fld := ⟨31, 1⟩
abbrev AUD_VIOL_INFO_KIND : Fld := ⟨28, 3⟩
abbrev AUD_VIOL_INFO_ORIGIN : Fld := ⟨16, 8⟩
abbrev AUD_VIOL_INFO_COUNT : Fld := ⟨0, 16⟩
abbrev SEC_CTRL_GO : Fld := ⟨31, 1⟩
abbrev SEC_CTRL_OP : Fld := ⟨16, 8⟩
abbrev SEC_CTRL_ARG : Fld := ⟨0, 16⟩
abbrev SEC_STATUS_BUSY : Fld := ⟨31, 1⟩
abbrev SEC_STATUS_RESULT : Fld := ⟨28, 3⟩
abbrev SEC_STATUS_LAST_OP : Fld := ⟨24, 4⟩
abbrev SEC_STATUS_FIELD : Fld := ⟨15, 1⟩
abbrev SEC_STATUS_CUST_KEYS : Fld := ⟨8, 4⟩
abbrev SEC_STATUS_REVOKED : Fld := ⟨0, 8⟩
abbrev SEC_KINDLE_READY : Fld := ⟨31, 1⟩
abbrev SEC_KINDLE_AGENT_ABSENT : Fld := ⟨30, 1⟩
abbrev SEC_KINDLE_STEP : Fld := ⟨20, 4⟩
abbrev SEC_KINDLE_STOP : Fld := ⟨8, 8⟩
abbrev SEC_ADDR_LO_ADDR : Fld := ⟨6, 26⟩
abbrev SEC_ADDR_HI_ADDR : Fld := ⟨0, 12⟩
abbrev SEC_FLASH_OFF_OFFSET : Fld := ⟨0, 32⟩
abbrev SEC_WDOG_KICK : Fld := ⟨31, 1⟩
abbrev SEC_WDOG_TIMEOUT_MS : Fld := ⟨0, 16⟩
abbrev SEC_BOOT_VERSION : Fld := ⟨16, 16⟩
abbrev SEC_BOOT_COUNTER : Fld := ⟨8, 8⟩
abbrev SEC_BOOT_SLOT : Fld := ⟨7, 1⟩
abbrev SEC_BOOT_TRIES : Fld := ⟨4, 3⟩
abbrev SEC_DATA_DATA : Fld := ⟨0, 32⟩
abbrev SEC_IDKEY_KEY : Fld := ⟨0, 32⟩
abbrev PWR_TEMP_VALID : Fld := ⟨31, 1⟩
abbrev PWR_TEMP_TEMP : Fld := ⟨0, 16⟩
abbrev PWR_TEMP_MAX_SENSOR : Fld := ⟨16, 4⟩
abbrev PWR_TEMP_MAX_TEMP : Fld := ⟨0, 16⟩
end F

/-- The field types of R10. -/
inductive RTy where
  | rw | ro | wo | w1c | w1s | rl
  deriving DecidableEq, Repr

/-- One field of a register table: least bit, width, type, reset value, and whether the table marks it run-locked (R17). -/
structure RField where
  lsb : Nat
  width : Nat
  ty : RTy
  reset : Nat
  lock : Bool
  deriving DecidableEq, Repr

/-- One register (or array of registers): first offset, the (stride, count) pairs of its array, its fields. -/
structure RDesc where
  base : Nat
  dims : List (Nat × Nat)
  fields : List RField
  deriving DecidableEq, Repr

/-- Register table of R47. -/
def regTableR47 : List RDesc := [
  -- GLB_ID
  ⟨0x0, [], [⟨16, 16, .ro, 2621, false⟩, ⟨0, 16, .ro, 17936, false⟩]⟩,
  -- GLB_STEPPING
  ⟨0x4, [], [⟨8, 8, .ro, 0, false⟩, ⟨0, 8, .ro, 0, false⟩]⟩,
  -- GLB_GRADE
  ⟨0x8, [], [⟨16, 12, .ro, 0, false⟩, ⟨0, 8, .ro, 0, false⟩]⟩,
  -- GLB_SERIAL_LO
  ⟨0xc, [], [⟨0, 32, .ro, 0, false⟩]⟩,
  -- GLB_SERIAL_HI
  ⟨0x10, [], [⟨0, 32, .ro, 0, false⟩]⟩,
  -- GLB_STRAP
  ⟨0x14, [], [⟨0, 2, .ro, 0, false⟩]⟩,
  -- GLB_ROLE
  ⟨0x18, [], [⟨31, 1, .ro, 0, false⟩, ⟨16, 2, .ro, 0, false⟩, ⟨8, 7, .ro, 0, false⟩, ⟨4, 3, .ro, 0, false⟩, ⟨0, 2, .ro, 0, false⟩]⟩,
  -- GLB_DEVICE_EPOCH
  ⟨0x1c, [], [⟨0, 32, .ro, 0, false⟩]⟩,
  -- GLB_CAPACITY
  ⟨0x20, [], [⟨0, 12, .ro, 0, false⟩]⟩
]

/-- Register table of R101. -/
def regTableR101_0 : List RDesc := [
  -- HRT_GRT_PWR
  ⟨0x108000, [(65536, 16), (4096, 8)], [⟨16, 16, .rw, 1000, true⟩, ⟨4, 3, .ro, 0, false⟩, ⟨0, 2, .rw, 0, true⟩]⟩,
  -- HRT_GRT_LIVE_DRV
  ⟨0x108004, [(65536, 16), (4096, 8)], [⟨16, 16, .ro, 12000, false⟩, ⟨0, 16, .ro, 12000, false⟩]⟩,
  -- HRT_GRT_LIVE_TERM
  ⟨0x108008, [(65536, 16), (4096, 8)], [⟨0, 16, .ro, 12000, false⟩]⟩,
  -- HRT_GRT_RELAY
  ⟨0x10800c, [(65536, 16), (4096, 8)], [⟨16, 16, .ro, 0, false⟩, ⟨2, 1, .ro, 0, false⟩, ⟨1, 1, .ro, 0, false⟩, ⟨0, 1, .ro, 0, false⟩]⟩,
  -- HRT_GRT_STATUS
  ⟨0x108010, [(65536, 16), (4096, 8)], [⟨8, 1, .ro, 0, false⟩, ⟨4, 3, .ro, 0, false⟩, ⟨2, 1, .w1c, 0, false⟩, ⟨1, 1, .w1c, 0, false⟩, ⟨0, 1, .w1c, 0, false⟩]⟩,
  -- HRT_GRT_INT_EN
  ⟨0x108014, [(65536, 16), (4096, 8)], [⟨8, 1, .rw, 0, false⟩, ⟨2, 1, .rw, 0, false⟩, ⟨1, 1, .rw, 0, false⟩, ⟨0, 1, .rw, 0, false⟩]⟩,
  -- HRT_GRT_PPMU_STATUS
  ⟨0x108018, [(65536, 16), (4096, 8)], [⟨8, 3, .ro, 0, false⟩, ⟨5, 1, .ro, 0, false⟩, ⟨4, 1, .ro, 0, false⟩, ⟨2, 2, .ro, 0, false⟩, ⟨0, 2, .ro, 0, false⟩]⟩,
  -- HRT_GRT_PPMU_LAST
  ⟨0x10801c, [(65536, 16), (4096, 8)], [⟨17, 1, .ro, 0, false⟩, ⟨16, 1, .ro, 0, false⟩, ⟨0, 16, .ro, 0, false⟩]⟩,
  -- HRT_GRT_PIN_THR
  ⟨0x108020, [(65536, 16), (4096, 8), (4, 8)], [⟨16, 16, .ro, 12000, false⟩, ⟨0, 16, .ro, 12000, false⟩]⟩,
  -- HRT_GRT_PIN_STATE
  ⟨0x108040, [(65536, 16), (4096, 8), (4, 8)], [⟨16, 1, .ro, 0, false⟩, ⟨8, 8, .ro, 0, false⟩, ⟨6, 2, .ro, 0, false⟩, ⟨5, 1, .ro, 0, false⟩, ⟨4, 1, .ro, 0, false⟩, ⟨3, 1, .ro, 1, false⟩, ⟨2, 1, .ro, 0, false⟩, ⟨0, 2, .ro, 0, false⟩]⟩
]

/-- Register table of R101. -/
def regTableR101_1 : List RDesc := [
  -- HRT_GRT_SPARE_RELAY
  ⟨0x108060, [(65536, 16)], [⟨16, 16, .ro, 0, false⟩, ⟨2, 1, .ro, 0, false⟩, ⟨1, 1, .ro, 0, false⟩, ⟨0, 1, .ro, 0, false⟩]⟩
]

/-- Register table of R128. -/
def regTableR128 : List RDesc := [
  -- HRT_TIM_LIVE_VALID
  ⟨0x100400, [(65536, 16)], [⟨0, 32, .ro, 0, false⟩]⟩,
  -- HRT_TIM_SHADOW_VALID
  ⟨0x100404, [(65536, 16)], [⟨0, 32, .ro, 0, false⟩]⟩,
  -- HRT_TIM_REFUSE
  ⟨0x100408, [(65536, 16)], [⟨24, 8, .ro, 0, false⟩, ⟨21, 3, .ro, 0, false⟩, ⟨18, 3, .ro, 0, false⟩, ⟨12, 6, .ro, 0, false⟩, ⟨7, 5, .ro, 0, false⟩, ⟨2, 5, .ro, 0, false⟩, ⟨1, 1, .ro, 0, false⟩, ⟨0, 1, .w1c, 0, false⟩]⟩,
  -- HRT_TIM_RB_SEL
  ⟨0x10040c, [(65536, 16)], [⟨8, 6, .rw, 0, false⟩, ⟨0, 5, .rw, 0, false⟩]⟩,
  -- HRT_TIM_RB_PERIOD
  ⟨0x100410, [(65536, 16)], [⟨8, 24, .ro, 0, false⟩, ⟨0, 8, .ro, 0, false⟩]⟩,
  -- HRT_TIM_RB_MODE
  ⟨0x100414, [(65536, 16)], [⟨15, 1, .ro, 0, false⟩, ⟨3, 2, .ro, 0, false⟩, ⟨0, 3, .ro, 0, false⟩]⟩,
  -- HRT_TIM_RB_EDGE
  ⟨0x100418, [(65536, 16), (4, 6)], [⟨0, 32, .ro, 4294967295, false⟩]⟩
]

/-- Register table of R204. -/
def regTableR204_0 : List RDesc := [
  -- HRT_SEQ_CFG
  ⟨0x100000, [], [⟨16, 16, .rw, 0, true⟩, ⟨0, 8, .rw, 0, true⟩]⟩,
  -- HRT_SEQ_ENGINES
  ⟨0x100004, [(65536, 16)], [⟨16, 5, .ro, 0, false⟩, ⟨0, 4, .ro, 0, false⟩]⟩,
  -- HRT_SEQ_ENGINE_OWNER
  ⟨0x100008, [(65536, 16)], [⟨24, 8, .ro, 0, false⟩, ⟨16, 8, .ro, 0, false⟩, ⟨8, 8, .ro, 0, false⟩, ⟨0, 8, .ro, 0, false⟩]⟩,
  -- HRT_INT_ROUTE
  ⟨0x10000c, [(65536, 16)], [⟨3, 2, .rw, 3, false⟩, ⟨0, 3, .rw, 0, false⟩]⟩,
  -- HRT_INT_STATUS
  ⟨0x100010, [(65536, 16)], [⟨12, 1, .w1c, 0, false⟩, ⟨11, 1, .w1c, 0, false⟩, ⟨10, 1, .w1c, 0, false⟩, ⟨9, 1, .w1c, 0, false⟩, ⟨8, 1, .w1c, 0, false⟩, ⟨0, 8, .ro, 0, false⟩]⟩,
  -- HRT_INT_EN
  ⟨0x100014, [(65536, 16)], [⟨8, 5, .rw, 0, false⟩]⟩,
  -- HRT_SEQ_REFUSE
  ⟨0x100018, [(65536, 16)], [⟨24, 8, .ro, 0, false⟩, ⟨16, 8, .ro, 0, false⟩, ⟨1, 10, .ro, 0, false⟩, ⟨0, 1, .w1c, 0, false⟩]⟩,
  -- HRT_HOLD_CTRL
  ⟨0x100020, [], [⟨31, 1, .rw, 0, false⟩, ⟨0, 5, .rw, 8, false⟩]⟩,
  -- HRT_HOLD_BASE
  ⟨0x100024, [], [⟨0, 32, .rw, 0, false⟩]⟩,
  -- HRT_HOLD_PI
  ⟨0x100028, [], [⟨0, 32, .ro, 0, false⟩]⟩
]

/-- Register table of R204. -/
def regTableR204_1 : List RDesc := [
  -- HRT_HOLD_CI
  ⟨0x10002c, [], [⟨0, 32, .rw, 0, false⟩]⟩,
  -- HRT_HOLD_STATUS
  ⟨0x100030, [], [⟨16, 16, .rw, 0, false⟩, ⟨0, 9, .ro, 0, false⟩]⟩,
  -- HRT_SITE_STATUS
  ⟨0x100100, [(65536, 16), (32, 16)], [⟨24, 8, .ro, 0, false⟩, ⟨22, 1, .ro, 0, false⟩, ⟨21, 1, .ro, 0, false⟩, ⟨20, 1, .ro, 0, false⟩, ⟨19, 1, .ro, 0, false⟩, ⟨18, 1, .ro, 0, false⟩, ⟨16, 2, .ro, 0, false⟩, ⟨8, 8, .ro, 0, false⟩, ⟨7, 1, .ro, 0, false⟩, ⟨4, 3, .ro, 0, false⟩, ⟨0, 4, .ro, 0, false⟩]⟩,
  -- HRT_SITE_PC
  ⟨0x100104, [(65536, 16), (32, 16)], [⟨0, 32, .ro, 0, false⟩]⟩,
  -- HRT_SITE_VC_LO
  ⟨0x100108, [(65536, 16), (32, 16)], [⟨0, 32, .ro, 0, false⟩]⟩,
  -- HRT_SITE_VC_HI
  ⟨0x10010c, [(65536, 16), (32, 16)], [⟨0, 16, .ro, 0, false⟩]⟩,
  -- HRT_SITE_HOLD
  ⟨0x100110, [(65536, 16), (32, 16)], [⟨0, 16, .ro, 0, false⟩]⟩,
  -- HRT_SITE_HOLD_US
  ⟨0x100114, [(65536, 16), (32, 16)], [⟨0, 32, .ro, 0, false⟩]⟩,
  -- HRT_SITE_BIND
  ⟨0x100118, [(65536, 16), (32, 16)], [⟨18, 1, .ro, 0, false⟩, ⟨17, 1, .ro, 0, false⟩, ⟨16, 1, .ro, 0, false⟩, ⟨0, 16, .ro, 65535, false⟩]⟩,
  -- HRT_SITE_HEARTHS
  ⟨0x10011c, [(65536, 16), (32, 16)], [⟨0, 16, .ro, 0, false⟩]⟩
]

/-- Register table of R225. -/
def regTableR225 : List RDesc := [
  -- HRT_STR_CFG
  ⟨0x100600, [(65536, 16)], [⟨0, 3, .rw, 4, false⟩]⟩,
  -- HRT_STR_WINDOW
  ⟨0x100604, [(65536, 16)], [⟨16, 13, .ro, 0, false⟩, ⟨0, 13, .ro, 1024, false⟩]⟩,
  -- HRT_STR_CHARGE
  ⟨0x100608, [(65536, 16)], [⟨0, 32, .ro, 0, false⟩]⟩,
  -- HRT_STR_REFUSE
  ⟨0x10060c, [(65536, 16)], [⟨24, 8, .ro, 0, false⟩, ⟨8, 16, .ro, 0, false⟩, ⟨0, 1, .w1c, 0, false⟩]⟩,
  -- HRT_STR_MARGIN
  ⟨0x100610, [(65536, 16), (4, 4)], [⟨0, 32, .ro, 0, false⟩]⟩,
  -- HRT_STR_LOW
  ⟨0x100620, [(65536, 16), (4, 4)], [⟨0, 32, .rw, 4294967295, false⟩]⟩,
  -- HRT_STR_COUNTS
  ⟨0x100630, [(65536, 16)], [⟨16, 16, .rw, 0, false⟩, ⟨0, 16, .rw, 0, false⟩]⟩,
  -- HRT_STR_ADM_LIMIT
  ⟨0x100640, [], [⟨0, 32, .ro, 0, false⟩]⟩,
  -- HRT_STR_ADM_USED
  ⟨0x100644, [], [⟨0, 32, .ro, 0, false⟩]⟩,
  -- HRT_STR_ADM_STATUS
  ⟨0x100648, [], [⟨31, 1, .ro, 0, false⟩, ⟨0, 16, .ro, 0, false⟩]⟩
]

/-- Register table of R257. -/
def regTableR257 : List RDesc := [
  -- HRT_CAP_REFUSE
  ⟨0x100800, [(65536, 16)], [⟨24, 8, .ro, 0, false⟩, ⟨16, 8, .ro, 0, false⟩, ⟨12, 4, .ro, 0, false⟩, ⟨2, 10, .ro, 0, false⟩, ⟨0, 1, .w1c, 0, false⟩]⟩,
  -- HRT_CAP_SHARE
  ⟨0x100804, [(65536, 16)], [⟨16, 9, .ro, 0, false⟩, ⟨0, 16, .ro, 0, false⟩]⟩,
  -- HRT_CAP_DRAIN
  ⟨0x100808, [(65536, 16)], [⟨0, 32, .ro, 0, false⟩]⟩,
  -- HRT_CAP_PEAK
  ⟨0x10080c, [(65536, 16)], [⟨0, 9, .rw, 0, false⟩]⟩,
  -- HRT_CAP_STATUS
  ⟨0x100900, [(65536, 16), (16, 16)], [⟨16, 1, .ro, 0, false⟩, ⟨12, 4, .ro, 0, false⟩, ⟨8, 1, .ro, 0, false⟩, ⟨7, 1, .ro, 0, false⟩, ⟨6, 1, .ro, 0, false⟩]⟩,
  -- HRT_CAP_RECORDS
  ⟨0x100904, [(65536, 16), (16, 16)], [⟨0, 32, .ro, 0, false⟩]⟩,
  -- HRT_CAP_DROPPED
  ⟨0x100908, [(65536, 16), (16, 16)], [⟨0, 32, .ro, 0, false⟩]⟩,
  -- HRT_CAP_MODEL
  ⟨0x10090c, [(65536, 16), (16, 16)], [⟨0, 32, .ro, 0, false⟩]⟩
]

/-- Register table of R281. -/
def regTableR281_0 : List RDesc := [
  -- TMU_REF_STATUS
  ⟨0xc0000, [], [⟨16, 16, .ro, 0, false⟩, ⟨3, 1, .ro, 0, false⟩, ⟨2, 1, .ro, 0, false⟩, ⟨1, 1, .ro, 0, false⟩, ⟨0, 1, .ro, 0, false⟩]⟩,
  -- TMU_TB_STATUS
  ⟨0xc0004, [], [⟨16, 16, .ro, 0, false⟩, ⟨0, 1, .w1c, 0, false⟩]⟩,
  -- TMU_TB_LO
  ⟨0xc0008, [], [⟨0, 32, .ro, 0, false⟩]⟩,
  -- TMU_TB_HI
  ⟨0xc000c, [], [⟨0, 32, .ro, 0, false⟩]⟩,
  -- TMU_CAL_MASK
  ⟨0xc0010, [], [⟨0, 32, .rw, 0, false⟩]⟩,
  -- TMU_CAL_CTRL
  ⟨0xc0014, [], [⟨1, 1, .ro, 0, false⟩, ⟨0, 1, .wo, 0, false⟩]⟩,
  -- TMU_CAL_FAIL
  ⟨0xc0018, [], [⟨0, 32, .w1c, 0, false⟩]⟩,
  -- TMU_INT_STATUS
  ⟨0xc0020, [], [⟨3, 1, .w1c, 0, false⟩, ⟨2, 1, .w1c, 0, false⟩, ⟨1, 1, .w1c, 0, false⟩, ⟨0, 1, .w1c, 0, false⟩]⟩,
  -- TMU_INT_EN
  ⟨0xc0024, [], [⟨0, 4, .rw, 0, false⟩]⟩,
  -- TMU_INT_ROUTE
  ⟨0xc0028, [], [⟨3, 2, .rw, 3, false⟩, ⟨0, 3, .rw, 0, false⟩]⟩
]

/-- Register table of R281. -/
def regTableR281_1 : List RDesc := [
  -- TMU_TEST
  ⟨0xc0030, [], [⟨0, 24, .rw, 40000, false⟩]⟩,
  -- TMU_CH_CFG
  ⟨0xc0100, [(64, 32)], [⟨26, 6, .rw, 50, false⟩, ⟨16, 1, .rw, 0, false⟩, ⟨14, 2, .rw, 1, false⟩, ⟨8, 6, .rw, 0, false⟩, ⟨7, 1, .rw, 0, false⟩, ⟨4, 1, .rw, 0, false⟩, ⟨0, 4, .rw, 0, false⟩]⟩,
  -- TMU_CH_CTRL
  ⟨0xc0104, [(64, 32)], [⟨1, 1, .wo, 0, false⟩, ⟨0, 1, .wo, 0, false⟩]⟩,
  -- TMU_CH_STATUS
  ⟨0xc0108, [(64, 32)], [⟨24, 8, .ro, 0, false⟩, ⟨23, 1, .ro, 0, false⟩, ⟨16, 3, .ro, 0, false⟩, ⟨0, 3, .ro, 0, false⟩]⟩,
  -- TMU_CH_BUF_BASE
  ⟨0xc010c, [(64, 32)], [⟨0, 32, .rw, 0, false⟩]⟩,
  -- TMU_CH_BUF_SIZE
  ⟨0xc0110, [(64, 32)], [⟨0, 20, .rw, 0, false⟩]⟩,
  -- TMU_CH_WR
  ⟨0xc0114, [(64, 32)], [⟨0, 32, .ro, 0, false⟩]⟩,
  -- TMU_CH_RD
  ⟨0xc0118, [(64, 32)], [⟨0, 32, .rw, 0, false⟩]⟩,
  -- TMU_CH_MISSED
  ⟨0xc011c, [(64, 32)], [⟨0, 32, .rw, 0, false⟩]⟩,
  -- TMU_CH_LOST
  ⟨0xc0120, [(64, 32)], [⟨0, 32, .rw, 0, false⟩]⟩
]

/-- Register table of R281. -/
def regTableR281_2 : List RDesc := [
  -- TMU_CH_DIFF_MAX, of even channels only
  ⟨0xc0124, [(128, 16)], [⟨0, 32, .rw, 0, false⟩]⟩
]

/-- Register table of R298. -/
def regTableR298 : List RDesc := [
  -- HRT_DDS_REFUSE
  ⟨0x100a00, [(65536, 16)], [⟨24, 8, .ro, 0, false⟩, ⟨16, 8, .ro, 0, false⟩, ⟨2, 10, .ro, 0, false⟩, ⟨0, 1, .w1c, 0, false⟩]⟩,
  -- HRT_DDS_STATUS
  ⟨0x100a40, [(65536, 16), (32, 4)], [⟨24, 8, .ro, 0, false⟩, ⟨16, 8, .ro, 0, false⟩, ⟨10, 6, .ro, 0, false⟩, ⟨4, 6, .ro, 0, false⟩, ⟨3, 1, .ro, 0, false⟩, ⟨2, 1, .ro, 0, false⟩, ⟨1, 1, .ro, 0, false⟩, ⟨0, 1, .ro, 0, false⟩]⟩,
  -- HRT_DDS_FTW_LO
  ⟨0x100a44, [(65536, 16), (32, 4)], [⟨0, 32, .ro, 0, false⟩]⟩,
  -- HRT_DDS_FTW_HI
  ⟨0x100a48, [(65536, 16), (32, 4)], [⟨0, 16, .ro, 0, false⟩]⟩,
  -- HRT_DDS_STEPS
  ⟨0x100a4c, [(65536, 16), (32, 4)], [⟨0, 32, .ro, 0, false⟩]⟩,
  -- HRT_DDS_ALIGNS
  ⟨0x100a50, [(65536, 16), (32, 4)], [⟨0, 32, .ro, 0, false⟩]⟩,
  -- HRT_DDS_DELAYED
  ⟨0x100a54, [(65536, 16), (32, 4)], [⟨0, 32, .ro, 0, false⟩]⟩
]

/-- Register table of R322. -/
def regTableR322_0 : List RDesc := [
  -- CLK_STATUS
  ⟨0x30000, [], [⟨16, 6, .ro, 63, false⟩, ⟨8, 6, .ro, 0, false⟩, ⟨1, 1, .ro, 1, false⟩, ⟨0, 1, .ro, 0, false⟩]⟩,
  -- CLK_INT_STATUS
  ⟨0x30004, [], [⟨13, 1, .w1c, 0, false⟩, ⟨12, 1, .w1c, 0, false⟩, ⟨11, 1, .w1c, 0, false⟩, ⟨10, 1, .w1c, 0, false⟩, ⟨9, 1, .w1c, 0, false⟩, ⟨8, 1, .w1c, 0, false⟩, ⟨0, 6, .w1c, 0, false⟩]⟩,
  -- CLK_INT_EN
  ⟨0x30008, [], [⟨0, 14, .rw, 0, false⟩]⟩,
  -- CLK_INT_ROUTE
  ⟨0x3000c, [], [⟨3, 2, .rw, 3, false⟩, ⟨0, 3, .rw, 0, false⟩]⟩,
  -- CLK_SYNC_CFG
  ⟨0x30010, [], [⟨0, 12, .rw, 0, true⟩]⟩,
  -- CLK_SYNC_STATUS
  ⟨0x30014, [], [⟨16, 16, .ro, 0, false⟩, ⟨1, 1, .ro, 0, false⟩, ⟨0, 1, .ro, 0, false⟩]⟩,
  -- CLK_EMBER_STATUS
  ⟨0x30018, [], [⟨16, 16, .ro, 0, false⟩, ⟨0, 1, .ro, 0, false⟩]⟩,
  -- CLK_BAND_SEL
  ⟨0x30020, [], [⟨31, 1, .ro, 0, false⟩, ⟨30, 1, .wo, 0, false⟩, ⟨8, 3, .rw, 0, false⟩, ⟨0, 6, .rw, 0, false⟩]⟩,
  -- CLK_BAND_DATA
  ⟨0x30024, [], [⟨31, 1, .rw, 0, false⟩, ⟨12, 12, .rw, 0, false⟩, ⟨0, 12, .rw, 0, false⟩]⟩,
  -- CLK_PLL_CTRL
  ⟨0x30100, [(32, 6)], [⟨31, 1, .rw, 0, true⟩, ⟨30, 1, .rw, 1, false⟩, ⟨16, 6, .ro, 0, false⟩, ⟨8, 3, .rw, 0, true⟩, ⟨0, 8, .rw, 0, true⟩]⟩
]

/-- Register table of R322. -/
def regTableR322_1 : List RDesc := [
  -- CLK_PLL_LIMIT
  ⟨0x30104, [(32, 6)], [⟨16, 16, .rw, 2000, false⟩, ⟨0, 6, .rw, 0, false⟩]⟩,
  -- CLK_PLL_STATUS
  ⟨0x30108, [(32, 6)], [⟨16, 16, .ro, 0, false⟩, ⟨9, 1, .ro, 0, false⟩, ⟨6, 2, .ro, 1, false⟩, ⟨4, 2, .ro, 0, false⟩, ⟨0, 3, .ro, 0, false⟩]⟩,
  -- CLK_GRID_PHASE
  ⟨0x3010c, [], [⟨16, 8, .ro, 0, false⟩, ⟨8, 8, .rw, 4, false⟩, ⟨0, 8, .rw, 0, true⟩]⟩,
  -- CLK_OUT_CFG
  ⟨0x30200, [(16, 4)], [⟨31, 1, .rw, 0, false⟩, ⟨30, 1, .rw, 1, false⟩, ⟨18, 2, .rw, 0, false⟩, ⟨16, 2, .rw, 0, false⟩, ⟨0, 16, .rw, 40, false⟩]⟩,
  -- CLK_OUT_STATUS
  ⟨0x30204, [(16, 4)], [⟨2, 1, .ro, 0, false⟩, ⟨1, 1, .ro, 0, false⟩, ⟨0, 1, .ro, 0, false⟩]⟩
]

/-- Register table of R351. -/
def regTableR351_0 : List RDesc := [
  -- FLU_CFG
  ⟨0xa0000, [], [⟨24, 8, .rw, 0, false⟩, ⟨16, 8, .rw, 50, false⟩, ⟨8, 8, .rw, 16, false⟩, ⟨0, 8, .rw, 4, true⟩]⟩,
  -- FLU_STATUS
  ⟨0xa0004, [], [⟨16, 16, .ro, 0, false⟩, ⟨1, 1, .ro, 0, false⟩, ⟨0, 1, .ro, 0, false⟩]⟩,
  -- FLU_EPOCH_LO
  ⟨0xa0008, [], [⟨0, 32, .ro, 0, false⟩]⟩,
  -- FLU_EPOCH_HI
  ⟨0xa000c, [], [⟨0, 32, .ro, 0, false⟩]⟩,
  -- FLU_LATE
  ⟨0xa0010, [], [⟨16, 16, .rw, 0, false⟩, ⟨0, 16, .rw, 0, false⟩]⟩,
  -- FLU_INT_STATUS
  ⟨0xa0014, [], [⟨5, 1, .w1c, 0, false⟩, ⟨4, 1, .w1c, 0, false⟩, ⟨3, 1, .w1c, 0, false⟩, ⟨2, 1, .w1c, 0, false⟩, ⟨1, 1, .w1c, 0, false⟩, ⟨0, 1, .w1c, 0, false⟩]⟩,
  -- FLU_INT_EN
  ⟨0xa0018, [], [⟨0, 6, .rw, 0, false⟩]⟩,
  -- FLU_INT_ROUTE
  ⟨0xa001c, [], [⟨3, 2, .rw, 3, false⟩, ⟨0, 3, .rw, 0, false⟩]⟩,
  -- FLU_TREE_PRESENT
  ⟨0xa0020, [(4, 4)], [⟨0, 32, .ro, 0, false⟩]⟩,
  -- FLU_RACC_CTRL
  ⟨0xa0040, [], [⟨31, 1, .ro, 0, false⟩, ⟨30, 1, .wo, 0, false⟩, ⟨29, 1, .rw, 0, false⟩, ⟨24, 3, .ro, 0, false⟩, ⟨8, 7, .rw, 0, false⟩]⟩
]

/-- Register table of R351. -/
def regTableR351_1 : List RDesc := [
  -- FLU_RACC_ADDR_LO
  ⟨0xa0044, [], [⟨2, 30, .rw, 0, false⟩]⟩,
  -- FLU_RACC_ADDR_HI
  ⟨0xa0048, [], [⟨0, 12, .rw, 0, false⟩]⟩,
  -- FLU_RACC_DATA
  ⟨0xa004c, [], [⟨0, 32, .rw, 0, false⟩]⟩,
  -- FLU_SKEW_CTRL
  ⟨0xa0060, [], [⟨31, 1, .ro, 0, false⟩, ⟨30, 1, .wo, 0, false⟩, ⟨28, 2, .ro, 0, false⟩, ⟨0, 16, .ro, 0, false⟩]⟩,
  -- FLU_SKEW_RESULT
  ⟨0xa0064, [], [⟨0, 32, .ro, 0, false⟩]⟩,
  -- FLU_PORT_CTRL
  ⟨0xa0100, [(256, 4)], [⟨31, 1, .rw, 0, true⟩, ⟨30, 1, .wo, 0, false⟩, ⟨29, 1, .rw, 1, false⟩, ⟨0, 16, .rw, 10, false⟩]⟩,
  -- FLU_PORT_STATUS
  ⟨0xa0104, [(256, 4)], [⟨24, 8, .ro, 255, false⟩, ⟨16, 4, .ro, 0, false⟩, ⟨12, 4, .ro, 0, false⟩, ⟨4, 4, .ro, 0, false⟩, ⟨0, 3, .ro, 0, false⟩]⟩,
  -- FLU_PORT_EQ
  ⟨0xa0108, [(256, 4)], [⟨16, 16, .rw, 0, false⟩, ⟨10, 5, .rw, 0, false⟩, ⟨4, 6, .rw, 0, false⟩, ⟨0, 4, .rw, 0, false⟩]⟩,
  -- FLU_PORT_ERRORS
  ⟨0xa010c, [(256, 4)], [⟨16, 16, .rw, 0, false⟩, ⟨0, 16, .rw, 0, false⟩]⟩,
  -- FLU_PORT_LANE
  ⟨0xa0140, [(256, 4), (4, 4)], [⟨24, 8, .ro, 0, false⟩, ⟨18, 6, .ro, 0, false⟩, ⟨12, 4, .ro, 0, false⟩, ⟨3, 5, .ro, 0, false⟩, ⟨1, 1, .ro, 0, false⟩, ⟨0, 1, .ro, 0, false⟩]⟩
]

/-- Register table of R384. -/
def regTableR384_0 : List RDesc := [
  -- RING_PENDING_LO
  ⟨0x60000, [], [⟨0, 32, .ro, 0, false⟩]⟩,
  -- RING_PENDING_HI
  ⟨0x60004, [], [⟨0, 32, .ro, 0, false⟩]⟩,
  -- RING_CTRL
  ⟨0x60100, [(64, 64)], [⟨31, 1, .rw, 0, false⟩, ⟨30, 1, .wo, 0, false⟩, ⟨29, 1, .wo, 0, false⟩, ⟨28, 1, .ro, 0, false⟩, ⟨8, 8, .ro, 0, false⟩]⟩,
  -- RING_SIZE
  ⟨0x60104, [(64, 64)], [⟨8, 5, .rw, 4, false⟩, ⟨0, 5, .rw, 4, false⟩]⟩,
  -- RING_CMD_BASE
  ⟨0x60108, [(64, 64)], [⟨0, 32, .rw, 0, false⟩]⟩,
  -- RING_CMP_BASE
  ⟨0x6010c, [(64, 64)], [⟨0, 32, .rw, 0, false⟩]⟩,
  -- RING_DB_LO
  ⟨0x60110, [(64, 64)], [⟨6, 26, .rw, 0, false⟩]⟩,
  -- RING_DB_HI
  ⟨0x60114, [(64, 64)], [⟨0, 12, .rw, 0, false⟩]⟩,
  -- RING_SB_LO
  ⟨0x60118, [(64, 64)], [⟨8, 24, .rw, 0, false⟩]⟩,
  -- RING_SB_HI
  ⟨0x6011c, [(64, 64)], [⟨0, 12, .rw, 0, false⟩]⟩
]

/-- Register table of R384. -/
def regTableR384_1 : List RDesc := [
  -- RING_SEQ
  ⟨0x60120, [(64, 64)], [⟨0, 32, .rw, 0, false⟩]⟩,
  -- RING_CI
  ⟨0x60124, [(64, 64)], [⟨0, 32, .ro, 0, false⟩]⟩,
  -- RING_DEV_SEQ
  ⟨0x60128, [(64, 64)], [⟨0, 32, .ro, 0, false⟩]⟩,
  -- RING_STATUS
  ⟨0x6012c, [(64, 64)], [⟨16, 16, .ro, 0, false⟩, ⟨10, 1, .w1c, 0, false⟩, ⟨9, 1, .w1c, 0, false⟩, ⟨4, 4, .ro, 0, false⟩, ⟨0, 3, .ro, 0, false⟩]⟩,
  -- RING_INT
  ⟨0x60130, [(64, 64)], [⟨5, 1, .rw, 0, false⟩, ⟨3, 2, .rw, 3, false⟩, ⟨0, 3, .rw, 0, false⟩]⟩,
  -- RING_ERRORS
  ⟨0x60134, [(64, 64)], [⟨16, 16, .rw, 0, false⟩, ⟨0, 16, .rw, 0, false⟩]⟩
]

/-- Register table of R405. -/
def regTableR405_0 : List RDesc := [
  -- DRT_CFG
  ⟨0x70000, [], [⟨31, 1, .rw, 0, false⟩, ⟨16, 4, .rw, 2, true⟩, ⟨8, 8, .rw, 255, false⟩]⟩,
  -- DRT_AGE
  ⟨0x70004, [], [⟨0, 20, .rw, 0, false⟩]⟩,
  -- DRT_STATUS
  ⟨0x70008, [], [⟨31, 1, .ro, 0, false⟩, ⟨16, 14, .ro, 0, false⟩, ⟨0, 14, .ro, 0, false⟩]⟩,
  -- DRT_INT_STATUS
  ⟨0x7000c, [], [⟨5, 1, .w1c, 0, false⟩, ⟨4, 1, .w1c, 0, false⟩, ⟨3, 1, .w1c, 0, false⟩, ⟨2, 1, .w1c, 0, false⟩, ⟨1, 1, .w1c, 0, false⟩, ⟨0, 1, .w1c, 0, false⟩]⟩,
  -- DRT_INT_EN
  ⟨0x70010, [], [⟨0, 6, .rw, 0, false⟩]⟩,
  -- DRT_INT_ROUTE
  ⟨0x70014, [], [⟨3, 2, .rw, 3, false⟩, ⟨0, 3, .rw, 0, false⟩]⟩,
  -- DRT_COUNTS
  ⟨0x70018, [], [⟨16, 16, .rw, 0, false⟩, ⟨0, 16, .rw, 0, false⟩]⟩,
  -- DRT_RECIPE_STATUS
  ⟨0x7001c, [], [⟨0, 16, .ro, 0, false⟩]⟩,
  -- DRT_RES_BASE
  ⟨0x70020, [], [⟨0, 32, .rw, 0, false⟩]⟩,
  -- DRT_TRACE_BASE
  ⟨0x70024, [], [⟨0, 32, .rw, 0, false⟩]⟩
]

/-- Register table of R405. -/
def regTableR405_1 : List RDesc := [
  -- DRT_Q_BASE
  ⟨0x70100, [(32, 8)], [⟨0, 32, .rw, 0, false⟩]⟩,
  -- DRT_RES_SIZE
  ⟨0x70028, [], [⟨0, 5, .rw, 4, false⟩]⟩,
  -- DRT_RES_PI
  ⟨0x7002c, [], [⟨0, 32, .ro, 0, false⟩]⟩,
  -- DRT_RES_CI
  ⟨0x70030, [], [⟨0, 32, .rw, 0, false⟩]⟩,
  -- DRT_TRACE_CTRL
  ⟨0x70034, [], [⟨31, 1, .rw, 0, false⟩, ⟨0, 12, .ro, 0, false⟩]⟩,
  -- DRT_RECIPE
  ⟨0x70040, [(4, 16)], [⟨24, 8, .rw, 255, true⟩, ⟨16, 8, .rw, 255, false⟩, ⟨8, 8, .rw, 255, false⟩, ⟨0, 8, .rw, 255, false⟩]⟩,
  -- DRT_STAGED
  ⟨0x70080, [(4, 8)], [⟨0, 32, .rw, 0, true⟩]⟩,
  -- DRT_Q_CTRL
  ⟨0x70104, [(32, 8)], [⟨8, 8, .rw, 16, false⟩, ⟨0, 5, .rw, 6, false⟩]⟩,
  -- DRT_Q_PI
  ⟨0x70108, [(32, 8)], [⟨0, 32, .ro, 0, false⟩]⟩,
  -- DRT_Q_CI
  ⟨0x7010c, [(32, 8)], [⟨0, 32, .rw, 0, false⟩]⟩
]

/-- Register table of R405. -/
def regTableR405_2 : List RDesc := [
  -- DRT_Q_STATUS
  ⟨0x70110, [(32, 8)], [⟨16, 16, .rw, 0, false⟩, ⟨0, 16, .ro, 0, false⟩]⟩,
  -- DRT_Q_DISPATCHED
  ⟨0x70114, [(32, 8)], [⟨0, 32, .ro, 0, false⟩]⟩,
  -- DRT_Q_SPILLED
  ⟨0x70118, [(32, 8)], [⟨0, 32, .ro, 0, false⟩]⟩
]

/-- Register table of R418. -/
def regTableR418_0 : List RDesc := [
  -- MBX_FLUE_DROPS
  ⟨0x50000, [], [⟨16, 16, .rw, 0, false⟩, ⟨0, 16, .rw, 0, false⟩]⟩,
  -- MBX_EPOCH_CORE_LO
  ⟨0x50004, [], [⟨0, 32, .ro, 0, false⟩]⟩,
  -- MBX_EPOCH_CORE_HI
  ⟨0x50008, [], [⟨0, 32, .ro, 0, false⟩]⟩,
  -- MBX_EPOCH_OTHER
  ⟨0x5000c, [], [⟨8, 8, .ro, 0, false⟩, ⟨0, 8, .ro, 0, false⟩]⟩,
  -- MBX_EPOCH_FLUE
  ⟨0x50010, [], [⟨0, 32, .ro, 0, false⟩]⟩,
  -- MBX_LOCK_FREE
  ⟨0x50014, [], [⟨0, 32, .wo, 0, false⟩]⟩,
  -- MBX_CFG
  ⟨0x50100, [(64, 16)], [⟨31, 1, .rw, 0, false⟩, ⟨8, 8, .rw, 0, false⟩, ⟨0, 8, .rw, 0, false⟩]⟩,
  -- MBX_STATUS
  ⟨0x50104, [(64, 16)], [⟨31, 1, .w1c, 0, false⟩, ⟨30, 1, .w1c, 0, false⟩, ⟨20, 3, .ro, 0, false⟩, ⟨16, 3, .ro, 0, false⟩, ⟨12, 4, .ro, 0, false⟩, ⟨8, 4, .ro, 0, false⟩, ⟨1, 1, .w1c, 0, false⟩, ⟨0, 1, .w1c, 0, false⟩]⟩,
  -- MBX_TX
  ⟨0x50108, [(64, 16)], [⟨0, 32, .wo, 0, false⟩]⟩,
  -- MBX_RX_DATA
  ⟨0x5010c, [(64, 16)], [⟨0, 32, .ro, 0, false⟩]⟩
]

/-- Register table of R418. -/
def regTableR418_1 : List RDesc := [
  -- MBX_RX_HEAD
  ⟨0x50110, [(64, 16)], [⟨31, 1, .ro, 0, false⟩, ⟨30, 1, .ro, 0, false⟩, ⟨29, 1, .ro, 0, false⟩, ⟨16, 4, .ro, 0, false⟩, ⟨8, 8, .ro, 0, false⟩, ⟨0, 8, .ro, 0, false⟩]⟩,
  -- MBX_WAIT
  ⟨0x50114, [(64, 16)], [⟨30, 2, .wo, 0, false⟩, ⟨0, 24, .wo, 0, false⟩]⟩,
  -- MBX_WAIT_STATUS
  ⟨0x50118, [(64, 16)], [⟨16, 16, .rw, 0, false⟩, ⟨4, 2, .ro, 0, false⟩, ⟨0, 3, .ro, 0, false⟩]⟩,
  -- MBX_INT_EN
  ⟨0x5011c, [(64, 16)], [⟨1, 1, .rw, 0, false⟩, ⟨0, 1, .rw, 0, false⟩]⟩,
  -- MBX_LOCK
  ⟨0x50800, [(4, 32)], [⟨8, 8, .ro, 0, false⟩, ⟨0, 8, .rl, 0, false⟩]⟩
]

/-- Register table of R444. -/
def regTableR444_0 : List RDesc := [
  -- DMC_CFG
  ⟨0x90000, [], [⟨31, 1, .ro, 0, false⟩, ⟨30, 1, .ro, 0, false⟩, ⟨16, 8, .ro, 0, false⟩, ⟨8, 4, .ro, 0, false⟩, ⟨0, 5, .ro, 0, false⟩]⟩,
  -- DMC_REGION
  ⟨0x90004, [], [⟨0, 12, .ro, 0, false⟩]⟩,
  -- DMC_REFRESH
  ⟨0x90008, [], [⟨31, 1, .ro, 0, false⟩, ⟨16, 4, .ro, 0, false⟩, ⟨0, 16, .ro, 0, false⟩]⟩,
  -- DMC_TRFC
  ⟨0x9000c, [], [⟨16, 16, .ro, 0, false⟩, ⟨0, 16, .ro, 0, false⟩]⟩,
  -- DMC_THERMAL
  ⟨0x90010, [], [⟨0, 8, .rw, 8, false⟩]⟩,
  -- DMC_SCRUB
  ⟨0x90014, [], [⟨31, 1, .rw, 1, false⟩, ⟨0, 16, .rw, 24, false⟩]⟩,
  -- DMC_HOT_CFG
  ⟨0x90018, [], [⟨24, 8, .rw, 128, false⟩, ⟨0, 20, .rw, 1000, false⟩]⟩,
  -- DMC_INT_STATUS
  ⟨0x9001c, [], [⟨8, 1, .w1c, 0, false⟩, ⟨7, 1, .w1c, 0, false⟩, ⟨6, 1, .w1c, 0, false⟩, ⟨5, 1, .w1c, 0, false⟩, ⟨4, 1, .w1c, 0, false⟩, ⟨3, 1, .w1c, 0, false⟩, ⟨2, 1, .w1c, 0, false⟩, ⟨1, 1, .w1c, 0, false⟩, ⟨0, 1, .w1c, 0, false⟩]⟩,
  -- DMC_INT_EN
  ⟨0x90020, [], [⟨0, 9, .rw, 0, false⟩]⟩,
  -- DMC_INT_ROUTE
  ⟨0x90024, [], [⟨3, 2, .rw, 3, false⟩, ⟨0, 3, .rw, 0, false⟩]⟩
]

/-- Register table of R444. -/
def regTableR444_1 : List RDesc := [
  -- DMC_PORT_CFG
  ⟨0x90100, [(8, 37)], [⟨31, 1, .ro, 0, false⟩, ⟨0, 16, .rw, 0, true⟩]⟩,
  -- DMC_PORT_MISSED
  ⟨0x90104, [(8, 37)], [⟨0, 32, .rw, 0, false⟩]⟩,
  -- DMC_CH_STATUS
  ⟨0x80000, [(8192, 8)], [⟨31, 1, .ro, 0, false⟩, ⟨30, 1, .ro, 0, false⟩, ⟨29, 1, .w1c, 0, false⟩, ⟨28, 1, .ro, 0, false⟩, ⟨20, 4, .ro, 0, false⟩, ⟨16, 4, .ro, 0, false⟩, ⟨0, 3, .ro, 0, false⟩]⟩,
  -- DMC_CH_ECC
  ⟨0x80004, [(8192, 8)], [⟨16, 16, .rw, 0, false⟩, ⟨0, 16, .rw, 0, false⟩]⟩,
  -- DMC_CH_ERR_LO
  ⟨0x80008, [(8192, 8)], [⟨6, 26, .ro, 0, false⟩]⟩,
  -- DMC_CH_ERR_HI
  ⟨0x8000c, [(8192, 8)], [⟨31, 1, .w1c, 0, false⟩, ⟨30, 1, .ro, 0, false⟩, ⟨29, 1, .ro, 0, false⟩, ⟨0, 12, .ro, 0, false⟩]⟩,
  -- DMC_CH_MR4
  ⟨0x80010, [(8192, 8)], [⟨0, 8, .ro, 0, false⟩]⟩,
  -- DMC_CH_REFSTAT
  ⟨0x80014, [(8192, 8)], [⟨16, 16, .rw, 0, false⟩, ⟨0, 16, .rw, 0, false⟩]⟩,
  -- DMC_CH_RETRAIN
  ⟨0x80018, [(8192, 8)], [⟨16, 16, .ro, 0, false⟩, ⟨0, 12, .ro, 0, false⟩]⟩,
  -- DMC_CH_HOT
  ⟨0x8001c, [(8192, 8)], [⟨0, 32, .rw, 0, false⟩]⟩
]

/-- Register table of R463. -/
def regTableR463_0 : List RDesc := [
  -- EMB_PSTATE
  ⟨0x10200, [], [⟨16, 4, .ro, 0, false⟩, ⟨15, 1, .ro, 0, false⟩, ⟨14, 1, .ro, 0, false⟩, ⟨12, 2, .ro, 0, false⟩, ⟨8, 3, .ro, 0, false⟩, ⟨4, 3, .ro, 2, false⟩, ⟨0, 3, .ro, 5, false⟩]⟩,
  -- EMB_PSTATE_REQ
  ⟨0x10204, [], [⟨3, 1, .wo, 0, false⟩, ⟨0, 3, .wo, 0, false⟩]⟩,
  -- EMB_WAKE_CFG
  ⟨0x10208, [], [⟨0, 4, .rw, 15, false⟩]⟩,
  -- EMB_WAKE_CAUSE
  ⟨0x1020c, [], [⟨0, 4, .w1c, 0, false⟩]⟩,
  -- EMB_WAKE_ALARM_LO
  ⟨0x10210, [], [⟨0, 32, .rw, 0, false⟩]⟩,
  -- EMB_WAKE_ALARM_HI
  ⟨0x10214, [], [⟨31, 1, .rw, 0, false⟩, ⟨0, 16, .rw, 0, false⟩]⟩,
  -- EMB_SAVE_BASE
  ⟨0x10218, [], [⟨0, 32, .rw, 0, false⟩]⟩,
  -- EMB_RESUME_LO
  ⟨0x1021c, [], [⟨2, 30, .rw, 0, false⟩]⟩,
  -- EMB_RESUME_HI
  ⟨0x10220, [], [⟨0, 12, .rw, 0, false⟩]⟩,
  -- EMB_RAIL
  ⟨0x10240, [(4, 8)], [⟨31, 1, .rw, 0, false⟩, ⟨29, 2, .rw, 0, false⟩, ⟨16, 8, .rw, 0, false⟩, ⟨15, 1, .rw, 0, false⟩, ⟨8, 7, .rw, 0, false⟩, ⟨0, 8, .rw, 0, false⟩]⟩
]

/-- Register table of R463. -/
def regTableR463_1 : List RDesc := [
  -- PWR_SUP_CTRL
  ⟨0x20010, [], [⟨31, 1, .ro, 0, false⟩, ⟨30, 1, .wo, 0, false⟩, ⟨29, 1, .wo, 0, false⟩, ⟨26, 3, .ro, 0, false⟩, ⟨16, 4, .ro, 0, false⟩]⟩,
  -- PWR_SUP_EN
  ⟨0x20014, [], [⟨0, 32, .ro, 0, false⟩]⟩,
  -- PWR_SUP_PG
  ⟨0x20018, [], [⟨0, 32, .ro, 0, false⟩]⟩,
  -- PWR_SUP_FAULT
  ⟨0x2001c, [], [⟨0, 32, .w1c, 0, false⟩]⟩,
  -- PWR_SUP_READ
  ⟨0x20020, [], [⟨31, 1, .wo, 0, false⟩, ⟨30, 1, .ro, 0, false⟩, ⟨29, 1, .rw, 0, false⟩, ⟨24, 5, .rw, 0, false⟩, ⟨8, 8, .rw, 0, false⟩]⟩,
  -- PWR_SUP_VALUE
  ⟨0x20024, [], [⟨16, 16, .ro, 0, false⟩, ⟨0, 16, .ro, 0, false⟩]⟩,
  -- PWR_SUP_VSTATUS
  ⟨0x20028, [], [⟨16, 16, .ro, 0, false⟩, ⟨0, 3, .ro, 0, false⟩]⟩,
  -- PWR_INT_STATUS
  ⟨0x20030, [], [⟨3, 1, .w1c, 0, false⟩, ⟨2, 1, .w1c, 0, false⟩, ⟨1, 1, .w1c, 0, false⟩, ⟨0, 1, .w1c, 0, false⟩]⟩,
  -- PWR_INT_EN
  ⟨0x20034, [], [⟨0, 4, .rw, 0, false⟩]⟩,
  -- PWR_INT_ROUTE
  ⟨0x20038, [], [⟨3, 2, .rw, 3, false⟩, ⟨0, 3, .rw, 0, false⟩]⟩
]

/-- Register table of R463. -/
def regTableR463_2 : List RDesc := [
  -- PWR_DOMAIN_STATE
  ⟨0x20040, [(4, 24)], [⟨0, 32, .ro, 0, false⟩]⟩,
  -- PWR_DOMAIN_CTRL
  ⟨0x200a0, [], [⟨0, 8, .rw, 255, false⟩]⟩,
  -- PWR_SUP_CFG
  ⟨0x20100, [(4, 32)], [⟨16, 16, .rw, 0, false⟩, ⟨15, 1, .rw, 0, false⟩, ⟨14, 1, .rw, 0, false⟩, ⟨7, 7, .rw, 0, false⟩, ⟨0, 6, .rw, 0, false⟩]⟩,
  -- PWR_SEQ_UP
  ⟨0x20200, [(4, 16)], [⟨0, 32, .rw, 0, false⟩]⟩,
  -- PWR_SEQ_DOWN
  ⟨0x20240, [(4, 16)], [⟨0, 32, .rw, 0, false⟩]⟩
]

/-- Register table of R479. -/
def regTableR479_0 : List RDesc := [
  -- FLT_WORD_LO
  ⟨0x40000, [], [⟨0, 32, .w1c, 0, false⟩]⟩,
  -- FLT_WORD_HI
  ⟨0x40004, [], [⟨0, 32, .w1c, 0, false⟩]⟩,
  -- FLT_PREV_LO
  ⟨0x40008, [], [⟨0, 32, .ro, 0, false⟩]⟩,
  -- FLT_PREV_HI
  ⟨0x4000c, [], [⟨0, 32, .ro, 0, false⟩]⟩,
  -- FLT_CFG
  ⟨0x40010, [(4, 8)], [⟨2, 2, .rw, 0, false⟩, ⟨0, 2, .rw, 0, false⟩, ⟨6, 2, .rw, 0, false⟩, ⟨4, 2, .rw, 0, false⟩, ⟨10, 2, .rw, 0, false⟩, ⟨8, 2, .rw, 0, false⟩, ⟨14, 2, .rw, 0, false⟩, ⟨12, 2, .rw, 0, false⟩, ⟨18, 2, .rw, 0, false⟩, ⟨16, 2, .rw, 0, false⟩, ⟨22, 2, .rw, 0, false⟩, ⟨20, 2, .rw, 0, false⟩, ⟨26, 2, .rw, 0, false⟩, ⟨24, 2, .rw, 0, false⟩, ⟨30, 2, .rw, 0, false⟩, ⟨28, 2, .rw, 0, false⟩]⟩,
  -- FLT_FIRST
  ⟨0x40030, [], [⟨31, 1, .w1c, 0, false⟩, ⟨24, 6, .ro, 0, false⟩, ⟨0, 16, .ro, 0, false⟩]⟩,
  -- FLT_DOUSE
  ⟨0x40034, [], [⟨31, 1, .wo, 0, false⟩, ⟨30, 1, .wo, 0, false⟩, ⟨0, 16, .wo, 0, false⟩]⟩,
  -- FLT_DOUSE_STATUS
  ⟨0x40038, [], [⟨31, 1, .ro, 0, false⟩, ⟨30, 1, .ro, 0, false⟩, ⟨28, 2, .ro, 0, false⟩, ⟨24, 4, .ro, 0, false⟩, ⟨16, 5, .ro, 0, false⟩, ⟨0, 16, .ro, 0, false⟩]⟩,
  -- FLT_DOUSE_COUNT
  ⟨0x4003c, [], [⟨0, 32, .ro, 0, false⟩]⟩,
  -- FLT_INT_ROUTE
  ⟨0x40040, [], [⟨3, 2, .rw, 3, false⟩, ⟨0, 3, .rw, 0, false⟩]⟩
]

/-- Register table of R479. -/
def regTableR479_1 : List RDesc := [
  -- FLT_LLK_CFG
  ⟨0x40044, [], [⟨31, 1, .rw, 0, false⟩, ⟨30, 1, .rw, 0, false⟩, ⟨29, 1, .rw, 0, false⟩, ⟨28, 1, .rw, 0, false⟩]⟩,
  -- FLT_LLK_COUNTS
  ⟨0x40048, [], [⟨16, 16, .rw, 0, false⟩, ⟨0, 16, .rw, 0, false⟩]⟩,
  -- FLT_LLK_SRC_LO
  ⟨0x40050, [(8, 4)], [⟨0, 32, .rw, 0, false⟩]⟩,
  -- FLT_LLK_SRC_HI
  ⟨0x40054, [(8, 4)], [⟨31, 1, .rw, 0, false⟩, ⟨0, 16, .rw, 0, false⟩]⟩,
  -- FLT_INJECT_LO
  ⟨0x40070, [], [⟨0, 32, .wo, 0, false⟩]⟩,
  -- FLT_INJECT_HI
  ⟨0x40074, [], [⟨0, 32, .wo, 0, false⟩]⟩
]

/-- Register table of R497. -/
def regTableR497_0 : List RDesc := [
  -- CAL_PROC
  ⟨0xd0000, [], [⟨31, 1, .wo, 0, false⟩, ⟨16, 3, .rw, 0, false⟩, ⟨0, 16, .rw, 0, false⟩]⟩,
  -- CAL_PROC_STATUS
  ⟨0xd0004, [], [⟨31, 1, .ro, 0, false⟩, ⟨28, 3, .ro, 0, false⟩, ⟨22, 6, .ro, 0, false⟩, ⟨16, 4, .ro, 0, false⟩, ⟨0, 16, .ro, 0, false⟩]⟩,
  -- CAL_CFG
  ⟨0xd0008, [], [⟨16, 16, .rw, 0, false⟩, ⟨0, 16, .rw, 0, false⟩]⟩,
  -- CAL_INT_STATUS
  ⟨0xd000c, [], [⟨4, 1, .w1c, 0, false⟩, ⟨3, 1, .w1c, 0, false⟩, ⟨2, 1, .w1c, 0, false⟩, ⟨1, 1, .w1c, 0, false⟩, ⟨0, 1, .w1c, 0, false⟩]⟩,
  -- CAL_INT_EN
  ⟨0xd0010, [], [⟨0, 5, .rw, 0, false⟩]⟩,
  -- CAL_INT_ROUTE
  ⟨0xd0014, [], [⟨3, 2, .rw, 3, false⟩, ⟨0, 3, .rw, 0, false⟩]⟩,
  -- CAL_DUE
  ⟨0xd0018, [], [⟨0, 19, .ro, 0, false⟩]⟩,
  -- CAL_PENDING
  ⟨0xd001c, [], [⟨0, 19, .ro, 0, false⟩]⟩,
  -- CAL_TAB_COUNT
  ⟨0xd0100, [(16, 19)], [⟨0, 32, .ro, 0, false⟩]⟩,
  -- CAL_TAB_TIME_LO
  ⟨0xd0104, [(16, 19)], [⟨0, 32, .ro, 0, false⟩]⟩
]

/-- Register table of R497. -/
def regTableR497_1 : List RDesc := [
  -- CAL_TAB_TIME_HI
  ⟨0xd0108, [(16, 19)], [⟨16, 16, .ro, 0, false⟩, ⟨0, 16, .ro, 0, false⟩]⟩,
  -- CAL_TAB_STATUS
  ⟨0xd010c, [(16, 19)], [⟨31, 1, .ro, 0, false⟩, ⟨30, 1, .ro, 0, false⟩, ⟨29, 1, .w1c, 0, false⟩, ⟨28, 1, .ro, 0, false⟩, ⟨27, 1, .ro, 0, false⟩, ⟨26, 1, .ro, 0, false⟩, ⟨24, 2, .ro, 0, false⟩, ⟨0, 16, .ro, 0, false⟩]⟩
]

/-- Register table of R526. -/
def regTableR526_0 : List RDesc := [
  -- MGT_PORT_CTRL
  ⟨0xb0000, [(16, 2)], [⟨31, 1, .rw, 0, false⟩, ⟨30, 1, .rw, 0, false⟩, ⟨29, 1, .rw, 1, false⟩]⟩,
  -- MGT_PORT_STATUS
  ⟨0xb0004, [(16, 2)], [⟨2, 1, .ro, 0, false⟩, ⟨1, 1, .ro, 0, false⟩, ⟨0, 1, .ro, 0, false⟩]⟩,
  -- MGT_PORT_MAC_LO
  ⟨0xb0008, [(16, 2)], [⟨0, 32, .rw, 0, false⟩]⟩,
  -- MGT_PORT_MAC_HI
  ⟨0xb000c, [(16, 2)], [⟨0, 16, .rw, 0, false⟩]⟩,
  -- MGT_TIME_NS
  ⟨0xb0040, [], [⟨0, 32, .ro, 0, false⟩]⟩,
  -- MGT_TIME_SEC_LO
  ⟨0xb0044, [], [⟨0, 32, .ro, 0, false⟩]⟩,
  -- MGT_TIME_SEC_HI
  ⟨0xb0048, [], [⟨0, 32, .ro, 0, false⟩]⟩,
  -- MGT_TIME_INC_LO
  ⟨0xb004c, [], [⟨0, 32, .rw, 0, false⟩]⟩,
  -- MGT_TIME_INC_HI
  ⟨0xb0050, [], [⟨0, 8, .rw, 4, false⟩]⟩,
  -- MGT_TIME_ADJ
  ⟨0xb0054, [], [⟨0, 32, .wo, 0, false⟩]⟩
]

/-- Register table of R526. -/
def regTableR526_1 : List RDesc := [
  -- MGT_TIME_SET_SEC_LO
  ⟨0xb0058, [], [⟨0, 32, .rw, 0, false⟩]⟩,
  -- MGT_TIME_SET_SEC_HI
  ⟨0xb005c, [], [⟨0, 16, .rw, 0, false⟩]⟩,
  -- MGT_TIME_STATUS
  ⟨0xb0060, [], [⟨4, 1, .ro, 0, false⟩, ⟨3, 1, .ro, 0, false⟩, ⟨2, 1, .ro, 0, false⟩, ⟨1, 1, .w1c, 0, false⟩, ⟨0, 1, .ro, 1, false⟩]⟩,
  -- MGT_PTP_CFG
  ⟨0xb0064, [], [⟨31, 1, .rw, 0, false⟩, ⟨8, 16, .rw, 3000, false⟩, ⟨0, 8, .rw, 0, false⟩]⟩,
  -- MGT_PTP_MASTER
  ⟨0xb0068, [(4, 3)], [⟨0, 32, .rw, 0, false⟩]⟩,
  -- MGT_TS_INFO
  ⟨0xb0080, [(16, 2)], [⟨31, 1, .ro, 0, false⟩, ⟨30, 1, .w1c, 0, false⟩, ⟨20, 1, .ro, 0, false⟩, ⟨16, 4, .ro, 0, false⟩, ⟨0, 16, .ro, 0, false⟩]⟩,
  -- MGT_TS_NS
  ⟨0xb0084, [(16, 2)], [⟨0, 32, .ro, 0, false⟩]⟩,
  -- MGT_TS_SEC_LO
  ⟨0xb0088, [(16, 2)], [⟨0, 32, .ro, 0, false⟩]⟩,
  -- MGT_TS_SEC_HI
  ⟨0xb008c, [(16, 2)], [⟨0, 32, .ro, 0, false⟩]⟩,
  -- MGT_INT_STATUS
  ⟨0xb00a0, [], [⟨3, 1, .w1c, 0, false⟩, ⟨2, 1, .w1c, 0, false⟩, ⟨1, 1, .w1c, 0, false⟩, ⟨0, 1, .w1c, 0, false⟩]⟩
]

/-- Register table of R526. -/
def regTableR526_2 : List RDesc := [
  -- MGT_INT_EN
  ⟨0xb00a4, [], [⟨0, 4, .rw, 0, false⟩]⟩,
  -- MGT_INT_ROUTE
  ⟨0xb00a8, [], [⟨3, 2, .rw, 3, false⟩, ⟨0, 3, .rw, 0, false⟩]⟩
]

/-- Register table of R527. -/
def regTableR527_0 : List RDesc := [
  -- EMB_RTC_SEC_LO
  ⟨0x10100, [], [⟨0, 32, .ro, 0, false⟩]⟩,
  -- EMB_RTC_SEC_HI
  ⟨0x10104, [], [⟨16, 15, .ro, 0, false⟩, ⟨0, 16, .ro, 0, false⟩]⟩,
  -- EMB_RTC_STATUS
  ⟨0x10108, [], [⟨1, 1, .ro, 0, false⟩, ⟨0, 1, .ro, 0, false⟩]⟩,
  -- LDG_SEL
  ⟨0xe0000, [], [⟨0, 11, .rw, 0, false⟩]⟩,
  -- LDG_DATA_LO
  ⟨0xe0004, [], [⟨0, 32, .ro, 0, false⟩]⟩,
  -- LDG_DATA_HI
  ⟨0xe0008, [], [⟨0, 32, .ro, 0, false⟩]⟩,
  -- LDG_STATUS
  ⟨0xe000c, [], [⟨2, 1, .ro, 0, false⟩, ⟨1, 1, .w1c, 0, false⟩, ⟨0, 1, .ro, 0, false⟩]⟩,
  -- LDG_SERVICE
  ⟨0xe0010, [], [⟨31, 1, .wo, 0, false⟩, ⟨0, 8, .wo, 0, false⟩]⟩,
  -- AUD_STATUS
  ⟨0xe8000, [], [⟨16, 16, .ro, 0, false⟩, ⟨0, 14, .ro, 0, false⟩]⟩,
  -- AUD_COUNT_LO
  ⟨0xe8004, [], [⟨0, 32, .ro, 0, false⟩]⟩
]

/-- Register table of R527. -/
def regTableR527_1 : List RDesc := [
  -- AUD_COUNT_HI
  ⟨0xe8008, [], [⟨0, 32, .ro, 0, false⟩]⟩,
  -- AUD_RD_INDEX_LO
  ⟨0xe8010, [], [⟨0, 32, .rw, 0, false⟩]⟩,
  -- AUD_RD_INDEX_HI
  ⟨0xe8014, [], [⟨0, 32, .rw, 0, false⟩]⟩,
  -- AUD_RD_CTRL
  ⟨0xe8018, [], [⟨31, 1, .wo, 0, false⟩, ⟨30, 1, .ro, 0, false⟩, ⟨29, 1, .ro, 0, false⟩, ⟨0, 1, .rw, 0, false⟩]⟩,
  -- AUD_RD_DATA
  ⟨0xe8100, [(4, 64)], [⟨0, 32, .ro, 0, false⟩]⟩,
  -- AUD_PERM_REG
  ⟨0xe8200, [(4, 32)], [⟨0, 12, .rw, 0, false⟩]⟩,
  -- AUD_PERM_DESC
  ⟨0xe8280, [], [⟨31, 1, .w1s, 0, false⟩, ⟨0, 30, .rw, 0, false⟩]⟩,
  -- AUD_VIOL_ADDR_LO
  ⟨0xe8290, [], [⟨0, 32, .ro, 0, false⟩]⟩,
  -- AUD_VIOL_ADDR_HI
  ⟨0xe8294, [], [⟨0, 12, .ro, 0, false⟩]⟩,
  -- AUD_VIOL_INFO
  ⟨0xe8298, [], [⟨31, 1, .w1c, 0, false⟩, ⟨28, 3, .ro, 0, false⟩, ⟨16, 8, .ro, 0, false⟩, ⟨0, 16, .rw, 0, false⟩]⟩
]

/-- Register table of R548. -/
def regTableR548 : List RDesc := [
  -- SEC_CTRL
  ⟨0xf0000, [], [⟨31, 1, .wo, 0, false⟩, ⟨16, 8, .wo, 0, false⟩, ⟨0, 16, .wo, 0, false⟩]⟩,
  -- SEC_STATUS
  ⟨0xf0004, [], [⟨31, 1, .ro, 0, false⟩, ⟨28, 3, .ro, 0, false⟩, ⟨24, 4, .ro, 0, false⟩, ⟨15, 1, .ro, 0, false⟩, ⟨8, 4, .ro, 0, false⟩, ⟨0, 8, .ro, 0, false⟩]⟩,
  -- SEC_KINDLE
  ⟨0xf0008, [], [⟨31, 1, .ro, 0, false⟩, ⟨30, 1, .ro, 0, false⟩, ⟨20, 4, .ro, 0, false⟩, ⟨8, 8, .ro, 0, false⟩]⟩,
  -- SEC_ADDR_LO
  ⟨0xf000c, [], [⟨6, 26, .rw, 0, false⟩]⟩,
  -- SEC_ADDR_HI
  ⟨0xf0010, [], [⟨0, 12, .rw, 0, false⟩]⟩,
  -- SEC_FLASH_OFF
  ⟨0xf0014, [], [⟨0, 32, .rw, 0, false⟩]⟩,
  -- SEC_WDOG
  ⟨0xf0018, [], [⟨31, 1, .wo, 0, false⟩, ⟨0, 16, .rw, 0, false⟩]⟩,
  -- SEC_BOOT
  ⟨0xf0020, [(4, 5)], [⟨16, 16, .ro, 0, false⟩, ⟨8, 8, .ro, 0, false⟩, ⟨7, 1, .ro, 0, false⟩, ⟨4, 3, .ro, 0, false⟩]⟩,
  -- SEC_DATA
  ⟨0xf0040, [(4, 8)], [⟨0, 32, .rw, 0, false⟩]⟩,
  -- SEC_IDKEY
  ⟨0xf0080, [(4, 15)], [⟨0, 32, .ro, 0, false⟩]⟩
]

/-- Register table of R559. -/
def regTableR559 : List RDesc := [
  -- PWR_TEMP
  ⟨0x20300, [(4, 16)], [⟨31, 1, .ro, 0, false⟩, ⟨0, 16, .ro, 0, false⟩]⟩,
  -- PWR_TEMP_MAX
  ⟨0x20340, [], [⟨16, 4, .ro, 0, false⟩, ⟨0, 16, .rw, 32768, false⟩]⟩
]

/-- Every register of the spec, in the order of the chapters. -/
def regTable : List RDesc :=
  regTableR47 ++
  regTableR101_0 ++
  regTableR101_1 ++
  regTableR128 ++
  regTableR204_0 ++
  regTableR204_1 ++
  regTableR225 ++
  regTableR257 ++
  regTableR281_0 ++
  regTableR281_1 ++
  regTableR281_2 ++
  regTableR298 ++
  regTableR322_0 ++
  regTableR322_1 ++
  regTableR351_0 ++
  regTableR351_1 ++
  regTableR384_0 ++
  regTableR384_1 ++
  regTableR405_0 ++
  regTableR405_1 ++
  regTableR405_2 ++
  regTableR418_0 ++
  regTableR418_1 ++
  regTableR444_0 ++
  regTableR444_1 ++
  regTableR463_0 ++
  regTableR463_1 ++
  regTableR463_2 ++
  regTableR479_0 ++
  regTableR479_1 ++
  regTableR497_0 ++
  regTableR497_1 ++
  regTableR526_0 ++
  regTableR526_1 ++
  regTableR526_2 ++
  regTableR527_0 ++
  regTableR527_1 ++
  regTableR548 ++
  regTableR559

end Sys2Proof.Machine
end

