-- ==== Sys2Proof/Machine/Ops.lean ====
section
/-! DEFINITION. The named operations over registers, memory, device time, the ledger, the audit log and the sparse parts of the
state that every command's meaning is written with. -/

namespace Sys2Proof.Machine

/-! ### Register map -/

/-- Whether an offset from the first element falls on an element of an array with these (stride, count) pairs. -/
def dimsHit : List (Nat × Nat) → Nat → Bool
  | [], o => o == 0
  | (s, n) :: t, o => o / s < n && dimsHit t (o % s)

/-- Whether a register table row holds the register at an offset (R46). -/
def RDesc.hits (r : RDesc) (off : Nat) : Bool := r.base ≤ off && dimsHit r.dims (off - r.base)

/-- The row of a register offset. -/
def regRow (off : Nat) : Option RDesc := regTable.find? (fun r => r.hits off)

/-- The offset under which a register is held: the device-wide HRT registers (R191, R203) stand in every hearth's window and are
held under hearth 0. -/
def regCanon (off : Nat) : Nat :=
  if 0x110000 ≤ off ∧ off < 0x200000 then
    let o := 0x100000 + off % 65536
    match regRow o with
    | some r => if r.dims.isEmpty then o else off
    | none => off
  else off

/-- Reset values that the tables give by reference: R303 (PLL N and POST), R438 (DRAM ports), R464 (fault classes). -/
def regResetByRule (off : Nat) : Option Nat :=
  if off = R.CLK_PLL_CTRL 0 then some 0x40000028
  else if off = R.CLK_PLL_CTRL 1 then some 0x40000128
  else if off = R.CLK_PLL_CTRL 2 then some 0x40000228
  else if off = R.CLK_PLL_CTRL 3 ∨ off = R.CLK_PLL_CTRL 4 then some 0x40000140
  else if off = R.CLK_PLL_CTRL 5 then some 0x4000007D
  else if off = R.FLT_CFG 0 then some 0x55EEAAAA
  else if off = R.FLT_CFG 1 then some 0x50155005
  else if off = R.FLT_CFG 2 then some 0x00505555
  else if R.DMC_PORT_CFG 0 ≤ off ∧ off ≤ R.DMC_PORT_CFG 36 ∧ (off - R.DMC_PORT_CFG 0) % 8 = 0 then
    let n := (off - R.DMC_PORT_CFG 0) / 8
    some ((if n ≤ 33 then 2 ^ 31 else 0) + (if n < 16 then 600 else if n = 34 then 400 else if n < 34 then 2000 else 4000))
  else none

/-- The word its fields' reset values make. -/
def RDesc.resetWord (r : RDesc) : Nat := r.fields.foldl (fun w f => natSetField w ⟨f.lsb, f.width⟩ f.reset) 0

/-- A register's reset value (R12). -/
def regResetWord (off : Nat) : Word :=
  match regResetByRule off with
  | some n => BitVec.ofNat 32 n
  | none =>
    match regRow off with
    | some r => BitVec.ofNat 32 r.resetWord
    | none => 0

/-- A register's stored content. -/
def Dev.reg (d : Dev) (off : Nat) : Word :=
  match mapFind d.regs off with
  | some w => w
  | none => regResetWord off

/-- Store a register's content. -/
def Dev.setReg (d : Dev) (off : Nat) (w : Word) : Dev := { d with regs := mapSet d.regs off w }

/-- A field of a register's stored content. -/
def Dev.getF (d : Dev) (off : Nat) (f : Fld) : Nat := getBits (d.reg off) f

/-- Store a field. -/
def Dev.setF (d : Dev) (off : Nat) (f : Fld) (v : Nat) : Dev := d.setReg off (setBits (d.reg off) f v)

/-- Whether a field of one bit is set. -/
def Dev.flag (d : Dev) (off : Nat) (f : Fld) : Bool := d.getF off f != 0

/-- Set a one-bit field: a status bit that the device latches (R11). -/
def Dev.latch (d : Dev) (off : Nat) (f : Fld) : Dev := d.setF off f 1

/-- Count in a field that saturates at its greatest value. -/
def Dev.bump (d : Dev) (off : Nat) (f : Fld) (by_ : Nat := 1) : Dev := d.setF off f (capAt (d.getF off f + by_) (2 ^ f.width - 1))

/-- Set bit `i` of a register. -/
def Dev.setBit (d : Dev) (off i : Nat) (b : Bool) : Dev := d.setF off ⟨i, 1⟩ (bit b)

/-- Bit `i` of a register. -/
def Dev.bitOf (d : Dev) (off i : Nat) : Bool := d.getF off ⟨i, 1⟩ != 0

/-- Registers of an offset range go back to their reset values. -/
def Dev.clearRegs (d : Dev) (p : Nat → Bool) : Dev := { d with regs := d.regs.filter (fun r => !(p r.1)) }

/-- Send or answer something to the outside. -/
def Dev.out (d : Dev) (o : Output) : Dev := { d with outbox := d.outbox ++ [o] }

/-- Draw a free truth value (log entry 7). -/
def Dev.drawBool (d : Dev) : Bool × Dev := (Config.freeBool d.fresh, { d with fresh := d.fresh + 1 })

/-- Draw a free number (log entry 7). -/
def Dev.drawNat (d : Dev) : Nat × Dev := (Config.freeNat d.fresh, { d with fresh := d.fresh + 1 })

/-- A quotient whose rounding the specification leaves open: exact, or one of the two neighbours, which of them is free (log entry 7). -/
def Dev.divFree (d : Dev) (x : Int) (n : Nat) : Int × Dev :=
  if x % (n : Int) = 0 then (x / (n : Int), d)
  else let (up, d) := d.drawBool; (x / (n : Int) + (if up then 1 else 0), d)

/-! ### Memory: the 2 TiB of DRAM as bytes (R43, R44) -/

/-- What a byte of DRAM that nothing has written reads as: kindling fills DRAM with zeros (R528 step 6). -/
def memDefault : Byte := 0

/-- The byte of an address. -/
def memByte : List Host.Cell → Nat → Byte
  | [], _ => memDefault
  | (k, b) :: t, a => if k = a then b else memByte t a

/-- The cells that list a byte string from an address on, without those that hold the default. -/
def memCells : Nat → List Byte → List Host.Cell
  | _, [] => []
  | a, b :: bs => if b = memDefault then memCells (a + 1) bs else (a, b) :: memCells (a + 1) bs

/-- Write a byte string. -/
def memWrite (m : List Host.Cell) (a : Nat) (bs : List Byte) : List Host.Cell :=
  m.filter (fun c => c.1 < a) ++ memCells a bs ++ m.filter (fun c => a + bs.length ≤ c.1)

/-- The canonical form: addresses strictly rising, no entry that equals the default. -/
def Memory.wf : List Host.Cell → Bool
  | [] => true
  | [c] => c.2 != memDefault
  | c :: c' :: t => c.2 != memDefault && c.1 < c'.1 && Memory.wf (c' :: t)

/-- A cell list in its canonical form: itself when it has it, else written cell by cell. -/
def memCanon (m : List Host.Cell) : List Host.Cell :=
  if Memory.wf m then m else m.foldl (fun acc c => memWrite acc c.1 [c.2]) []

/-- The device with its memory in the canonical form, which `Dev.write` keeps. -/
def Dev.canon (d : Dev) : Dev := { d with mem := memCanon d.mem }

/-- `n` bytes of DRAM. -/
def Dev.read (d : Dev) (a n : Nat) : List Byte := (List.range n).map (fun i => memByte d.mem (a + i))

/-- Write bytes to DRAM. A full 64-byte line written clears the poison of that line (R426). -/
def Dev.write (d : Dev) (a : Nat) (bs : List Byte) : Dev :=
  { d with mem := memWrite d.mem a bs
           poison := d.poison.filter (fun l => !(a ≤ 64 * l && 64 * l + 64 ≤ a + bs.length)) }

/-- A number of `n` bytes in DRAM. -/
def Dev.readN (d : Dev) (a n : Nat) : Nat := natOf (d.read a n)

/-- Write a number of `n` bytes. -/
def Dev.writeN (d : Dev) (a n v : Nat) : Dev := d.write a (bytesOf n v)

/-- Whether a byte range holds a poisoned line (R424). -/
def Dev.poisoned (d : Dev) (a n : Nat) : Bool := d.poison.any (fun l => 64 * l < a + n && a < 64 * l + 64)

/-- Fitted capacity in bytes (R44). -/
def Dev.capacity (d : Dev) : Nat := d.getF R.GLB_CAPACITY F.GLB_CAPACITY_DRAM_GIB * 2 ^ 30

/-- First byte after the host region (R423). -/
def Dev.hostEnd (d : Dev) : Nat := d.getF R.DMC_REGION F.DMC_REGION_HOST_GIB * 2 ^ 30

/-- Whether a byte range lies in the host region. -/
def Dev.inHost (d : Dev) (a n : Nat) : Bool := a + n ≤ d.hostEnd

/-! ### Device time (R501) and serial -/

/-- GLB_SERIAL. -/
def Dev.serial (d : Dev) : Nat := (d.reg R.GLB_SERIAL_LO).toNat + 2 ^ 32 * (d.reg R.GLB_SERIAL_HI).toNat

/-- GLB_DEVICE_EPOCH. -/
def Dev.devEpoch (d : Dev) : Nat := (d.reg R.GLB_DEVICE_EPOCH).toNat

/-! ### Ledger (R510) -/

/-- A ledger item. -/
def Dev.ledger (d : Dev) (i : Nat) : Nat := mapGet d.time.ledger i 0

/-- Set a ledger item. -/
def Dev.setLedger (d : Dev) (i v : Nat) : Dev := { d with time := { d.time with ledger := mapSet d.time.ledger i v } }

/-- Count in a ledger item; counters saturate at 2^64 − 1. -/
def Dev.count (d : Dev) (i : Nat) (by_ : Nat := 1) : Dev := d.setLedger i (capAt (d.ledger i + by_) (2 ^ 64 - 1))

/-! ### Audit log (R519–R523) -/

/-- Entries the on-chip buffer holds (R523). -/
def auditBufferSize : Nat := 8192

/-- The entry of R520. -/
def auditEntry (secs ns origin kind object : Nat) (old : List Byte) (new : Nat) (chain : List Byte) : List Byte :=
  bytesOf 6 secs ++ bytesOf 4 ns ++ bytesOf 1 origin ++ bytesOf 1 kind ++ bytesOf 6 object ++ slice old 0 4 ++ bytesOf 4 new ++ slice chain 0 6

/-- The first 4 bytes of SHAKE256 over an old value (R520). -/
def digest4 (bs : List Byte) : List Byte := shake256 4 bs

/-- H_0: the chain value before entry 0 (R522). -/
def auditGenesis (serial : Nat) : List Byte := shake256 32 (bytesOf 8 serial)

/-- Append an entry whose bytes up to LINK are given to the buffer, chain it (R522), and note the chain head where a checkpoint
falls due (R524). -/
def Audit.push (a : Audit) (body : List Byte) : Audit :=
  let e := slice body 0 26 ++ slice a.chain 0 6
  let chain := shake256 32 (a.chain ++ e)
  { a with buffer := a.buffer ++ [(a.count, e)]
           count := a.count + 1
           chain := chain
           heads := if (a.count + 1) % 4096 = 0 then a.heads ++ [(a.count + 1, chain)] else a.heads }

/-- Log an entry: a full buffer loses it; the first entry after space returns is a LOSS entry (R523). -/
def Audit.log (a : Audit) (secs ns : Nat) (body : List Byte) : Audit :=
  if a.buffer.length ≥ auditBufferSize then
    { a with lost := capAt (a.lost + 1) 65535
             lostTotal := capAt (a.lostTotal + 1) (2 ^ 32 - 1)
             lossFrom := some (match a.lossFrom with | some n => capAt (n + 1) (2 ^ 32 - 1) | none => 1) }
  else
    match a.lossFrom with
    | none => a.push body
    | some n =>
      let a1 := ({ a with lossFrom := none }).push (auditEntry secs ns 0 0x0D a.count [] n [])
      if a1.buffer.length ≥ auditBufferSize then
        { a1 with lost := capAt (a1.lost + 1) 65535, lostTotal := capAt (a1.lostTotal + 1) (2 ^ 32 - 1), lossFrom := some 1 }
      else a1.push body

/-- Whether the 1 ms of folding of a VIOLATION entry has passed (R521). -/
def OpenViol.over (v : OpenViol) (secs ns : Nat) : Bool := v.secs * 10 ^ 9 + v.ns + 10 ^ 6 < secs * 10 ^ 9 + ns

/-- The bytes of a folded VIOLATION entry. -/
def OpenViol.entry (v : OpenViol) : List Byte :=
  auditEntry v.secs v.ns v.origin 0x09 v.addr [] (v.count + 2 ^ 16 * v.kind) []

/-- Log the VIOLATION entries whose folding has ended (log entry 11). -/
def Dev.closeFolds (d : Dev) : Dev :=
  let done := d.audit.folding.filter (fun v => v.over d.time.secs d.time.ns)
  let a := { d.audit with folding := d.audit.folding.filter (fun v => !(v.over d.time.secs d.time.ns)) }
  { d with audit := done.foldl (fun a v => a.log d.time.secs d.time.ns v.entry) a }

/-- Log a change (R41, R520): origin, KIND, OBJECT, old value for OLD_DIGEST (empty: none), NEW. -/
def Dev.log (d : Dev) (origin kind object : Nat) (old : List Byte) (new : Nat) : Dev :=
  let d := d.closeFolds
  let e := auditEntry d.time.secs d.time.ns origin kind object (if old.isEmpty then [] else digest4 old) new []
  { d with audit := d.audit.log d.time.secs d.time.ns e }

/-- Log a NOTICE (R521). -/
def Dev.notice (d : Dev) (code object new : Nat) : Dev := d.log 0 0x0E object [] (code + new)

/-- A refusal in the audit log: folded into an open VIOLATION of the same origin and address, or a new one (R521). -/
def Dev.logViolation (d : Dev) (origin addr kind : Nat) : Dev :=
  let d := d.closeFolds
  let same := d.audit.folding.any (fun v => v.origin == origin && v.addr == addr)
  let f := if same then
      d.audit.folding.map (fun v => if v.origin == origin && v.addr == addr then { v with count := capAt (v.count + 1) 65535 } else v)
    else d.audit.folding ++ [⟨origin, addr, kind, d.time.secs, d.time.ns, 1⟩]
  { d with audit := { d.audit with folding := f } }

/-! ### Board -/

/-- Whether a channel is absent (R70). -/
def Dev.absent (d : Dev) (ch : Nat) : Bool := d.board.profile.absent.contains ch

/-- Device states of R448. -/
def devBanked : Nat := 0
def devSmoulder : Nat := 1
def devGlow : Nat := 2
def devBlaze : Nat := 3
def devDescending : Nat := 4
def devAscending : Nat := 5

/-- Whether any grate or TMU group is not OFF (R449). -/
def Dev.anyDomainUp (d : Dev) : Bool := d.seq.grates.any (fun g => g.2.dom != .off) || d.tmu.groups.any (fun g => g.2 != .off)

/-- The device state of R448. The register holds GLOW for both GLOW and BLAZE; the two differ by whether a grate or TMU group is not
OFF (R449). -/
def Dev.pstate (d : Dev) : Nat :=
  let s := d.getF R.EMB_PSTATE F.EMB_PSTATE_STATE
  if s = devGlow ∨ s = devBlaze then (if d.anyDomainUp then devBlaze else devGlow) else s

/-- Glow or Blaze. -/
def Dev.running (d : Dev) : Bool := d.pstate == devGlow || d.pstate == devBlaze

/-- The mean of the sensors of a list, in 1/16 °C (R496). -/
def Dev.meanTemp (d : Dev) (sensors : List Nat) : Nat × Dev :=
  let (t, d) := d.divFree ((sensors.map (fun i => sgn (d.getF (R.PWR_TEMP i) F.PWR_TEMP_TEMP) 16)).foldl (· + ·) 0) sensors.length
  (unsgn t 16, d)

/-- BANKED. -/
def Dev.banked (d : Dev) : Bool := d.pstate == devBanked

/-- Role strap (R28). -/
def Dev.role (d : Dev) : Nat := d.getF R.GLB_ROLE F.GLB_ROLE_ROLE

/-- Position in the tree (R47). -/
def Dev.deviceNum (d : Dev) : Nat := d.getF R.GLB_ROLE F.GLB_ROLE_DEVICE_NUM

/-! ### Sites, groups, engines, channels, grates, hearths -/

/-- A wait, capture or run at its start. -/
def Flow.start (entry : Nat) : Flow := ⟨entry, false, [], [], [0, 0, 0, 0], 0⟩

/-- The sequencer state at vector 0 (R145, R187). -/
def SiteRun.start (entry w : Nat) : SiteRun :=
  { flow := Flow.start entry, vec := 0, prevGran := none, rep := 0, siteFail := false, pinFails := [], vc := 0, t := 0, ct := 0
    idle := false, condTrue := false, late := none, waitHit := none, waitMore := false, waitCt := 0, wait := none
    prevSyms := List.replicate w 3, smother := [], stop := false, rdvDone := none, spill := [], sureFail := false, surePins := [] }

/-- The fail latches of a run are cleared (R149, R153, R161). -/
def SiteRun.clearFails (r : SiteRun) : SiteRun := { r with siteFail := false, pinFails := [], sureFail := false, surePins := [] }

/-- The capture state at the start of a run (R235, R243). -/
def CapRun.start : CapRun :=
  { k := 0, o := 0, oLast := 0, dampRecs := 0, lowStreak := 0, dampDue := false, lastRec := [], prevSamp := [], dropped := 0
    droppedDamp := 0, markersDropped := 0, records := 0, stopped := false, ovfDue := false, overflow := false, bufferFull := false
    results := 0, resultsFull := false, resultsLost := 0, maxK := 0, opened := [], closing := [], marks := 0, nextInst := []
    posted := 0, finished := false, todo := [] }

/-- A site after reset: IDLE, nothing run (R19, R194). -/
def Site.reset : Site :=
  { st := .idle, endCause := .none, reason := 0, reasons := [], invalid := false, holds := 0, holdTicks := 0, lateJump := false
    group := 0, start := 0, run := SiteRun.start 0 0, cap := CapRun.start, summary := 0, holdsOut := 0, lastPc := 0
    seconds := 0, ns := 0 }

/-- A grate after reset: domain OFF (R98), relays released. -/
def Grate.reset : Grate := ⟨.off, false, false⟩

/-- The pin safe state of a channel (R87). -/
def Chan.safe : Chan := ⟨.z, false, false, false, 0, ⟨0, 0⟩⟩

/-- A hearth after reset (R208). -/
def Hearth.reset : Hearth := ⟨4, 0, 1024, false, 0, false⟩

/-- An idle engine (R176). -/
def Engine.free : Engine := ⟨none, []⟩

/-- An idle DDS unit (R283). -/
def DdsUnit.reset : DdsUnit := ⟨0, 0, 0, 0, 0, 0, false, 0, 0, 0⟩

def Dev.site (d : Dev) (n : Nat) : Site := mapGet d.seq.sites n Site.reset
def Dev.setSite (d : Dev) (n : Nat) (s : Site) : Dev := { d with seq := { d.seq with sites := mapSet d.seq.sites n s } }
def Dev.modSite (d : Dev) (n : Nat) (f : Site → Site) : Dev := d.setSite n (f (d.site n))
def Dev.grate (d : Dev) (g : Nat) : Grate := mapGet d.seq.grates g Grate.reset
def Dev.modGrate (d : Dev) (g : Nat) (f : Grate → Grate) : Dev := { d with seq := { d.seq with grates := mapSet d.seq.grates g (f (d.grate g)) } }
def Dev.chan (d : Dev) (ch : Nat) : Chan := mapGet d.seq.chans ch Chan.safe
def Dev.modChan (d : Dev) (ch : Nat) (f : Chan → Chan) : Dev := { d with seq := { d.seq with chans := mapSet d.seq.chans ch (f (d.chan ch)) } }
def Dev.hearth (d : Dev) (h : Nat) : Hearth := mapGet d.seq.hearths h Hearth.reset
def Dev.modHearth (d : Dev) (h : Nat) (f : Hearth → Hearth) : Dev := { d with seq := { d.seq with hearths := mapSet d.seq.hearths h (f (d.hearth h)) } }
def Dev.engine (d : Dev) (e : Nat) : Engine := mapGet d.seq.engines e Engine.free
def Dev.modEngine (d : Dev) (e : Nat) (f : Engine → Engine) : Dev := { d with seq := { d.seq with engines := mapSet d.seq.engines e (f (d.engine e)) } }
def Dev.ddsUnit (d : Dev) (u : Nat) : DdsUnit := mapGet d.seq.dds u DdsUnit.reset
def Dev.modDds (d : Dev) (u : Nat) (f : DdsUnit → DdsUnit) : Dev := { d with seq := { d.seq with dds := mapSet d.seq.dds u (f (d.ddsUnit u)) } }
def Dev.group (d : Dev) (g : Nat) : Option Group := mapFind d.seq.groups g
def Dev.setGroups (d : Dev) (gs : List (Nat × Group)) : Dev := { d with seq := { d.seq with groups := gs } }
def Dev.setGroup (d : Dev) (g : Nat) (v : Group) : Dev := d.setGroups (mapSet d.seq.groups g v)
def Dev.dropGroup (d : Dev) (g : Nat) : Dev := d.setGroups (mapErase d.seq.groups g)
def Dev.liveLevel (d : Dev) (g : Nat) : LevelEntry := mapGet d.seq.live.levels g LevelEntry.reset
def Dev.binding (d : Dev) (s : Nat) : Option Binding := mapFind d.seq.live.binds s
def Dev.image (d : Dev) (n : Nat) : Option Image := mapFind d.seq.images n
def Dev.plan (d : Dev) (s : Nat) : Option CapPlan := mapFind d.seq.live.plans s

/-- Channels a site is bound to, in image-pin order, unbound pins left out (R170; 0xFFFF: not bound on this device). -/
def Binding.channels (b : Binding) : List Nat := b.chs.filter (fun c => c < 1024)

/-- Home hearth of a site (spec/06): site / 16. -/
def homeHearth (s : Nat) : Nat := s / 16

/-- Hearth of a channel. -/
def chHearth (ch : Nat) : Nat := ch / 64

/-- Grate of a channel. -/
def chGrate (ch : Nat) : Nat := ch / 8

/-- The state codes of R19 for "in a run": STARTING, RUNNING, STOPPING. -/
def RunState.busy : RunState → Bool
  | .starting | .running | .stopping => true
  | _ => false

/-- The code of R19. -/
def RunState.code : RunState → Nat
  | .idle => 0 | .armed => 1 | .starting => 2 | .running => 3 | .stopping => 4 | .complete => 5

/-- The code of R194. -/
def EndCause.code : EndCause → Nat
  | .none => 0 | .halt => 1 | .stackFault => 2 | .stop => 3 | .smother => 4 | .douse => 5

/-- The domain codes of R98. -/
def Dom.code : Dom → Nat
  | .off => 0 | .waking => 1 | .settling => 2 | .on => 3

/-- Hearths a site uses: those of its binding, its home hearth without one (R170). -/
def Dev.siteHearths (d : Dev) (s : Nat) : List Nat :=
  match d.binding s with
  | some b => if b.hearths = 0 then [homeHearth s] else bitList b.hearths 16
  | none => [homeHearth s]

/-- Sites in STARTING, RUNNING or STOPPING. -/
def Dev.busySites (d : Dev) : List Nat := (d.seq.sites.filter (fun p => p.2.st.busy)).map (·.1)

/-- Whether any site is in a run. -/
def Dev.anyBusy (d : Dev) : Bool := d.seq.sites.any (fun p => p.2.st.busy)

/-- Whether a calibration procedure runs in a hearth (R487). -/
def Dev.procRuns (d : Dev) (h : Nat) : Bool := match d.cal.proc with | some p => p.running.any (fun x => x.1 == h) | none => false

/-- Whether any site that uses hearth `h` is in a run (R16, R17, R20). -/
def Dev.hearthBusy (d : Dev) (h : Nat) : Bool := d.busySites.any (fun s => (d.siteHearths s).contains h)

/-- A hearth is not at its run boundary: a site runs, or a calibration procedure does (R20, R487). -/
def Dev.noBoundary (d : Dev) (h : Nat) : Bool := d.hearthBusy h || d.procRuns h

/-- Sites with a live binding that holds a channel for which `p` holds. -/
def Dev.sitesWith (d : Dev) (p : Nat → Bool) : List Nat :=
  (d.seq.live.binds.filter (fun b => b.2.channels.any p)).map (·.1)

/-- The accepted start a site runs under. -/
def Dev.startOf (d : Dev) (s : Nat) : Option Start := d.seq.starts.find? (fun r => r.id == (d.site s).start && r.sites.contains s)

/-- Whether a site spans devices (R170). -/
def Dev.isMulti (d : Dev) (s : Nat) : Bool := match d.binding s with | some b => b.multi | none => false

/-- The live timing sets of a hearth. -/
def Dev.timing (d : Dev) (h : Nat) : List (Nat × TimSet) := mapGet d.seq.live.timing h []

/-! ### Interrupt lines (R48 layout of INT_ROUTE) -/

/-- Whether any bit of a status register is set and enabled (the enable register holds the same bit places). -/
def Dev.intPending (d : Dev) (status enable mask : Nat) : Bool := (d.reg status).toNat &&& (d.reg enable).toNat &&& mask != 0

end Sys2Proof.Machine
end

