-- ==== Sys2Proof/Machine/Folding.lean ====
section
/-! DEFINITION. How calibration is folded in (spec/04 R111, spec/19 R482, R483): interpolator settings of events, DAC codes of levels, the PPMU's
force current. None of it shows in a register or record. -/

namespace Sys2Proof.Machine

/-- A 16-bit word of a HEARTH pin entry's default (R495): TRIM 512, LIN[f] = f, else 0; `o` within the entry of 544 bytes. -/
def calPinDefault (o : Nat) : Nat := if o = 4 then 512 else if 32 ≤ o then (o - 32) / 2 else 0

/-- A 16-bit field of a channel's entry of its HEARTH table, live (R482). -/
def Dev.calPin (d : Dev) (ch o : Nat) : Nat :=
  match mapFind d.cal.live (chHearth ch) with
  | some t => fieldAt t.body (544 * (ch % 64) + o) 2
  | none => calPinDefault o

/-- A signed 16-bit field of a grate entry of a HEARTH table, live (R482); 0 in a default table. -/
def Dev.calGrate (d : Dev) (g o : Nat) : Int :=
  match mapFind d.cal.live (g / 8) with
  | some t => sgn (fieldAt t.body (34816 + 64 * (g % 8) + o) 2) 16
  | none => 0

/-- Deskew of a channel in 1/16 code: DRIVE_DESKEW for D1–D4, COMPARE_DESKEW for S1 and S2 (R111 step 1, R482). -/
def Dev.deskew (d : Dev) (ch : Nat) (strobe : Bool) : Int := sgn (d.calPin ch (if strobe then 2 else 0)) 16

/-- The fixed internal latency in codes, the same on every channel (R111 step 2): no sum is negative, since deskew is at least −2,048 codes.
How far it exceeds that is free (log entry 120). -/
def latency : Nat := 2048 + Config.latencyExtra

/-- The interpolator setting of an event at nominal time `t`, in codes, on a channel (R111). -/
def Dev.place (d : Dev) (ch t : Nat) (strobe : Bool) : Interp :=
  let code := ((16 * (t + latency) + d.deskew ch strobe + 8) / 16).toNat
  let lin := d.calPin ch (32 + 2 * (code % 256))
  { tick := match lin / 256 % 4 with
      | 1 => code / 256 + 1
      | 3 => code / 256 - 1
      | _ => code / 256
    setting := lin % 256 }

/-- The code that a DAC takes for a level code (R483). -/
def dacCode (c : Nat) (gain offset : Int) : Nat :=
  (max 0 (min 65535 (roundHalfAway (((c : Int) - 12000) * (2 ^ 18 + gain)) (2 ^ 18) + 12000 + offset))).toNat

/-- A corrected reading (R483) before it saturates. -/
def calCorrect (raw gain offset : Int) : Int := roundHalfAway (raw * (2 ^ 18 + gain)) (2 ^ 18) + offset

/-- The raw force current whose corrected reading is the programmed one: MI_GAIN and MI_OFFSET in inverse (R483). -/
def calInverse (value gain offset : Int) : Int :=
  let x := (value - offset) * 2 ^ 18
  roundHalfAway (if 2 ^ 18 + gain < 0 then -x else x) (2 ^ 18 + gain).natAbs

end Sys2Proof.Machine
end

