-- ==== Sys2Proof/Machine/Posting.lean ====
section
/-! DEFINITION. Completions (spec/13 R367, R369, R370) and operands for the draught scheduler (spec/14 R385, R388) as they are posted. -/

namespace Sys2Proof.Machine

/-- A ring pair after reset: DISABLED (R374). -/
def RingSt.reset : RingSt := ⟨0, 0, [], [], none, [], 0, 0, 0, false, none, [], 0, [], false, 0, false⟩

def Dev.ring (d : Dev) (n : Nat) : RingSt := mapGet d.rings.rings n RingSt.reset
def Dev.modRing (d : Dev) (n : Nat) (f : RingSt → RingSt) : Dev :=
  { d with rings := { d.rings with rings := mapSet d.rings.rings n (f (d.ring n)) } }

/-- Statuses (R368). -/
def stOk : Nat := 0
def stSeqGap : Nat := 1
def stAccessDenied : Nat := 2
def stConflict : Nat := 3
def stRefused : Nat := 4
def stSmothered : Nat := 5
def stHeld : Nat := 6
def stMissing : Nat := 7
def stCrossed : Nat := 8
def stLate : Nat := 9
def stUnreferenced : Nat := 10
def stDoused : Nat := 11

/-- Origin identities (R13) that the model names. -/
def idAgent : Nat := 0x30
def idFactory : Nat := 0x7F

/-- A completion waits to be written (R370). -/
def Dev.post (d : Dev) (ring : Nat) (c : Completion) : Dev := d.modRing ring (fun r => { r with held := r.held ++ [c] })

/-- Fields of a descriptor (R357). -/
def Desc.opcode (q : Desc) : Nat := fieldAt q.bytes 0 1
def Desc.flags (q : Desc) : Nat := fieldAt q.bytes 1 1
def Desc.hostSeq (q : Desc) : Nat := fieldAt q.bytes 4 4
def Desc.irq (q : Desc) : Bool := tbit q.flags 0

/-- A descriptor completes (R367, R369). -/
def Dev.complete (d : Dev) (ring : Nat) (q : Desc) (status : Nat) (arg0 : Nat := 0) (arg1 : Nat := 0) (lost : Bool := false) : Dev :=
  d.post ring { hostSeq := q.hostSeq, opcode := q.opcode, status := status, flags := 4 * bit lost + 8 * bit q.irq, arg0 := arg0, arg1 := arg1
                counted := true }

/-- ARG0 of ADMISSION_REFUSED (R369). -/
def refuseArg (check : Nat) (hearth : Nat := 0xFF) (site : Nat := 0xFFFF) (index : Nat := 0) : Nat :=
  check + 2 ^ 8 * hearth + 2 ^ 16 * site + 2 ^ 32 * index

/-- A claimant of RESOURCE_CONFLICT (R369). -/
def claimant (kind number : Nat) (site : Nat := 0xFFFF) : Nat := kind + 2 ^ 8 * number + 2 ^ 24 * site

/-- The ordered descriptor in progress on a ring ends: it has completed. -/
def Dev.endCurrent (d : Dev) (ring : Nat) : Dev := d.modRing ring (fun r => { r with current := none })

/-- An operand is offered to the draught scheduler (R388): posted by a producer of site `s`, a window operand from its DRAM entry (R253). -/
def Dev.offer (d : Dev) (s source : Nat) (payload : List Byte) (place : Option Nat := none) : Dev :=
  let o : DrtOperand := { site := s, source := source, payload := slice payload 0 64, place := place, held := false
                          inRun := (d.site s).st.busy && (d.site s).summary != 2 }
  { d with drt := { d.drt with offers := d.drt.offers ++ [o] } }

/-- Operand sources (R385). -/
def srcSummary : Nat := 0
def srcPpmu : Nat := 0x11
def srcSupply : Nat := 0x12

/-- The site whose live binding holds a channel. -/
def Dev.siteOfChannel (d : Dev) (ch : Nat) : Option Nat := (d.seq.live.binds.find? (fun b => b.2.channels.contains ch)).map (·.1)

end Sys2Proof.Machine
end

