-- ==== Sys2Proof/Machine/CalBase.lean ====
section
/-! DEFINITION. Calibration tables: bodies and default values (spec/19 R480–R484, R495), and the end of a procedure
(R487). -/

namespace Sys2Proof.Machine

/-- Number of tables (R480). -/
def calTables : Nat := 19

/-- Body length of a table (R480). -/
def calBody (id : Nat) : Nat := if id < 16 then 35328 else if id = 16 then 9216 else if id = 17 then 16 else 4096

/-- The default body of R495. -/
def calDefaultBody (id : Nat) : List Byte :=
  if id < 16 then
    ((List.range 64).flatMap (fun _ => (List.range 272).flatMap (fun k => bytesOf 2 (calPinDefault (2 * k))))) ++ List.replicate 512 0
  else if id = 16 then
    (List.range 32).flatMap (fun _ => (List.range 128).flatMap (fun _ => bytesOf 2 500) ++ List.replicate 32 0)
  else List.replicate (calBody id) 0

/-- A table with default values (R495). -/
def CalTab.default (id : Nat) : CalTab := ⟨0, 0, 0, 0, 0, calDefaultBody id⟩

def Dev.calLive (d : Dev) (id : Nat) : CalTab := mapGet d.cal.live id (CalTab.default id)
def Dev.calShadow (d : Dev) (id : Nat) : CalTab := mapGet d.cal.shadow id (CalTab.default id)

/-- A hearth's procedure ends in failure with a code and the pin it concerns, or succeeds; the last hearth ends the procedure
(R487). -/
def Dev.calEnd (d : Dev) (h : Nat) (fail : Option (Nat × Nat)) : Dev :=
  match d.cal.proc with
  | none => d
  | some p =>
    if !(p.running.any (fun x => x.1 == h)) then d
    else
      let p := { p with running := p.running.filter (fun x => x.1 != h) }
      let o := d.getF R.CAL_PROC_STATUS F.CAL_PROC_STATUS_OUTCOME
      let d := match fail with
        | none => d.setBit R.CAL_PROC_STATUS h true
        | some (code, pin) =>
          let d := if o = 0 then (d.setF R.CAL_PROC_STATUS F.CAL_PROC_STATUS_PIN pin).setF R.CAL_PROC_STATUS F.CAL_PROC_STATUS_HEARTH h else d
          d.setF R.CAL_PROC_STATUS F.CAL_PROC_STATUS_OUTCOME (if o = 0 then code else min o code)
      if p.running.isEmpty ∧ p.waiting.isEmpty then
        let o := d.getF R.CAL_PROC_STATUS F.CAL_PROC_STATUS_OUTCOME
        let d := { d with cal := { d.cal with proc := none } }
        let d := (d.setF R.CAL_PROC_STATUS F.CAL_PROC_STATUS_BUSY 0).setF R.CAL_PROC_STATUS F.CAL_PROC_STATUS_OUTCOME (if o = 0 then 1 else o)
        d.latch R.CAL_INT_STATUS F.CAL_INT_STATUS_PROC_DONE
      else { d with cal := { d.cal with proc := some p } }

/-- CAL_TABk_STATUS.SHADOW_DIRTY is set when a shadow copy is written (R490). -/
def Dev.calWriteShadow (d : Dev) (id : Nat) (t : CalTab) : Dev :=
  ({ d with cal := { d.cal with shadow := mapSet d.cal.shadow id t } }).latch (R.CAL_TAB_STATUS id) F.CAL_TAB_STATUS_SHADOW_DIRTY

/-- Whether a calibration commit is pending for a table (R489). -/
def Dev.calPending (d : Dev) (id : Nat) : Bool := d.rings.calCommits.any (fun c => c.tables.contains id && !(c.applied.contains id))

end Sys2Proof.Machine
end

