-- ==== Sys2Proof/Machine/Capture.lean ====
section
/-! DEFINITION. Capture units: records, damper, overload, record windows, the site buffer and the SUMMARY payload (spec/08
R233–R256, spec/14 R387). -/

namespace Sys2Proof.Machine

/-- The code of R77. -/
def Level.code : Level → Nat
  | .mid => 0 | .low => 1 | .high => 2

/-- Units of 1/1,024,000 byte in a byte (R243). -/
def capUnit : Nat := 1024000

/-- T_gap of R220 in ns. -/
def Dev.tGap (d : Dev) : Nat :=
  1000 + max 2000 ((d.getF R.DMC_REFRESH F.DMC_REFRESH_POSTPONE_MAX + 1) * d.getF R.DMC_TRFC F.DMC_TRFC_TRFC_NS)

/-- The FIFO share of a site in KiB: its live CAPTURE claim (R163). -/
def Dev.capShare (d : Dev) (s : Nat) : Nat :=
  ((d.seq.claims.filter (fun c => c.site == s && c.kind == 4)).map (·.amount)).sum

/-- LIMIT of R243 in bytes (0 where it would be negative). -/
def capLimitOf (q drain tgap : Nat) : Nat := q * 1024 - roundUp (ceilDiv (drain * tgap) 1000) 64 - 1088

def Dev.capLimit (d : Dev) (s : Nat) (p : CapPlan) : Nat := capLimitOf (d.capShare s) p.drain d.tGap

/-- No fine time (R255). -/
def noFine : Nat := 0x80000000

/-- A record (R237). -/
def capRecord (vc pin site type state flags arg : Nat) : List Byte :=
  bytesOf 6 vc ++ bytesOf 2 pin ++ bytesOf 1 site ++ bytesOf 1 (type + 16 * state) ++ bytesOf 2 flags ++ bytesOf 4 arg

/-- A TIME record (R239). -/
def capTime (secs ns site state : Nat) : List Byte :=
  bytesOf 6 secs ++ bytesOf 2 0 ++ bytesOf 1 site ++ bytesOf 1 (5 + 16 * state) ++ bytesOf 2 0 ++ bytesOf 4 ns

/-- Change a site's capture state. -/
def Dev.modCap (d : Dev) (s : Nat) (f : CapRun → CapRun) : Dev := d.modSite s (fun x => { x with cap := f x.cap })

/-- Write a record in the next slot; it adds 16 bytes to the model (R241, R243). -/
def Dev.capPut (d : Dev) (s : Nat) (p : CapPlan) (rec : List Byte) : Dev :=
  let c := (d.site s).cap
  (d.write (p.bufBase + 64 + 16 * c.records) rec).modCap s (fun c => { c with records := c.records + 1, o := c.o + 16 * capUnit })

/-- Whether `keep` bytes remain after the next record (R242). -/
def capRoom (p : CapPlan) (c : CapRun) (keep : Nat) : Bool := 64 + 16 * (c.records + 1) + keep ≤ p.bufBytes

/-- Change recording stops with an OVERFLOW record (R242, R246); cause 0 FIFO, 1 BUFFER_FULL. -/
def Dev.capStop (d : Dev) (s : Nat) (p : CapPlan) (vc cause : Nat) : Dev :=
  let room := capRoom p (d.site s).cap 32
  let d := d.modCap s (fun c => { c with stopped := true, ovfDue := false, overflow := true, bufferFull := c.bufferFull || cause == 1 || !room })
  if room then d.capPut s p (capRecord vc 0 s 3 0 0 cause) else d

/-- What became of a record subject to R242 and R244. -/
inductive CapTry where
  | written | limit | stopped
  deriving DecidableEq, Repr

/-- Offer a change, DAMPER or LATE_JUMP record (R242, R244). -/
def Dev.capTry (d : Dev) (s : Nat) (p : CapPlan) (vc : Nat) (rec : List Byte) : CapTry × Dev :=
  let c := (d.site s).cap
  if c.stopped then (.stopped, d)
  else if !(capRoom p c 48) then (.stopped, d.capStop s p vc 1)
  else if c.o + 16 * capUnit > d.capLimit s p * capUnit then (.limit, d)
  else (.written, d.capPut s p rec)

/-- A dropped full-rate change (R235). -/
def CapRun.drop (c : CapRun) : CapRun := { c with dropped := c.dropped + 1, droppedDamp := c.droppedDamp + 1 }

/-- The direction of a change of level state, in codes plus one (R77, R256): LOW below MID below HIGH. A first level record has no earlier state;
its direction is that of a HIGH or a LOW (log entry 122). -/
def levelUp (old st : Nat) : Option Bool :=
  let rank := fun (c : Nat) => if c = 1 then 0 else if c = 0 then 1 else 2
  if old = 0 then (if st = 0 then none else some (st == 2)) else some (decide (rank (old - 1) < rank st))

/-- Whether a TMU channel's stamp at a tick carries UNREFERENCED as its flags now stand (R256, R265). -/
def Dev.stampUnref (d : Dev) (tmu tb : Nat) : Bool :=
  let x := mapFind d.tmu.chs tmu
  match x with
  | some c => (c.recent ++ c.held).any (fun s => s.tb == tb && s.unref)
  | none => false

/-- A written record's FINE came from a stamp whose flags may still change (R256, R264, R265). -/
def Dev.fineRef (d : Dev) (tmu : Nat) (stamp : Option (Nat × Nat)) (place : Nat) : Dev :=
  match stamp with
  | none => d
  | some q => { d with tmu := { d.tmu with fineRefs := d.tmu.fineRefs ++ [⟨tmu, q.2, place⟩] } }

/-- One sample of a pin in OUTCOME (1) or LEVEL (2) mode in a vector with CAPTURE = 1 (R234, R235). A state is held as its code plus
one, so that "none" is the unlisted 0 of a LEVEL pin and PASS the unlisted state of an OUTCOME pin. -/
def Dev.capSample (d : Dev) (s : Nat) (p : CapPlan) (v : VecRec) (mode : Nat) (x : Samp) : Dev :=
  let state? : Option Nat := if mode = 1 then x.fail.map bit else x.level.map Level.code
  match state? with
  | none => d
  | some st =>
    let c := (d.site s).cap
    let init := if mode = 1 then 1 else 0
    let changed := st + 1 != mapGet c.prevSamp x.pin init
    let first := mode == 2 && mapGet c.lastRec x.pin init == 0
    let wanted := v.vc % 2 ^ c.k == 0 && st + 1 != mapGet c.lastRec x.pin init
    let d := d.modCap s (fun c => { c with prevSamp := mapSet c.prevSamp x.pin (st + 1) })
    let spill := if mode = 1 then x.spillFail else x.spillLevel
    let up := if mode = 1 then x.up else levelUp (mapGet c.lastRec x.pin init) st
    let stamp := match up with | some true => x.rise | some false => x.fall | none => none
    let unref := match stamp with | some q => d.stampUnref x.tmu q.2 | none => false
    if wanted then
      let flags := bit unref + 2 * bit spill + 4 * bit first
      let place := p.bufBase + 64 + 16 * c.records
      match d.capTry s p v.vc (capRecord v.vc x.pin s (mode - 1) st flags ((stamp.map (·.1)).getD noFine)) with
      | (.written, d) => (d.fineRef x.tmu stamp place).modCap s (fun c => { c with lastRec := mapSet c.lastRec x.pin (st + 1) })
      | (.stopped, d) => if changed then d.modCap s CapRun.drop else d
      | (.limit, d) =>
        let d := d.modCap s CapRun.drop
        if p.overload = 1 then d.capStop s p v.vc 0 else d
    else if changed then d.modCap s CapRun.drop else d

/-! ### Record windows (R249–R252) -/

/-- A VC field that reports no fail (R250). -/
def vcNone : Nat := 2 ^ 48 - 1

/-- A new instance. -/
def WinInst.new (w inst vc : Nat) : WinInst :=
  { win := w, inst := inst, startVc := vc, endVc := vc, openAtEnd := false, fails := 0, sat := false, firstFail := vcNone
    lastFail := vcNone, bin := none, edges := 0, rises := 0, firstRise := 0, lastRise := 0, highSum := 0, highs := 0, riseOpen := false }

/-- A FAIL sample enters the count (R250). -/
def WinInst.fail (i : WinInst) (vc : Nat) : WinInst :=
  { i with sat := i.sat || i.fails == 2 ^ 32 - 1, fails := capAt (i.fails + 1) (2 ^ 32 - 1)
           firstFail := if i.firstFail = vcNone then vc else i.firstFail, lastFail := vc }

/-- A HIGH or LOW sample at an edge time (R250). -/
def WinInst.edge (i : WinInst) (high : Bool) (t : Nat) : WinInst :=
  match i.bin with
  | none => { i with bin := some high }
  | some b =>
    if b = high then i
    else if high then
      { i with bin := some true, edges := i.edges + 1, rises := i.rises + 1
               firstRise := if i.rises = 0 then t else i.firstRise, lastRise := t, riseOpen := true }
    else
      { i with bin := some false, edges := i.edges + 1
               highSum := if i.riseOpen then i.highSum + (t - i.lastRise) else i.highSum
               highs := if i.riseOpen then i.highs + 1 else i.highs, riseOpen := false }

/-- One counted vector enters an open instance. -/
def WinInst.feed (def_ : CapWin) (v : VecRec) (i : WinInst) : WinInst :=
  let i := { i with endVc := v.vc }
  let i := if tbit def_.meas 0 then
      v.samps.foldl (fun i x => if (def_.pin = 0xFFFF ∨ x.pin = def_.pin) ∧ x.fail = some true then i.fail v.vc else i) i
    else i
  if tbit def_.meas 1 then
    v.samps.foldl (fun i x => if x.pin = def_.pin then
        match x.level with
        | some .high => i.edge true (v.ct + x.s1)
        | some .low => i.edge false (v.ct + x.s1)
        | _ => i
      else i) i
  else i

/-- Windows that open or close at a vector (R249): the instances open afterwards and those that closed. `marks` is the ordinal of
this mark, `next` the next instance number per window. -/
def winBounds (wins : List CapWin) (v : VecRec) (mark : Bool) (marks : Nat) (opened : List WinInst) (next : List Nat) :
    List WinInst × List WinInst × List Nat :=
  (List.range wins.length).foldl (fun (acc : List WinInst × List WinInst × List Nat) w =>
    let (op, cl, nx) := acc
    let def_ := nth wins w ⟨0, 0, 0, 0, 0⟩
    let cur := op.find? (fun i => i.win == w)
    let n := nth nx w 0
    let openNew := (op.filter (fun i => i.win != w) ++ [WinInst.new w n v.vc], setNth nx w (n + 1))
    match def_.kind with
    | 0 => if v.vc = def_.start ∧ n = 0 then (openNew.1, cl, openNew.2) else acc
    | 1 =>
      if !mark then acc
      else match cur with
        | none => if n = 0 then (openNew.1, cl, openNew.2) else acc
        | some i => if v.vc - i.startVc ≥ def_.stop then (openNew.1, cl ++ [i], openNew.2) else acc
    | _ =>
      if !mark then acc
      else match cur with
        | none => if marks = def_.start ∧ n = 0 then (openNew.1, cl, openNew.2) else acc
        | some i => if marks = def_.start + 1 then (op.filter (fun i => i.win != w), cl ++ [i], nx) else acc) (opened, [], next)

/-- PERIOD of R250: (numerator, denominator), none with NO_PERIOD. -/
def WinInst.period (i : WinInst) : Option (Nat × Nat) := if i.rises < 2 then none else some (i.lastRise - i.firstRise, i.rises - 1)

/-- The 64-byte result entry (R251). -/
def WinInst.entry (i : WinInst) (def_ : CapWin) (site : Nat) (invalid : Bool) : List Byte :=
  let e := tbit def_.meas 1
  let per := match i.period with | some (n, k) => if e then 256 * n / k else 0 | none => 0
  let high := if e ∧ i.highs > 0 then 256 * i.highSum / i.highs else 0
  let duty := match i.period with
    | some (n, k) => if e ∧ i.highs > 0 ∧ n > 0 then capAt (65536 * i.highSum * k / (i.highs * n)) 65535 else 0
    | none => 0
  let flags := bit invalid + 2 * bit i.openAtEnd + 4 * bit (e && i.rises < 2) + 8 * bit (e && i.highs == 0) + 16 * bit i.sat
  bytesOf 1 i.win ++ bytesOf 1 flags ++ bytesOf 1 site ++ bytesOf 1 0 ++ bytesOf 4 i.inst ++ bytesOf 6 i.startVc ++ bytesOf 2 0 ++
  bytesOf 6 i.endVc ++ bytesOf 2 0 ++ bytesOf 4 i.fails ++ bytesOf 4 (if e then i.edges else 0) ++ bytesOf 6 i.firstFail ++ bytesOf 2 0 ++
  bytesOf 6 i.lastFail ++ bytesOf 2 duty ++ bytesOf 8 per ++ bytesOf 8 high

/-- Write an instance's result entry, or count it lost (R251, R252). -/
def Dev.capResult (d : Dev) (s : Nat) (p : CapPlan) (i : WinInst) : Dev :=
  let x := d.site s
  if x.cap.results ≥ p.resEntries then
    d.modCap s (fun c => { c with resultsFull := true, resultsLost := capAt (c.resultsLost + 1) (2 ^ 32 - 1) })
  else
    (d.write (p.resBase + 64 * x.cap.results) (i.entry (nth p.wins i.win ⟨0, 0, 0, 0, 0⟩) s x.invalid)).modCap s
      (fun c => { c with results := c.results + 1, o := c.o + 64 * capUnit })

/-- Instances in the order in which their entries are written: ascending last vector, then window (R251). -/
def insertInst (i : WinInst) : List WinInst → List WinInst
  | [] => [i]
  | j :: t => if i.endVc < j.endVc ∨ (i.endVc = j.endVc ∧ i.win < j.win) then i :: j :: t else j :: insertInst i t

/-- The windows see a counted vector; entries that became final with it are written (R250, R251). -/
def Dev.capWindows (d : Dev) (s : Nat) (p : CapPlan) (v : VecRec) : Dev :=
  let c := (d.site s).cap
  let mark := tbit v.ctrl 6
  let (op, cl, nx) := winBounds p.wins v mark c.marks c.opened (if c.nextInst.isEmpty then p.wins.map (fun _ => 0) else c.nextInst)
  let op := op.map (fun i => i.feed (nth p.wins i.win ⟨0, 0, 0, 0, 0⟩) v)
  let ends := fun (i : WinInst) => let w := nth p.wins i.win ⟨0, 0, 0, 0, 0⟩; w.kind == 0 && v.vc == w.stop
  let closing := (cl ++ op.filter ends).foldl (fun l i => insertInst i l) c.closing
  let d := d.modCap s (fun c => { c with opened := op.filter (fun i => !(ends i)), marks := c.marks + bit mark, nextInst := nx
                                         closing := closing.filter (fun i => i.endVc + 16 > v.vc) })
  (closing.filter (fun i => i.endVc + 16 ≤ v.vc)).foldl (fun d i => d.capResult s p i) d

/-- The start of a run at vector 0: cleared capture state and the start TIME record (R239, R241). -/
def Dev.capBegin (d : Dev) (s : Nat) : Dev :=
  let d := d.modSite s (fun x => { x with cap := CapRun.start, summary := 0 })
  match d.plan s with
  | none => d
  | some p => d.capPut s p (capTime d.time.secs d.time.ns s 0)

/-- The DAMPER record that is due (R236, R245); dropped at the limit it counts as a dropped marker (R244). -/
def Dev.capDamper (d : Dev) (s : Nat) (p : CapPlan) (v : VecRec) : Dev :=
  let c := (d.site s).cap
  if c.dampDue then
    let d := d.modCap s (fun c => { c with dampDue := false })
    match d.capTry s p v.vc (capRecord v.vc 0 s 2 0 0 (c.k + 16 * capAt c.droppedDamp (2 ^ 28 - 1))) with
    | (.written, d) => d.modCap s (fun c => { c with droppedDamp := 0, dampRecs := c.dampRecs + 1 })
    | (.limit, d) => d.modCap s (fun c => { c with markersDropped := capAt (c.markersDropped + 1) (2 ^ 32 - 1) })
    | (.stopped, d) => d
  else d

/-- The LATE_JUMP record of a late jump taken at a vector (R236, R240). -/
def Dev.capLate (d : Dev) (s : Nat) (p : CapPlan) (v : VecRec) : Dev :=
  match v.late with
  | none => d
  | some tgt =>
    match d.capTry s p v.vc (capRecord v.vc 0 s 4 0 0 (tgt % 65536)) with
    | (.limit, d) => d.modCap s (fun c => { c with markersDropped := capAt (c.markersDropped + 1) (2 ^ 32 - 1) })
    | (_, d) => d

/-- A counted vector's records in the order of R236, window results, and the drain of its period (R243). -/
def Dev.capTake (d : Dev) (s : Nat) (v : VecRec) : Dev :=
  match d.plan s with
  | none => d
  | some p =>
    let d := d.capDamper s p v
    let d := if tbit v.ctrl 5 then
        v.samps.foldl (fun d x => let m := nth p.modes x.pin 0; if m = 1 ∨ m = 2 then d.capSample s p v m x else d) d
      else d
    let d := d.capLate s p v
    let d := if (d.site s).cap.ovfDue then d.capStop s p v.vc 0 else d
    let d := d.capWindows s p v
    d.modCap s (fun c => { c with o := c.o - v.pq * p.drain })

/-- The damper exponent changes: a DAMPER record is due in the next counted vector (R245). -/
def CapRun.setK (c : CapRun) (k : Nat) : CapRun := { c with k := k, maxK := max c.maxK k, lowStreak := 0, dampDue := true }

/-- The overload decision at the end of a counted granule execution (R245, R246): DAMPER_DECISION. -/
def Dev.capDecide (d : Dev) (s : Nat) : Dev :=
  match d.plan s with
  | none => d
  | some p =>
    let lim := d.capLimit s p
    let high := 3 * lim / 4 * capUnit
    let low := lim / 4 * capUnit
    d.modCap s (fun c =>
      if p.overload = 1 then
        if !c.stopped && c.o > high then { c with stopped := true, ovfDue := true, overflow := true } else c
      else
        let risen : Bool := c.o > c.oLast + 16 * capUnit * c.dampRecs
        let streak := if c.o < low then c.lowStreak + 1 else 0
        let c' := if c.o > high && risen && c.k < 15 then c.setK (c.k + 1)
          else if streak ≥ p.relax && c.k > 0 then c.setK (c.k - 1)
          else { c with lowStreak := streak }
        { c' with oLast := c.o, dampRecs := 0 })

/-- Deal with what a capture unit has to do, oldest first, up to a vector that waits (R236). -/
def Dev.capDrain (d : Dev) (s : Nat) : List CapItem → Dev
  | [] => d.modCap s (fun c => { c with todo := [] })
  | .boundary :: t => (d.capDecide s).capDrain s t
  | .vec v spilled jump :: t =>
    if spilled || jump then d.modCap s (fun c => { c with todo := .vec v spilled jump :: t }) else (d.capTake s v).capDrain s t

/-- Change what a capture unit has to do, and deal with it. -/
def Dev.capTodo (d : Dev) (s : Nat) (f : List CapItem → List CapItem) : Dev :=
  let l := f (d.site s).cap.todo
  d.capDrain s l

/-- A counted vector reaches the capture unit (R233). Its records wait for its spilled strobes and for the late jump taken at it. -/
def Dev.capVector (d : Dev) (s : Nat) (v : VecRec) : Dev :=
  d.capTodo s (· ++ [.vec v (v.samps.any (fun x => x.spillFail || x.spillLevel)) v.late.isSome])

/-- A granule boundary reaches the capture unit. -/
def Dev.capBoundary (d : Dev) (s : Nat) : Dev := d.capTodo s (· ++ [.boundary])

/-- The spilled strobes of the last vector have come (R119). -/
def Dev.capSpilled (d : Dev) (s : Nat) : Dev :=
  d.capTodo s (·.map (fun i => match i with | .vec v _ j => .vec v false j | .boundary => .boundary))

/-- The late jump that a vector took is made: its LATE_JUMP record stands (R240). -/
def Dev.capJumped (d : Dev) (s : Nat) : Dev :=
  d.capTodo s (·.map (fun i => match i with | .vec v p _ => .vec v p false | .boundary => .boundary))

/-- What a spilled strobe would have sampled is gone (R123, R248). -/
def Samp.discard (x : Samp) : Samp :=
  { x with fail := if x.spillFail then none else x.fail, level := if x.spillLevel then none else x.level }

/-- The run ends: a late jump not made leaves no record (R185, R240); spilled strobes still count, or are discarded when the run ends at once
(R123). -/
def Dev.capFlush (d : Dev) (s : Nat) (atOnce : Bool) : Dev :=
  d.capTodo s (·.map (fun i => match i with
    | .vec v p j =>
      let v := if j then { v with late := none } else v
      .vec (if atOnce && p then { v with samps := v.samps.map Samp.discard } else v) false false
    | .boundary => .boundary))

/-- The end of a run: results not yet final, END, end TIME and the buffer header (R238–R241, R251). -/
def Dev.capFinish (d : Dev) (s : Nat) : Dev :=
  let x := d.site s
  let d := d.modCap s (fun c => { c with finished := true })
  match d.plan s with
  | none => d
  | some p =>
    let d := if x.cap.ovfDue then d.capStop s p x.run.vc 0 else d
    let c := (d.site s).cap
    let last := c.opened.map (fun i => { i with openAtEnd := true })
    let insts := last.foldl (fun l i => insertInst i l) c.closing
    let d := insts.foldl (fun d i => d.capResult s p i) (d.modCap s (fun c => { c with opened := [], closing := [] }))
    let x := d.site s
    let d := d.capPut s p (capRecord x.run.vc 0 s 6 0 0 (x.endCause.code + 256 * x.reason + 2 ^ 16 * bit x.invalid))
    let d := d.capPut s p (capTime x.seconds x.ns s 1)
    let c := (d.site s).cap
    let flags := bit x.invalid + 2 * bit c.overflow + 4 * bit c.bufferFull + 8 * bit c.resultsFull
    let epoch := match d.startOf s with | some st => st.epoch | none => 0
    d.write p.bufBase (bytesOf 2 s ++ bytesOf 2 flags ++ bytesOf 4 d.devEpoch ++ bytesOf 8 epoch ++ bytesOf 8 c.records ++
      bytesOf 8 c.dropped ++ bytesOf 4 c.markersDropped ++ bytesOf 4 c.results ++ bytesOf 4 c.resultsLost ++ bytesOf 1 c.maxK ++
      bytesOf 1 x.endCause.code ++ bytesOf 1 x.reason ++ List.replicate 17 0)

/-- The SUMMARY payload (R387); without a plan its capture fields are 0. -/
def Dev.summaryPayload (d : Dev) (s : Nat) : List Byte :=
  let x := d.site s
  let c := if (d.plan s).isSome then x.cap else CapRun.start
  let flags := bit x.invalid + 2 * bit c.overflow + 4 * bit c.bufferFull + 8 * bit c.resultsFull + 16 * bit x.lateJump
  bytesOf 6 x.run.vc ++ bytesOf 1 x.endCause.code ++ bytesOf 1 x.reason ++ bytesOf 1 flags ++ bytesOf 1 c.maxK ++
    bytesOf 2 (capAt x.holds 65535) ++ bytesOf 4 c.results ++ bytesOf 8 c.records ++ bytesOf 8 c.dropped ++ List.replicate 32 0

end Sys2Proof.Machine
end

