-- ==== Sys2Proof/Machine/Dds.lean ====
section
/-! DEFINITION. Driver transitions and their count (spec/03 R73–R76, R87, spec/20 R511), DDS units (spec/10 R282–R297). Instants of a
run are in codes of its vector clock, T(0) = 0. -/

namespace Sys2Proof.Machine

/-- One output transition of a channel: TOGGLE advances when the 16-bit residue wraps (R76, R511). -/
def Dev.toggle (d : Dev) (ch : Nat) : Dev :=
  let r := mapGet d.time.residue ch 0 + 1
  if r ≥ 65536 then ({ d with time := { d.time with residue := mapErase d.time.residue ch } }).count (0x400 + ch)
  else { d with time := { d.time with residue := mapSet d.time.residue ch r } }

/-- The driver of a channel takes an output at a nominal instant, placed with the pin's drive deskew and linearity (R111, R284, R286); a change is
a transition (log entry 12). A driver put in high-impedance by
an overload stays so (R89). -/
def Dev.drive (d : Dev) (ch : Nat) (v : Drv) (t : Nat) : Dev :=
  let c := d.chan ch
  if c.overload || c.drv = v then d
  else (d.modChan ch (fun c => { c with drv := v, lastT := t, place := d.place ch t false })).toggle ch

/-- Channels go to the pin safe state (R87): an unlisted channel is in it. -/
def Dev.pinsSafe (d : Dev) (chs : List Nat) : Dev :=
  let d := chs.foldl (fun d ch => if (d.chan ch).drv = .z then d else d.toggle ch) d
  { d with seq := { d.seq with chans := d.seq.chans.filter (fun p => !(chs.contains p.1)) } }

/-- The live DDS claims of a site (R282). -/
def Dev.ddsClaims (d : Dev) (s : Nat) : List LiveClaim := d.seq.claims.filter (fun c => c.site == s && c.kind == 1)

/-- The live list set of a claim (R287). -/
def Dev.ddsList (d : Dev) (c : LiveClaim) : Option DdsList := mapFind d.seq.live.dds (c.site * 65536 + c.pin)

/-- Whether a unit's output is high: it was at the load, and each transition since turns it (R283). -/
def DdsUnit.high (u : DdsUnit) : Bool := (u.phase < 2 ^ 47) != (u.n % 2 == 1)

/-- The instant of the next transition, exact instant rounded to the nearest code, halves up (R284). -/
def DdsUnit.next (u : DdsUnit) : Nat :=
  let first := if u.phase < 2 ^ 47 then 2 ^ 47 - u.phase else 2 ^ 48 - u.phase
  u.loadT + (2 * 256 * (first + u.n * 2 ^ 47) + u.ftw) / (2 * u.ftw)

/-- Load frequency and phase of index `i` at instant `t` (R291, R293, R294). -/
def DdsUnit.load (u : DdsUnit) (l : DdsList) (i a t : Nat) : DdsUnit :=
  { u with i := i, a := a, ftw := nth l.ftw i 0, phase := nth l.phase i 0, loadT := t, n := 0 }

/-- A connected unit drives its output level at `t`, delayed to 256 codes after the previous transition (R285, R286). -/
def Dev.ddsDrive (d : Dev) (u ch t : Nat) : Dev :=
  let x := d.ddsUnit u
  let v : Drv := if x.high then .h else .l
  let c := d.chan ch
  if !x.connected || c.drv = v then d
  else if c.lastT + 256 ≤ t || c.drv = .z then d.drive ch v t
  else (d.drive ch v (c.lastT + 256)).modDds u (fun x => { x with delayed := capAt (x.delayed + 1) (2 ^ 32 - 1) })

/-- The units of a site at T(0) of a run: index 0, phase of entry 0, counters cleared when the start was accepted (R291). -/
def Dev.ddsBegin (d : Dev) (s : Nat) : Dev :=
  (d.ddsClaims s).foldl (fun d c => match d.ddsList c with
    | some l => d.modDds c.unit (fun u => ({ u with connected := false }).load l 0 0 0)
    | none => d) d

/-- The units of a site when it enters STOPPING: disconnected, back to index 0, AMP[0] reloaded with its 50 µs (R291, R297). -/
def Dev.ddsStop (d : Dev) (s : Nat) : Dev :=
  let d := (d.ddsClaims s).foldl (fun d c => match d.ddsList c with
    | some l => d.modDds c.unit (fun u => ({ u with connected := false }).load l 0 0 0)
    | none => d.modDds c.unit (fun u => { u with connected := false })) d
  let amp := (d.ddsClaims s).any (fun c => match d.ddsList c with | some l => !l.amp.isEmpty | none => false)
  if amp && !(d.seq.settles.contains (.ddsAmp s)) then { d with seq := { d.seq with settles := d.seq.settles ++ [.ddsAmp s] } } else d

/-- A step at instant `t` (R293). -/
def Dev.ddsStepUnit (d : Dev) (c : LiveClaim) (t : Nat) : Dev :=
  match d.ddsList c with
  | none => d
  | some l =>
    let u := d.ddsUnit c.unit
    let i := if u.i + 1 < l.ftw.length then u.i + 1 else l.freqLoop
    let a := if l.amp.isEmpty then 0 else if u.a + 1 < l.amp.length then u.a + 1 else l.ampLoop
    let d := d.modDds c.unit (fun u => { (u.load l i a t) with steps := capAt (u.steps + 1) (2 ^ 32 - 1) })
    d.ddsDrive c.unit c.ch t

/-- A realignment at instant `t`: the phase of the present index (R294). -/
def Dev.ddsAlignUnit (d : Dev) (c : LiveClaim) (t : Nat) : Dev :=
  match d.ddsList c with
  | none => d
  | some l =>
    let d := d.modDds c.unit (fun u => { (u.load l u.i u.a t) with aligns := capAt (u.aligns + 1) (2 ^ 32 - 1) })
    d.ddsDrive c.unit c.ch t

/-- The claimed pin's symbol of a vector at its start: synth clock connects, drive off and don't-care disconnect (R286). -/
def Dev.ddsSymbol (d : Dev) (c : LiveClaim) (synth : Bool) (t : Nat) : Dev :=
  let u := d.ddsUnit c.unit
  if synth then
    if u.connected then d
    else ((d.modDds c.unit (fun u => { u with connected := true })).modChan c.ch (fun x => { x with dds := true })).ddsDrive c.unit c.ch t
  else if u.connected then
    ((d.modDds c.unit (fun u => { u with connected := false })).modChan c.ch (fun x => { x with dds := false })).drive c.ch .z t
  else d

/-- DDS_TRANSITION: the next transition instant of a unit arrives (R284–R286). -/
def Dev.ddsTransition (d : Dev) (n : Nat) : Dev :=
  match d.seq.claims.find? (fun c => c.kind == 1 && c.unit == n) with
  | none => d
  | some c =>
    if (d.site c.site).st != .running || (d.ddsUnit n).ftw == 0 then d
    else
      let t := (d.ddsUnit n).next
      (d.modDds n (fun u => { u with n := u.n + 1 })).ddsDrive n c.ch t

end Sys2Proof.Machine
end

