-- ==== Sys2Proof/Machine/FlueTx.lean ====
section
/-! DEFINITION. Sending over Flue: packets, credits, replay buffer, routing, events (spec/12 R329–R335, R343, R344). -/

namespace Sys2Proof.Machine

/-- Packet types (R330). -/
def ptRead : Nat := 0
def ptWrite : Nat := 1
def ptDoorbell : Nat := 2
def ptResponse : Nat := 3
def ptMessage : Nat := 4
def ptEvent : Nat := 5
def ptMarker : Nat := 6

/-- Latch PORT_DOWN, PORT_UP, LATE and the like in FLU_INT_STATUS. -/
def Dev.flueInt (d : Dev) (f : Fld) : Dev := d.latch R.FLU_INT_STATUS f

/-- Destination of a broadcast and of the system controller (R329). -/
def destAll : Nat := 0x7F
def destController : Nat := 0x7E

/-- Whether a type carries an address block (R330). -/
def packetHasAddr (type : Nat) : Bool := type ≤ 2

/-- The credit classes of R330. -/
inductive PktClass where
  | ev | rsp | req
  deriving DecidableEq, Repr

def Packet.cls (p : Packet) : PktClass := if p.type = 3 then .rsp else if p.type = 5 ∨ p.type = 6 then .ev else .req

/-- Blocks of a packet (R329). -/
def Packet.blocks (p : Packet) : Nat := 2 + bit (packetHasAddr p.type) + p.payload.length

/-- A port after reset: no neighbour, credits of R331. -/
def FluePort.reset : FluePort := ⟨0, 0, [], [], 0, 128, 1024, 1024, false, 0⟩

def Dev.port (d : Dev) (p : Nat) : FluePort := mapGet d.flue.ports p FluePort.reset
def Dev.modPort (d : Dev) (p : Nat) (f : FluePort → FluePort) : Dev :=
  { d with flue := { d.flue with ports := mapSet d.flue.ports p (f (d.port p)) } }

/-- The state of a port (R327). -/
def Dev.portState (d : Dev) (p : Nat) : Nat := d.getF (R.FLU_PORT_STATUS p) F.FLU_PORT_STATUS_STATE
def psDown : Nat := 0
def psTrain : Nat := 1
def psActive : Nat := 2
def psIdle : Nat := 3
def psWake : Nat := 4
def psError : Nat := 5

/-- Whether packets may be queued on a port: ACTIVE, IDLE or WAKE, or in TRAIN with its neighbour identified, a retraining that
loses nothing (R332, R335). -/
def Dev.portUp (d : Dev) (p : Nat) : Bool :=
  let s := d.portState p
  s == psActive || s == psIdle || s == psWake || (s == psTrain && (d.port p).identOk)

def FluePort.credit (q : FluePort) : PktClass → Nat
  | .ev => q.evCr | .rsp => q.rspCr | .req => q.reqCr

def FluePort.spend (q : FluePort) (c : PktClass) (n : Nat) : FluePort :=
  match c with
  | .ev => { q with evCr := q.evCr - n } | .rsp => { q with rspCr := q.rspCr - n } | .req => { q with reqCr := q.reqCr - n }

/-- The queued packet that may leave next (R331): classes in the order EV, RSP, REQ, each in the order queued, credits covering it. -/
def FluePort.nextOut (q : FluePort) : Option Packet :=
  let head := fun c => match q.queue.find? (fun p => p.cls == c) with
    | some p => if p.blocks ≤ q.credit c then some p else none
    | none => none
  match head .ev with
  | some p => some p
  | none => match head .rsp with
    | some p => some p
    | none => head .req

/-- Bytes of the replay buffer of a port (R332). -/
def replaySize : Nat := 32768

/-- The replay buffer has room for one more packet (R332). -/
def FluePort.replayRoom (q : FluePort) (k : Packet) : Bool :=
  8 * ((q.replay.map (fun x => x.2.blocks)).foldl (· + ·) 0 + k.blocks) ≤ replaySize

/-- Send what credits and the replay buffer allow (R331, R332): each packet takes the next SEQ and stays in the buffer. -/
def Dev.pump (d : Dev) (p : Nat) : Nat → Dev
  | 0 => d
  | fuel + 1 =>
    if d.portState p != psActive then d
    else match (d.port p).nextOut with
      | none => d
      | some k =>
        let q := d.port p
        if !(q.replayRoom k) then d else
        let d := d.out (.packet p q.txSeq k)
        let d := d.modPort p (fun q => { (q.spend k.cls k.blocks) with
          txSeq := (q.txSeq + 1) % 4096, replay := q.replay ++ [(q.txSeq, k)], queue := q.queue.erase k })
        d.pump p fuel

/-- Queue a packet on a port and send what credits allow. -/
def Dev.enqueue (d : Dev) (p : Nat) (k : Packet) : Dev :=
  let d := d.modPort p (fun q => { q with queue := q.queue ++ [k] })
  d.pump p ((d.port p).queue.length + 1)

/-- The downstream port of device `x` on the way to its descendant `D` (R334). -/
def childPort (x : Nat) : Nat → Nat → Option Nat
  | 0, _ => none
  | fuel + 1, dest =>
    if dest = 0 then none
    else if (dest - 1) / 3 = x then some (dest - 3 * x)
    else childPort x fuel ((dest - 1) / 3)

/-- Whether a device is present in the tree, as the manager knows (R336). -/
def Dev.present (d : Dev) (x : Nat) : Bool := x < 121 && (x == d.deviceNum || d.bitOf (R.FLU_TREE_PRESENT (x / 32)) (x % 32))

/-- Whether this device is the manager, or alone. -/
def Dev.isManager (d : Dev) : Bool := d.deviceNum == 0

/-- Where R335 sends a packet. -/
inductive Route where
  | here | port (p : Nat) | none_
  deriving DecidableEq, Repr

/-- Route a destination other than a broadcast (R335). -/
def Dev.route (d : Dev) (dest : Nat) : Route :=
  let x := d.deviceNum
  let via := fun p => if d.portUp p then Route.port p else Route.none_
  if dest = x then .here
  else if dest > 120 ∧ dest ≠ destController then .none_
  else if dest = destController then via 0
  else match childPort x 5 dest with
    | some p => if d.isManager && d.flue.joined && !(d.present dest) then .none_ else via p
    | none => if d.isManager then .none_ else via 0

/-- Whether the neighbour on a downstream port counts as present (R335, R336): until the join wait has ended, every neighbour that has been
identified; from then on those that had joined by then. -/
def Dev.kidPresent (d : Dev) (k : Nat) : Bool := !d.flue.joined || d.flue.kids.contains k

/-- Downstream ports a broadcast leaves by (R335). -/
def Dev.downPorts (d : Dev) : List Nat := [1, 2, 3].filter (fun k => d.portUp k && (d.port k).identOk && d.kidPresent k)

/-- A posted packet that cannot be routed is discarded and counted (R335). -/
def Dev.unroutable (d : Dev) (p : Nat) (k : Packet) : Dev :=
  if k.cls = .ev then (d.bump R.FLU_LATE F.FLU_LATE_EVENTS).latch R.FLU_INT_STATUS F.FLU_INT_STATUS_LATE
  else d.bump (R.FLU_PORT_ERRORS p) F.FLU_PORT_ERRORS_CRC_ERRORS

/-- Send a posted packet from this device (R335). -/
def Dev.sendPacket (d : Dev) (k : Packet) : Dev :=
  if k.dest = destAll then d.downPorts.foldl (fun d p => d.enqueue p k) d
  else match d.route k.dest with
    | .port p => d.enqueue p k
    | .here => d
    | .none_ => d.unroutable 0 k

/-- The blocks of a 256-bit site mask (R343). -/
def maskBlocks (m : Nat) : List Nat := (List.range 4).map (fun i => m / 2 ^ (64 * i) % 2 ^ 64)

/-- An EVENT packet (R343). -/
def eventPacket (src dest ring epoch kind site rdvId : Nat) (withdrawn : Bool) (startSeq : Nat) (more : List Nat) : Packet :=
  { type := ptEvent, dest := dest, src := src, tag := 0, be := 0, arg := ring, addr := 0
    payload := [epoch, kind + 16 * site + 2 ^ 12 * rdvId + 2 ^ 28 * bit withdrawn + 2 ^ 32 * startSeq] ++ more }

def evStart : Nat := 1
def evStop : Nat := 2
def evFail : Nat := 3
def evReport : Nat := 4
def evRelease : Nat := 5

/-- Send an event as R344 sets: the manager broadcasts, a worker sends to DEST 0. A standalone device has no neighbour. -/
def Dev.sendEvent (d : Dev) (ring epoch kind site rdvId : Nat) (withdrawn : Bool) (startSeq : Nat) (more : List Nat) : Dev :=
  if d.role = 0 then d
  else d.sendPacket (eventPacket d.deviceNum (if d.isManager then destAll else 0) ring epoch kind site rdvId withdrawn startSeq more)

/-- The epoch of the present instant as events carry it. -/
def Dev.epochNow (d : Dev) : Nat := if d.flue.known then d.flue.epoch else 0

end Sys2Proof.Machine
end

