-- ==== Sys2Proof/Machine/Image.lean ====
section
/-! DEFINITION. Zyn images: parsing (spec/05 R131–R143), instruction operands (R146–R154), and the load checks of R166 in the
order of R167. -/

namespace Sys2Proof.Machine

/-! ### Instructions (R146) -/

/-- The instruction that OP and OPERAND spell (R146). -/
def decodeIns (op w : Nat) : ZIns :=
  let f (l n : Nat) := natField w ⟨l, n⟩
  match op with
  | 0x0 => .nop
  | 0x1 => .rep (f 0 32)
  | 0x2 => .loopBegin (f 0 32)
  | 0x3 => .loopEnd
  | 0x4 => .call (f 0 16) (f 16 16)
  | 0x5 => .ret
  | 0x6 => .jump (f 0 16) (f 16 3)
  | 0x7 => .jumpIf (f 0 16) (f 16 3) (f 19 6) (f 25 4) (tbit w 29) (tbit w 30) (f 31 10)
  | 0x8 => .wait (f 0 2) (f 2 10) (f 12 2) (f 14 16)
  | 0x9 => .holdPoint (f 0 12)
  | 0xA => .rendezvous (f 0 8)
  | 0xB => .halt
  | 0xC => .setreg (f 0 32) (f 32 4)
  | _ => .refused

/-- How many low operand bits an instruction uses (R146); the rest must be zero (R138). -/
def operandBits (op : Nat) : Nat :=
  match op with
  | 0x1 => 32 | 0x2 => 32 | 0x4 => 32 | 0x6 => 19 | 0x7 => 41 | 0x8 => 30 | 0x9 => 12 | 0xA => 8 | 0xC => 36 | _ => 0

/-- The instruction of a granule. -/
def Gran.ins (g : Gran) : ZIns := decodeIns g.op g.operand

/-- Whether an operand value lies outside the range its instruction allows (R146, R149, R153, R154; check 0x2A). -/
def insBad (w branchCount holdCount rdvCount : Nat) (i : ZIns) : Bool :=
  match i with
  | .rep c => c == 0
  | .loopBegin c => c == 0
  | .call t r => decide (t ≥ branchCount ∨ r ≥ branchCount)
  | .jump t _ => decide (t ≥ branchCount)
  | .jumpIf t _ _ c _ _ p =>
    decide (t ≥ branchCount) ||
    (match c with
     | 0 => p != 0
     | 1 => decide (p ≥ w)
     | 2 => decide (p ≥ 8)
     | 3 => decide (p ≥ 4)
     | 4 => decide (p ≥ w)
     | _ => true)
  | .wait e p l _ =>
    match e with
    | 0 => decide (p ≥ w) || l == 3
    | 1 => p != 0 || l != 0
    | 2 => decide (p ≥ 8) || l != 0
    | _ => true
  | .holdPoint h => decide (h ≥ holdCount)
  | .rendezvous r => decide (r ≥ rdvCount)
  | .setreg v r =>
    if r ≤ 3 then false else if r ≤ 6 then decide (v ≥ 256) else if r = 7 then v != 0 else true
  | .refused => true
  | _ => false

/-! ### Header (R132) -/

/-- The counts and offsets of the regions 2 to 8 of R131: order, offset field, count, entry size. -/
def regionRows (bs : List Byte) : List (Nat × Nat × Nat × Nat) :=
  let rb := fieldAt bs 18 2
  [(2, 64, fieldAt bs 16 2, 8), (3, 72, fieldAt bs 32 2, 64 + 64 * rb), (4, 80, fieldAt bs 28 4, 32),
   (5, 88, fieldAt bs 34 2, 16), (6, 96, fieldAt bs 36 2, 16), (7, 104, fieldAt bs 38 2, 16), (8, 112, fieldAt bs 40 2, 16)]

/-- Checks FORMAT, HEADER_CRC and DIGEST (R133, R166); `len` is the descriptor's length. -/
def headChecks (bs : List Byte) (len : Nat) : Option LoadFail :=
  firstSome [
    failWhen (slice bs 0 4 != [0x5A#8, 0x59#8, 0x4E#8, 0x1A#8]) ⟨0x20, 0, 0⟩,
    failWhen (fieldAt bs 4 1 != 1) ⟨0x20, 0, 4⟩,
    failWhen (fieldAt bs 5 1 != 0) ⟨0x20, 0, 5⟩,
    failWhen (fieldAt bs 8 8 != len) ⟨0x20, 0, 8⟩,
    failWhen (fieldAt bs 252 4 != crc32c (slice bs 0 252)) ⟨0x21, 0, 252⟩,
    failWhen (slice bs 216 32 != shake256 32 (splice bs 216 (List.replicate 40 0#8))) ⟨0x22, 0, 216⟩]

/-- Check HEADER_FIELD, fields in ascending offset (R132, R166, R167). -/
def headerFieldChecks (bs : List Byte) : Option LoadFail :=
  let w := fieldAt bs 16 2
  let bad (c : Bool) (off : Nat) : Option LoadFail := failWhen c ⟨0x23, 0, off⟩
  firstSome [
    bad (fieldAt bs 6 2 ≥ 2) 6, bad (fieldAt bs 8 8 % 8 != 0) 8, bad (decide (w < 1 ∨ w > 1024)) 16,
    bad (fieldAt bs 18 2 != 8 * ceilDiv w 16) 18, bad (fieldAt bs 20 4 == 0) 20, bad (fieldAt bs 24 4 < 4) 24,
    bad (fieldAt bs 28 4 == 0) 28, bad (fieldAt bs 32 2 > 4096) 32, bad (fieldAt bs 34 2 == 0) 34,
    bad (fieldAt bs 36 2 > 4095) 36, bad (fieldAt bs 38 2 > 255) 38, bad (fieldAt bs 40 2 > 1024) 40,
    bad (!(zeroAt bs 42 2)) 42, bad (fieldAt bs 44 2 ≥ fieldAt bs 34 2) 44, bad (!(zeroAt bs 46 2)) 46,
    bad (!(zeroAt bs 52 12)) 52, bad (!(zeroAt bs 144 72)) 144, bad (!(zeroAt bs 248 4)) 248]

/-- Check REGION over the rows in order; `pos` is where the region before ends (R131, R166). A region that begins before the
one in front of it ends is the failing one (DEDUCED, log entry 31). -/
def regionWalk (bs : List Byte) (len : Nat) : List (Nat × Nat × Nat × Nat) → Nat → Option LoadFail
  | [], pos =>
    let off := fieldAt bs 120 8
    failWhen (decide (off % 64 ≠ 0 ∨ off < pos ∨ off ≥ len)) ⟨0x24, 9, 120⟩
  | (ord, fo, cnt, esz) :: t, pos =>
    let off := fieldAt bs fo 8
    if cnt = 0 then
      if off ≠ 0 then some ⟨0x24, ord, fo⟩ else regionWalk bs len t pos
    else if off % 64 ≠ 0 ∨ off < pos ∨ off + cnt * esz > len then some ⟨0x24, ord, fo⟩
    else regionWalk bs len t (off + cnt * esz)

/-- Check PIN_MAP (R134, R166). -/
def pinMapChecks (bs : List Byte) : Option LoadFail :=
  let po := fieldAt bs 64 8
  firstFail' (List.range (fieldAt bs 16 2)) (fun i =>
    let e := po + 8 * i
    firstSome [
      failWhen (fieldAt bs e 2 != i) ⟨0x25, i, e⟩,
      failWhen (decide (fieldAt bs (e + 2) 1 ≥ 4)) ⟨0x25, i, e + 2⟩,
      failWhen (fieldAt bs (e + 3) 1 != 0) ⟨0x25, i, e + 3⟩])
where
  /-- First failure over a list of numbers. -/
  firstFail' (l : List Nat) (f : Nat → Option LoadFail) : Option LoadFail := l.findSome? f

/-! ### Granules (R138–R141) -/

/-- Stored length that a header word gives, none where it gives none (R139, R141, R167). -/
def storedLen (rowBytes hw : Nat) : Option Nat :=
  let enc := natField hw ⟨61, 3⟩
  let runs := natField hw ⟨48, 7⟩
  match enc with
  | 0 => some (72 + 64 * rowBytes)
  | 1 => some 8
  | 2 => some 8
  | 3 => if 1 ≤ runs ∧ runs ≤ 64 then some (8 + runs * (8 + rowBytes)) else none
  | _ => none

/-- A granule header word as a granule without its body. -/
def granOf (hw off len : Nat) : Gran :=
  ⟨natField hw ⟨61, 3⟩, natField hw ⟨48, 13⟩, natField hw ⟨44, 4⟩, natField hw ⟨0, 44⟩, off, len, []⟩

/-- Result of parsing one segment's granules: those parsed, where parsing stands, whether every one was parsed, and the
offset of a granule whose length its header does not give. -/
structure GranParse where
  grans : List Gran
  pos : Nat
  whole : Bool
  lost : Option Nat
  deriving DecidableEq, Repr

/-- Parse `n` granules from `pos` on (R167). -/
def parseGrans (bs : List Byte) (total rowBytes : Nat) : Nat → Nat → GranParse
  | 0, pos => ⟨[], pos, true, none⟩
  | n + 1, pos =>
    if pos + 8 > total then ⟨[], pos, false, none⟩
    else
      let hw := fieldAt bs pos 8
      match storedLen rowBytes hw with
      | none => ⟨[], pos, false, some pos⟩
      | some len =>
        if pos + len > total then ⟨[], pos, false, none⟩
        else
          let r := parseGrans bs total rowBytes n (pos + len)
          { r with grans := granOf hw pos len :: r.grans }

/-- What SEGMENT leaves: the first failure, the parsed segments, the granules parsed, and a granule where parsing ended. -/
structure SegScan where
  fail : Option LoadFail
  segs : List Seg
  grans : List Gran
  lost : Option (Nat × Nat)
  deriving DecidableEq, Repr

/-- A segment-table entry (R143). -/
def segAt (bs : List Byte) (k : Nat) : Seg :=
  let so := fieldAt bs 80 8 + 32 * k
  ⟨fieldAt bs so 8, fieldAt bs (so + 8) 8, fieldAt bs (so + 16) 4, fieldAt bs (so + 20) 4, fieldAt bs (so + 24) 4⟩

/-- One segment's SEGMENT checks, in field order (R143, R166, R167): BYTE_OFF, BYTE_LEN, FIRST_GRANULE, GRANULES, reserved.
BYTE_LEN is compared only when no unparsed granule stands in this or an earlier segment. -/
def segChecks (bs : List Byte) (k pos first : Nat) (lostBefore : Bool) (s : Seg) (p : GranParse) : Option LoadFail :=
  let so := fieldAt bs 80 8 + 32 * k
  let bad (c : Bool) (o : Nat) : Option LoadFail := failWhen c ⟨0x26, k, so + o⟩
  firstSome [
    bad (s.off != pos) 0,
    bad (!lostBefore && p.lost.isNone && (!p.whole || s.len != p.pos - pos)) 8,
    bad (s.first != first) 16,
    bad (decide (s.granules < 4)) 20,
    bad (!(zeroAt bs (so + 28) 4)) 28]

/-- SEGMENT over `n` segments from number `k` (R143, R166, R167). `len` is IMAGE_BYTES. A sum over all segments that fails is reported at the last segment's
entry: a wrong granule count at its GRANULES, segments that do not reach IMAGE_BYTES at its BYTE_LEN (the model's choice, log entry 31). -/
def segScan (bs : List Byte) (len rowBytes : Nat) : Nat → Nat → Nat → Nat → Bool → SegScan
  | 0, k, pos, first, _ =>
    let so := fieldAt bs 80 8 + 32 * (k - 1)
    ⟨firstSome [failWhen (first != fieldAt bs 24 4) ⟨0x26, k - 1, so + 20⟩, failWhen (pos != len) ⟨0x26, k - 1, so + 8⟩], [], [],
      none⟩
  | n + 1, k, pos, first, lost =>
    let s := segAt bs k
    let p := if lost then ⟨[], pos, false, none⟩ else parseGrans bs len rowBytes (capAt s.granules (len / 8 + 1)) pos
    match segChecks bs k pos first lost s p with
    | some f => ⟨some f, [], [], none⟩
    | none =>
      let lost' := lost || p.lost.isSome
      let pos' := if lost' then s.off + s.len else p.pos
      let r := segScan bs len rowBytes n (k + 1) pos' (first + s.granules) lost'
      { fail := r.fail, segs := s :: r.segs, grans := p.grans ++ r.grans
        lost := match p.lost with
          | some o => some (first + p.grans.length, o)
          | none => r.lost }

/-- Segment number of a granule. -/
def segOf (segs : List Seg) (g : Nat) : Nat :=
  (segs.findIdx? (fun s => decide (s.first ≤ g ∧ g < s.first + s.granules))).getD 0

/-- ENCODING of one granule (R139, R141, R166). RLE counts that do not sum to 64 are reported at the granule's header word, one of the places that R167
allows (the model's choice, log entry 31). -/
def encodingCheck (bs : List Byte) (rowBytes dictCount : Nat) (segs : List Seg) (n : Nat) (g : Gran) : Option LoadFail :=
  let here : LoadFail := ⟨0x27, n, g.off⟩
  match g.enc with
  | 0 => failWhen (g.encArg != 0) here
  | 1 => failWhen (decide (g.encArg ≥ 4096 ∨ g.encArg ≥ dictCount)) here
  | 2 => failWhen (g.encArg != 0 || segs.any (fun s => s.first == n)) here
  | 3 =>
    if g.encArg ≥ 128 then some here
    else
      let runs := (List.range g.encArg).map (fun r => g.off + 8 + r * (8 + rowBytes))
      firstSome [
        (runs.find? (fun ro => fieldAt bs ro 1 == 0 || !(zeroAt bs (ro + 2) 6))).map (fun ro => ⟨0x27, n, ro⟩),
        failWhen ((runs.foldl (fun t ro => t + fieldAt bs ro 1) 0) != 64) here]
  | _ => some here

/-- A RAW body or dictionary entry at an offset (R140). -/
def rawBody (bs : List Byte) (rowBytes off : Nat) : List Run :=
  (List.range 64).map (fun v => ⟨1, fieldAt bs (off + v) 1, fieldAt bs (off + 64 + v * rowBytes) rowBytes⟩)

/-- An RLE body (R141). -/
def rleBody (bs : List Byte) (rowBytes off runs : Nat) : List Run :=
  (List.range runs).map (fun r =>
    let ro := off + r * (8 + rowBytes)
    ⟨fieldAt bs ro 1, fieldAt bs (ro + 1) 1, fieldAt bs (ro + 8) rowBytes⟩)

/-- Granules with their bodies resolved; `prev` is the body stored immediately before (R139). -/
def resolveBodies (bs : List Byte) (rowBytes dictOff : Nat) : List Gran → List Run → List Gran
  | [], _ => []
  | g :: t, prev =>
    let b := match g.enc with
      | 0 => rawBody bs rowBytes (g.off + 8)
      | 1 => rawBody bs rowBytes (dictOff + (64 + 64 * rowBytes) * (g.encArg % 4096))
      | 2 => prev
      | _ => rleBody bs rowBytes (g.off + 8) (g.encArg % 128)
    { g with body := b } :: resolveBodies bs rowBytes dictOff t b

/-- The run that holds vector v of a body. -/
def runAt : List Run → Nat → Run
  | [], _ => ⟨0, 0, 0⟩
  | r :: t, v => if v < r.count then r else runAt t (v - r.count)

/-- Symbol code of image pin i in a row (R140). -/
def symOf (row i : Nat) : Nat := row / 16 ^ i % 16

/-! ### Checks on bodies and instructions -/

/-- The stored bodies in the order of R167: (granule or dictionary number, the places of control byte and row). -/
def storedBodies (rowBytes dictOff dictCount : Nat) (grans : List Gran) : List (Nat × List (Nat × Nat)) :=
  (grans.zipIdx.filterMap (fun (g, n) =>
    match g.enc with
    | 0 => some (n, (List.range 64).map (fun v => (g.off + 8 + v, g.off + 72 + v * rowBytes)))
    | 3 => some (n, (List.range g.encArg).map (fun r => let ro := g.off + 8 + r * (8 + rowBytes); (ro + 1, ro + 8)))
    | _ => none)) ++
  (List.range dictCount).map (fun d =>
    let o := dictOff + (64 + 64 * rowBytes) * d
    (d, (List.range 64).map (fun v => (o + v, o + 64 + v * rowBytes))))

/-- A symbol that R135 or R137 refuses on image pin i. -/
def symbolBad (pinFlags : List Nat) (ddsPins : List Nat) (i s : Nat) : Bool :=
  let fl := nth pinFlags i 0
  let dds := ddsPins.contains i
  decide (s ≥ 0xA) || (tbit fl 0 && decide (s ≤ 1)) || (tbit fl 1 && decide (4 ≤ s ∧ s ≤ 7)) || (s == 9 && !dds) ||
  (dds && !(s == 9 || s == 2 || s == 3 || s == 8))

/-- Check SYMBOL (R166). -/
def symbolCheck (bs : List Byte) (w : Nat) (pinFlags ddsPins : List Nat) (bodies : List (Nat × List (Nat × Nat))) :
    Option LoadFail :=
  bodies.findSome? (fun (n, units) => units.findSome? (fun (_, ro) =>
    ((List.range w).find? (fun i => symbolBad pinFlags ddsPins i (fieldAt bs (ro + i / 2) 1 / 16 ^ (i % 2) % 16))).map
      (fun i => ⟨0x28, n, ro + i / 2⟩)))

/-- Check CONTROL_LANE (R142, R166). -/
def controlCheck (bs : List Byte) (setMask : Nat) (bodies : List (Nat × List (Nat × Nat))) : Option LoadFail :=
  bodies.findSome? (fun (n, units) =>
    (units.find? (fun (co, _) => !(tbit setMask (fieldAt bs co 1 % 32)))).map (fun (co, _) => ⟨0x29, n, co⟩))

/-- Check INSTRUCTION (R146, R166). -/
def instructionCheck (bs : List Byte) (grans : List Gran) : Option LoadFail :=
  grans.zipIdx.findSome? (fun (g, n) =>
    failWhen (decide (g.operand ≥ 2 ^ operandBits g.op) ||
      insBad (fieldAt bs 16 2) (fieldAt bs 34 2) (fieldAt bs 36 2) (fieldAt bs 38 2) g.ins) ⟨0x2A, n, g.off⟩)

/-- A branch-table entry (R156). -/
def branchAt (bs : List Byte) (i : Nat) : Branch :=
  let o := fieldAt bs 88 8 + 16 * i
  ⟨fieldAt bs o 4, fieldAt bs (o + 4) 4, fieldAt bs (o + 8) 6, fieldAt bs (o + 14) 1⟩

/-- Whether entry i has ENTRY set and names the first granule of its segment (R157). -/
def isEntry (branches : List Branch) (segs : List Seg) (i : Nat) : Bool :=
  match branches[i]? with
  | some b => tbit b.kind 0 && segs.any (fun s => s.first == b.granule)
  | none => false

/-- Check BRANCH_TABLE (R157, R166): granules, then branch entries, then rendezvous entries, then ENTRY_INDEX (R167). -/
def branchCheck (bs : List Byte) (grans : List Gran) (segs : List Seg) (branches : List Branch) : Option LoadFail :=
  let entry := isEntry branches segs
  firstSome [
    grans.zipIdx.findSome? (fun (g, n) =>
      let bad := match g.ins with
        | .jump t _ => !(entry t)
        | .jumpIf t _ _ _ _ _ _ => !(entry t)
        | .call t r => !(entry t) || !((branches[r]?.map (fun b => tbit b.kind 2 && b.granule == n + 1)).getD false)
        | .loopBegin _ => !(branches.any (fun b => tbit b.kind 1 && b.granule == n))
        | _ => false
      failWhen bad ⟨0x2B, n, g.off⟩),
    branches.zipIdx.findSome? (fun (b, i) =>
      let o := fieldAt bs 88 8 + 16 * i
      let g := grans[b.granule]?
      firstSome [
        failWhen g.isNone ⟨0x2B, i, o⟩,
        failWhen (b.segment != segOf segs b.granule) ⟨0x2B, i, o + 4⟩,
        failWhen ((g.map (fun x => x.off != b.off)).getD false) ⟨0x2B, i, o + 8⟩,
        failWhen (b.kind == 0 || decide (b.kind ≥ 8)) ⟨0x2B, i, o + 14⟩,
        failWhen (fieldAt bs (o + 15) 1 != 0) ⟨0x2B, i, o + 15⟩]),
    (List.range (fieldAt bs 38 2)).findSome? (fun k =>
      let o := fieldAt bs 104 8 + 16 * k
      let t := fieldAt bs (o + 8) 2
      failWhen (tbit (fieldAt bs (o + 7) 1) 1 && t != 0xFFFF && !(entry t)) ⟨0x2B, k, o + 8⟩),
    failWhen (!(entry (fieldAt bs 44 2))) ⟨0x2B, fieldAt bs 44 2, 44⟩]

/-- Check LATE_PREFIX (R152, R166). -/
def latePrefixCheck (grans : List Gran) : Option LoadFail :=
  grans.zipIdx.findSome? (fun (g, n) =>
    match g.ins with
    | .jumpIf _ _ vec _ _ _ _ =>
      failWhen (decide (vec ≥ 49) && !((grans[n + 1]?.map (fun x => x.op == 0 || x.op == 0xC)).getD false)) ⟨0x2C, n, g.off⟩
    | _ => none)

/-- The body rule of hold-point and rendezvous granules (R159). -/
def neutralBody (w : Nat) (body : List Run) : Bool :=
  body.all (fun r => decide (r.ctrl < 32) && (List.range w).all (fun i => !(decide (4 ≤ symOf r.row i ∧ symOf r.row i ≤ 7)))) &&
  (List.range w).all (fun i => symOf (runAt body 0).row i != 8)

/-- Check HOLD_POINT (R158, R159, R166). -/
def holdCheck (bs : List Byte) (w : Nat) (grans : List Gran) : Option LoadFail :=
  let ho := fieldAt bs 96 8
  firstSome [
    grans.zipIdx.findSome? (fun (g, n) =>
      match g.ins with
      | .holdPoint h => failWhen (fieldAt bs (ho + 16 * h) 4 != n || !(neutralBody w g.body)) ⟨0x2D, n, g.off⟩
      | _ => none),
    (List.range (fieldAt bs 36 2)).findSome? (fun k =>
      let o := ho + 16 * k
      let g := grans[fieldAt bs o 4]?
      firstSome [
        failWhen ((g.map (fun x => x.ins != .holdPoint k)).getD true) ⟨0x2D, k, o⟩,
        failWhen (decide (fieldAt bs (o + 4) 1 ≥ 2)) ⟨0x2D, k, o + 4⟩,
        failWhen (!(zeroAt bs (o + 5) 3)) ⟨0x2D, k, o + 5⟩,
        failWhen ((g.map (fun x => x.off != fieldAt bs (o + 8) 6)).getD false) ⟨0x2D, k, o + 8⟩,
        failWhen (!(zeroAt bs (o + 14) 2)) ⟨0x2D, k, o + 14⟩])]

/-- Check RENDEZVOUS (R159, R161, R166). -/
def rdvCheck (bs : List Byte) (w : Nat) (grans : List Gran) : Option LoadFail :=
  let ro := fieldAt bs 104 8
  firstSome [
    grans.zipIdx.findSome? (fun (g, n) =>
      match g.ins with
      | .rendezvous r => failWhen (fieldAt bs (ro + 16 * r) 4 != n || !(neutralBody w g.body)) ⟨0x2E, n, g.off⟩
      | _ => none),
    (List.range (fieldAt bs 38 2)).findSome? (fun k =>
      let o := ro + 16 * k
      let cond := fieldAt bs (o + 6) 1
      let flags := fieldAt bs (o + 7) 1
      let t := fieldAt bs (o + 8) 2
      firstSome [
        failWhen ((grans[fieldAt bs o 4]?.map (fun x => x.ins != .rendezvous k)).getD true) ⟨0x2E, k, o⟩,
        failWhen (!(cond % 16 == 0 || cond % 16 == 2) || (cond % 16 == 0 && decide (cond ≥ 32))) ⟨0x2E, k, o + 6⟩,
        failWhen (decide (flags ≥ 8)) ⟨0x2E, k, o + 7⟩,
        failWhen (tbit flags 1 == (t == 0xFFFF)) ⟨0x2E, k, o + 8⟩,
        failWhen (!(zeroAt bs (o + 10) 6)) ⟨0x2E, k, o + 10⟩])]

/-- A claim-table entry (R163). -/
def claimAt (bs : List Byte) (k : Nat) : Claim :=
  let o := fieldAt bs 112 8 + 16 * k
  ⟨fieldAt bs o 1, fieldAt bs (o + 1) 1, fieldAt bs (o + 2) 2, fieldAt bs (o + 4) 4⟩

/-- Check CLAIM (R163, R166). A second CAPTURE claim is reported at its KIND (the model's choice, log entry 31). -/
def claimCheck (bs : List Byte) (w : Nat) (claims : List Claim) : Option LoadFail :=
  claims.zipIdx.findSome? (fun (c, k) =>
    let o := fieldAt bs 112 8 + 16 * k
    let before := claims.take k
    let slotBad := match c.kind with
      | 1 => decide (c.slot > 3) && c.slot != 0xFF
      | 2 => decide (c.slot > 1) && c.slot != 0xFF
      | _ => c.slot != 0
    let pinBad := if c.kind = 4 then c.pin != 0xFFFF
      else decide (c.pin ≥ w) || (c.kind == 1 && before.any (fun d => d.kind == 1 && d.pin == c.pin))
    firstSome [
      failWhen (decide (c.kind < 1 ∨ c.kind > 4) || (c.kind == 4 && before.any (fun d => d.kind == 4))) ⟨0x2F, k, o⟩,
      failWhen slotBad ⟨0x2F, k, o + 1⟩,
      failWhen pinBad ⟨0x2F, k, o + 2⟩,
      failWhen (if c.kind = 4 then decide (c.amount < 1 ∨ c.amount > 256) else c.amount != 0) ⟨0x2F, k, o + 4⟩,
      failWhen (!(zeroAt bs (o + 8) 8)) ⟨0x2F, k, o + 8⟩])

/-- Largest total of 4 consecutive stored lengths (R144). -/
def worst4 : List Nat → Nat
  | a :: b :: c :: d :: t => max (a + b + c + d) (worst4 (b :: c :: d :: t))
  | _ => 0

/-- Check MANIFEST (R144, R166). -/
def manifestCheck (bs : List Byte) (grans : List Gran) (segs : List Seg) : Option LoadFail :=
  segs.zipIdx.findSome? (fun (s, k) =>
    let b := worst4 (((grans.drop s.first).take s.granules).map (·.len))
    failWhen (decide (s.rate < ceilDiv (65536 * b) 256)) ⟨0x30, k, fieldAt bs 80 8 + 32 * k + 24⟩)

/-- Check END (R155, R166). -/
def endCheck (grans : List Gran) : Option LoadFail :=
  match grans.getLast? with
  | some g => failWhen (!(g.op == 0xB || g.op == 6 || g.op == 5)) ⟨0x31, grans.length - 1, g.off⟩
  | none => some ⟨0x31, 0, 0⟩

/-- Checks 0x28 to 0x31 and the parsed image, for granules and segments that SEGMENT and ENCODING passed (R166, R167). -/
def imageTail (bs : List Byte) (segs : List Seg) (grans0 : List Gran) : LoadFail ⊕ ZImage :=
  let w := fieldAt bs 16 2
  let rb := fieldAt bs 18 2
  let dictOff := fieldAt bs 72 8
  let dictCount := fieldAt bs 32 2
  let grans := resolveBodies bs rb dictOff grans0 []
  let pinFlags := (List.range w).map (fun i => fieldAt bs (fieldAt bs 64 8 + 8 * i + 2) 1)
  let claims := (List.range (fieldAt bs 40 2)).map (claimAt bs)
  let ddsPins := (claims.filter (fun c => c.kind == 1)).map (·.pin)
  let branches := (List.range (fieldAt bs 34 2)).map (branchAt bs)
  let bodies := storedBodies rb dictOff dictCount grans
  match firstSome [symbolCheck bs w pinFlags ddsPins bodies, controlCheck bs (fieldAt bs 20 4) bodies, instructionCheck bs grans,
      branchCheck bs grans segs branches, latePrefixCheck grans, holdCheck bs w grans, rdvCheck bs w grans,
      claimCheck bs w claims, manifestCheck bs grans segs, endCheck grans] with
  | some f => .inl f
  | none => .inr {
      noHolds := tbit (fieldAt bs 6 2) 0
      bytes := fieldAt bs 8 8
      w := w
      rowBytes := rb
      setMask := fieldAt bs 20 4
      entryIndex := fieldAt bs 44 2
      windowGuard := fieldAt bs 48 4
      dictCount := dictCount
      pinFlags := pinFlags
      segs := segs
      branches := branches
      holds := (List.range (fieldAt bs 36 2)).map (fun k =>
        let o := fieldAt bs 96 8 + 16 * k
        ⟨fieldAt bs o 4, tbit (fieldAt bs (o + 4) 1) 0⟩)
      rdvs := (List.range (fieldAt bs 38 2)).map (fun k =>
        let o := fieldAt bs 104 8 + 16 * k
        ⟨fieldAt bs o 4, fieldAt bs (o + 4) 2, fieldAt bs (o + 6) 1, fieldAt bs (o + 7) 1, fieldAt bs (o + 8) 2⟩)
      claims := claims
      grans := grans }

/-- All load checks in the order of R167; the parsed image when every one passes (R165, R166). -/
def loadImage (bs : List Byte) (len : Nat) : LoadFail ⊕ ZImage :=
  match firstSome [headChecks bs len, headerFieldChecks bs, regionWalk bs len (regionRows bs) 256, pinMapChecks bs] with
  | some f => .inl f
  | none =>
    let rb := fieldAt bs 18 2
    let sc := segScan bs len rb (fieldAt bs 28 4) 0 (fieldAt bs 120 8) 0 false
    match sc.fail with
    | some f => .inl f
    | none =>
      match sc.grans.zipIdx.findSome? (fun (g, n) => encodingCheck bs rb (fieldAt bs 32 2) sc.segs n g), sc.lost with
      | some f, _ => .inl f
      | none, some (n, o) => .inl ⟨0x27, n, o⟩
      | none, none => imageTail bs sc.segs sc.grans

/-- The granule a branch-table index names. -/
def ZImage.target (z : ZImage) (i : Nat) : Nat := ((z.branches[i]?).map (·.granule)).getD 0

/-- Granule n of an image. -/
def ZImage.gran (z : ZImage) (n : Nat) : Gran := (z.grans[n]?).getD ⟨0, 0, 0, 0, 0, 0, []⟩

end Sys2Proof.Machine
end

