-- ==== Sys2Proof/Machine/Flowing.lean ====
section
/-! DEFINITION. How instructions move the flow of a site (spec/05 R145–R154), and the flow that a stream engine predicts (spec/07 R212,
R213, R215). -/

namespace Sys2Proof.Machine

/-- CNT of a flow. -/
def Flow.counter (f : Flow) (i : Nat) : Nat := nth f.cnt (i % 4) 0

/-- The register operation of SETREG on counters and flags (R153). -/
def Flow.setReg (f : Flow) (value reg : Nat) : Flow :=
  if reg ≤ 3 then { f with cnt := setNth f.cnt reg (value % 2 ^ 32) }
  else if reg = 4 then { f with flags := value % 256 }
  else if reg = 5 then { f with flags := f.flags ||| value % 256 }
  else if reg = 6 then { f with flags := f.flags &&& (255 - value % 256) }
  else f

/-- Go to a granule; `back` says whether by a loop back-edge (R147). -/
def Flow.goto (f : Flow) (g : Nat) (back : Bool := false) : Flow := { f with pc := g, back := back }

/-- The granule after the present one. -/
def Flow.succ (f : Flow) : Flow := f.goto (f.pc + 1)

/-- LOOP_BEGIN (R147, R148). -/
def Flow.loopBegin (f : Flow) (count : Nat) : Option Flow :=
  if f.back then some f.succ
  else if f.loops.length ≥ 8 then none
  else some { f.succ with loops := ⟨f.pc, count⟩ :: f.loops }

/-- LOOP_END (R147, R148). -/
def Flow.loopEnd (f : Flow) : Option Flow :=
  match f.loops with
  | [] => none
  | e :: t => if e.remaining - 1 > 0 then some ({ f with loops := ⟨e.start, e.remaining - 1⟩ :: t }.goto e.start true) else some { f.succ with loops := t }

/-- CALL (R147, R148). -/
def Flow.call (f : Flow) (target : Nat) : Option Flow :=
  if f.calls.length ≥ 16 then none else some { f.goto target with calls := (f.pc + 1) :: f.calls }

/-- RETURN (R147, R148). -/
def Flow.ret (f : Flow) : Option Flow :=
  match f.calls with
  | [] => none
  | r :: t => some { f.goto r with calls := t }

/-- Pop LPOP loop entries (R147, R148). -/
def Flow.pop (f : Flow) (lpop : Nat) : Option Flow := if lpop > f.loops.length then none else some { f with loops := f.loops.drop lpop }

/-- JUMP, and a taken JUMP_IF (R147, R148). -/
def Flow.jump (f : Flow) (target lpop : Nat) : Option Flow := (f.pop lpop).map (fun x => x.goto target)

/-- CNT_NZ evaluated: its truth before NEG, and the counter after (R149). -/
def Flow.cntNz (f : Flow) (i : Nat) : Bool × Flow :=
  if f.counter i = 0 then (false, f) else (true, { f with cnt := setNth f.cnt (i % 4) (f.counter i - 1) })

/-- MAXREP of a WAIT (R154). -/
def maxRep (m : Nat) : Nat := if m = 0 then 65536 else m

/-! ### Prediction -/

/-- Whether the body of a loop that is being executed and is resident holds a granule in the ring (R213). -/
def heldIn (resident : List (Nat × Nat)) (f : Flow) (g : Nat) : Bool :=
  resident.any (fun l => l.1 ≤ g && g ≤ l.2 && (g == f.pc || f.loops.any (fun e => e.start == l.1)))

/-- A ring entry counts as executed. -/
def ringMark (g : Nat) : List RingGran → List RingGran
  | [] => []
  | x :: t => if x.gran = g ∧ x.done = false then { x with done := true } :: t else x :: ringMark g t

/-- The ring after granule `g` has been executed and the flow stands at `f`: executed granules stay only while a resident loop holds
them (R212–R214). -/
def ringLeave (resident : List (Nat × Nat)) (ring : List RingGran) (g : Nat) (f : Flow) : List RingGran :=
  (ringMark g ring).filter (fun x => !x.done || heldIn resident f x.gran)

/-- What follows a predicted granule: more flow, an unresolved parting decision, or the end of the flow. `extra` is the fall-through
prefix of a late jump. -/
inductive PredNext where
  | go (extra : List Nat) (f : Flow)
  | open_ (extra : List Nat)
  | ends
  deriving DecidableEq, Repr

def PredNext.of : Option Flow → PredNext
  | some f => .go [] f
  | none => .ends

/-- The prediction of one granule: executions and what follows (R212). -/
def predStep (z : ZImage) (f : Flow) : Nat × PredNext :=
  match (z.gran f.pc).ins with
  | .nop => (1, .go [] f.succ)
  | .rep n => (n, .go [] f.succ)
  | .loopBegin n => (1, .of (f.loopBegin n))
  | .loopEnd => (1, .of f.loopEnd)
  | .call t _ => (1, .of (f.call (z.target t)))
  | .ret => (1, .of f.ret)
  | .jump t l => (1, .of (f.jump (z.target t) l))
  | .jumpIf t l vec cond neg _ pin =>
    if cond = 0 ∨ cond = 1 ∨ cond = 4 then (1, .open_ (if vec ≤ 48 then [] else [f.pc + 1]))
    else
      let (truth, f) := if cond = 2 then (tbit f.flags (pin % 8), f) else f.cntNz pin
      if truth != neg then
        if vec ≤ 48 then (1, .of (f.jump (z.target t) l))
        else (1, match f.pop l with
          | none => .ends
          | some x =>
            let x := match (z.gran (f.pc + 1)).ins with | .setreg v r => x.setReg v r | _ => x
            .go [f.pc + 1] (x.goto (z.target t)))
      else (1, .go [] f.succ)
  | .wait ev pin _ m =>
    if ev = 0 then (1, .open_ [])
    else if ev = 1 then (1, .go [] f.succ)
    else if tbit f.flags (pin % 8) then (1, .go [] f.succ)
    else (maxRep m, .go [] { f.succ with flags := f.flags ||| 128 })
  | .holdPoint _ => (1, .go [] f.succ)
  | .rendezvous r =>
    match z.rdvs[r]? with
    | some e =>
      if !(tbit e.flags 1) then (1, .go [] f.succ)
      else if e.cond % 16 = 0 then (1, .open_ [])
      else (1, .go [] (if tbit f.flags (e.cond / 32) != tbit e.cond 4 then f.goto (z.target e.target) else f.succ))
    | none => (1, .go [] f.succ)
  | .halt => (1, .ends)
  | .setreg v r => (1, .go [] (f.setReg v r).succ)
  | .refused => (1, .ends)

/-- How a count of the predicted flow stops. -/
inductive PredStop where
  | absent | open_ | ended | fuel
  deriving DecidableEq, Repr

/-- A walk along the predicted flow (R212, R215): the stored bytes at hand, the first granule that is not, and how the walk stops. -/
structure Walk where
  bytes : Nat
  next : Option Nat
  stop : PredStop
  deriving DecidableEq, Repr

/-- Whether a granule is at hand: in the pool or in the ring. -/
def atHand (z : ZImage) (pinned : List Nat) (ring : List RingGran) (g : Nat) : Bool :=
  pinned.contains (segOf z.segs g) || ring.any (fun x => x.gran == g)

/-- The first granule of a list that is not at hand, with the bytes before it. -/
def walkList (z : ZImage) (pinned : List Nat) (ring : List RingGran) : List Nat → Nat → Option Nat × Nat
  | [], acc => (none, acc)
  | g :: t, acc => if atHand z pinned ring g then walkList z pinned (ringMark g ring) t (acc + (z.gran g).len) else (some g, acc)

/-- The walk; `fuel` bounds how far it looks. -/
def walk (z : ZImage) (pinned : List Nat) (resident : List (Nat × Nat)) : Nat → List RingGran → Flow → Nat → Walk
  | 0, _, _, acc => ⟨acc, none, .fuel⟩
  | fuel + 1, ring, f, acc =>
    if !(atHand z pinned ring f.pc) then ⟨acc, some f.pc, .absent⟩
    else
      let (times, next) := predStep z f
      let acc := acc + times * (z.gran f.pc).len
      match next with
      | .ends => ⟨acc, none, .ended⟩
      | .open_ extra =>
        match walkList z pinned (ringMark f.pc ring) extra acc with
        | (some g, acc) => ⟨acc, some g, .absent⟩
        | (none, acc) => ⟨acc, none, .open_⟩
      | .go extra f' =>
        match walkList z pinned (ringMark f.pc ring) extra acc with
        | (some g, acc) => ⟨acc, some g, .absent⟩
        | (none, acc) =>
          let ring := extra.foldl (fun r g => ringMark g r) (ringMark f.pc ring)
          walk z pinned resident fuel (ring.filter (fun x => !x.done || heldIn resident f' x.gran)) f' acc

/-- How far a walk looks, in predicted steps: the model's bound (log entry 48). -/
def walkFuel : Nat := 1048576

/-- The margin that a walk gives (R215): beyond an open decision it counts WINDOW_GUARD, and a flow wholly at hand to its end is no less
than WINDOW_GUARD. It saturates as HRT_STR_MARGINi does. -/
def Walk.margin (w : Walk) (guard : Nat) : Nat :=
  capAt (match w.stop with
    | .absent => w.bytes
    | .open_ => w.bytes + guard
    | .ended => max w.bytes guard
    | .fuel => w.bytes) (2 ^ 32 - 1)

end Sys2Proof.Machine
end

