-- ==== Sys2Proof/Machine/Margin.lean ====
section
/-! DEFINITION. What the ring of a stream engine holds of its group's predicted flow, and its margin (spec/07 R208, R212–R216). -/

namespace Sys2Proof.Machine

/-- A group's identity: its lowest member (R175). -/
def Group.identity (g : Group) : Nat := (listMin? g.members).getD 0

/-- Engines that serve a group (R176). -/
def Dev.enginesOf (d : Dev) (k : Nat) : List Nat := (d.seq.engines.filter (fun e => e.2.group == some k)).map (·.1)

/-- Ring bytes of an engine (R208). -/
def Dev.ringBytes (d : Dev) (e : Nat) : Nat := 1024 * (d.hearth (e / 4)).ringKib

/-- Stored bytes of a loop's body (R213). -/
def loopBytes (z : ZImage) (l : Nat × Nat) : Nat := ((List.range (l.2 + 1 - l.1)).map (fun i => (z.gran (l.1 + i)).len)).sum

/-- The loops of an image that are resident in a ring (R213). -/
def Image.resident (i : Image) (ring : Nat) : List (Nat × Nat) := i.loops.filter (fun l => loopBytes i.z l + i.z.windowGuard ≤ ring)

/-- The member whose flow an engine predicts from: the lowest (R212). -/
def Group.lead (g : Group) : Nat := g.identity

/-- The flow of a site as its granule began: a counter that an evaluated JUMP_IF has decremented is put back (R149). -/
def SiteRun.flowIn (r : SiteRun) (z : ZImage) : Flow :=
  match (z.gran r.flow.pc).ins with
  | .jumpIf _ _ vec cond neg _ pin =>
    if cond = 3 ∧ r.vec > vec ∧ (r.condTrue != neg) = true then { r.flow with cnt := setNth r.flow.cnt (pin % 4) (r.flow.counter pin + 1) }
    else r.flow
  | _ => r.flow

/-- The walk of an engine from the granule in execution, or from the next one at a boundary. A pending late jump stands at the end of the
granule (R151); it is an open decision unless every member takes the same. -/
def Dev.engineWalk (d : Dev) (e : Nat) (g : Group) (i : Image) (f : Flow) : Walk :=
  let eng := d.engine e
  let res := i.resident (d.ringBytes e)
  let lates := g.members.map (fun s => (d.site s).run.late.map (·.target))
  match (d.site g.lead).run.late with
  | none => if lates.any (·.isSome) then walkLate eng res i.z i.pinned f none else walk i.z i.pinned res walkFuel eng.ring f 0
  | some j => walkLate eng res i.z i.pinned f (if lates.all (· == some j.target) then some j.target else none)
where
  /-- The present granule, then the target of the late jump when it is decided. -/
  walkLate (eng : Engine) (res : List (Nat × Nat)) (z : ZImage) (pinned : List Nat) (f : Flow) (target : Option Nat) : Walk :=
    if !(atHand z pinned eng.ring f.pc) then ⟨0, some f.pc, .absent⟩
    else
      let own := (z.gran f.pc).len
      match target with
      | none => ⟨own, none, .open_⟩
      | some t =>
        let f := (match (z.gran f.pc).ins with | .setreg v r => f.setReg v r | _ => f).goto t
        walk z pinned res walkFuel (ringLeave res eng.ring f.pc f) f own

/-- The margin of a group from a flow: the lowest of its engines (R215). A group without an engine has none. -/
def Dev.groupMargin (d : Dev) (k : Nat) (g : Group) (i : Image) (f : Flow) : Nat :=
  (listMin? ((d.enginesOf k).map (fun e => (d.engineWalk e g i f).margin i.z.windowGuard))).getD 0

/-- The image of a group. -/
def Dev.groupImage (d : Dev) (g : Group) : Option Image := d.image g.image

/-- Executions of its granule that a site has behind it, the one in progress included once it has begun, as the prediction counts them (R215): a
WAIT on SYNC_EDGE is one execution however often it repeats. -/
def SiteRun.passed (r : SiteRun) (z : ZImage) : Nat :=
  let cur := bit (decide (r.vec > 0) || r.idle)
  match (z.gran r.flow.pc).ins with
  | .wait 1 _ _ _ => min 1 (r.rep + cur)
  | .rep _ | .wait 2 _ _ _ => min (predStep z (r.flowIn z)).1 (r.rep + cur)
  | _ => cur

/-- The margin of an engine beyond what its group has executed and executes now (R215, R225). -/
def Dev.marginNow (d : Dev) (e : Nat) (g : Group) (i : Image) : Nat :=
  let r := (d.site g.lead).run
  let w := d.engineWalk e g i (r.flowIn i.z)
  ({ w with bytes := w.bytes - r.passed i.z * (i.z.gran r.flow.pc).len }).margin i.z.windowGuard

/-- A group in a hold that has an engine but not its margin: the margin will be the condition met last, so its holds report REFILL (R216, R219). -/
def Dev.holdCause (d : Dev) (k : Nat) : Dev :=
  match d.group k with
  | none => d
  | some g => match d.groupImage g with
    | none => d
    | some i =>
      if g.hasEngine && d.groupMargin k g i (d.site g.lead).run.flow.succ < i.z.windowGuard then
        g.members.foldl (fun (d : Dev) m => d.modSite m (fun x => { x with run := { x.run with
          wait := x.run.wait.map (fun w => if w.rdv then w else { w with cause := 1 }) } })) d
      else d

end Sys2Proof.Machine
end

