-- ==== Sys2Proof/Machine/TmuBase.lean ====
section
/-! DEFINITION. TMU channels: record layout, FIFO, markers, claims (spec/09 R258, R265–R273). -/

namespace Sys2Proof.Machine

/-- A channel after reset: IDLE, nothing queued. -/
def TmuCh.reset : TmuCh := ⟨0, false, false, 0, none, [], [], none, none, none, [], false, []⟩

def Dev.tmuCh (d : Dev) (n : Nat) : TmuCh := mapGet d.tmu.chs n TmuCh.reset
def Dev.modTmu (d : Dev) (n : Nat) (f : TmuCh → TmuCh) : Dev := { d with tmu := { d.tmu with chs := mapSet d.tmu.chs n (f (d.tmuCh n)) } }

/-- States of TMU_CHn_STATUS.STATE (R281). -/
def tmIdle : Nat := 0
def tmArmed : Nat := 1
def tmSuspended : Nat := 2
def tmCalibrating : Nat := 3
def tmWaking : Nat := 4
def tmPaired : Nat := 5

/-- The live claim on a channel (R273). -/
def Dev.tmuClaim (d : Dev) (n : Nat) : Option LiveClaim := d.seq.claims.find? (fun c => c.kind == 2 && c.unit == n)

/-- Whether an even channel is armed in DIFFERENCE mode: its odd partner reports PAIRED (R276). -/
def Dev.tmuDiff (d : Dev) (n : Nat) : Bool := n % 2 == 0 && (d.tmuCh (n + 1)).st == tmPaired

/-- A record (R268): the bytes 0–10, channel, flags, type, SEQ. -/
def tmuRecord (body : List Byte) (ch flags type seq : Nat) : List Byte :=
  slice body 0 11 ++ bytesOf 1 ch ++ bytesOf 1 flags ++ bytesOf 1 type ++ bytesOf 2 seq

/-- A STAMP record. -/
def TmuStamp.record (s : TmuStamp) (ch : Nat) : List Byte :=
  tmuRecord (bytesOf 8 s.ticks ++ bytesOf 2 s.fineQ3 ++ bytesOf 1 s.code) ch (bit s.unref + 2 * bit s.rise) 0 s.seq

/-- A MARKER record: 0 ARMED, 1 DISARMED, 2 SUSPENDED, 3 RESUMED. -/
def tmuMarkerRecord (ch tb event : Nat) : List Byte := tmuRecord (bytesOf 8 tb ++ bytesOf 2 0 ++ bytesOf 1 event) ch 0 3 0

/-- A DIFFERENCE record (R268). -/
def differenceRecord (ch seq interval start stop : Nat) (timeout unref rise : Bool) : List Byte :=
  tmuRecord (bytesOf 6 interval ++ bytesOf 2 0 ++ bytesOf 1 start ++ bytesOf 1 stop ++ bytesOf 1 (bit timeout)) ch (bit unref + 2 * bit rise) 2 seq

/-- A stamp's time in 1/8 ps. -/
def TmuStamp.time (s : TmuStamp) : Nat := 2000 * s.ticks + s.fineQ3

/-- A GAP record; `first` is its SEQ. -/
def TmuGap.record (g : TmuGap) (ch first : Nat) : List Byte :=
  tmuRecord (bytesOf 8 (g.lost % 2 ^ 32) ++ bytesOf 2 0 ++ bytesOf 1 g.cause) ch 0 1 (first % 65536)

/-- One more lost record joins a gap; LOST counts stamps and differences, a lost marker gives its cause only (R268, R269). -/
def gapAdd (g : Option TmuGap) (seq : Option Nat) (cause : Nat) : TmuGap :=
  match g with
  | none => ⟨seq, bit seq.isSome, cause⟩
  | some g => { first := g.first.orElse (fun _ => seq), lost := g.lost + bit seq.isSome, cause := g.cause ||| cause }

/-- The SEQ that a record's loss takes: markers have none. -/
def TmuItem.lostSeq (x : TmuItem) : Option Nat := if x.stamp then some x.seq else none

/-- RECORD in force: the live one of a claim, else CFG's (R270, R272). -/
def Dev.tmuRecords (d : Dev) (n : Nat) : Bool :=
  match d.tmuClaim n with
  | some c => c.record
  | none => d.flag (R.TMU_CH_CFG n) F.TMU_CH_CFG_RECORD

/-- A record enters the FIFO, or finds it full and is lost (R269, R270). -/
def Dev.tmuQueue (d : Dev) (n : Nat) (x : TmuItem) : Dev :=
  let c := d.tmuCh n
  if !(d.tmuRecords n) then d
  else if c.fifo.length ≥ 1024 then
    let d := d.modTmu n (fun c => { c with fifoGap := some (gapAdd c.fifoGap x.lostSeq 1) })
    if x.stamp then d.bump (R.TMU_CH_LOST n) F.TMU_CH_LOST_LOST else d
  else d.modTmu n (fun c => { c with fifo := c.fifo ++ [{ x with gap := c.fifoGap }], fifoGap := none })

/-- A record of channel `n` taken now: it waits behind the stamps of channel `h` whose flags are not committed (R265, R269). -/
def Dev.tmuAfter (d : Dev) (h n : Nat) (x : TmuItem) : Dev :=
  match (d.tmuCh h).held.getLast? with
  | none => d.tmuQueue n x
  | some s => d.modTmu h (fun c => { c with held := c.held.dropLast ++ [{ s with after := s.after ++ [x] }] })

/-- Write a marker at TB's present count (R265, R271); a DIFFERENCE pair writes none (R276). -/
def Dev.tmuMark (d : Dev) (n event : Nat) : Dev :=
  if d.tmuDiff n || (d.tmuCh n).st == tmPaired then d
  else d.tmuAfter n n ⟨none, false, 0, d.tmu.tb, tmuMarkerRecord n d.tmu.tb event⟩

/-- TMU_STAMP_COMMIT: 40 ns after the oldest stamp its flags are committed and its record enters the FIFO, with those that wait for it (R265,
R269). -/
def Dev.tmuCommit (d : Dev) (n : Nat) : Dev :=
  match (d.tmuCh n).held with
  | [] => d
  | s :: rest =>
    let d := d.modTmu n (fun c => { c with held := rest })
    let dst := match s.closes with | some _ => n - 1 | none => n
    let d := match s.closes with
      | some o => d.tmuQueue dst ⟨none, true, s.seq, s.tb, differenceRecord dst s.seq (s.time - o.start) o.code s.code false (s.unref || o.unref) s.rise⟩
      | none => (d.modTmu n (fun c => { c with recent := c.recent ++ [s] })).tmuQueue n ⟨none, true, s.seq, s.tb, s.record n⟩
    s.after.foldl (fun (d : Dev) x => d.tmuQueue dst x) d

/-- All stamps of a channel are committed. -/
def Dev.tmuFlush (d : Dev) (n : Nat) : Dev := (d.tmuCh n).held.foldl (fun (d : Dev) _ => d.tmuCommit n) d

/-- Whether TB is valid (R262). -/
def Dev.tbValid (d : Dev) : Bool := d.flag R.TMU_REF_STATUS F.TMU_REF_STATUS_TB_VALID

/-- TB reads `tick` or, where it has come further, goes on from there: it never runs back between two SYNC edges (R261). -/
def Dev.tbAt (d : Dev) (tick : Nat) : Dev := { d with tmu := { d.tmu with tb := max tick d.tmu.tb } }

/-- TB has run on by a free number of ticks; with TB valid the next SYNC edge, or the declaration that it is missing, lies at most 40,008 ticks
after the last (R261, R316; log entry 7). -/
def Dev.tbNow (d : Dev) : Dev :=
  let (n, d) := d.drawNat
  d.tbAt (d.tmu.tb + n % (if d.tbValid then d.tmu.syncTb + 40009 - d.tmu.tb else 0))

def Dev.tmuGroup (d : Dev) (g : Nat) : Dom := mapGet d.tmu.groups g Dom.off

/-- An arming takes effect: SEQ, WR and RD from 0, ARMED marker; without a valid TB the channel is suspended at once (R265, R266, R271, R281). -/
def Dev.armNow (d : Dev) (n : Nat) : Dev :=
  let d := (d.tmuFlush n).tmuFlush (if d.tmuDiff n then n + 1 else n)
  let d := d.modTmu n (fun c => { c with st := if d.tbValid then tmArmed else tmSuspended, seq := 0, lastAt := none, recent := [], interval := none
                                         written := [] })
  let d := if d.tmuDiff n then d.modTmu (n + 1) (fun c => { c with seq := 0, lastAt := none }) else d
  let d := ((d.setReg (R.TMU_CH_WR n) 0).setReg (R.TMU_CH_RD n) 0).tmuMark n 0
  if d.tbValid then d else d.tmuMark n 2

/-- Arm the claimed channels of a site at the start of vector 0 (R273), where TB is as it stands; a group that is still waking makes a channel
report WAKING (R275). -/
def Dev.tmuBegin (d : Dev) (s : Nat) : Dev :=
  (d.seq.claims.filter (fun c => c.kind == 2 && c.site == s)).foldl (fun d c =>
    let d := d.modTmu c.unit (fun x => { x with claimRun := true })
    if d.tmuGroup (c.unit / 16) = .on then d.armNow c.unit else d.modTmu c.unit (fun x => { x with st := tmWaking })) d

/-- The claimed channels of a site are disarmed when it enters STOPPING (R273, R265). -/
def Dev.tmuStop (d : Dev) (s : Nat) : Dev :=
  let l := d.seq.claims.filter (fun c => c.kind == 2 && c.site == s && (d.tmuCh c.unit).claimRun)
  if l.isEmpty then d
  else l.foldl (fun (d : Dev) c =>
    let d := if (d.tmuCh c.unit).st = tmWaking then d else d.tmuMark c.unit 1
    d.modTmu c.unit (fun x => { x with st := if x.st = tmCalibrating then x.st else tmIdle, claimRun := false })) d.tbNow

/-- Claimed channels without a valid TB are suspended, armed or not, and one whose claim is gone is IDLE again (R265; log entry 121). -/
def Dev.tmuClaims (d : Dev) : Dev :=
  (List.range 32).foldl (fun (d : Dev) n =>
    let c := d.tmuCh n
    let claimed := (d.tmuClaim n).isSome
    if claimed && c.st == tmIdle && !d.tbValid then (d.modTmu n (fun c => { c with st := tmSuspended })).tmuMark n 2
    else if !claimed && c.st == tmSuspended && !c.byReg then d.modTmu n (fun c => { c with st := tmIdle })
    else d) d

end Sys2Proof.Machine
end

