-- ==== Sys2Proof/Machine/SiteEnd.lean ====
section
/-! DEFINITION. How a run ends for a site: hold reports (spec/06 R190, R191), rendezvous reports and releases (R196–R199), leaving the
lockstep group and freeing its engines (R181, R183), STOPPING (R26, R35, R193–R195). -/

namespace Sys2Proof.Machine

/-! ### Hold reports -/

/-- A report enters the on-chip queue, or is counted as lost (R191). `body` is bytes 4–31. -/
def Dev.postReport (d : Dev) (s : Nat) (body : List Byte) : Dev :=
  let seq := d.seq.reportSeq
  let d := { d with seq := { d.seq with reportSeq := (seq + 1) % 2 ^ 32 } }
  if d.flag R.HRT_HOLD_CTRL F.HRT_HOLD_CTRL_ENABLE && d.seq.reports.length < 256 then
    let d := { d with seq := { d.seq with reports := d.seq.reports ++ [HoldReport.mk s (bytesOf 4 seq ++ body)] } }
    d.modSite s (fun x => { x with holdsOut := x.holdsOut + 1 })
  else d.bump R.HRT_HOLD_STATUS F.HRT_HOLD_STATUS_LOST

/-- A hold or a rendezvous wait of a site ends (R190, R191): its report, END 0 resumed or 1 ended. Durations are in grid ticks of 256
codes, rounded down (the model's choice, log entry 126). -/
def Dev.endWait (d : Dev) (s endCode : Nat) : Dev :=
  let x := d.site s
  match x.run.wait with
  | none => d
  | some w =>
    let ticks := (x.run.t - w.t) / 256
    let d := d.modSite s (fun x => { x with holdTicks := if w.rdv then x.holdTicks else x.holdTicks + ticks
                                            run := { x.run with wait := none, idle := false } })
    d.postReport s (bytesOf 1 (bit w.rdv) ++ bytesOf 1 w.cause ++ bytesOf 1 s ++ bytesOf 1 endCode ++ bytesOf 6 w.vc ++ bytesOf 2 w.point ++
      bytesOf 8 ticks ++ bytesOf 4 d.devEpoch ++ bytesOf 2 w.rdvId ++ bytesOf 2 0)

/-! ### Rendezvous -/

/-- The meeting of a start. -/
def Dev.meet (d : Dev) (id : Nat) : RdvMeet := (d.seq.meets.find? (fun m => m.start == id)).getD ⟨id, [], false, false⟩

def Dev.setMeet (d : Dev) (m : RdvMeet) : Dev :=
  { d with seq := { d.seq with meets := d.seq.meets.filter (fun x => x.start != m.start) ++ [m] } }

def Dev.dropMeet (d : Dev) (id : Nat) : Dev := { d with seq := { d.seq with meets := d.seq.meets.filter (fun x => x.start != id), met := d.seq.met.filter (fun r => r.id != id) } }

/-- Participants on this device: running sites of the start (R196). -/
def Dev.participants (d : Dev) (r : Start) : List Nat :=
  r.sites.filter (fun s => (d.site s).st == .running && (d.site s).start == r.id)

/-- The rendezvous wait of a site, unless its limit has withdrawn it or it has been released (R196, R200, R202). -/
def Dev.rdvWait (d : Dev) (s : Nat) : Option IdleWait :=
  match (d.site s).run.wait with
  | some w => if w.rdv && !w.limitHit && (d.site s).run.rdvDone.isNone then some w else none
  | none => none

/-- The fail latch of a multi-device site (R161, R197). -/
def Dev.failLatched (d : Dev) (s : Nat) : Bool := (d.site s).run.siteFail

/-- Start by its id. -/
def Dev.startById (d : Dev) (id : Nat) : Option Start := d.seq.starts.find? (fun r => r.id == id)

/-- Every device of a start (R198): every present device for a start that spans devices, one that declined it among them (the model's choice, log
entry 128), else this one. -/
def Dev.startDevices (d : Dev) (r : Start) : List Nat :=
  if r.multi && d.role != 0 then (List.range 121).filter d.present else [d.deviceNum]

/-- A waiting site is smothered with reason 0x04 at the end of its idle execution, and is withdrawn (R199, R202). -/
def Dev.rdvWithdraw (d : Dev) (s : Nat) : Dev :=
  d.modSite s (fun x => { x with run := { x.run with smother := insertNat 4 x.run.smother, wait := x.run.wait.map (fun w => { w with limitHit := true }) } })

/-- A waiting site takes a release: its epoch, and the combined fail latch of a multi-device site (R198, R200). -/
def Dev.rdvRelease (d : Dev) (s epoch : Nat) (fails : List Nat) : Dev :=
  let joined := d.isMulti s && fails.contains s
  d.modSite s (fun x =>
    let r := { x.run with rdvDone := some epoch }
    { x with run := if joined then { r with siteFail := true, sureFail := true } else r })

/-- A release reaches this device (R199): late when the edge that opens E − 1 has passed. Its waiting sites take it, or are smothered; the
device may then report again. -/
def Dev.takeRelease (d : Dev) (r : Start) (x epoch : Nat) (fails : List Nat) : Dev :=
  let waiting := (d.participants r).filter (fun s => match d.rdvWait s with | some w => w.rdvId == x | none => false)
  let m := d.meet r.id
  let d := d.setMeet { m with sent := m.sent && waiting.isEmpty }
  if d.flue.known && epoch ≤ d.flue.epoch + 1 then
    let d := (d.bump R.FLU_LATE F.FLU_LATE_EVENTS).latch R.FLU_INT_STATUS F.FLU_INT_STATUS_LATE
    waiting.foldl (fun d s => d.rdvWithdraw s) d
  else waiting.foldl (fun d s => d.rdvRelease s epoch fails) d

/-- The manager, or a device alone, gathers a report; when every device has reported it computes and broadcasts the release (R198). -/
def Dev.gather (d : Dev) (r : Start) (rep : RdvReport) : Dev :=
  let m := d.meet r.id
  let reports := m.reports.filter (fun x => x.device != rep.device) ++ [rep]
  let d := d.setMeet { m with reports := reports }
  let devices := d.startDevices r
  if !(devices.all (fun v => reports.any (fun x => x.device == v))) then d
  else
    let present := reports.filter (fun x => !x.withdrawn)
    match listMin? (present.map (·.id)) with
    | none => d.dropMeet r.id
    | some x =>
      let epoch := (present.map (·.epoch)).foldl max 0 + d.getF R.HRT_SEQ_CFG F.HRT_SEQ_CFG_RDV_LEAD
      let fails := sortNats (present.flatMap (·.fails))
      let d := d.setMeet { (d.meet r.id) with reports := reports.filter (fun y => y.withdrawn || y.id != x) }
      let d := if r.multi then d.sendEvent r.ring epoch evRelease 0 x false r.hostSeq (maskBlocks (maskOf fails)) else d
      d.takeRelease r x epoch fails

/-- Report when the device is complete for a start and has not reported for this meeting, or when its last participant has withdrawn (R197, R342). -/
def Dev.rdvCheck (d : Dev) (id : Nat) : Dev :=
  match d.startById id with
  | none => d
  | some r =>
    let m := d.meet id
    let parts := d.participants r
    let starting := r.sites.any (fun s => (d.site s).st == .starting && (d.site s).start == id)
    let active := parts.filter (fun s => match (d.site s).run.wait with | some w => !(w.rdv && w.limitHit) | none => true)
    let waits := active.filterMap d.rdvWait
    if (if active.isEmpty then m.gone else m.sent) || starting || waits.length < active.length || !d.flue.known then d
    else if active.isEmpty && !r.multi then d.dropMeet id
    else
      let rep : RdvReport := { device := d.deviceNum, withdrawn := active.isEmpty, id := (listMin? (waits.map (·.rdvId))).getD 0
                               epoch := if active.isEmpty then d.epochNow else (waits.map (·.epoch)).foldl max 0
                               fails := (active.filter (fun s => d.isMulti s && d.failLatched s)) }
      let d := d.setMeet { m with sent := true, gone := active.isEmpty }
      if d.isManager then d.gather r rep
      else if r.multi then
        d.sendPacket (eventPacket d.deviceNum 0 r.ring rep.epoch evReport 0 rep.id rep.withdrawn r.hostSeq (maskBlocks (maskOf rep.fails)))
      else d.gather r rep

/-! ### Groups and engines -/

/-- The group of a site with its key. -/
def Dev.groupOf (d : Dev) (s : Nat) : Option (Nat × Group) := d.seq.groups.find? (fun g => g.2.members.contains s)

/-- A key no group has. -/
def Dev.freshGroup (d : Dev) : Nat := (mapKeys d.seq.groups).foldl (fun m k => max m (k + 1)) 0

/-- The members' GROUP field follows the identity. -/
def Dev.nameGroup (d : Dev) (k : Nat) : Dev :=
  match d.group k with
  | none => d
  | some g => g.members.foldl (fun d s => d.modSite s (fun x => { x with group := g.identity })) d

/-- Pending groups of a hearth, the one that takes a freed engine first: earliest, then lowest identity (R181). -/
def Dev.pendingFirst (d : Dev) (h : Nat) : Option Nat :=
  let l := d.seq.groups.filter (fun g => !g.2.hasEngine && g.2.hearths.contains h)
  match l with
  | [] => none
  | g :: t => some (t.foldl (fun (b : Nat × Group) x =>
      if x.2.since < b.2.since ∨ (x.2.since = b.2.since ∧ x.2.identity < b.2.identity) then x else b) g).1

/-- An engine is freed and goes to the earliest pending group of its hearth (R181, R183): ENGINE_FREE. -/
def Dev.freeEngine (d : Dev) (e : Nat) : Dev :=
  match d.pendingFirst (e / 4) with
  | none => d.modEngine e (fun _ => Engine.free)
  | some k =>
    let d := d.modEngine e (fun _ => { group := some k, ring := [] })
    match d.group k with
    | some g => (d.setGroup k { g with hasEngine := true }).holdCause k
    | none => d

/-- A site leaves its group; the last running member frees the engines (R177, R183). -/
def Dev.leaveGroup (d : Dev) (s : Nat) : Dev :=
  match d.groupOf s with
  | none => d
  | some (k, g) =>
    let members := g.members.filter (· != s)
    if members.isEmpty then
      let es := d.enginesOf k
      es.foldl (fun d e => d.freeEngine e) (d.dropGroup k)
    else (d.setGroup k { g with members := members }).nameGroup k

/-! ### The end of a run -/

/-- A further smother reason: the lower code is reported and the other is logged (R35, NOTICE 5 of R521). -/
def Dev.addReason (d : Dev) (s reason : Nat) : Dev :=
  let x := d.site s
  if reason = 0 ∨ x.reasons.contains reason then d
  else
    let low := if x.reason = 0 then reason else min x.reason reason
    let other := if x.reason = 0 then 0 else max x.reason reason
    let d := d.modSite s (fun x => { x with reason := low, reasons := x.reasons ++ [reason] })
    if other = 0 then d else d.notice 5 s (2 ^ 16 * other)

/-- A FAIL event for a multi-device site that was smothered or doused here (R343, R345); a FAIL event causes none. A site that loses a
link tells its partners through every port that is still up (R333). -/
def Dev.sendFail (d : Dev) (s : Nat) : Dev :=
  match d.startOf s with
  | none => d
  | some r =>
    if !(d.isMulti s) then d
    else if (d.site s).reasons.contains 10 then
      let dst := fun p => if p ≠ 0 then destAll else if d.isManager then destController else 0
      ((List.range 4).filter d.portUp).foldl (fun (d : Dev) p =>
        d.enqueue p (eventPacket d.deviceNum (dst p) r.ring d.epochNow evFail s 0 false r.hostSeq [])) d
    else d.sendEvent r.ring d.epochNow evFail s 0 false r.hostSeq []

/-- Smother reasons that act at once (R35): 0x02 and 0x06. -/
def smotherAtOnce (reason : Nat) : Bool := reason == 2 || reason == 6

/-- What of a run's last vector is still to come when the run ends (R123): at a granule end its spilled events still occur; a run that ends at once
loses them. -/
def Dev.lastEvents (d : Dev) (s : Nat) (atOnce : Bool) : Dev :=
  let d := if atOnce then d.modSite s (fun x => { x with run := { x.run with siteFail := x.run.sureFail, pinFails := x.run.surePins } })
    else (d.site s).run.spill.foldl (fun (d : Dev) x => d.drive x.ch x.drv x.t) d
  (d.capFlush s atOnce).modSite s (fun x => { x with run := { x.run with spill := [] } })

/-- The last granule of which a run has issued a vector (HRT_SITE_PCj). -/
def SiteRun.lastPc (r : SiteRun) : Nat := if r.vec = 0 then r.prevGran.getD r.flow.pc else r.flow.pc

/-- The run of a site ends at this instant with an end cause (R26, R35, R193–R195): pins to the pin safe state, capture closed, engine
freed, partners told. `reason` is 0 for HALT, stack fault and douse; `fromFail` when a FAIL event is the cause. -/
def Dev.endSite (d : Dev) (s : Nat) (cause : EndCause) (reason : Nat) (fromFail : Bool := false) : Dev :=
  let x := d.site s
  if x.st ≠ .starting ∧ x.st ≠ .running then d
  else
    let d := d.endWait s 1
    let d := if x.st = .running then d.lastEvents s (cause == .douse || (cause == .smother && smotherAtOnce reason)) else d
    let d := if cause = .smother ∨ cause = .stop then x.run.smother.foldl (fun d r => d.addReason s r) d else d
    let d := d.addReason s reason
    let bad := cause = .stop ∨ cause = .smother ∨ cause = .douse
    let h := homeHearth s
    let started := x.st == .running
    let d := d.modSite s (fun x => { x with st := .stopping, endCause := cause, invalid := x.invalid || bad
                                            lastPc := if started then x.run.lastPc else x.lastPc
                                            seconds := d.time.secs, ns := d.time.ns })
    let d := if started then d else d.capBegin s
    let d := if cause = .stackFault then d.latch (R.HRT_INT_STATUS h) F.HRT_INT_STATUS_STACK_FAULT else d
    let d := if cause = .stop ∨ cause = .smother then d.latch (R.HRT_INT_STATUS h) F.HRT_INT_STATUS_SMOTHER else d
    let chs := match d.binding s with | some b => b.channels | none => []
    let d := (d.pinsSafe chs).ddsStop s
    let d := d.tmuStop s
    let d := d.capFinish s
    let d := d.leaveGroup s
    let d := if bad ∧ !fromFail then d.sendFail s else d
    d.rdvCheck x.start

/-- A condition of R32 or R33 fails for a site (R35): at once in STARTING and for reasons 0x02 and 0x06, else at the end of the granule in
progress. -/
def Dev.smother (d : Dev) (s reason : Nat) (fromFail : Bool := false) : Dev :=
  let x := d.site s
  if x.st = .starting ∨ (x.st = .running ∧ smotherAtOnce reason = true) then d.endSite s .smother reason fromFail
  else if x.st = .running then d.modSite s (fun x => { x with run := { x.run with smother := insertNat reason x.run.smother } })
  else d

/-- Two conditions fail for a site at one instant (R35): both are logged and the lower code is reported. `reason` acts, `also` joins it. -/
def Dev.smotherBoth (d : Dev) (s reason also : Nat) : Dev :=
  (d.modSite s (fun x => { x with run := { x.run with smother := insertNat also x.run.smother } })).smother s reason

/-- Smother every site of a list. -/
def Dev.smotherAll (d : Dev) (l : List Nat) (reason : Nat) : Dev := l.foldl (fun d s => d.smother s reason) d

/-- Sites in STARTING or RUNNING. -/
def Dev.activeSites (d : Dev) : List Nat :=
  (d.seq.sites.filter (fun p => p.2.st == .starting || p.2.st == .running)).map (·.1)

/-- Sites in RUNNING. -/
def Dev.runningSites (d : Dev) : List Nat := (d.seq.sites.filter (fun p => p.2.st == .running)).map (·.1)

end Sys2Proof.Machine
end

