-- ==== Sys2Proof/Machine/Ppmu.lean ====
section
/-! DEFINITION. The PPMU: static force, measurement plans, their steps (spec/03 R88, R90–R97), and grate power as these need it
(R98, R99). -/

namespace Sys2Proof.Machine

/-- Grate policies (R99, R101); 0b11 acts as AUTO. -/
def polOn : Nat := 1
def polOff : Nat := 2

def Dev.policy (d : Dev) (g : Nat) : Nat := d.getF (R.HRT_GRT_PWR g) F.HRT_GRT_PWR_POLICY

/-- A grate wakes (R98, R99): from OFF to WAKING, in Glow and Blaze, unless its policy is OFF. -/
def Dev.wakeGrate (d : Dev) (g : Nat) : Dev :=
  if d.running && (d.grate g).dom = .off && d.policy g ≠ polOff then d.modGrate g (fun x => { x with dom := .waking }) else d

/-- The live static PPMU pin of a grate (R92). -/
def Dev.staticPin (d : Dev) (g : Nat) : Option StaticPpmu := (d.liveLevel g).ppmu

/-- The step that executes on a grate: the first step of the first begun plan (R94, R95). -/
def Dev.stepOn (d : Dev) (g : Nat) : Option (PpmuPlan × PpmuStep) :=
  (d.rings.plans.filter (·.started)).findSome? (fun p => (p.steps.find? (fun s => chGrate s.ch == g)).map (fun s => (p, s)))

/-- Whether a step of a begun plan is still to end on a grate (R96). -/
def Dev.stepBusy (d : Dev) (g : Nat) : Bool := (d.stepOn g).isSome

/-- The channel, mode and range the PPMU of a grate connects now: the step's while the grate is ON, else the static pin's. -/
def Dev.ppmuNow (d : Dev) (g : Nat) : Option (Nat × Nat × Nat) :=
  if (d.grate g).dom ≠ .on ∨ d.board.douseLow = true then none
  else match d.stepOn g with
    | some (_, s) => if s.mode = 0 then none else some (s.ch, s.mode, s.range)
    | none => match d.staticPin g with
      | some p => if (d.grate g).forceOff then none else some (8 * g + p.pin, p.mode, p.range)
      | none => none

/-- Hearths that a plan touches. -/
def PpmuPlan.hearths (p : PpmuPlan) : List Nat := sortNats (p.steps.map (fun s => chHearth s.ch))

/-- Plans that wait begin once their hearths are at their run boundary (R16, R96); their grates wake (R95, R99). -/
def Dev.ppmuKick (d : Dev) : Dev :=
  let ready (p : PpmuPlan) : Bool := !p.started && !(p.hearths.any d.noBoundary)
  let begun := d.rings.plans.filter ready
  let d := { d with rings := { d.rings with plans := d.rings.plans.map (fun p => if ready p then { p with started := true } else p) } }
  begun.foldl (fun d p => (sortNats (p.steps.map (fun s => chGrate s.ch))).foldl (fun d g => d.wakeGrate g) d) d

/-- A result entry (R93). -/
def ppmuResult (code flags n ch : Nat) : List Byte := bytesOf 2 code ++ bytesOf 1 flags ++ bytesOf 1 0 ++ bytesOf 2 n ++ bytesOf 2 ch

/-- Bytes written to the memory of a ring's owner (R353, R380): the host region, or WRITE packets to device 0 of up to 64 bytes that
do not cross a 64-byte boundary. -/
def Dev.ownerWrite (d : Dev) (ring : Nat) (a : Nat) (bs : List Byte) : Dev :=
  if d.flag (R.RING_CTRL ring) F.RING_CTRL_REMOTE then
    let blocks := (List.range (ceilDiv bs.length 8)).map (fun i => fieldAt bs (8 * i) 8)
    d.sendPacket { type := ptWrite, dest := 0, src := d.deviceNum, tag := 0, be := 0xFF, arg := 0, addr := a, payload := blocks }
  else d.write a bs

/-- A plan whose steps have all written their results completes (R97). -/
def Dev.ppmuFinish (d : Dev) : Dev :=
  let done := d.rings.plans.filter (fun p => p.steps.isEmpty)
  let d := { d with rings := { d.rings with plans := d.rings.plans.filter (fun p => !p.steps.isEmpty) } }
  done.foldl (fun d p =>
    (d.post p.ring { hostSeq := p.hostSeq, opcode := 9, status := if p.doused then stDoused else stOk, flags := 8 * bit p.irq
                     arg0 := p.executed + 2 ^ 16 * p.skipped, arg1 := 0, counted := true }).endCurrent p.ring) d

/-- A step of a plan ends: its result entry is written and the step leaves the plan. -/
def Dev.ppmuEndStep (d : Dev) (p : PpmuPlan) (s : PpmuStep) (code flags : Nat) : Dev :=
  let d := d.ownerWrite p.ring (p.result + 8 * s.n) (ppmuResult code flags s.n s.ch)
  let skip := tbit flags 3
  let upd := fun (q : PpmuPlan) =>
    if q.ring = p.ring ∧ q.hostSeq = p.hostSeq then
      { q with steps := q.steps.filter (fun x => x.n != s.n), executed := q.executed + bit (!skip), skipped := q.skipped + bit skip
               doused := q.doused || tbit flags 2 }
    else q
  { d with rings := { d.rings with plans := d.rings.plans.map upd } }

/-- The corrected reading of a step and whether it saturated (R91, R483). -/
def Dev.ppmuReading (d : Dev) (g : Nat) (s : PpmuStep) (total : Int) : Nat × Bool :=
  let raw := roundHalfAway total (2 ^ s.samplesLog2)
  if s.mode = 1 then
    let v := calCorrect raw (d.calGrate g (20 + 4 * s.range)) (d.calGrate g (22 + 4 * s.range))
    if v > 32767 then (32767, true) else if v < -32767 then (unsgn (-32767) 16, true) else (unsgn v 16, false)
  else
    let v := calCorrect raw (d.calGrate g 16) (d.calGrate g 18)
    if v > 65535 then (65535, true) else if v < 0 then (0, true) else (v.toNat, false)

/-- PPMU_STEP_DONE: the step on grate `g` ends its settling and sampling (R95). `total` is the sum of its 2^SAMPLES_LOG2 raw readings,
`limit` whether the PPMU reached a limit (R91). Mode 0 measures nothing: its code is a free value. -/
def Dev.ppmuStepDone (d : Dev) (g : Nat) (total : Int) (limit : Bool) : Dev :=
  match d.stepOn g with
  | none => d
  | some (p, s) =>
    if (d.grate g).dom ≠ .on then d
    else
      let (free, d) := d.drawNat
      if d.board.douseLow then ((d.ppmuEndStep p s (free % 65536) 4).ppmuFinish).ppmuKick
      else
        let clamp := limit && (s.mode == 1 || s.mode == 2)
        let (code, beyond) := if s.mode = 0 then (free % 65536, false) else d.ppmuReading g s total
        let flags := bit clamp + 2 * bit beyond
        let d := d.ppmuEndStep p s code flags
        let d := d.setReg (R.HRT_GRT_PPMU_LAST g) (BitVec.ofNat 32 (code + 2 ^ 16 * bit clamp + 2 ^ 17 * bit beyond))
        let d := if clamp then d.latch (R.HRT_GRT_STATUS g) F.HRT_GRT_STATUS_PPMU_CLAMP else d
        let d := match (if s.draught then d.siteOfChannel s.ch else none) with
          | some site => d.offer site srcPpmu (ppmuResult code flags s.n s.ch)
          | none => d
        (d.ppmuFinish).ppmuKick

/-- A douse opens the switches of a grate (R92, R97): the executing step ends DOUSED, later steps of that plan on the grate end
SKIPPED; a static pin in the scope loses its force. The codes of such entries are free values. -/
def Dev.ppmuDouse (d : Dev) (g : Nat) (scope : Nat) : Dev :=
  let d := match d.staticPin g with
    | some p => if tbit scope (8 * g + p.pin) then d.modGrate g (fun x => { x with forceOff := true }) else d
    | none => d
  match d.stepOn g with
  | none => d
  | some (p, s) =>
    let (f, d) := d.drawNat
    let d := d.ppmuEndStep p s (f % 65536) 4
    let rest := p.steps.filter (fun x => chGrate x.ch == g && x.n != s.n)
    (rest.foldl (fun d x => let (f, d) := d.drawNat; d.ppmuEndStep p x (f % 65536) 8) d).ppmuFinish

end Sys2Proof.Machine
end

