-- ==== Sys2Proof/Machine/Faults.lean ====
section
/-! DEFINITION. The fault word and its reactions (spec/18 R464–R466), douses (R467–R473), and the supply operations that a douse
needs (spec/17 R457, R458, R460). -/

namespace Sys2Proof.Machine

/-! ### DUT supplies -/

/-- A step of a supply table (R458): delay (100 µs), timeout (ms), action, reserved bit, supply. -/
structure SupStep where
  delay : Nat
  timeoutMs : Nat
  action : Nat
  resv : Bool
  supply : Nat
  deriving DecidableEq, Repr

def parseSupStep (w : Word) : SupStep :=
  ⟨getBits w ⟨18, 14⟩, getBits w ⟨8, 10⟩, getBits w ⟨6, 2⟩, getBits w ⟨5, 1⟩ != 0, getBits w ⟨0, 5⟩⟩

/-- The steps of a table up to its END (R458). -/
def Dev.supTable (d : Dev) (up : Bool) : List SupStep :=
  ((List.range 16).map (fun k => parseSupStep (d.reg (if up then R.PWR_SEQ_UP k else R.PWR_SEQ_DOWN k)))).takeWhile (fun s => s.action != 0)

/-- A table that holds another action or a reserved bit set (R458). The bits of an END step other than ACTION and the reserved bit are
not judged. -/
def Dev.supTableBad (d : Dev) (up : Bool) : Bool :=
  let all := (List.range 16).map (fun k => parseSupStep (d.reg (if up then R.PWR_SEQ_UP k else R.PWR_SEQ_DOWN k)))
  let n := (d.supTable up).length
  (all.take (n + 1)).any (fun s => s.resv || (s.action != 0 && s.action != (if up then 1 else 2)))

/-- SUP_EN[n]. -/
def Dev.supOn (d : Dev) (n : Nat) : Bool := d.bitOf R.PWR_SUP_EN n

/-- HEARTHS of supply n. -/
def Dev.supHearths (d : Dev) (n : Nat) : Nat := d.getF (R.PWR_SUP_CFG n) F.PWR_SUP_CFG_HEARTHS

/-- OPERATION to the regulator of supply n, when it has one (R457, R458). -/
def Dev.supOperation (d : Dev) (n v : Nat) : Dev :=
  if d.flag (R.PWR_SUP_CFG n) F.PWR_SUP_CFG_USE_PMBUS then
    d.out (.pmbus 1 (d.getF (R.PWR_SUP_CFG n) F.PWR_SUP_CFG_ADDR) (d.getF (R.PWR_SUP_CFG n) F.PWR_SUP_CFG_PAGE) 1 v)
  else d

/-- A DISABLE step: SUP_EN[n] falls, then OPERATION 0x00 (R458). -/
def Dev.supDisable (d : Dev) (n : Nat) : Dev := (d.setBit R.PWR_SUP_EN n false).supOperation n 0x00

/-- An ENABLE step: OPERATION 0x80, then SUP_EN[n] rises (R458). -/
def Dev.supEnable (d : Dev) (n : Nat) : Dev := (d.supOperation n 0x80).setBit R.PWR_SUP_EN n true

/-- A sequence ends (R459): OUTCOME, STEP, SEQ_DONE. -/
def Dev.supSeqEnd (d : Dev) (outcome step : Nat) : Dev :=
  let d := { d with power := { d.power with seq := none } }
  let d := (d.setF R.PWR_SUP_CTRL F.PWR_SUP_CTRL_BUSY 0).setF R.PWR_SUP_CTRL F.PWR_SUP_CTRL_OUTCOME outcome
  (d.setF R.PWR_SUP_CTRL F.PWR_SUP_CTRL_STEP step).latch R.PWR_INT_STATUS F.PWR_INT_STATUS_SEQ_DONE

/-- The order in which a set of supplies goes down (R459, R460): the down table's, then the rest ascending; ascending alone when the
table is bad. -/
def Dev.downOrder (d : Dev) (set : List Nat) : List Nat :=
  let walk := if d.supTableBad false then [] else ((d.supTable false).map (·.supply)).filter (fun n => set.contains n)
  let walk := walk.eraseDups
  walk ++ (sortNats set).filter (fun n => !(walk.contains n))

/-! ### Douse scope (R467) -/

/-- The 64 channels of a hearth as a mask. -/
def hearthMask (h : Nat) : Nat := (2 ^ 64 - 1) * 2 ^ (64 * h)

/-- The channels of a mask of hearths. -/
def hearthsMask (hs : Nat) : Nat := (bitList hs 16).foldl (fun m h => m ||| hearthMask h) 0

/-- All 1,024 channels. -/
def allChannels : Nat := 2 ^ 1024 - 1

/-- The hearths that hold a channel of a scope, as a mask. -/
def scopeHearths (scope : Nat) : Nat := maskOf ((List.range 16).filter (fun h => scope &&& hearthMask h != 0))

/-- Supplies that a scope reaches (R457). -/
def Dev.supReached (d : Dev) (scope : Nat) : List Nat :=
  (List.range 32).filter (fun n => d.supHearths n &&& scopeHearths scope != 0)

/-- One round of closing a scope over live bindings and supplies. -/
def Dev.scopeRound (d : Dev) (scope : Nat) : Nat :=
  let m := d.seq.live.binds.foldl (fun m b => let c := maskOf b.2.channels; if m &&& c != 0 then m ||| c else m) scope
  (d.supReached m).foldl (fun m n => m ||| hearthsMask (d.supHearths n)) m

/-- The closed scope: rounds until neither step adds a channel. -/
def Dev.scopeClose (d : Dev) (scope : Nat) : Nat → Nat
  | 0 => scope
  | fuel + 1 => let m := d.scopeRound scope; if m = scope then m else d.scopeClose m fuel

/-- A closed scope; each round that goes on adds a channel, so 1,024 rounds suffice. -/
def Dev.closed (d : Dev) (scope : Nat) : Nat := if scope = 0 then 0 else d.scopeClose scope 1024

/-! ### Douse -/

/-- Cause bits (R473). -/
def dcFault : Nat := 1
def dcPin : Nat := 2
def dcRegister : Nat := 4
def dcLeloisk : Nat := 8
def dcReset : Nat := 16

/-- The audit log's buffer has no power: in BANKED, and on the way up from it or from power-on until the tail is taken over (R523). -/
def Dev.logDark (d : Dev) : Bool :=
  d.banked || (d.getF R.EMB_PSTATE F.EMB_PSTATE_STATE == devAscending && d.power.ascent != some devSmoulder)

/-- Append a douse event to the ember tail of 16 entries, from where it enters the audit log while the log's buffer is powered (R470,
R523). -/
def Dev.douseEntry (d : Dev) (cause scope bit_ : Nat) : Dev :=
  if d.logDark then
    let e := auditEntry d.time.secs d.time.ns 0 0x08 (scopeHearths scope) [] (cause + 2 ^ 8 * bit_) []
    { d with audit := { d.audit with tail := (d.audit.tail ++ [e]).take 16 } }
  else d.log 0 0x08 (scopeHearths scope) [] (cause + 2 ^ 8 * bit_)

/-- STEP and ACTIVE of FLT_DOUSE_STATUS follow the douses (R479). -/
def Dev.douseView (d : Dev) : Dev :=
  let step := if d.faults.douses.any (fun x => x.step == .supply) then 1 else if d.faults.douses.isEmpty then 0 else 2
  (d.setF R.FLT_DOUSE_STATUS F.FLT_DOUSE_STATUS_STEP step).setF R.FLT_DOUSE_STATUS F.FLT_DOUSE_STATUS_ACTIVE (bit !d.faults.douses.isEmpty)

/-- A further cause of a douse that already runs (R61, R471). -/
def Dev.joinCause (d : Dev) (cause : Nat) : Dev :=
  d.setF R.FLT_DOUSE_STATUS F.FLT_DOUSE_STATUS_CAUSE (d.getF R.FLT_DOUSE_STATUS F.FLT_DOUSE_STATUS_CAUSE ||| cause)

/-- What a douse stops at once over a closed scope (R469 steps 1 and 1a): runs, drivers, PPMU steps, calibration procedures. -/
def Dev.douseHalt (d : Dev) (scope : Nat) : Dev :=
  let chs := bitList scope 1024
  let hit := d.activeSites.filter (fun s => match d.binding s with | some b => b.channels.any (fun c => tbit scope c) | none => false)
  let d := hit.foldl (fun d s => d.endSite s .douse 0) d
  let d := d.pinsSafe chs
  let d := (sortNats (chs.map chGrate)).foldl (fun d g => d.ppmuDouse g scope) d
  (bitList (scopeHearths scope) 16).foldl (fun d h => d.calEnd h (some (5, 0))) d

/-- A running supply sequence ends DOUSED when the scope reaches a supply (R459). -/
def Dev.douseSeq (d : Dev) (scope : Nat) : Dev :=
  match d.power.seq with
  | some q => if (d.supReached scope).isEmpty then d else d.supSeqEnd 4 q.step
  | none => d

/-- A douse asserts over a source scope (R467–R471): steps 1 and 1a, the tail entry, the ledger. In BANKED only the tail entry is
made. -/
def Dev.douse (d : Dev) (cause source : Nat) (faultBit : Nat := 0xFF) (resetAfter : Bool := false) : Dev :=
  let scope := d.closed source
  if d.banked then d.douseEntry cause scope faultBit
  else
    let d := (d.douseHalt scope).douseSeq scope
    let step := if (d.supReached scope).isEmpty then DouseStep.relay else DouseStep.supply
    let d := (d.douseEntry cause scope faultBit).count 2
    let d := { d with faults := { d.faults with douses := d.faults.douses ++ [Douse.mk cause scope step resetAfter] } }
    let d := d.setF R.FLT_DOUSE_STATUS F.FLT_DOUSE_STATUS_CAUSE cause
    (d.setF R.FLT_DOUSE_STATUS F.FLT_DOUSE_STATUS_HEARTHS (scopeHearths scope)).douseView

/-- The supply step (R460, R469): the enabled supplies that the douses reach go down; `pmbFail` lists those whose PMB1 transaction fails,
which are counted and otherwise ignored. Each douse then waits for its relay step. -/
def Dev.douseSupplyStep (d : Dev) (pmbFail : List Nat) : Dev :=
  let inStep := d.faults.douses.filter (fun x => x.step == .supply)
  if inStep.isEmpty then d
  else
    let set := (inStep.flatMap (fun x => d.supReached x.scope)).filter d.supOn
    let order := d.downOrder set
    let d := d.setF R.FLT_DOUSE_STATUS F.FLT_DOUSE_STATUS_PMB_ERR 0
    let d := order.foldl (fun (d : Dev) n =>
      let d := d.supDisable n
      if pmbFail.contains n && d.flag (R.PWR_SUP_CFG n) F.PWR_SUP_CFG_USE_PMBUS then d.bump R.FLT_DOUSE_STATUS F.FLT_DOUSE_STATUS_PMB_ERR
      else d) d
    let waiting := d.faults.douses.map (fun (x : Douse) => { x with step := DouseStep.relay })
    ({ d with faults := { d.faults with douses := waiting } }).douseView

/-- Relay drives of a scope are released (R83, R84): a spare drive only when its whole hearth lies in the scope. -/
def Dev.releaseRelays (d : Dev) (scope : Nat) : Dev :=
  let gs := (mapKeys d.seq.grates).filter (fun g => scope / 2 ^ (8 * g) % 256 != 0)
  let d := gs.foldl (fun d g => d.modGrate g (fun x => { x with relay := false })) d
  let hs := (mapKeys d.seq.hearths).filter (fun h => scope &&& hearthMask h == hearthMask h)
  hs.foldl (fun d h => d.modHearth h (fun x => { x with spare := false })) d

/-- The relay step of the douse that has waited longest (R469, R471); a reset that follows it falls due once no other douse that it follows is
left (R60, log entry 70). The live RELAY bits read 0 afterwards (R83). -/
def Dev.douseRelayStep (d : Dev) : Dev :=
  match d.faults.douses.find? (fun x => x.step == .relay) with
  | none => d
  | some x =>
    let d := d.releaseRelays x.scope
    let d := { d with faults := { d.faults with douses := d.faults.douses.erase x } }
    let d := if x.resetAfter && !(d.faults.douses.any (·.resetAfter)) then { d with board := { d.board with resetDue := true } } else d
    d.douseView

/-! ### The fault word -/

/-- FAULT_WORD (R464). -/
def Dev.faultWord (d : Dev) : Nat := (d.reg R.FLT_WORD_LO).toNat + 2 ^ 32 * (d.reg R.FLT_WORD_HI).toNat

/-- Fault bits that R464 defines. -/
def faultBits : Nat := 22

/-- CLASS and REACT of a fault bit as FLT_CFGk holds them: those of its next assertion (R465). -/
def Dev.cfgClass (d : Dev) (b : Nat) : Nat := d.getF (R.FLT_CFG (b / 8)) ⟨4 * (b % 8), 2⟩
def Dev.cfgReact (d : Dev) (b : Nat) : Nat := d.getF (R.FLT_CFG (b / 8)) ⟨4 * (b % 8) + 2, 2⟩

/-- Class and reaction in force for a fault bit (R465): while it is set those of its assertion, else those of FLT_CFGk. -/
def Dev.faultClass (d : Dev) (b : Nat) : Nat :=
  if d.bitOf R.FLT_WORD_LO b then (mapGet d.faults.held b (d.cfgClass b, d.cfgReact b)).1 else d.cfgClass b
def Dev.faultReact (d : Dev) (b : Nat) : Nat :=
  if d.bitOf R.FLT_WORD_LO b then (mapGet d.faults.held b (d.cfgClass b, d.cfgReact b)).2 else d.cfgReact b

/-- Whether a write of FLT_CFGk breaks R465. -/
def Dev.faultCfgBad (d : Dev) (k : Nat) (w : Word) : Bool :=
  (List.range 8).any (fun j =>
    let b := 8 * k + j
    let c := getBits w ⟨4 * j, 2⟩
    let r := getBits w ⟨4 * j + 2, 2⟩
    b < faultBits && ((b ≤ 5 && c != d.cfgClass b) || c == 3 || (c == 2 && r ≤ 1)))

/-- FLT_CFG offsets. -/
def fltCfgOf (off : Nat) : Option Nat := if R.FLT_CFG 0 ≤ off ∧ off ≤ R.FLT_CFG 7 then some ((off - R.FLT_CFG 0) / 4) else none

/-- Reserved fault bits have no class (R479). -/
def faultNorm (off : Nat) (w : Word) : Word :=
  match fltCfgOf off with
  | some k => if k ≥ 3 then 0 else if k = 2 then BitVec.ofNat 32 (w.toNat % 2 ^ 24) else w
  | none => w

/-- The source scope of a fault bit with its unit (R467); none when its unit is no grate, hearth or supply. -/
def Dev.unitScope (d : Dev) (b unit : Nat) : Option Nat :=
  if b = 0 then some (255 * 2 ^ (8 * (unit % 128)))
  else if b = 1 ∨ b = 3 ∨ b = 10 then some (hearthMask (unit % 16))
  else if b = 2 then some (hearthsMask (d.supHearths (unit % 32)))
  else none

/-- The hearth that holds a faulting unit. -/
def unitHearth (b unit : Nat) : Option Nat :=
  if b = 0 then some (unit / 8) else if b = 1 ∨ b = 3 ∨ b = 10 then some unit else none

/-- A bit is latched with its unit, class and reaction, and noted when it is the first (R464, R465). -/
def Dev.latchFault (d : Dev) (b unit : Nat) : Dev :=
  let d := d.setBit R.FLT_WORD_LO b true
  let d := { d with faults := { d.faults with units := mapSet d.faults.units b unit, held := mapSet d.faults.held b (d.cfgClass b, d.cfgReact b) } }
  if d.flag R.FLT_FIRST F.FLT_FIRST_VALID then d else d.setReg R.FLT_FIRST (BitVec.ofNat 32 (2 ^ 31 + 2 ^ 24 * b + unit % 2 ^ 16))

/-- The safety class smothers the sites in STARTING or RUNNING whose home hearth holds the unit (R32, R465, R468). -/
def Dev.faultSmother (d : Dev) (b unit : Nat) : Dev :=
  if d.faultClass b = 2 then
    match unitHearth b unit with
    | some h => d.smotherAll (d.activeSites.filter (fun s => homeHearth s == h)) 3
    | none => d
  else d

/-- A line asserts (R464, R465, R468). A bit that is set already douses no more, but the unit's sites are smothered as for its first assertion:
R32 watches condition (c) throughout a run. -/
def Dev.raise (d : Dev) (b unit : Nat) : Dev :=
  if b ≥ faultBits then d
  else if d.bitOf R.FLT_WORD_LO b = true then d.faultSmother b unit
  else
    let d := d.latchFault b unit
    let d := if d.faultReact b = 2 then d.douse dcFault ((d.unitScope b unit).getD allChannels) b
      else if d.faultReact b = 3 then d.douse dcFault allChannels b
      else d
    d.faultSmother b unit

/-- A set safety-class bit whose closed scope holds a channel of a set (R472, FAULT_SET). -/
def Dev.faultSet (d : Dev) (chs : Nat) : Bool :=
  (bitList d.faultWord faultBits).any (fun b => d.faultClass b == 2 &&
    (d.closed (if d.faultReact b = 3 then allChannels else (d.unitScope b (mapGet d.faults.units b 0)).getD allChannels)) &&& chs != 0)

/-- FAULT_N is low (R466, R29, R62, R453). -/
def Dev.faultNLow (d : Dev) : Bool :=
  d.board.faultEmber || d.board.stopped || (bitList d.faultWord faultBits).any (fun b => d.faultClass b ≥ 1) || !d.faults.douses.isEmpty ||
  d.getF R.EMB_PSTATE F.EMB_PSTATE_ERR == 1

end Sys2Proof.Machine
end

