-- ==== Sys2Proof/Machine/Access.lean ====
section
/-! DEFINITION. Who may access what (spec/00 R7, R13, spec/01 R43, R44, R46, spec/16 R423, spec/20 R516–R518) and how an access is
refused. -/

namespace Sys2Proof.Machine

/-- First address of register space (R43). -/
def regBase : Nat := 0xF0000000000

/-- Size of register space (R43). -/
def regSize : Nat := 0x200000

/-- Kinds of R518. -/
def vkPermission : Nat := 0
def vkAlignment : Nat := 1
def vkUnmapped : Nat := 2
def vkRegion : Nat := 3
def vkRunLock : Nat := 4
def vkFixed : Nat := 5
def vkValue : Nat := 6

/-- Class of an identity (R516). -/
def idClass (id : Nat) : Nat :=
  if 1 ≤ id ∧ id ≤ 8 then 0
  else if 0x11 ≤ id ∧ id ≤ 0x18 then 1
  else if id = 0x20 then 2
  else if 0x40 ≤ id ∧ id ≤ 0x43 then 3
  else if id = 0x30 then 4
  else 5

/-- Core kernel identities (R13). -/
def isKernel (id : Nat) : Bool := 1 ≤ id && id ≤ 8

/-- Core kernel, supervisor or factory: the set that R450, R473 and R492 accept. -/
def isTrusted (id : Nat) : Bool := isKernel id || id == 0x20 || id == 0x7F

/-- Block number of a register offset (R516). -/
def blockOf (off : Nat) : Nat :=
  let w := off / 65536
  if w ≥ 16 then w else if w ≤ 8 then w else w - 1

/-- A refused access (R518): ACCESS fault with the origin as its unit, violation registers, count, audit. -/
def Dev.violation (d : Dev) (origin addr kind : Nat) : Dev :=
  let d := if d.flag R.AUD_VIOL_INFO F.AUD_VIOL_INFO_VALID then d
    else
      let d := d.setReg R.AUD_VIOL_ADDR_LO (BitVec.ofNat 32 addr)
      let d := d.setReg R.AUD_VIOL_ADDR_HI (BitVec.ofNat 32 (addr / 2 ^ 32 % 4096))
      let d := d.setF R.AUD_VIOL_INFO F.AUD_VIOL_INFO_KIND kind
      (d.setF R.AUD_VIOL_INFO F.AUD_VIOL_INFO_ORIGIN origin).latch R.AUD_VIOL_INFO F.AUD_VIOL_INFO_VALID
  let d := d.bump R.AUD_VIOL_INFO F.AUD_VIOL_INFO_COUNT
  (d.logViolation origin addr kind).raise 20 origin

/-- A refused access of a core: the same, with a bus error (R7, R518). -/
def Dev.refuse (d : Dev) (origin addr kind : Nat) : Dev := (d.violation origin addr kind).out (.busError origin addr)

/-- Whether AUD_PERM_REGb lets an origin access a block (R516). GLB is readable by every origin (R47). -/
def Dev.permReg (d : Dev) (origin off : Nat) (write : Bool) : Bool :=
  (off < 65536 && !write) || d.bitOf (R.AUD_PERM_REG (blockOf off)) (2 * idClass origin + bit write)

/-- Whether AUD_PERM_DESC lets an origin post a descriptor of a permission class (R516, R527). -/
def Dev.permDesc (d : Dev) (origin cls : Nat) : Bool := d.bitOf R.AUD_PERM_DESC (6 * cls + idClass origin)

/-- How an access to `n` bytes of memory is judged (R43, R44, R423): none lets it through. Register space is judged apart. -/
def Dev.memRefusal (d : Dev) (origin a n : Nat) (write : Bool) : Option Nat :=
  if a + n > d.capacity then some vkUnmapped
  else if a + n ≤ d.hostEnd then none
  else
    let c := idClass origin
    if write then some vkRegion
    else if c = 1 ∨ c = 4 then some vkRegion
    else none

end Sys2Proof.Machine
end

