-- ==== Sys2Proof/Machine/Rings.lean ====
section
/-! DEFINITION. The ring engine (spec/13 R352–R384): doorbells, consumption, descriptor checks, completions, state block, halts and
resynchronisation, remote pairs. -/

namespace Sys2Proof.Machine

/-- States of a ring pair (R374). -/
def rsDisabled : Nat := 0
def rsRunning : Nat := 1
def rsStopped : Nat := 2
def rsFault : Nat := 3
def rsDraining : Nat := 4

/-- ERR codes of RING_n_STATUS (R384). -/
def reSeqGap : Nat := 1
def reHalted : Nat := 2
def rePiInvalid : Nat := 3
def reFetchTimeout : Nat := 4
def reFetchDenied : Nat := 5
def reWriteDenied : Nat := 6

def Dev.ringState (d : Dev) (n : Nat) : Nat := d.getF (R.RING_STATUS n) F.RING_STATUS_STATE
def Dev.ringRemote (d : Dev) (n : Nat) : Bool := d.flag (R.RING_CTRL n) F.RING_CTRL_REMOTE
def Dev.ringOrigin (d : Dev) (n : Nat) : Nat := d.getF (R.RING_CTRL n) F.RING_CTRL_ORIGIN
def Dev.cmdLog2 (d : Dev) (n : Nat) : Nat := d.getF (R.RING_SIZE n) F.RING_SIZE_CMD_LOG2
def Dev.cmpLog2 (d : Dev) (n : Nat) : Nat := d.getF (R.RING_SIZE n) F.RING_SIZE_CMP_LOG2
def Dev.cmdBase (d : Dev) (n : Nat) : Nat := 4096 * (d.reg (R.RING_CMD_BASE n)).toNat
def Dev.cmpBase (d : Dev) (n : Nat) : Nat := 4096 * (d.reg (R.RING_CMP_BASE n)).toNat
def Dev.dbAddr (d : Dev) (n : Nat) : Nat :=
  (d.reg (R.RING_DB_LO n)).toNat / 64 * 64 + 2 ^ 32 * d.getF (R.RING_DB_HI n) ⟨0, 12⟩
def Dev.sbAddr (d : Dev) (n : Nat) : Nat :=
  (d.reg (R.RING_SB_LO n)).toNat / 256 * 256 + 2 ^ 32 * d.getF (R.RING_SB_HI n) ⟨0, 12⟩
def Dev.ringCi (d : Dev) (n : Nat) : Nat := (d.reg (R.RING_CI n)).toNat
def Dev.devSeq (d : Dev) (n : Nat) : Nat := (d.reg (R.RING_DEV_SEQ n)).toNat
def Dev.expect (d : Dev) (n : Nat) : Nat := (d.reg (R.RING_SEQ n)).toNat
def Dev.inProgress (d : Dev) (n : Nat) : Nat := d.getF (R.RING_STATUS n) F.RING_STATUS_IN_PROGRESS

/-- A difference of two free-running 32-bit counts. -/
def sub32 (a b : Nat) : Nat := (a + 2 ^ 32 - b % 2 ^ 32) % 2 ^ 32

/-! ### State block (R373) -/

/-- The 256 bytes of the block with a GEN. -/
def Dev.stateBlock (d : Dev) (n gen : Nat) : List Byte :=
  let r := d.ring n
  let nib := fun s => (d.site s).st.code
  bytesOf 4 gen ++ bytesOf 4 d.devEpoch ++ bytesOf 4 r.lastConsumed ++ bytesOf 4 (d.ringCi n) ++ bytesOf 4 (d.devSeq n) ++
  bytesOf 4 (d.expect n) ++ bytesOf 2 (d.inProgress n) ++ bytesOf 1 (d.ringState n) ++
  bytesOf 1 (d.getF (R.RING_STATUS n) F.RING_STATUS_ERR) ++ bytesOf 4 0 ++ bytesOf 6 d.time.secs ++ bytesOf 2 0 ++ bytesOf 4 d.time.ns ++
  bytesOf 20 0 ++ bytesOf 32 (maskOf r.owned) ++ bytesOf 32 0 ++ (List.range 128).flatMap (fun i => bytesOf 1 (nib (2 * i) + 16 * nib (2 * i + 1)))

/-- The five WRITEs of a remote pair (R380). -/
def Dev.remoteBlock (d : Dev) (n gen : Nat) : Dev :=
  let b := d.stateBlock n (gen + 1)
  let a := d.sbAddr n
  let d := (List.range 4).foldl (fun (d : Dev) i => d.ownerWrite n (a + 64 * i) (slice b (64 * i) 64)) d
  d.sendPacket { type := ptWrite, dest := 0, src := d.deviceNum, tag := 0, be := 0x0F, arg := 0, addr := a
                 payload := [(gen + 2) % 2 ^ 32 + 2 ^ 32 * d.devEpoch] }

/-- Whether nothing can be sent to the owner of a remote pair (R380, R383). -/
def Dev.ownerCut (d : Dev) (n : Nat) : Bool := d.ringRemote n && (match d.route 0 with | .none_ => true | _ => false)

/-- Write the state block: GEN advances by two (R373). -/
def Dev.writeBlock (d : Dev) (n : Nat) : Dev :=
  let gen := (d.ring n).gen
  let d := if d.ringRemote n then d.remoteBlock n gen else d.write (d.sbAddr n) (d.stateBlock n ((gen + 2) % 2 ^ 32))
  d.modRing n (fun r => { r with gen := (gen + 2) % 2 ^ 32 })

/-- A ring that stops consuming drops an open fetch and a slot fetched: each slot is read when it is consumed, and what still comes is late (R355,
R377). -/
def Dev.dropFetch (d : Dev) (n : Nat) : Dev :=
  ({ d with flue := { d.flue with reads := d.flue.reads.filter (fun x => x.2 != ReadFor.fetch n) } }).modRing n (fun r =>
    { r with fetching := false, slotBytes := none, fetchTries := 0 })

/-- Hold a state and ERR, with ERR_INT for STOPPED and FAULT and the collector's RING bit for FAULT (R374, R384, R464). -/
def Dev.ringState_ (d : Dev) (n st err : Nat) : Dev :=
  let d := (d.setF (R.RING_STATUS n) F.RING_STATUS_STATE st).setF (R.RING_STATUS n) F.RING_STATUS_ERR err
  let d := if st = rsStopped ∨ st = rsFault then d.latch (R.RING_STATUS n) F.RING_STATUS_ERR_INT else d
  if st = rsFault then d.raise 16 n else d

/-- Enter a state: ERR, the block (R373, R374). A remote pair whose block cannot be sent is in FAULT with WRITE_DENIED until the write is retried,
unless it is DISABLED or DRAINING (R383). -/
def Dev.ringEnter (d : Dev) (n st err : Nat) : Dev :=
  let d := if st = rsRunning then d else d.dropFetch n
  if d.ownerCut n then
    if st = rsDisabled then d.ringState_ n st err
    else
      let d := (d.dropFetch n).modRing n (fun r => { r with blockDue := true, faultErr := reWriteDenied })
      if st = rsDraining then d.ringState_ n st err else d.ringState_ n rsFault reWriteDenied
  else (d.ringState_ n st err).writeBlock n

/-! ### Doorbell (R355, R356) -/

/-- Whether the counts are valid (R356). -/
def Dev.countsOk (d : Dev) (n : Nat) : Bool :=
  sub32 (d.ring n).cmdPi (d.ringCi n) ≤ 2 ^ d.cmdLog2 n && sub32 (d.devSeq n) (d.ring n).cmpCi ≤ 2 ^ d.cmpLog2 n

/-- The engine reads the doorbell line. -/
def Dev.readDoorbell (d : Dev) (n : Nat) : Dev :=
  let pi := d.readN (d.dbAddr n) 4
  let ci := d.readN (d.dbAddr n + 4) 4
  d.modRing n (fun r => { r with cmdPi := pi, cmpCi := ci })

/-- A write reaches the doorbell line of a ring: the line holds the counts and an enabled ring acts on them (R355, R356). A RUNNING
ring with an invalid count faults; in the other enabled states the counts are judged at RESUME. -/
def Dev.doorbell (d : Dev) (n pi ci : Nat) : Dev :=
  let d := if d.inHost (d.dbAddr n) 64 then d.write (d.dbAddr n) (bytesOf 4 pi ++ bytesOf 4 ci) else d
  if d.ringState n = rsDisabled then d
  else
    let d := d.modRing n (fun r => { r with cmdPi := pi % 2 ^ 32, cmpCi := ci % 2 ^ 32 })
    if d.ringState n = rsRunning ∧ d.countsOk n = false then d.ringEnter n rsFault rePiInvalid else d

/-- The rings whose doorbell line a write to memory touches act on their counts (R355). -/
def Dev.watchLines (d : Dev) (a n : Nat) : Dev :=
  (List.range 64).foldl (fun (d : Dev) i =>
    let l := d.dbAddr i
    if d.ringState i ≠ rsDisabled ∧ a < l + 8 ∧ l < a + n then d.doorbell i (d.readN l 4) (d.readN (l + 4) 4) else d) d

/-- Bytes of memory are written by an agent that rings watch. -/
def Dev.writeMem (d : Dev) (a : Nat) (bs : List Byte) : Dev := (d.write a bs).watchLines a bs.length

/-! ### Descriptor checks (R357–R359, R363) -/

def opNop : Nat := 0x00
def opImageLoad : Nat := 0x01
def opImageUnload : Nat := 0x02
def opTimingLoad : Nat := 0x03
def opLevelsLoad : Nat := 0x04
def opBindLoad : Nat := 0x05
def opCaptureLoad : Nat := 0x06
def opDdsLoad : Nat := 0x07
def opCalLoad : Nat := 0x08
def opPpmu : Nat := 0x09
def opCommit : Nat := 0x10
def opCalCommit : Nat := 0x11
def opStart : Nat := 0x12
def opStop : Nat := 0x13
def opFlueDma : Nat := 0x18

/-- Permission class of an opcode (R358, R527): 0 CONTROL, 1 LOAD, 2 CALIBRATION, 3 RUN, 4 DMA; none for an unknown opcode. -/
def opClass (op : Nat) : Option Nat :=
  if op = 0 then some 0
  else if (1 ≤ op ∧ op ≤ 7) ∨ op = 9 then some 1
  else if op = 8 ∨ op = 0x11 then some 2
  else if op = 0x10 ∨ op = 0x12 ∨ op = 0x13 then some 3
  else if op = 0x18 then some 4
  else none

/-- The body bytes an opcode uses, as (offset, size) (R359). -/
def opFields (op : Nat) : List (Nat × Nat) :=
  if op = 1 then [(16, 8), (24, 8)]
  else if op = 2 then [(16, 2)]
  else if op = 3 then [(16, 8), (24, 2), (26, 2)]
  else if op = 4 then [(16, 8), (24, 16)]
  else if op = 5 ∨ op = 6 ∨ op = 7 ∨ op = 8 then [(16, 8), (24, 8), (32, 2)]
  else if op = 9 then [(16, 8), (24, 2), (32, 8)]
  else if op = 0x10 then [(16, 2)]
  else if op = 0x11 then [(16, 8)]
  else if op = 0x12 then [(16, 32), (48, 8), (56, 8)]
  else if op = 0x13 then [(16, 32)]
  else if op = 0x18 then [(16, 8), (24, 8), (32, 4), (36, 1), (37, 1)]
  else []

/-- A field of a descriptor. -/
def Desc.get (q : Desc) (o n : Nat) : Nat := fieldAt q.bytes o n

/-- The numbers of the bits set in a mask of a descriptor. -/
def Desc.mask (q : Desc) (o n : Nat) : List Nat := bitList (q.get o n) (8 * n)

/-- A count, length or mask outside R359. -/
def bodyBad (q : Desc) : Bool :=
  let op := q.opcode
  if op = 3 then q.get 24 2 = 0 || q.get 24 2 > 1024 || q.get 26 2 = 0
  else if op = 5 ∨ op = 6 ∨ op = 7 then q.get 32 2 = 0 || q.get 32 2 > 256
  else if op = 9 then q.get 24 2 = 0 || q.get 24 2 > 256
  else if op = 0x10 then q.get 16 2 = 0
  else if op = 0x11 then q.get 16 8 = 0 || q.get 16 8 ≥ 2 ^ 19
  else if op = 0x12 ∨ op = 0x13 then q.get 16 32 = 0
  else if op = 0x18 then q.get 32 4 % 64 != 0 || q.get 32 4 = 0 || q.get 32 4 > 2 ^ 24 || q.get 36 1 > 120 || q.get 37 1 > 1
  else false

/-- DESC_FIELD of R363. -/
def descFieldBad (q : Desc) : Bool :=
  let op := q.opcode
  let used := (0, 2) :: (4, 4) :: opFields op
  (opClass op).isNone ||
  (List.range 64).any (fun i => !(used.any (fun f => f.1 ≤ i && i < f.1 + f.2)) && fieldAt q.bytes i 1 != 0) ||
  q.flags ≥ 8 || (tbit q.flags 1 && op != opStart) || (tbit q.flags 2 && op != opCalCommit) || bodyBad q

/-- The address areas of a descriptor, as (address, bytes, alignment) (R359). -/
def Desc.areas (q : Desc) (deviceNum : Nat) : List (Nat × Nat × Nat) :=
  let op := q.opcode
  if op = 1 ∨ op = 5 ∨ op = 6 ∨ op = 7 ∨ op = 8 then [(q.get 16 8, q.get 24 8, 1)]
  else if op = 3 then [(q.get 16 8, 2064 * q.get 24 2, 1)]
  else if op = 4 then [(q.get 16 8, 64 * (q.mask 24 16).length, 1)]
  else if op = 9 then [(q.get 16 8, 16 * q.get 24 2, 1), (q.get 32 8, 8 * q.get 24 2, 1)]
  else if op = 0x12 then [(q.get 56 8 + 4096 * deviceNum, 16 * ((q.mask 16 32).foldl max 0 + 1), 64)]
  else if op = 0x18 then [(q.get 16 8, q.get 32 4, 64), (q.get 24 8, 0, 64)]
  else []

/-- DESC_ADDRESS of R363, on a local ring. REMOTE of FLUE_DMA is checked for its alignment only. -/
def Dev.descAddressBad (d : Dev) (q : Desc) : Bool :=
  (q.areas d.deviceNum).any (fun x => x.1 % x.2.2 != 0 || !(d.inHost x.1 x.2.1) && x.2.1 != 0)

/-- The option rules of R36 and R492: UNADMITTED from identities 0x01–0x08 and 0x7F, FORCE from those and 0x20. -/
def optionDenied (q : Desc) : Bool :=
  (q.opcode == opStart && tbit q.flags 1 && !(isKernel q.origin || q.origin == 0x7F)) ||
  (q.opcode == opCalCommit && tbit q.flags 2 && !(isTrusted q.origin))

/-- How a descriptor fails steps 2 and 3 of R362: denied with a kind of R518, or refused with a check of R363. -/
inductive DescEnd where
  | denied (kind : Nat)
  | refused (check : Nat)
  deriving DecidableEq, Repr

/-- The permission, option and descriptor checks of a descriptor on a ring (R36, R362, R363, R492, R516); none when it passes. -/
def Dev.judgeDesc (d : Dev) (n : Nat) (q : Desc) : Option DescEnd :=
  if (match opClass q.opcode with | some c => !(d.permDesc q.origin c) | none => false) then some (.denied vkPermission)
  else if optionDenied q then some (.denied vkFixed)
  else if descFieldBad q then some (.refused 0x80)
  else if !(d.ringRemote n) && d.descAddressBad q then some (.refused 0x83)
  else none

/-- A slot is consumed (R365, R373): CI, EXPECT, IN_PROGRESS. -/
def Dev.takeSlot (d : Dev) (n : Nat) (q : Desc) : Dev :=
  let d := d.setReg (R.RING_CI n) (d.reg (R.RING_CI n) + 1)
  let d := d.setReg (R.RING_SEQ n) (d.reg (R.RING_SEQ n) + 1)
  let d := d.setF (R.RING_STATUS n) F.RING_STATUS_IN_PROGRESS (d.inProgress n + 1)
  d.modRing n (fun r => { r with lastConsumed := q.hostSeq, slotBytes := none, fetchTries := 0 })

/-- The checks of a slot whose bytes are at hand (R362–R366). -/
def Dev.consumeSlot (d : Dev) (n : Nat) (bs : List Byte) : Dev :=
  let slot := d.cmdBase n + 64 * (d.ringCi n % 2 ^ d.cmdLog2 n)
  let q : Desc := ⟨slice bs 0 64, d.ringOrigin n, slot⟩
  if q.hostSeq ≠ d.expect n then
    let d := d.post n { hostSeq := q.hostSeq, opcode := q.opcode, status := stSeqGap, flags := 8 * bit q.irq, arg0 := d.expect n, arg1 := 0
                        counted := false }
    let d := d.bump (R.RING_ERRORS n) F.RING_ERRORS_SEQ_GAPS
    (d.modRing n (fun r => { r with slotBytes := none })).ringEnter n rsStopped reSeqGap
  else
    let d := d.takeSlot n q
    match d.judgeDesc n q with
    | some (.denied kind) => (d.violation q.origin slot kind).complete n q stAccessDenied
    | some (.refused check) => d.complete n q stRefused (refuseArg check)
    | none =>
      if q.opcode = opStop then d.modRing n (fun r => { r with immediate := r.immediate ++ [q] })
      else d.modRing n (fun r => { r with waiting := r.waiting ++ [q] })

/-- A READ request to another device (R330, R337, R338): it takes a tag and waits for its response. Tag 0 is left to the responses of a
skew measurement (DESIGN CHOICE, log entry 40). -/
def Dev.issueRead (d : Dev) (dest a blocks be : Nat) (purpose : ReadFor) : Dev :=
  let tag := d.flue.nextTag
  let d := { d with flue := { d.flue with nextTag := tag % 1023 + 1, reads := d.flue.reads ++ [(tag, purpose)] } }
  d.sendPacket { type := ptRead, dest := dest, src := d.deviceNum, tag := tag, be := be, arg := blocks, addr := a, payload := [] }

/-- A ring faults over its fetch: nothing is consumed, and its open fetch is dropped (R376, R382). -/
def Dev.fetchFault (d : Dev) (n err : Nat) : Dev := d.ringEnter n rsFault err

/-- Issue the fetch of the next slot of a remote pair (R380). -/
def Dev.issueFetch (d : Dev) (n : Nat) : Dev :=
  let a := d.cmdBase n + 64 * (d.ringCi n % 2 ^ d.cmdLog2 n)
  match d.route 0 with
  | .none_ => d.fetchFault n reFetchDenied
  | _ => (d.modRing n (fun r => { r with fetching := true, fetchTries := r.fetchTries + 1 })).issueRead 0 a 8 0xFF (.fetch n)

/-- CONSUME_DESCRIPTOR: the next slot that CMD_PI covers, while the ring is RUNNING and fewer than 64 ordered descriptors
are consumed and short of their ordering point (R362). A
local slot on a poisoned line is a fetch refused (R425); a remote slot is fetched first (R380). -/
def Dev.consume (d : Dev) (n : Nat) : Dev :=
  let r := d.ring n
  if d.ringState n ≠ rsRunning ∨ r.cmdPi = d.ringCi n ∨ r.waiting.length + bit r.current.isSome ≥ 64 then d
  else if d.ringRemote n then
    match r.slotBytes with
    | some bs => d.consumeSlot n bs
    | none => if r.fetching then d else d.issueFetch n
  else
    let a := d.cmdBase n + 64 * (d.ringCi n % 2 ^ d.cmdLog2 n)
    if d.poisoned a 64 then d.fetchFault n reFetchDenied else d.consumeSlot n (d.read a 64)

/-- DESCRIPTOR_FETCH: a fetch completes or times out; three further attempts follow a time-out (R382). The read in flight of the ring
ends with it. -/
def Dev.fetchDone (d : Dev) (n : Nat) (e : FetchEnd) : Dev :=
  if !(d.ring n).fetching then d
  else
    let d := { d with flue := { d.flue with reads := d.flue.reads.filter (fun x => x.2 != ReadFor.fetch n) } }
    match e with
    | .arrived bs => d.modRing n (fun r => { r with fetching := false, fetchTries := 0, slotBytes := some (slice bs 0 64) })
    | .denied => d.fetchFault n reFetchDenied
    | .timeout =>
      let d := d.bump (R.RING_ERRORS n) F.RING_ERRORS_FETCH_TIMEOUTS
      if (d.ring n).fetchTries ≥ 4 then d.fetchFault n reFetchTimeout
      else d.issueFetch n

/-! ### Execution -/

/-- Opcodes whose descriptors the audit log does not record (R519). -/
def opUnlogged (op : Nat) : Bool := op == opNop || op == opPpmu || op == opFlueDma

/-- A descriptor's entry, logged when its execution begins (R521). -/
def Dev.logDesc (d : Dev) (n : Nat) (q : Desc) : Dev :=
  if opUnlogged q.opcode then d
  else d.log q.origin 0x02 (2 ^ 40 * q.opcode + 2 ^ 32 * n + q.hostSeq) q.bytes (q.get 16 4)

/-- The ordered descriptor that may begin on a ring: the first waiting, when none before it is short of its ordering point (R362), and it
has this opcode. -/
def Dev.nextDesc (d : Dev) (n op : Nat) : Option Desc :=
  match (d.ring n).current, (d.ring n).waiting with
  | none, q :: _ => if q.opcode = op then some q else none
  | _, _ => none

/-- Its execution begins: it leaves the waiting list and is logged; `keep` when it stays in progress. -/
def Dev.beginDesc (d : Dev) (n : Nat) (q : Desc) (keep : Bool := false) : Dev :=
  (d.modRing n (fun r => { r with waiting := r.waiting.tail, current := if keep then some q else none })).logDesc n q

/-- Bytes at an address of the memory of the ring's owner (R359): the host region, or what Flue READs of device 0 brought
(`remote`, log entry 1). -/
def Dev.ownerRead (d : Dev) (n a len : Nat) (remote : RemoteRead) : List Byte :=
  if d.ringRemote n then slice remote.bytes 0 len else d.read a len

/-- The READs of a remote pair's area did not all come back: the status that its descriptor completes with, as for a FLUE_DMA (R361; DEDUCED, log
entry 117). -/
def Dev.ownerFails (d : Dev) (n : Nat) (remote : RemoteRead) : Option Nat :=
  if !(d.ringRemote n) then none
  else match remote.stop with
    | .done => none
    | .denied => some stAccessDenied
    | .late => some stLate

/-- NOP completes OK (R358). -/
def Dev.execNop (d : Dev) (n : Nat) : Dev :=
  match d.nextDesc n opNop with
  | none => d
  | some q => (d.beginDesc n q).complete n q stOk

/-! ### Completions (R367, R370) -/

/-- The bytes of a completion. PHASE is 1 on the first pass after enable. -/
def Dev.completionBytes (d : Dev) (n : Nat) (c : Completion) : List Byte :=
  let seq := d.devSeq n
  let phase := bit (seq / 2 ^ d.cmpLog2 n % 2 == 0)
  bytesOf 4 c.hostSeq ++ bytesOf 4 seq ++ bytesOf 4 d.devEpoch ++ bytesOf 1 c.status ++ bytesOf 1 c.opcode ++ bytesOf 1 (c.flags + phase) ++
  bytesOf 1 0 ++ bytesOf 8 c.arg0 ++ bytesOf 8 c.arg1

/-- Write one completion to its slot. -/
def Dev.writeCompletion (d : Dev) (n : Nat) (c : Completion) : Dev :=
  let a := d.cmpBase n + 32 * (d.devSeq n % 2 ^ d.cmpLog2 n)
  let d := d.ownerWrite n a (d.completionBytes n c)
  let d := d.setReg (R.RING_DEV_SEQ n) (d.reg (R.RING_DEV_SEQ n) + 1)
  if c.counted then d.setF (R.RING_STATUS n) F.RING_STATUS_IN_PROGRESS (d.inProgress n - 1) else d

/-- The completions that the completion ring has room for (R370). -/
def Dev.batch (d : Dev) (n : Nat) : List Completion :=
  let used := sub32 (d.devSeq n) (d.ring n).cmpCi
  (d.ring n).held.take (2 ^ d.cmpLog2 n - used)

/-- A batch is written, then the state block, then the interrupt (R370). -/
def Dev.writeBatch (d : Dev) (n : Nat) : Dev :=
  let b := d.batch n
  if b.isEmpty then d
  else
    let d := d.modRing n (fun r => { r with held := r.held.drop b.length, faultErr := 0 })
    let d := b.foldl (fun d c => d.writeCompletion n c) d
    let d := d.writeBlock n
    if d.flag (R.RING_INT n) F.RING_INT_MODE || b.any (fun c => tbit c.flags 3) then d.latch (R.RING_STATUS n) F.RING_STATUS_CMP_INT else d

/-- A write of a remote pair is refused: FAULT with WRITE_DENIED until it succeeds (R383); a DRAINING pair stays DRAINING (R374, log entry 87). -/
def Dev.writeDenied (d : Dev) (n : Nat) : Dev :=
  let d := d.modRing n (fun r => { r with faultErr := reWriteDenied })
  d.ringEnter n (if d.ringState n = rsDraining then rsDraining else rsFault) reWriteDenied

/-- COMPLETION_WRITE. On a remote pair nothing can be sent while the upstream port is not up (R380); a write that is `refused` is retried (R383). -/
def Dev.completionWrite (d : Dev) (n : Nat) (refused : Bool) : Dev :=
  if d.ringState n = rsDisabled ∨ (d.batch n).isEmpty = true then d
  else if !(d.ringRemote n) then d.writeBatch n
  else if !(d.portUp 0) then d
  else if refused then d.writeDenied n
  else d.writeBatch n

/-- REMOTE_WRITE_RETRY: a refused write of a remote pair is tried again: a state block that is due, then what completions wait (R383). -/
def Dev.remoteRetry (d : Dev) (n : Nat) (refused : Bool) : Dev :=
  if !(d.ringRemote n) || (d.ring n).faultErr ≠ reWriteDenied || refused || d.ownerCut n then d
  else
    let d := if (d.ring n).blockDue then (d.modRing n (fun r => { r with blockDue := false, faultErr := 0 })).writeBlock n else d
    d.completionWrite n false

/-! ### FLUE_DMA from another device (R361) -/

/-- The transfer stops: the descriptor completes with the bytes moved. -/
def Dev.dmaEnd (d : Dev) (n status : Nat) : Dev :=
  match (d.ring n).current with
  | some q => (d.endCurrent n).complete n q status (d.ring n).dmaMoved
  | none => d

/-- The READ of the next 64 bytes leaves, or all have come. One READ is outstanding at a time (DESIGN CHOICE, log entry 56). -/
def Dev.dmaNext (d : Dev) (n : Nat) (q : Desc) : Dev :=
  let moved := (d.ring n).dmaMoved
  let dest := q.get 36 1
  if moved ≥ q.get 32 4 then d.dmaEnd n stOk
  else match d.route dest with
    | .port _ => d.issueRead dest (q.get 24 8 + moved) 8 0xFF (.dma n dest)
    | _ => d.dmaEnd n stAccessDenied

/-- A RESPONSE brings 64 bytes, which go to LOCAL in the memory of the ring's owner, or it stops the transfer. -/
def Dev.dmaTake (d : Dev) (n status : Nat) (bs : List Byte) : Dev :=
  match (d.ring n).current with
  | none => d
  | some q =>
    if status ≠ 0 then d.dmaEnd n stAccessDenied
    else
      let a := q.get 16 8 + (d.ring n).dmaMoved
      let d := if d.ringRemote n then d.ownerWrite n a (slice bs 0 64) else d.writeMem a (slice bs 0 64)
      (d.modRing n (fun r => { r with dmaMoved := r.dmaMoved + 64 })).dmaNext n q

/-! ### Ring registers (R374–R377, R384) -/

/-- Why a write of RING_n_CTRL is refused (R353, R374, R384, R529). -/
def Dev.ringCtrlBad (d : Dev) (n : Nat) (w : Word) : Bool :=
  if getBits w F.RING_CTRL_ENABLE = 0 then false
  else if d.ringState n = rsDraining then true
  else if d.ringState n ≠ rsDisabled then false
  else
    let sizes := 4 ≤ d.cmdLog2 n && d.cmdLog2 n ≤ 16 && 4 ≤ d.cmpLog2 n && d.cmpLog2 n ≤ 16
    let areas := d.inHost (d.cmdBase n) (64 * 2 ^ d.cmdLog2 n) && d.inHost (d.cmpBase n) (32 * 2 ^ d.cmpLog2 n) &&
      d.inHost (d.dbAddr n) 64 && d.inHost (d.sbAddr n) 256
    !(d.flag R.SEC_KINDLE F.SEC_KINDLE_READY) || !sizes || (!(d.ringRemote n) && !areas)

/-- Enable: counts to 0, the doorbell is read, the block is written (R356, R373, R374). -/
def Dev.ringEnable (d : Dev) (n : Nat) : Dev :=
  let d := d.modRing n (fun r => { RingSt.reset with owned := r.owned, events := r.events, lastConsumed := sub32 (d.expect n) 1 })
  let d := (d.setReg (R.RING_CI n) 0).setReg (R.RING_DEV_SEQ n) 0
  let d := d.setF (R.RING_STATUS n) F.RING_STATUS_IN_PROGRESS 0
  let d := (d.readDoorbell n).ringEnter n rsRunning 0
  if d.countsOk n then d else d.ringEnter n rsFault rePiInvalid

/-- A write of RING_n_CTRL acts: ENABLE, HALT, RESUME (R354, R374, R375, R377). -/
def Dev.ringCtrl (d : Dev) (origin n : Nat) (w : Word) : Dev :=
  let st := d.ringState n
  let en := getBits w F.RING_CTRL_ENABLE = 1
  let d := if en then d.setF (R.RING_CTRL n) F.RING_CTRL_ORIGIN (if d.ringRemote n then 0x40 + d.getF R.GLB_ROLE F.GLB_ROLE_UPSTREAM_PORT else origin)
    else d
  let d := if en ∧ st = rsDisabled then d.ringEnable n
    else if ¬en ∧ (st = rsRunning ∨ st = rsStopped ∨ st = rsFault) then d.ringEnter n rsDraining (d.getF (R.RING_STATUS n) F.RING_STATUS_ERR)
    else d
  let d := if getBits w F.RING_CTRL_HALT = 1 ∧ d.ringState n = rsRunning then d.ringEnter n rsStopped reHalted else d
  if getBits w F.RING_CTRL_RESUME = 1 ∧ (st = rsStopped ∨ st = rsFault) ∧ (d.ringState n = rsStopped ∨ d.ringState n = rsFault) then
    let d := (d.readDoorbell n).ringEnter n rsRunning 0
    if d.countsOk n then d else d.ringEnter n rsFault rePiInvalid
  else d

/-- RING_DRAINED: a DRAINING ring with nothing in progress and every completion written is DISABLED (R374). -/
def Dev.ringDrained (d : Dev) (n : Nat) : Dev :=
  let r := d.ring n
  if d.ringState n = rsDraining ∧ d.inProgress n = 0 ∧ r.held.isEmpty = true ∧ r.waiting.isEmpty = true ∧ r.current.isNone = true ∧ r.immediate.isEmpty = true then
    d.ringEnter n rsDisabled 0
  else d

/-- The ring of a register offset, when it is RING_n's. -/
def ringOf (off : Nat) : Nat := (off - 0x60100) / 0x40

/-- Value rules of the ring registers (R377, R384). -/
def Dev.ringRule (d : Dev) (off : Nat) (w : Word) : Option Nat :=
  if off < 0x60100 ∨ off ≥ 0x61100 then none
  else
    let n := ringOf off
    let o := (off - 0x60100) % 0x40
    let st := d.ringState n
    if o = 0 then failWhen (d.ringCtrlBad n w) vkValue
    else if 4 ≤ o ∧ o ≤ 0x1C then failWhen (st != rsDisabled) vkValue
    else if o = 0x20 then failWhen (st == rsRunning || st == rsDraining) vkValue
    else none

/-- Effects of a ring register write. -/
def Dev.ringEffect (d : Dev) (origin off : Nat) (w : Word) : Dev :=
  if off < 0x60100 ∨ off ≥ 0x61100 then d
  else if (off - 0x60100) % 0x40 = 0 then d.ringCtrl origin (ringOf off) w
  else d

end Sys2Proof.Machine
end

