-- ==== Sys2Proof/Machine/Draught.lean ====
section
/-! DEFINITION. The draught scheduler (spec/14 R385–R405): flows, matching, closing, ageing, dispatch, release, trace, and what the
capture unit posts to it (R253, R387). The entries of the store stand in the order of their creation, so the entries of one flow
stand in ascending ESEQ. -/

namespace Sys2Proof.Machine

def Dev.setDrt (d : Dev) (x : Draught) : Dev := { d with drt := x }
def Dev.setEntries (d : Dev) (es : List DrtEntry) : Dev := d.setDrt { d.drt with entries := es }

/-- Run sources (R385). -/
def isRunSource (x : Nat) : Bool := x ≤ 0x10

/-- Sources a recipe register names, in order; 0xFF names none. -/
def Dev.recipeSrcs (d : Dev) (r : Nat) : List Nat := (List.range 4).map (fun k => d.getF (R.DRT_RECIPE r) ⟨8 * k, 8⟩)

/-- The valid recipes in ascending number (R389). -/
def Dev.validRecipes (d : Dev) : List (Nat × List Nat) :=
  ((List.range 16).foldl (fun (acc : List (Nat × List Nat) × List Nat) r =>
    let srcs := d.recipeSrcs r
    let named := srcs.filter (· != 0xFF)
    if named.eraseDups.length < named.length || named.any (fun x => acc.2.contains x) || named.any (fun x => x > 0x12) then acc
    else (acc.1 ++ [(r, srcs)], acc.2 ++ named)) ([], [])).1

/-- DRT_RECIPE_STATUS.INVALID (R389). -/
def Dev.recipeInvalid (d : Dev) : Nat := maskOf ((List.range 16).filter (fun r => !(d.validRecipes.any (fun v => v.1 == r))))

/-- The valid recipe that names a source. -/
def Dev.recipeOf (d : Dev) (x : Nat) : Option (Nat × List Nat) := d.validRecipes.find? (fun v => v.2.contains x && x != 0xFF)

/-- The flow of an operand (R386). -/
def Dev.flowOf (d : Dev) (s x : Nat) : Nat :=
  if d.bitOf (R.DRT_STAGED (s / 32)) (s % 32) then
    if x = 0 then 4 * s + 3 else if isRunSource x then 4 * s + (x - 1) / 4 else 4 * s
  else 4 * s

/-- The lowest enabled core at or above `c`, wrapping (R397). -/
def Dev.enabledFrom (d : Dev) (c : Nat) : Nat :=
  (((List.range 8).map (fun i => (c + i) % 8)).find? (fun k => d.bitOf R.DRT_CFG (8 + k))).getD c

/-- The affine core a flow takes (R397). -/
def Dev.affine (d : Dev) (f : Nat) : Nat := d.enabledFrom (f / 2 ^ d.getF R.DRT_CFG F.DRT_CFG_HASH_SHIFT % 8)

def Dev.drtFlow (d : Dev) (f : Nat) : DrtFlow := mapGet d.drt.flows f ⟨0, d.affine f⟩
def Dev.setFlow (d : Dev) (f : Nat) (x : DrtFlow) : Dev := d.setDrt { d.drt with flows := mapSet d.drt.flows f x }

/-- A trace entry (R403). -/
def Dev.trace (d : Dev) (flow core reason eseq occ : Nat) : Dev :=
  if !(d.flag R.DRT_TRACE_CTRL F.DRT_TRACE_CTRL_ENABLE) then d
  else
    let wr := d.getF R.DRT_TRACE_CTRL F.DRT_TRACE_CTRL_WR
    let a := 4096 * (d.reg R.DRT_TRACE_BASE).toNat + 16 * wr
    (d.write a (bytesOf 4 d.time.ns ++ bytesOf 2 flow ++ bytesOf 1 core ++ bytesOf 1 reason ++ bytesOf 4 eseq ++ bytesOf 2 occ ++ bytesOf 2 0)).setF
      R.DRT_TRACE_CTRL F.DRT_TRACE_CTRL_WR ((wr + 1) % 4096)

/-- CLOSE codes and their trace reasons (R399, R403). -/
def clClosed : Nat := 1
def clAged : Nat := 2
def clEvicted : Nat := 3
def closeReason (cl : Nat) : Nat := if cl = clClosed then 3 else if cl = clAged then 2 else 4

/-- Close an open entry (R395): complete with its CLOSE code, traced, CLOSED raised. Entries completed by one command share `stamp`. -/
def Dev.closeEntry (d : Dev) (e : DrtEntry) (cl stamp : Nat) : Dev :=
  let same := fun (x : DrtEntry) => x.flow == e.flow && x.eseq == e.eseq && x.st == .opened
  let d := d.setEntries (d.drt.entries.map (fun x => if same x then { x with st := .complete, close := cl, order := stamp } else x))
  (d.trace e.flow 0xFF (closeReason cl) e.eseq 0).latch R.DRT_INT_STATUS F.DRT_INT_STATUS_CLOSED

/-- Open entries of a site's four flows. -/
def Dev.openOf (d : Dev) (s : Nat) : List DrtEntry := d.drt.entries.filter (fun e => e.flow / 4 == s && e.st == .opened)

/-- A stamp for what becomes complete now. -/
def Dev.nextStamp (d : Dev) : Nat × Dev := (d.drt.nextOrder, d.setDrt { d.drt with nextOrder := d.drt.nextOrder + 1 })

/-- The producer of an operand (R391): the capture unit of the home hearth for run sources, else the site's PPMU readings or the
supply monitor. -/
def DrtOperand.producer (o : DrtOperand) : Nat := if isRunSource o.source then o.site / 16 else 1000 + 256 * o.source + o.site

/-- Whether an operand is next in the order of R388, given those posted before it for its site. -/
def Dev.operandDue (d : Dev) (o : DrtOperand) (before : List DrtOperand) : Bool :=
  let mine := before.filter (fun x => x.site == o.site)
  let blocked := before.any (fun x => x.held && x.producer == o.producer)
  let runBefore := mine.any (fun x => isRunSource x.source)
  if blocked then false
  else if o.source = srcSummary then
    !runBefore && !(d.drt.offers.any (fun x => x.site == o.site && x.inRun && !isRunSource x.source))
  else if isRunSource o.source then !runBefore
  else if o.inRun then
    !(mine.any (fun x => !isRunSource x.source && x.inRun)) &&
    (match (d.drt.offers.find? (fun x => x.site == o.site && isRunSource x.source)) with | some x => x.source == srcSummary | none => false)
  else true

/-- The next operand of a site that may be accepted. -/
def Dev.nextOperand (d : Dev) (s : Nat) : Option DrtOperand :=
  let l := d.drt.offers
  ((List.range l.length).map (fun i => (l.take i, l.drop i))).findSome? (fun p =>
    match p.2 with
    | o :: _ => if o.site = s ∧ d.operandDue o p.1 = true then some o else none
    | [] => none)

/-- Remove the first occurrence of an operand from the offers. -/
def Dev.takeOffer (d : Dev) (o : DrtOperand) : Dev := d.setDrt { d.drt with offers := d.drt.offers.erase o }

/-- The store has no free entry (R390). -/
def Dev.storeFull (d : Dev) : Bool := d.drt.entries.length ≥ 8192

/-- DRT_STATUS.FULL: an operand is held for want of an entry; the hold lifts when an entry frees (R391). -/
def Dev.drtFull (d : Dev) : Bool := d.storeFull && d.drt.offers.any (·.held)

/-- FULL raises its bit when it rises (R405); `was` is what it read before. -/
def Dev.fullRise (d : Dev) (was : Bool) : Dev := if d.drtFull && !was then d.latch R.DRT_INT_STATUS F.DRT_INT_STATUS_FULL else d

/-- An operand is held at its source for want of an entry (R391). -/
def Dev.holdOperand (d : Dev) (o : DrtOperand) : Dev :=
  (d.setDrt { d.drt with offers := d.drt.offers.map (fun x => if x = o then { x with held := true } else x) }).fullRise d.drtFull

/-- The payload of an operand as it is accepted: a window operand is offered from its DRAM entry (R253). -/
def Dev.payloadOf (d : Dev) (o : DrtOperand) : List Byte := match o.place with | some a => d.read a 64 | none => o.payload

/-- Put an operand into an entry; the entry is complete when it holds every source of its recipe (R390). -/
def DrtEntry.fill (e : DrtEntry) (x : Nat) (payload : List Byte) (stamp : Nat) : DrtEntry :=
  let ops := (e.sources.zip e.ops).map (fun p => if p.1 = x then some payload else p.2)
  let done := (e.sources.zip ops).all (fun p => p.1 == 0xFF || p.2.isSome)
  { e with ops := ops, st := if done then .complete else .opened, order := if done then stamp else e.order }

/-- A SUMMARY has been matched (R388, R393, R396): open entries whose recipe names a run source are closed, the run's events are those in
the store that are not open, a new round begins. -/
def Dev.summaryMatched (d : Dev) (s stamp : Nat) : Dev :=
  let close := (d.openOf s).filter (fun e => e.sources.any isRunSource)
  let d := close.foldl (fun d e => d.closeEntry e clClosed stamp) d
  let mine := (d.drt.entries.filter (fun e => e.flow / 4 == s && e.st != .opened)).map (fun e => (s, e.flow, e.eseq))
  let d := d.setDrt { d.drt with awaiting := d.drt.awaiting ++ mine, rounds := mapSet d.drt.rounds s (mapGet d.drt.rounds s 0 + 1) }
  d.modSite s (fun x => { x with summary := 2 })

/-- OPERAND_ACCEPT: the scheduler accepts the next operand of a site and matches it (R388–R394). -/
def Dev.operandAccept (d : Dev) (s : Nat) : Dev :=
  if !(d.flag R.DRT_CFG F.DRT_CFG_ENABLE) || !d.running then d
  else match d.nextOperand s with
  | none => d
  | some o =>
    let f := d.flowOf s o.source
    let after := fun (d : Dev) (stamp : Nat) => if o.source = srcSummary then d.summaryMatched s stamp else d
    let rec? := d.recipeOf o.source
    let aged : Option DrtAged := match rec? with
      | some (r, _) => d.drt.aged.find? (fun a => a.flow == f && a.recipe == r && a.lacking.contains o.source)
      | none => none
    match aged with
    | some a =>
      let d := (d.takeOffer o).setDrt { (d.takeOffer o).drt with aged := d.drt.aged.map (fun x => if x = a then { x with lacking := x.lacking.erase o.source } else x) }
      let d := (d.bump R.DRT_COUNTS F.DRT_COUNTS_LATE).latch R.DRT_INT_STATUS F.DRT_INT_STATUS_LATE
      d.trace f 0xFF 6 a.eseq 0
    | none =>
      let hit : Option DrtEntry := match rec? with
        | some (r, _) => d.drt.entries.find? (fun e => e.flow == f && e.recipe == r && e.st == .opened &&
            (e.sources.zip e.ops).any (fun p => p.1 == o.source && p.2.isNone))
        | none => none
      match hit with
      | some e =>
        let (stamp, d) := (d.takeOffer o).nextStamp
        let d := d.setEntries (d.drt.entries.map (fun x => if x = e then x.fill o.source (d.payloadOf o) stamp else x))
        after d stamp
      | none =>
        if d.storeFull then d.holdOperand o
        else
          let (stamp, d) := (d.takeOffer o).nextStamp
          let (recipe, srcs) := match rec? with | some p => p | none => (0xFF, [o.source, 0xFF, 0xFF, 0xFF])
          let isOpen := (srcs.filter (· != 0xFF)).length > 1
          -- a seventeenth open entry closes the one of lowest ESEQ, then lowest flow (R392)
          let opens := d.openOf s
          let d := if isOpen ∧ opens.length ≥ 16 then
              match opens with
              | e0 :: t => d.closeEntry (t.foldl (fun (b e : DrtEntry) => if e.eseq < b.eseq ∨ (e.eseq = b.eseq ∧ e.flow < b.flow) then e else b) e0) clEvicted stamp
              | [] => d
            else d
          let fl := d.drtFlow f
          let e : DrtEntry := { flow := f, eseq := fl.eseq, recipe := recipe, sources := srcs, ops := List.replicate 4 none, st := .opened, close := 0
                                order := 0, relOrder := 0, core := 0, reason := 0, slot := 0, round := mapGet d.drt.rounds s 0, result := [] }
          let d := (d.setFlow f { fl with eseq := (fl.eseq + 1) % 2 ^ 32 })
          let d := (d.setEntries (d.drt.entries ++ [e.fill o.source (d.payloadOf o) stamp])).fullRise false
          after d stamp

/-- AGE_OUT: an open entry reaches AGE_US (R394). Nothing ages with AGE_US 0, with a recipe that names a run source, or while the site is
in a run. -/
def Dev.ageOut (d : Dev) (flow eseq : Nat) : Dev :=
  match d.drt.entries.find? (fun e => e.flow == flow && e.eseq == eseq && e.st == .opened) with
  | none => d
  | some e =>
    if d.getF R.DRT_AGE F.DRT_AGE_AGE_US = 0 ∨ e.sources.any isRunSource = true ∨ (d.site (flow / 4)).st.busy = true then d
    else
      let (stamp, d) := d.nextStamp
      let lacking := ((e.sources.zip e.ops).filter (fun p => p.1 != 0xFF && p.2.isNone)).map (·.1)
      let d := d.closeEntry e clAged stamp
      let d := d.setDrt { d.drt with aged := d.drt.aged ++ [⟨flow, e.recipe, eseq, lacking⟩] }
      d.bump R.DRT_COUNTS F.DRT_COUNTS_AGED

/-! ### Dispatch (R397–R399) -/

/-- Occupancy of a core queue. -/
def Dev.queueOcc (d : Dev) (c : Nat) : Nat := sub32 (d.reg (R.DRT_Q_PI c)).toNat (d.reg (R.DRT_Q_CI c)).toNat
def Dev.queueSize (d : Dev) (c : Nat) : Nat := 2 ^ d.getF (R.DRT_Q_CTRL c) F.DRT_Q_CTRL_LOG2
def Dev.queueBase (d : Dev) (c : Nat) : Nat := 4096 * (d.reg (R.DRT_Q_BASE c)).toNat

/-- The first 64 bytes of a slot (R399). -/
def Dev.slotHeader (d : Dev) (e : DrtEntry) (relSeq : Nat) : List Byte :=
  let present := maskOf ((List.range 4).filter (fun k => (nth e.ops k none).isSome))
  bytesOf 4 e.eseq ++ bytesOf 2 e.flow ++ bytesOf 1 e.recipe ++ bytesOf 1 (if e.close = 0 then stOk else stMissing) ++ bytesOf 1 present ++
  bytesOf 1 e.close ++ bytesOf 1 e.core ++ bytesOf 1 e.reason ++ bytesOf 4 d.devEpoch ++ e.sources.flatMap (bytesOf 1) ++ bytesOf 4 e.round ++
  bytesOf 8 relSeq ++ List.replicate 32 0

/-- The operands of a slot (R399). -/
def DrtEntry.operands (e : DrtEntry) : List Byte := e.ops.flatMap (fun o => slice (o.getD []) 0 64)

/-- Whether a flow has an event in a core queue (R397). -/
def Dev.outstanding (d : Dev) (f : Nat) : Bool := d.drt.entries.any (fun e => e.flow == f && e.st == .queued)

/-- The target queue of a flow's next event and the trace reason (R398); none while the flow is outstanding on a core that has left CORE_EN, to which no new
event goes (R402). -/
def Dev.target (d : Dev) (f : Nat) : Option (Nat × Nat) :=
  let c := (d.drtFlow f).core
  let on := d.bitOf R.DRT_CFG (8 + c)
  if d.outstanding f then (if on then some (c, 0) else none)
  else
    let a := if on then c else d.affine f
    if d.queueOcc a ≤ d.getF (R.DRT_Q_CTRL a) F.DRT_Q_CTRL_SPILL_THRESH then some (a, 0)
    else
      let en := (List.range 8).filter (fun k => d.bitOf R.DRT_CFG (8 + k))
      some (en.foldl (fun b k => if d.queueOcc k < d.queueOcc b then k else b) (en.headD a), 1)

/-- Entries that may be dispatched: complete, with no entry of a lower ESEQ of the flow still to be dispatched, and a target queue with
room (R398). -/
def Dev.dispatchable (d : Dev) : List DrtEntry :=
  let rec go : List DrtEntry → List Nat → List DrtEntry
    | [], _ => []
    | e :: t, seen =>
      if (e.st = .opened ∨ e.st = .complete) ∧ seen.contains e.flow = false then
        let room := match d.target e.flow with | some (c, _) => decide (d.queueOcc c < d.queueSize c) | none => false
        if e.st = .complete ∧ room = true then e :: go t (e.flow :: seen) else go t (e.flow :: seen)
      else go t seen
  go d.drt.entries []

/-- DISPATCH: of the entries that may go, the one that became complete first, lowest flow on a tie, goes to its queue (R398, R399). -/
def Dev.dispatch (d : Dev) : Dev :=
  if !d.running then d
  else match d.dispatchable with
  | [] => d
  | e0 :: t =>
    let e := t.foldl (fun b e => if e.order < b.order ∨ (e.order = b.order ∧ e.flow < b.flow) then e else b) e0
    let (c, reason) := (d.target e.flow).getD (0, 0)
    let pi := (d.reg (R.DRT_Q_PI c)).toNat
    let e' := { e with st := DrtSt.queued, core := c, reason := reason, slot := pi }
    let d := d.write (d.queueBase c + 384 * (pi % d.queueSize c)) (d.slotHeader e' 0 ++ e'.operands)
    let d := d.setEntries (d.drt.entries.map (fun x => if x = e then e' else x))
    let d := d.setFlow e.flow { d.drtFlow e.flow with core := c }
    let d := (d.setReg (R.DRT_Q_PI c) (BitVec.ofNat 32 (pi + 1))).bump (R.DRT_Q_DISPATCHED c) F.DRT_Q_DISPATCHED_COUNT
    let occ := d.queueOcc c
    let d := d.setF (R.DRT_Q_STATUS c) F.DRT_Q_STATUS_PEAK (capAt (max occ (d.getF (R.DRT_Q_STATUS c) F.DRT_Q_STATUS_PEAK)) 65535)
    let d := if reason = 1 then (d.bump (R.DRT_Q_SPILLED c) F.DRT_Q_SPILLED_COUNT).latch R.DRT_INT_STATUS F.DRT_INT_STATUS_SPILL else d
    d.trace e.flow c reason e.eseq occ

/-! ### Release (R400–R402) -/

/-- Stamp the entries that have become releasable: done, and first of their flow in the store; ascending flow within one instant (R401). -/
def Dev.markReleasable (d : Dev) : Dev :=
  let rec go : List DrtEntry → List Nat → List (Nat × Nat)
    | [], _ => []
    | e :: t, seen => if seen.contains e.flow then go t seen
      else if e.st = .done ∧ e.relOrder = 0 then (e.flow, e.eseq) :: go t (e.flow :: seen) else go t (e.flow :: seen)
  let heads := go d.drt.entries []
  let flows := sortNats (heads.map (·.1))
  flows.foldl (fun d f =>
    let (stamp, d) := d.nextStamp
    let upd := fun (x : DrtEntry) => if heads.contains (x.flow, x.eseq) ∧ x.flow = f then { x with relOrder := stamp + 1 } else x
    d.setEntries (d.drt.entries.map upd)) d

/-- DRT_Qc_CI advances: slots below it are done and their RESULT is copied (R400). The value rule is `ciBad`. -/
def Dev.queueCi (d : Dev) (c old new : Nat) : Dev :=
  let n := sub32 new old
  let upd := fun (x : DrtEntry) =>
    if x.st = .queued ∧ x.core = c ∧ sub32 x.slot old < n then
      { x with st := DrtSt.done, result := d.read (d.queueBase c + 384 * (x.slot % d.queueSize c) + 320) 64 }
    else x
  (d.setEntries (d.drt.entries.map upd)).markReleasable

/-- A consumption index that goes beyond its producer index or backwards (R400). -/
def ciBad (pi ci new : Nat) : Bool := sub32 new ci > sub32 pi ci

/-- RELEASE: the releasable entry that became so first is written to the result ring, when it has room, and freed (R401). -/
def Dev.release (d : Dev) : Dev :=
  if !d.running then d
  else
    let log2 := d.getF R.DRT_RES_SIZE F.DRT_RES_SIZE_LOG2
    let pi := (d.reg R.DRT_RES_PI).toNat
    match d.drt.entries.filter (fun e => e.relOrder != 0) with
    | [] => d
    | e0 :: t =>
      if sub32 pi (d.reg R.DRT_RES_CI).toNat ≥ 2 ^ log2 then d
      else
        let e := t.foldl (fun b e => if e.relOrder < b.relOrder then e else b) e0
        let a := 4096 * (d.reg R.DRT_RES_BASE).toNat + 128 * (pi % 2 ^ log2)
        let d := d.write a (d.slotHeader e d.drt.relSeq ++ slice e.result 0 64)
        let d := d.setReg R.DRT_RES_PI (BitVec.ofNat 32 (pi + 1))
        let d := d.setDrt { d.drt with entries := d.drt.entries.erase e, relSeq := d.drt.relSeq + 1
                                       awaiting := d.drt.awaiting.filter (fun x => x != (e.flow / 4, e.flow, e.eseq)) }
        ((d.trace e.flow e.core 5 e.eseq 0).latch R.DRT_INT_STATUS F.DRT_INT_STATUS_RELEASE).markReleasable

/-! ### Bindings and rounds -/

/-- A commit ends, replaces or makes a site's binding live (R388, R390, R393, R397). -/
def Dev.drtBind (d : Dev) (s : Nat) (live : Bool) : Dev :=
  let (stamp, d) := d.nextStamp
  let d := (d.openOf s).foldl (fun d e => d.closeEntry e clClosed stamp) d
  let d := d.setDrt { d.drt with aged := d.drt.aged.filter (fun a => a.flow / 4 != s), rounds := mapSet d.drt.rounds s 0 }
  if !live then d
  else (List.range 4).foldl (fun d k =>
    let f := 4 * s + k
    if d.drt.entries.any (fun e => e.flow == f) then d else d.setFlow f ⟨0, d.affine f⟩) d

/-! ### What the capture unit posts -/

/-- WINDOW_OPERAND_POST: the next result entry that has reached DRAM is offered (R253). -/
def Dev.windowPost (d : Dev) (s : Nat) : Dev :=
  match d.plan s with
  | none => d
  | some p =>
    let c := (d.site s).cap
    if c.posted ≥ c.results ∨ (d.site s).st.busy = false then d
    else
      let place := p.resBase + 64 * c.posted
      (d.modCap s (fun c => { c with posted := c.posted + 1 })).offer s (fieldAt (d.read place 1) 0 1 + 1) [] (some place)

/-- SUMMARY_POST: at the end of the run, when every record is in DRAM and every window operand has been accepted (R387). -/
def Dev.summaryPost (d : Dev) (s : Nat) : Dev :=
  let x := d.site s
  let waiting := d.drt.offers.any (fun o => o.site == s && isRunSource o.source)
  if x.st ≠ .stopping ∨ x.summary ≠ 0 ∨ x.cap.posted < x.cap.results ∨ waiting = true then d
  else (d.modSite s (fun x => { x with summary := 1 })).offer s srcSummary (d.summaryPayload s)

/-! ### Registers (R400, R402, R405) -/

/-- Queue number of an offset. -/
def drtQueue (off : Nat) : Nat := (off - 0x70100) / 0x20

/-- Value rules of the draught registers. -/
def Dev.drtRule (d : Dev) (off : Nat) (w : Word) : Option Nat :=
  let en := d.flag R.DRT_CFG F.DRT_CFG_ENABLE
  if off = R.DRT_CFG then failWhen (getBits w F.DRT_CFG_CORE_EN == 0) vkValue
  else if off = R.DRT_RES_BASE then failWhen en vkValue
  else if off = R.DRT_RES_SIZE then failWhen (en || getBits w ⟨0, 5⟩ < 4 || getBits w ⟨0, 5⟩ > 16) vkValue
  else if off = R.DRT_RES_CI then failWhen (ciBad (d.reg R.DRT_RES_PI).toNat (d.reg R.DRT_RES_CI).toNat w.toNat) vkValue
  else if R.DRT_RECIPE 0 ≤ off ∧ off < R.DRT_RECIPE 16 then failWhen en vkValue
  else if R.DRT_STAGED 0 ≤ off ∧ off < R.DRT_STAGED 8 then failWhen en vkValue
  else if 0x70100 ≤ off ∧ off < 0x70200 then
    let c := drtQueue off
    let o := (off - 0x70100) % 0x20
    if o = 0 then failWhen en vkValue
    else if o = 4 then
      let l := getBits w ⟨0, 5⟩
      failWhen (l < 4 || l > 12 || (en && l != d.getF (R.DRT_Q_CTRL c) F.DRT_Q_CTRL_LOG2)) vkValue
    else if o = 0xC then failWhen (ciBad (d.reg (R.DRT_Q_PI c)).toNat (d.reg (R.DRT_Q_CI c)).toNat w.toNat) vkValue
    else none
  else none

/-- Effects of a draught register write; `old` is the register's content before it. -/
def Dev.drtEffect (d : Dev) (off : Nat) (old w : Word) : Dev :=
  if off = R.DRT_TRACE_CTRL then
    if getBits old F.DRT_TRACE_CTRL_ENABLE = 0 ∧ getBits w F.DRT_TRACE_CTRL_ENABLE = 1 then d.setF R.DRT_TRACE_CTRL F.DRT_TRACE_CTRL_WR 0 else d
  else if R.DRT_RECIPE 0 ≤ off ∧ off < R.DRT_RECIPE 16 then
    let bad := d.recipeInvalid
    let was := (d.setReg off old).recipeInvalid
    if (List.range 16).any (fun r => tbit bad r && !(tbit was r)) then d.latch R.DRT_INT_STATUS F.DRT_INT_STATUS_RECIPE_BAD else d
  else if 0x70100 ≤ off ∧ off < 0x70200 ∧ (off - 0x70100) % 0x20 = 0xC then d.queueCi (drtQueue off) old.toNat w.toNat
  else d

end Sys2Proof.Machine
end

