-- ==== Sys2Proof/Machine/Dram.lean ====
section
/-! DEFINITION. The pattern-store DRAM controller (spec/16 R422–R444): ECC, refresh, retraining, parking, hot spots, deadlines. What
DRAM holds is `Dev.mem`; which of its lines are poisoned is `Dev.poison`. -/

namespace Sys2Proof.Machine

/-- Channel states of R444. -/
def dsOff : Nat := 0
def dsActive : Nat := 2
def dsRetrain : Nat := 3
def dsSelf : Nat := 4
def dsParked : Nat := 5

def DramCh.reset : DramCh := ⟨0, false, [], [], [], 0⟩
def Dev.dramCh (d : Dev) (c : Nat) : DramCh := mapGet d.dram.chs c DramCh.reset
def Dev.modDram (d : Dev) (c : Nat) (f : DramCh → DramCh) : Dev := { d with dram := { d.dram with chs := mapSet d.dram.chs c (f (d.dramCh c)) } }
def Dev.dramState (d : Dev) (c : Nat) : Nat := d.getF (R.DMC_CH_STATUS c) F.DMC_CH_STATUS_STATE
def Dev.setDramState (d : Dev) (c s : Nat) : Dev := d.setF (R.DMC_CH_STATUS c) F.DMC_CH_STATUS_STATE s

/-- P, the postponed refreshes, and A, the allowance (R431, R434). -/
def Dev.postponed (d : Dev) (c : Nat) : Nat := d.getF (R.DMC_CH_STATUS c) F.DMC_CH_STATUS_POSTPONED
def Dev.setPostponed (d : Dev) (c p : Nat) : Dev := d.setF (R.DMC_CH_STATUS c) F.DMC_CH_STATUS_POSTPONED p
def Dev.allow (d : Dev) (c : Nat) : Nat := d.getF (R.DMC_CH_STATUS c) F.DMC_CH_STATUS_ALLOW

/-- N. -/
def Dev.postponeMax (d : Dev) : Nat := d.getF R.DMC_REFRESH F.DMC_REFRESH_POSTPONE_MAX

/-! ### Address map (R419, R422) -/

/-- Capacity of a channel in GiB by CONFIG; none for a code outside the table (R419). -/
def configGib (c : Nat) : Option Nat := [16, 32, 32, 64, 64, 128, 256, 128, 256][c]?

def Dev.dramConfig (d : Dev) : Nat := d.getF R.DMC_CFG F.DMC_CFG_CONFIG

/-- Widths of the column burst, the row and the chip ID by CONFIG (R419); a bank group has 3 bits and a bank 2 in every configuration. -/
def burstBits (c : Nat) : Nat := if c ≤ 1 then 6 else 7
def rowBits (c : Nat) : Nat := if c = 1 ∨ c = 3 ∨ 7 ≤ c then 17 else 16
def chipBits (c : Nat) : Nat := nth [0, 0, 0, 0, 1, 2, 3, 1, 2] c 0

def Dev.grain (d : Dev) : Nat := 2 ^ d.getF R.DMC_CFG F.DMC_CFG_GRAIN_LOG2

/-- The decoding of a physical address (R422). -/
def Dev.dramAddr (d : Dev) (a : Nat) : DramAddr :=
  let ca := a / (8 * d.grain) * d.grain + a % d.grain
  let l := ca / 128
  let b := burstBits d.dramConfig
  let r := rowBits d.dramConfig
  { channel := a / d.grain % 8, sub := ca / 64 % 2, byte := ca % 64, burst := l % 2 ^ b, group := l / 2 ^ b % 8, bank := l / 2 ^ (b + 3) % 4
    row := l / 2 ^ (b + 5) % 2 ^ r, chip := l / 2 ^ (b + 5 + r) % 2 ^ chipBits d.dramConfig }

/-- The physical address of a channel's line: its `line`-th 64 bytes. -/
def Dev.dramLine (d : Dev) (c line : Nat) : Nat :=
  let ca := 64 * line
  ca / d.grain * (8 * d.grain) + c * d.grain + ca % d.grain

/-- The channel of a physical address. -/
def Dev.dramOf (d : Dev) (a : Nat) : Nat := (d.dramAddr a).channel

/-! ### ECC (R424–R427) -/

/-- A corrected read: the line is written back as it was. -/
def Dev.dramCe (d : Dev) (c : Nat) : Dev :=
  (((d.bump (R.DMC_CH_ECC c) F.DMC_CH_ECC_CE).count (0x010 + c)).latch R.DMC_INT_STATUS F.DMC_INT_STATUS_CE).raise 9 c

/-- The first uncorrectable address since VALID was cleared. -/
def Dev.dramErrAddr (d : Dev) (c a : Nat) (scrub parity : Bool) : Dev :=
  if d.flag (R.DMC_CH_ERR_HI c) F.DMC_CH_ERR_HI_VALID then d
  else
    let d := d.setReg (R.DMC_CH_ERR_LO c) (BitVec.ofNat 32 (a / 64 * 64))
    d.setReg (R.DMC_CH_ERR_HI c) (BitVec.ofNat 32 (2 ^ 31 + 2 ^ 30 * bit scrub + 2 ^ 29 * bit parity + a / 2 ^ 32 % 4096))

/-- An uncorrectable line: counted, reported, poisoned. -/
def Dev.dramUe (d : Dev) (a : Nat) (scrub : Bool) : Dev :=
  let c := d.dramOf a
  let d := ((d.bump (R.DMC_CH_ECC c) F.DMC_CH_ECC_UE).count (0x018 + c)).latch R.DMC_INT_STATUS F.DMC_INT_STATUS_UE
  let d := (d.dramErrAddr c a scrub false).raise 7 c
  { d with poison := insertNat (a / 64) d.poison }

def Dev.eccJudge (d : Dev) (a : Nat) (e : Ecc) (scrub : Bool) : Dev :=
  match e with
  | .good => d
  | .corrected => d.dramCe (d.dramOf a)
  | .uncorrectable => d.dramUe a scrub

/-- SCRUB_READ: the patrol scrub reads a channel's next line, in ascending L with subchannel A before B, and goes on with the first after the last
(R427). -/
def Dev.scrubRead (d : Dev) (c : Nat) (e : Ecc) : Dev :=
  if !(d.flag R.DMC_SCRUB F.DMC_SCRUB_ENABLE) || d.dramState c != dsActive then d
  else
    let line := (d.dramCh c).scrub
    (d.eccJudge (d.dramLine c line) e true).modDram c (fun x => { x with scrub := (line + 1) % (d.capacity / 512) })

/-! ### Ports and arbitration (R428, R438–R441; log entry 123) -/

/-- The class of a request (R438, R272). -/
def DramReq.realTime (r : DramReq) : Bool := r.port < 32 || (r.port == 32 && r.claimed) || r.port == 33

/-- LAT_NS of a port. -/
def Dev.latNs (d : Dev) (port : Nat) : Nat := d.getF (R.DMC_PORT_CFG port) F.DMC_PORT_CFG_LAT_NS

/-- Whether two requests name one line. -/
def DramReq.sameLine (a b : DramReq) : Bool := a.addr / 64 == b.addr / 64

/-- A request reaches its channel with its deadline; a queued write to the line of a read takes the read's if that is earlier (R428, R439). -/
def Dev.dramArrive (d : Dev) (r : DramReq) : Dev :=
  let due := r.time + d.latNs r.port
  let hurry := fun (w : DramWait) => if !r.write && w.req.write && w.req.sameLine r then { w with deadline := min w.deadline due } else w
  d.modDram (d.dramOf r.addr) (fun x => { x with reqs := x.reqs.map hurry ++ [⟨r, due⟩] })

/-- Whether a real-time request is queued for a channel (R431). -/
def DramCh.realTime (x : DramCh) : Bool := x.reqs.any (fun w => w.req.realTime)

/-- The queued requests that may be taken: not those behind a queued write to their line (R428). -/
def dramEligible : List DramWait → List DramWait → List DramWait
  | _, [] => []
  | before, w :: rest =>
    let l := dramEligible (before ++ [w]) rest
    if before.any (fun q => q.req.write && q.req.sameLine w.req) then l else w :: l

/-- The bank of an address, as one number, and its row. -/
def DramAddr.page (a : DramAddr) : Nat × Nat := (((a.chip * 2 + a.sub) * 4 + a.bank) * 8 + a.group, a.row)

/-- Whether a request's row is the open one of its bank. -/
def Dev.rowHit (d : Dev) (x : DramCh) (r : DramReq) : Bool :=
  let p := (d.dramAddr r.addr).page
  mapFind x.rows p.1 == some p.2

/-- Whether a best-effort burst is owed: without one now, 50 of 1,000 could not be kept (R440). -/
def DramCh.owed (x : DramCh) : Bool := decide (1000 - x.floor.length + (x.floor.filter id).length ≤ 50)

/-- The place of a request in the order of R439, compared from the left. Make-up bursts, urgent refreshes and pauses come first: each is done at the
command that brings it. -/
def Dev.dramRank (d : Dev) (x : DramCh) (now : Nat) (w : DramWait) : List Nat :=
  let rt := w.req.realTime
  let miss := bit (!(d.rowHit x w.req))
  if x.owed && !rt then [2, miss, w.deadline, 0, w.req.port]
  else if rt && w.deadline < now then [3, 0, w.deadline, 0, w.req.port]
  else if rt && 4 * (w.deadline - now) < d.latNs w.req.port then [4, 0, w.deadline, 0, w.req.port]
  else [5, miss, w.deadline, bit (!rt), w.req.port]

/-- The first of two ranks differs downward. -/
def rankLt : List Nat → List Nat → Bool
  | a :: as, b :: bs => a < b || (a == b && rankLt as bs)
  | _, _ => false

/-- The request that a channel takes next (R439); the first to arrive of equal ones. -/
def Dev.dramNext (d : Dev) (c now : Nat) : Option DramWait :=
  let x := d.dramCh c
  (dramEligible [] x.reqs).foldl (fun (best : Option DramWait) w =>
    match best with
    | none => some w
    | some b => if rankLt (d.dramRank x now w) (d.dramRank x now b) then some w else some b) none

/-- A request leaves the queue: its row stays open, and the span of R440 takes its burst while best-effort requests wait. -/
def Dev.dramTake (d : Dev) (c : Nat) (w : DramWait) : Dev :=
  let p := (d.dramAddr w.req.addr).page
  d.modDram c (fun x => { x with
    reqs := x.reqs.erase w, rows := mapSet x.rows p.1 p.2
    floor := if x.reqs.any (fun q => !q.req.realTime) then ((!w.req.realTime) :: x.floor).take 999 else [] })

/-- A channel's rows are closed: by a refresh, a pause or a full retraining. -/
def Dev.closeRows (d : Dev) (c : Nat) : Dev := d.modDram c (fun x => { x with rows := [] })

/-- DRAM_READ_COMPLETE: requests arrive, and the one that the channel takes completes at `now` with its ECC judgement, which a write of a whole line
has none of (R424, R426); after its deadline it is counted (R441). What the requester sees of an uncorrectable line follows from the line
being poisoned (R425). -/
def Dev.dramComplete (d : Dev) (c : Nat) (arrivals : List DramReq) (now : Nat) (e : Ecc) : Dev :=
  let d := arrivals.foldl (fun (d : Dev) r => d.dramArrive r) d
  if d.dramState c ≠ dsActive then d
  else match d.dramNext c now with
    | none => d
    | some w =>
      let d := d.dramTake c w
      let d := if w.req.write && w.req.whole then d else d.eccJudge w.req.addr e false
      if w.deadline < now then
        (d.bump (R.DMC_PORT_MISSED w.req.port) F.DMC_PORT_MISSED_MISSED).latch R.DMC_INT_STATUS F.DMC_INT_STATUS_DEADLINE
      else d

/-! ### Refresh (R431–R435) -/

/-- A make-up burst ends with nothing postponed (R432). -/
def Dev.makeup (d : Dev) (c : Nat) : Dev := ((d.setPostponed c 0).bump (R.DMC_CH_REFSTAT c) F.DMC_CH_REFSTAT_MAKEUP).closeRows c

/-- REFRESH_DUE: `rt` when a real-time request is queued for the channel, beside those that the queue holds. A parked channel owes it (R437); in self-refresh the devices
refresh themselves. -/
def Dev.refreshDue (d : Dev) (c : Nat) (rt : Bool) : Dev :=
  let st := d.dramState c
  if st = dsParked then d.modDram c (fun x => { x with parkedDue := x.parkedDue + 1 })
  else if st ≠ dsActive ∧ st ≠ dsRetrain then d
  else if rt || (d.dramCh c).realTime then
    if d.postponed c < d.allow c then d.setPostponed c (d.postponed c + 1) else d.makeup c
  else d.closeRows c

/-- MAKEUP_BURST: no real-time request is queued. -/
def Dev.makeupBurst (d : Dev) (c : Nat) : Dev :=
  if d.dramState c = dsActive ∧ d.postponed c > 0 ∧ (d.dramCh c).realTime = false then d.makeup c else d

/-- MR4_POLL: `mr4` as read of the device calling for the highest rate, `twice` when a device calls for the doubled rate, `over` when one
reports a temperature above its high-temperature limit. -/
def Dev.mr4Poll (d : Dev) (c mr4 : Nat) (twice hot : Bool) : Dev :=
  if d.dramState c ≠ dsActive then d
  else
    let d := d.setReg (R.DMC_CH_MR4 c) (BitVec.ofNat 32 (mr4 % 256))
    let was := d.flag (R.DMC_CH_STATUS c) F.DMC_CH_STATUS_RATE_2X
    let d := if twice = was then d
      else
        let d := (d.setF (R.DMC_CH_STATUS c) F.DMC_CH_STATUS_RATE_2X (bit twice)).latch R.DMC_INT_STATUS F.DMC_INT_STATUS_RATE_CHANGE
        let a := if twice then d.postponeMax / 2 else d.postponeMax
        let d := d.setF (R.DMC_CH_STATUS c) F.DMC_CH_STATUS_ALLOW a
        let p := d.postponed c
        let d := if p > a then ((d.bump (R.DMC_CH_REFSTAT c) F.DMC_CH_REFSTAT_URGENT (p - a)).setPostponed c a).closeRows c else d
        if twice && !(d.flag R.DMC_CFG F.DMC_CFG_THERMAL_2X) then
          (d.latch R.DMC_INT_STATUS F.DMC_INT_STATUS_THERMAL_UNADMITTED).notice 3 c 0
        else d
    if hot then (d.latch R.DMC_INT_STATUS F.DMC_INT_STATUS_OVERTEMP).raise 8 c else d

/-! ### Retraining (R429, R430, R443) -/

/-- RETRAIN_PAUSE: the pause of a channel falls due, or is looked at again while it waits. `gap` when T_gap has passed since the last make-up
burst, `expired` when it has waited 1 ms, `ns` its length, `fails` when it misses its training limits. -/
def Dev.retrainPause (d : Dev) (c : Nat) (gap expired : Bool) (ns : Nat) (fails : Bool) : Dev :=
  if d.dramState c ≠ dsActive then d
  else if d.postponed c = 0 ∧ gap = true then
    let d := d.modDram c (fun x => { x with pauseDue := false, rows := [] })
    let d := (d.bump (R.DMC_CH_RETRAIN c) F.DMC_CH_RETRAIN_COUNT).setF (R.DMC_CH_RETRAIN c) F.DMC_CH_RETRAIN_LAST_NS (capAt ns 2000)
    if fails then d.latch R.DMC_INT_STATUS F.DMC_INT_STATUS_RETRAIN_FAIL else d
  else d.modDram c (fun x => { x with pauseDue := !expired })

/-- ALERT_N_PARITY: a command/address parity error (R443). `rings` have a descriptor fetch in flight on the channel: the fetch counts as
refused (R425). The channel retrains at once. -/
def Dev.alertParity (d : Dev) (c : Nat) (rings : List Nat) : Dev :=
  if d.dramState c = dsOff then d
  else
    let d := ((d.bump (R.DMC_CH_ECC c) F.DMC_CH_ECC_UE).count (0x018 + c)).dramErrAddr c 0 false true
    let d := (d.raise 7 c).closeRows c
    rings.foldl (fun d n => if d.ringState n = rsRunning ∧ d.ringRemote n = false then d.fetchFault n reFetchDenied else d) d

/-! ### Self-refresh and clock loss (R436, R437) -/

/-- Every channel enters self-refresh: its postponed refreshes are issued first, and no request waits (R436). -/
def Dev.dramSleep (d : Dev) : Dev :=
  (List.range 8).foldl (fun (d : Dev) c => if d.dramState c = dsOff then d else ((d.setPostponed c 0).modDram c (fun x => { x with reqs := [], rows := [], floor := [] })).setDramState c dsSelf) d

/-- Every channel leaves self-refresh, retrained in full. -/
def Dev.dramWake (d : Dev) : Dev :=
  (List.range 8).foldl (fun (d : Dev) c => if d.dramState c = dsSelf then d.setDramState c dsActive else d) d

/-- The channels of a DRAM PLL (R303): index 3 DRAMW, 4 DRAME. -/
def dramOfPll (p : Nat) : List Nat := if p = 3 then [0, 1, 2, 3] else if p = 4 then [4, 5, 6, 7] else []

/-- A DRAM PLL is not LOCKED: its channels are parked. -/
def Dev.dramPark (d : Dev) (p : Nat) : Dev :=
  (dramOfPll p).foldl (fun (d : Dev) c => if d.dramState c = dsActive ∨ d.dramState c = dsRetrain then d.setDramState c dsParked else d) d

/-- A DRAM PLL is LOCKED again: each parked channel is retrained and makes up what fell due. -/
def Dev.dramUnpark (d : Dev) (p : Nat) : Dev :=
  (dramOfPll p).foldl (fun (d : Dev) c =>
    if d.dramState c ≠ dsParked then d
    else
      let due := (d.dramCh c).parkedDue
      let d := (d.setDramState c dsActive).modDram c (fun x => { x with parkedDue := 0, rows := [] })
      let d := if due > 0 then d.bump (R.DMC_CH_REFSTAT c) F.DMC_CH_REFSTAT_MAKEUP else d
      if due > d.postponeMax + 1 then
        ((d.latch (R.DMC_CH_STATUS c) F.DMC_CH_STATUS_CONTENT_SUSPECT).latch R.DMC_INT_STATUS F.DMC_INT_STATUS_CONTENT_SUSPECT).raise 7 c
      else d) d

/-! ### Hot spots (R442) -/

/-- HOT_WINDOW_END: bytes moved and busy time in ns of each channel in the window. -/
def Dev.hotWindow (d : Dev) (bytes busy : List Nat) : Dev :=
  let total := ((List.range 8).map (fun c => nth bytes c 0)).sum
  let hot := fun c => decide (256 * nth bytes c 0 > d.getF R.DMC_HOT_CFG F.DMC_HOT_CFG_THRESH * total ∧
    2 * nth busy c 0 > 1000 * d.getF R.DMC_HOT_CFG F.DMC_HOT_CFG_WINDOW_US)
  let l := (List.range 8).filter hot
  let d := l.foldl (fun (d : Dev) c => d.bump (R.DMC_CH_HOT c) F.DMC_CH_HOT_WINDOWS) d
  let d := if !l.isEmpty && !d.dram.hotBefore then d.latch R.DMC_INT_STATUS F.DMC_INT_STATUS_HOT else d
  { d with dram := { d.dram with hotBefore := !l.isEmpty } }

/-! ### Registers (R444) -/

/-- Writes that set another value than written. -/
def dramNorm (off : Nat) (w : Word) : Word :=
  if off = R.DMC_THERMAL then
    let v := getBits w F.DMC_THERMAL_POLL_MS
    if v = 0 then setBits w F.DMC_THERMAL_POLL_MS 1 else if v > 32 then setBits w F.DMC_THERMAL_POLL_MS 32 else w
  else if off = R.DMC_SCRUB then (if getBits w F.DMC_SCRUB_PERIOD_H = 0 then setBits w F.DMC_SCRUB_PERIOD_H 1 else w)
  else if off = R.DMC_HOT_CFG then (if getBits w F.DMC_HOT_CFG_WINDOW_US = 0 then setBits w F.DMC_HOT_CFG_WINDOW_US 1 else w)
  else if R.DMC_PORT_CFG 0 ≤ off ∧ off ≤ R.DMC_PORT_CFG 36 ∧ off % 8 = 0 then
    (if getBits w F.DMC_PORT_CFG_LAT_NS = 0 then setBits w F.DMC_PORT_CFG_LAT_NS 1 else w)
  else w

/-- Writing 1 to DMC_CHc_ERR_HI.VALID clears both registers. -/
def Dev.dramEffect (d : Dev) (off : Nat) (w : Word) : Dev :=
  match (List.range 8).find? (fun c => off == R.DMC_CH_ERR_HI c) with
  | some c => if getBits w F.DMC_CH_ERR_HI_VALID = 1 then (d.setReg (R.DMC_CH_ERR_LO c) 0).setReg (R.DMC_CH_ERR_HI c) 0 else d
  | none => d

end Sys2Proof.Machine
end

