-- ==== Sys2Proof/Machine/FlueBlocks.lean ====
section
/-! DEFINITION. Flue on the wire: the 66-bit blocks of control blocks and packets, the CRC-32 of a packet, the rotation over the lanes and the
scrambler (spec/12 R323, R324, R329, R332). -/

namespace Sys2Proof.Machine

/-! ### Blocks (R323, R329) -/

/-- Block types of R323. -/
def btIdle : Nat := 0x1E
def btLink : Nat := 0x2D
def btProbe : Nat := 0x33
def btMarker : Nat := 0x4B
def btIdent : Nat := 0x66
def btStart : Nat := 0x78
def btEnd : Nat := 0x87

/-- The control block types that a receiver knows. -/
def blockTypes : List Nat := [btIdle, btLink, btProbe, btMarker, btIdent, btStart, btEnd]

/-- What a control block is on the wire; the exit burst and the training pattern are given to no single block. -/
def CtlBlock.wire : CtlBlock → Option FlueBlock
  | .link ack nak valid ev rsp req =>
    some (.ctl btLink (ack % 2 ^ 12 + 2 ^ 12 * bit nak + 2 ^ 13 * bit valid + 2 ^ 14 * (ev % 2 ^ 8) + 2 ^ 22 * (rsp % 2 ^ 12) + 2 ^ 34 * (req % 2 ^ 12)))
  | .probe => some (.ctl btProbe 0)
  | .ident dev role port => some (.ctl btIdent (dev % 2 ^ 7 + 2 ^ 7 * (role % 4) + 2 ^ 9 * (port % 4)))
  | .exitBurst | .training => none

/-- The IDLE block, and the MARKER of a lane. -/
def idleBlock : FlueBlock := .ctl btIdle 0
def markerBlock (lane : Nat) : FlueBlock := .ctl btMarker (lane % 4)

/-- The exit burst on a lane (R327): 128 blocks, two of them MARKERs, whose places are not given: here the last two (DESIGN CHOICE, log entry 116). -/
def exitBurstLane (lane : Nat) : List FlueBlock := List.replicate 126 idleBlock ++ List.replicate 2 (markerBlock lane)

/-- The packet header (R329). -/
def Packet.header (k : Packet) : Nat :=
  k.type % 2 ^ 4 + 2 ^ 4 * (k.dest % 2 ^ 7) + 2 ^ 11 * (k.src % 2 ^ 7) + 2 ^ 18 * (k.payload.length % 2 ^ 4) + 2 ^ 22 * (k.tag % 2 ^ 10) +
  2 ^ 32 * (k.be % 2 ^ 8) + 2 ^ 40 * (k.arg % 2 ^ 16)

/-- The address and payload blocks. -/
def Packet.dataBlocks (k : Packet) : List Nat := (if packetHasAddr k.type then [k.addr] else []) ++ k.payload

/-! ### CRC-32 (R332) -/

/-- The low `n` bits of `v` go through the CRC, bit 0 first, as IEEE 802.3 sends them (PRESUMED, log entry 116). -/
def crcBits (c : BitVec 32) (n v : Nat) : BitVec 32 :=
  (List.range n).foldl (fun c i => crcBit 0xEDB88320#32 (if tbit v i then c ^^^ 1#32 else c)) c

/-- CRC-32 of a packet: 56 header bits, the data blocks, END bits 43:32. -/
def packetCrc (header : Nat) (blocks : List Nat) (seq : Nat) : Nat :=
  (~~~(crcBits (blocks.foldl (fun c b => crcBits c 64 b) (crcBits 0xFFFFFFFF#32 56 header)) 12 seq)).toNat

/-- A packet on the wire with its link sequence number. -/
def Packet.wire (k : Packet) (seq : Nat) : List FlueBlock :=
  .ctl btStart k.header :: k.dataBlocks.map .data ++ [.ctl btEnd (packetCrc k.header k.dataBlocks seq + 2 ^ 32 * (seq % 2 ^ 12))]

/-- The data bits of a list of data blocks; none when a control block is among them. -/
def dataOf : List FlueBlock → Option (List Nat)
  | [] => some []
  | .data b :: t => (dataOf t).map (b :: ·)
  | .ctl _ _ :: _ => none

/-- What a receiver reads from START to END: the packet, its SEQ, whether the CRC is good, whether LEN counts its payload blocks. -/
def readWire (bs : List FlueBlock) : Option (Packet × Nat × Bool × Bool) :=
  match bs with
  | .ctl t h :: rest =>
    match rest.getLast?, dataOf rest.dropLast with
    | some (.ctl u e), some ds =>
      if t ≠ btStart ∨ u ≠ btEnd then none
      else
        let type := natField h ⟨0, 4⟩
        let seq := natField e ⟨32, 12⟩
        let (addr, payload) := if packetHasAddr type then (ds.headD 0, ds.drop 1) else (0, ds)
        let k : Packet := { type := type, dest := natField h ⟨4, 7⟩, src := natField h ⟨11, 7⟩, tag := natField h ⟨22, 10⟩, be := natField h ⟨32, 8⟩
                            arg := natField h ⟨40, 16⟩, addr := addr, payload := payload }
        some (k, seq, natField e ⟨0, 32⟩ == packetCrc h ds seq, natField h ⟨18, 4⟩ == payload.length)
    | _, _ => none
  | _ => none

/-! ### Lanes (R323, R324) -/

/-- The lane of block `i` of a port, and whether the lanes carry a MARKER at block `i` of each lane. -/
def blockLane (i : Nat) : Nat := i % 4
def markerDue (i : Nat) : Bool := i % 16384 == 0

/-- The skew in blocks that alignment absorbs. -/
def maxSkewBlocks : Nat := 22

/-- The self-synchronising scrambler x^58 + x^39 + 1: one bit, with the last 58 bits sent, newest in bit 0. -/
def scrambleBit (s : BitVec 58) (b : Bool) : Bool × BitVec 58 :=
  let out := (b != s.getLsbD 38) != s.getLsbD 57
  (out, (s <<< 1) ||| (if out then 1#58 else 0#58))

/-- The descrambler: the same taps over the last 58 bits received. -/
def descrambleBit (s : BitVec 58) (b : Bool) : Bool × BitVec 58 :=
  ((b != s.getLsbD 38) != s.getLsbD 57, (s <<< 1) ||| (if b then 1#58 else 0#58))

end Sys2Proof.Machine
end

