-- ==== Sys2Proof/Machine/FlueLink.lean ====
section
/-! DEFINITION. Flue ports: training, identification, idle, acknowledgement and replay, loss of a port, the join, epoch markers, remote
register access, SYNC skew measurement (spec/12 R323–R351). What arriving packets do at their destination stands in FluePackets. -/

namespace Sys2Proof.Machine

/-- The state code of a PLL (R307). -/
def Dev.pllState (d : Dev) (p : Nat) : Nat := d.getF (R.CLK_PLL_STATUS p) F.CLK_PLL_STATUS_STATE

/-- Whether a PLL is LOCKED. -/
def Dev.pllLocked (d : Dev) (p : Nat) : Bool := d.pllState p == 3

/-- Index of the FLUE PLL (R303). -/
def pllFlue : Nat := 5

/-- FLU_LATE counts (R351): the field and the LATE interrupt. -/
def Dev.flueLate (d : Dev) (f : Fld) : Dev := (d.bump R.FLU_LATE f).flueInt F.FLU_INT_STATUS_LATE

/-- A multi-device start has a site in a run (R328, R304). -/
def Dev.multiBusy (d : Dev) : Bool := d.busySites.any (fun s => match d.startOf s with | some r => r.multi | none => false)

/-! ### Skew measurement -/

/-- A measurement ends (R349). -/
def Dev.skewEnd (d : Dev) (outcome : Nat) : Dev :=
  let d := { d with flue := { d.flue with skew := none } }
  ((d.setF R.FLU_SKEW_CTRL F.FLU_SKEW_CTRL_BUSY 0).setF R.FLU_SKEW_CTRL F.FLU_SKEW_CTRL_OUTCOME outcome).flueInt F.FLU_INT_STATUS_SKEW_DONE

/-- Outcomes of R349. -/
def skValid : Nat := 1
def skUnstable : Nat := 2
def skAborted : Nat := 3

/-- A running measurement is aborted: the port left ACTIVE or the epoch number was lost. -/
def Dev.skewAbort (d : Dev) : Dev := if d.flue.skew.isSome then d.skewEnd skAborted else d

/-- A write of FLU_SKEW_CTRL.START (R348): ignored while one runs, on the manager, and on a standalone device, which has no parent. -/
def Dev.skewStart (d : Dev) : Dev :=
  if d.flue.skew.isSome || d.role != 2 then d
  else if d.portState 0 = psActive ∧ d.flue.known = true then
    let (t, d) := d.meanTemp (List.range 16)
    let d := { d with flue := { d.flue with skew := some ⟨[], none, false, t⟩ } }
    (d.setF R.FLU_SKEW_CTRL F.FLU_SKEW_CTRL_BUSY 1).setF R.FLU_SKEW_CTRL F.FLU_SKEW_CTRL_OUTCOME 0
  else d.setF R.FLU_SKEW_CTRL F.FLU_SKEW_CTRL_OUTCOME skAborted

/-- The pairs of epochs of a measurement (R348). -/
def skewPairs : Nat := 64

/-- PROBE_SEND (R348 steps 1 and 3): a parent on port 1–3, the worker on port 0 once the parent's probe of the pair has come. -/
def Dev.probeSend (d : Dev) (p : Nat) : Dev :=
  if d.portState p ≠ psActive ∨ d.flue.known = false then d
  else if p = 0 then
    match d.flue.skew with
    | some k =>
      if k.t1.isSome && !k.sent && decide (k.twice.length < skewPairs) then ({ d with flue := { d.flue with skew := some { k with sent := true } } }).out (.block p .probe) else d
    | none => d
  else d.out (.block p .probe)

/-- PROBE: a probe arrives with its stamp less the tick it was due at, in 1/8 ps (R348 steps 2 and 4). A parent returns the stamp in a
RESPONSE of one block with TAG 0 (DESIGN CHOICE, log entry 40). -/
def Dev.probe (d : Dev) (p : Nat) (stamp : Int) : Dev :=
  if d.portState p ≠ psActive then d
  else if p = 0 then
    match d.flue.skew with
    | some k => if k.t1.isNone && decide (k.twice.length < skewPairs) then { d with flue := { d.flue with skew := some { k with t1 := some stamp } } } else d
    | none => d
  else d.sendPacket { type := ptResponse, dest := 3 * d.deviceNum + p, src := d.deviceNum, tag := 0, be := 0, arg := 0, addr := 0
                      payload := [unsgn stamp 64] }

/-- The parent's stamp t2 comes back (R348 step 5): twice θ in 1/8 ps. -/
def Dev.skewResponse (d : Dev) (block : Nat) : Dev :=
  match d.flue.skew with
  | some k =>
    match k.t1, k.sent with
    | some t1, true =>
      let asym := sgn (d.getF (R.FLU_PORT_EQ 0) F.FLU_PORT_EQ_ASYM_PS) 16
      if k.twice.length < skewPairs then { d with flue := { d.flue with skew := some ⟨k.twice ++ [sgn block 64 - t1 - 8 * asym], none, false, k.temp⟩ } } else d
    | _, _ => d
  | none => d

/-- θ of a valid measurement, for the SYNC skew table (R349, R488). -/
def Dev.skewDone (d : Dev) : Option Int × Dev :=
  match d.flue.skew with
  | none => (none, d)
  | some k =>
    if k.twice.length < skewPairs then (none, d)
    else
      let (mean, d) := d.divFree (k.twice.foldl (· + ·) 0) (2 * k.twice.length)
      let top := k.twice.foldl max (k.twice.headD 0)
      let low := k.twice.foldl min (k.twice.headD 0)
      let (spread, d) := d.divFree (top - low) 2
      let d := d.setReg R.FLU_SKEW_RESULT (BitVec.ofNat 32 (unsgn mean 32))
      let d := d.setF R.FLU_SKEW_CTRL F.FLU_SKEW_CTRL_SPREAD (capAt spread.toNat 65535)
      if (top - low).toNat ≤ 640 then (some mean, d.skewEnd skValid) else (none, d.skewEnd skUnstable)

/-! ### Reads in flight -/

/-- The port by which the request to a device leaves (R335). -/
def Dev.portTo (d : Dev) (dest : Nat) : Nat := (childPort d.deviceNum 5 dest).getD 0

/-- FLU_RACC ends its access (R338). -/
def Dev.raccEnd (d : Dev) (status : Nat) : Dev :=
  (d.setF R.FLU_RACC_CTRL F.FLU_RACC_CTRL_BUSY 0).setF R.FLU_RACC_CTRL F.FLU_RACC_CTRL_STATUS status

/-- A READ ends with the outcome TIMEOUT (R338). -/
def Dev.readTimeout (d : Dev) (tag : Nat) (f : ReadFor) : Dev :=
  let d := { d with flue := { d.flue with reads := d.flue.reads.filter (fun x => x.1 != tag) } }
  match f with
  | .racc _ _ => d.raccEnd 4
  | .fetch n => d.fetchDone n .timeout
  | .dma n _ => d.dmaEnd n stLate

/-- RSP_TIMEOUT: the read of a tag reaches its deadline. -/
def Dev.rspTimeout (d : Dev) (tag : Nat) : Dev :=
  match mapFind d.flue.reads tag with
  | some f => d.readTimeout tag f
  | none => d

/-! ### Port states (R327, R333) -/

/-- The equalisers of a port's lanes have adapted: how far is free (R326, log entry 7). The 5-tap DFE shows only its first tap. -/
def Dev.adaptLanes (d : Dev) (p : Nat) : Dev :=
  (List.range 4).foldl (fun (d : Dev) l =>
    let (n, d) := d.drawNat
    d.setReg (R.FLU_PORT_LANE p l) ((d.reg (R.FLU_PORT_LANE p l) &&& 0x00030FFF#32) ||| (BitVec.ofNat 32 n &&& 0xFFFCF000#32))) d

/-- Whether a port's equalisers adapt: in TRAIN, ACTIVE and the exit burst (R326). -/
def Dev.adapting (d : Dev) (p : Nat) : Bool := d.portState p == psTrain || d.portState p == psActive || d.portState p == psWake

/-- Enter a state. Lanes count as up in ACTIVE and WAKE-aligned traffic only; PORT_DOWN and PORT_UP follow (R351); on the way to IDLE
the equalisers hold what they adapted to (R326); a downstream port that joins is told to the next marker (R341). -/
def Dev.portEnter (d : Dev) (p st : Nat) : Dev :=
  let old := d.portState p
  let d := if st = psIdle then d.adaptLanes p else d
  let d := d.setF (R.FLU_PORT_STATUS p) F.FLU_PORT_STATUS_STATE st
  let d := d.setF (R.FLU_PORT_STATUS p) F.FLU_PORT_STATUS_LANES_UP (if st = psActive then 15 else 0)
  let d := (List.range 4).foldl (fun (d : Dev) l =>
    (d.setF (R.FLU_PORT_LANE p l) F.FLU_PORT_LANE_LOCK (bit (st == psActive))).setF (R.FLU_PORT_LANE p l) F.FLU_PORT_LANE_ALIGNED (bit (st == psActive))) d
  let d := if (st = psDown ∨ st = psTrain ∨ st = psError) ∧ (old = psActive ∨ old = psIdle ∨ old = psWake) then
      d.flueInt F.FLU_INT_STATUS_PORT_DOWN else d
  let d := if (st = psDown ∨ st = psError) ∧ (old = psActive ∨ old = psIdle ∨ old = psWake) then d.raise 15 p else d
  let d := if st = psActive ∧ old = psTrain then
      let d := d.flueInt F.FLU_INT_STATUS_PORT_UP
      if p = 0 then d else { d with flue := { d.flue with joinDue := true } }
    else d
  if p = 0 ∧ st ≠ psActive then d.skewAbort else d

/-- ERR of a port. -/
def Dev.portErr (d : Dev) (p err : Nat) : Dev := d.setF (R.FLU_PORT_STATUS p) F.FLU_PORT_STATUS_ERR err

/-- Enter TRAIN: the taps of FLU_PORTp_EQ are taken, the training pattern is sent, then IDENT (R325, R327, R336). -/
def Dev.portTrain (d : Dev) (p : Nat) : Dev :=
  let d := d.modPort p (fun q => { q with taps := d.reg (R.FLU_PORT_EQ p) &&& 0x7FFF#32 })
  ((d.portEnter p psTrain).out (.block p .training)).out (.block p (.ident d.deviceNum d.role p))

/-- The device that a READ is sent to. -/
def ReadFor.dest : ReadFor → Nat
  | .racc n _ => n
  | .fetch _ => 0
  | .dma _ n => n

/-- Whether a port that goes DOWN or to ERROR has something to lose (R333). -/
def Dev.portHeld (d : Dev) (p : Nat) : Bool := d.portState p != psDown && d.portState p != psError

/-- A port reaches DOWN or ERROR (R333): buffers are discarded and its READs time out. -/
def Dev.portDown (d : Dev) (p st : Nat) : Dev :=
  let held := d.portHeld p
  let d := d.portEnter p st
  if !held then d
  else
    let d := (d.modPort p (fun q => { FluePort.reset with taps := q.taps })).setF (R.FLU_PORT_STATUS p) F.FLU_PORT_STATUS_NEIGHBOUR 0xFF
    let gone := d.flue.reads.filter (fun x => d.portTo x.2.dest == p)
    gone.foldl (fun d x => d.readTimeout x.1 x.2) d

/-- The same, and multi-device sites are smothered with LINK (R333). -/
def Dev.portLost (d : Dev) (p st : Nat) : Dev :=
  if d.portHeld p then let d := d.portDown p st; d.smotherAll (d.activeSites.filter d.isMulti) 10 else d.portDown p st

/-- FLU_PORTp_CTRL is written (R327, R351). -/
def Dev.portCtrl (d : Dev) (p : Nat) (w : Word) : Dev :=
  let st := d.portState p
  if getBits w F.FLU_PORT_CTRL_ENABLE = 0 then (if st = psDown then d else d.portLost p psDown)
  else
    let d := d.portErr p 0
    let d := if st = psDown ∧ d.pllLocked pllFlue = true ∧ d.role ≠ 0 then d.portTrain p else d
    if getBits w F.FLU_PORT_CTRL_RETRAIN = 1 ∧ (st = psActive ∨ st = psIdle) then d.portTrain p else d

/-- The FLUE PLL leaves LOCKED: every port not in DOWN or ERROR goes DOWN with ERR = PLL (R327, R311). -/
def Dev.flueDown (d : Dev) : Dev :=
  (List.range 4).foldl (fun (d : Dev) p => if d.portHeld p then (d.portErr p 5).portDown p psDown else d) d

/-- Ports that are enabled and DOWN train: the FLUE PLL is locked (R327). A standalone device has no neighbours (R28). -/
def Dev.flueUp (d : Dev) : Dev :=
  (List.range 4).foldl (fun (d : Dev) p =>
    if d.portState p = psDown ∧ d.flag (R.FLU_PORT_CTRL p) F.FLU_PORT_CTRL_ENABLE = true ∧ d.role ≠ 0 ∧ d.pllLocked pllFlue = true then d.portTrain p else d) d

/-- Send again what is not acknowledged (R332). -/
def Dev.resend (d : Dev) (p : Nat) : Dev :=
  let l := (d.port p).replay
  if l.isEmpty then d
  else
    let d := d.bump (R.FLU_PORT_ERRORS p) F.FLU_PORT_ERRORS_REPLAYS
    l.foldl (fun d x => d.out (.packet p x.1 x.2)) (d.modPort p (fun q => { q with replays := q.replays + 1 }))

/-- Enter ACTIVE: a replay that a retraining interrupted resumes, queued packets leave (R332). -/
def Dev.portActive (d : Dev) (p : Nat) : Dev :=
  let resume := d.portState p == psTrain && (d.port p).identOk
  let d := (d.portEnter p psActive).modPort p (fun q => { q with identOk := true, replays := 0 })
  let d := if resume then d.resend p else d
  d.pump p ((d.port p).queue.length + 1)

/-- What a port expects of its neighbour's IDENT (R336, R28): ERR 2 ID_MISMATCH, 4 ROLE. A system controller above a manager
has the number 0x7E; its role is not judged (DEDUCED, log entry 41). -/
def Dev.identErr (d : Dev) (p num role from_ : Nat) : Option Nat :=
  let x := d.deviceNum
  if p = 0 then
    if d.role = 1 then failWhen (num != destController) 2
    else
      let parent := (x - 1) / 3
      if num ≠ parent ∨ from_ ≠ x - 3 * parent then some 2
      else failWhen (role != (if parent = 0 then 1 else 2)) 4
  else if num ≠ 3 * x + p then some 2
  else failWhen (role != 2) 4

/-- IDENT: the neighbour's block is received in TRAIN, once the lanes are aligned, which more than 22 blocks of skew prevent (R324). `pol` is POL_INV;
`lanes` the lane registers' adapted values; `both`: the neighbour has accepted this side's IDENT, so that the port is ACTIVE (R327). -/
def Dev.ident (d : Dev) (p num role from_ pol : Nat) (lanes : List Word) (both : Bool) : Dev :=
  if d.portState p ≠ psTrain ∨ lanes.any (fun w => getBits w F.FLU_PORT_LANE_SKEW_BLOCKS > maxSkewBlocks) then d
  else match d.identErr p num role from_ with
    | some e => (d.portErr p e).portLost p psError
    | none =>
      let d := (d.setF (R.FLU_PORT_STATUS p) F.FLU_PORT_STATUS_NEIGHBOUR num).setF (R.FLU_PORT_STATUS p) F.FLU_PORT_STATUS_POL_INV pol
      let d := (List.range 4).foldl (fun (d : Dev) l =>
        let w := nth lanes l 0
        let set := fun (d : Dev) f => d.setF (R.FLU_PORT_LANE p l) f (getBits w f)
        set (set (set (set d F.FLU_PORT_LANE_EYE_MV) F.FLU_PORT_LANE_DFE1) F.FLU_PORT_LANE_CTLE) F.FLU_PORT_LANE_SKEW_BLOCKS) d
      if both then d.portActive p else d

/-- TRAIN_TIMEOUT: 5 ms without success (R327). -/
def Dev.trainTimeout (d : Dev) (p : Nat) : Dev := if d.portState p = psTrain then (d.portErr p 1).portLost p psError else d

/-- PORT_IDLE_ENTRY: IDLE_DELAY µs without a packet have passed (R328). -/
def Dev.portIdle (d : Dev) (p : Nat) : Dev :=
  let q := d.port p
  if d.portState p = psActive ∧ d.flag (R.FLU_PORT_CTRL p) F.FLU_PORT_CTRL_IDLE_ALLOWED = true ∧ q.queue.isEmpty = true ∧
      q.replay.isEmpty = true ∧ d.multiBusy = false then d.portEnter p psIdle
  else d

/-- PORT_WAKE: either side has a block to send (R327). -/
def Dev.portWake (d : Dev) (p : Nat) : Dev := if d.portState p = psIdle then (d.portEnter p psWake).out (.block p .exitBurst) else d

/-- A start that spans devices wakes every idle port (R328). -/
def Dev.wakePorts (d : Dev) : Dev := (List.range 4).foldl (fun d p => d.portWake p) d

/-- WAKE_BURST_ALIGNED. -/
def Dev.wakeAligned (d : Dev) (p : Nat) : Dev := if d.portState p = psWake then d.portActive p else d

/-- WAKE_TIMEOUT: not aligned within 2 µs (R327). -/
def Dev.wakeTimeout (d : Dev) (p : Nat) : Dev := if d.portState p = psWake then d.portTrain p else d

/-! ### Acknowledgement and replay (R331, R332) -/

/-- The packet after those an ACK_SEQ acknowledges; an ACK_SEQ that names no packet held acknowledges none. -/
def ackDrop (l : List (Nat × Packet)) (ack : Nat) : List (Nat × Packet) :=
  if l.any (fun x => x.1 == ack) then (l.dropWhile (fun x => x.1 != ack)).drop 1 else l

/-- A replay begins, or after eight without progress the port retrains (R332). -/
def Dev.replay (d : Dev) (p : Nat) : Dev :=
  if (d.port p).replay.isEmpty then d
  else if (d.port p).replays ≥ 8 then (d.portErr p 3).portTrain p
  else d.resend p

/-- LINK: acknowledgement, NAK and credits arrive. -/
def Dev.link (d : Dev) (p ack : Nat) (nak valid : Bool) (ev rsp req : Nat) : Dev :=
  if d.portState p ≠ psActive then d
  else
    let q := d.port p
    let left := if valid || nak then ackDrop q.replay ack else q.replay
    let moved := left.length < q.replay.length
    let d := d.modPort p (fun q => { q with replay := left, replays := if moved then 0 else q.replays
                                            evCr := q.evCr + ev, rspCr := q.rspCr + rsp, reqCr := q.reqCr + req })
    let d := if nak then d.replay p else d
    d.pump p ((d.port p).queue.length + 1)

/-- REPLAY_TIMEOUT: 2 µs without an acknowledgement. -/
def Dev.replayTimeout (d : Dev) (p : Nat) : Dev := if d.portState p = psActive then d.replay p else d

/-- A good packet with the expected SEQ is accepted: it is acknowledged, and its space is returned as credits in the same LINK block
(DESIGN CHOICE, log entry 42). None while the port is not ACTIVE. -/
def Dev.linkTake (d : Dev) (p : Nat) (k : Packet) : Option Dev :=
  if d.portState p ≠ psActive then none
  else
    let seq := (d.port p).rxSeq
    let n := k.blocks
    let c := k.cls
    let cr := fun (x : PktClass) => if c = x then n else 0
    some ((d.modPort p (fun q => { q with rxSeq := (seq + 1) % 4096 })).out (.block p (.link seq false true (cr .ev) (cr .rsp) (cr .req))))

/-- Whether a packet's fields lie in the table of R330. -/
def Packet.fieldsOk (k : Packet) : Bool :=
  let n := k.payload.length
  let be := if n ≤ 1 then k.be ≤ 0xFF else k.be == 0xFF
  k.addr < 2 ^ 44 &&
  (match k.type with
   | 0 => n == 0 && be && 1 ≤ k.arg && k.arg ≤ 8 && (k.arg == 1 || k.be == 0xFF)
   | 1 => 1 ≤ n && n ≤ 8 && be && k.arg == 0 && k.tag == 0
   | 2 => n == 1 && be && k.arg == 0 && k.tag == 0
   | 3 => n ≤ 8 && k.be == 0 && k.arg ≤ 3 && (k.arg == 0 || n == 0)
   | 4 => n == 1 && k.be == 0 && k.arg ≤ 15 && k.tag == 0
   | 5 => 2 ≤ n && n ≤ 10 && k.be == 0 && k.arg ≤ 63 && k.tag == 0
   | 6 => n == 1 && k.be == 0 && k.arg == 0 && k.tag == 0
   | _ => false)

/-- Count a packet or block discarded (R323, R330, R332). -/
def Dev.flueBad (d : Dev) (p : Nat) : Dev := d.bump (R.FLU_PORT_ERRORS p) F.FLU_PORT_ERRORS_CRC_ERRORS

/-- FLUE_PACKET_DISCARD: what a receiver does with blocks that no other command takes (R323, R329, R330, R332). A control block of another type is
counted. From START on, a packet with a good CRC and the next SEQ is acknowledged, and one whose TYPE or fields R330 does not have is then counted;
any other is counted and answered with NAK and the last good ACK_SEQ. A packet with good fields comes by the command of its type. -/
def Dev.packetDiscard (d : Dev) (p : Nat) (bs : List FlueBlock) : Dev :=
  if d.portState p ≠ psActive then d
  else
    let nak := fun (d : Dev) => (d.flueBad p).out (.block p (.link (((d.port p).rxSeq + 4095) % 4096) true false 0 0 0))
    match bs with
    | [] => d
    | .data _ :: _ => d.flueBad p
    | .ctl t _ :: _ =>
      if !(blockTypes.contains t) then d.flueBad p
      else if t ≠ btStart then d
      else match readWire bs with
        | none => nak d
        | some (k, seq, crcOk, lenOk) =>
          if !crcOk || seq != (d.port p).rxSeq then nak d
          else if lenOk && k.fieldsOk then d
          else match d.linkTake p k with
            | some d => d.flueBad p
            | none => d

/-! ### Remote register access (R338) -/

/-- The 44-bit address of FLU_RACC. -/
def Dev.raccAddr (d : Dev) : Nat := (d.reg R.FLU_RACC_ADDR_LO).toNat / 4 * 4 + 2 ^ 32 * d.getF R.FLU_RACC_ADDR_HI F.FLU_RACC_ADDR_HI_ADDR

/-- GO while no access is outstanding. A register is half of its 8-byte block, named by the byte enables (DEDUCED, log entry 43). -/
def Dev.raccGo (d : Dev) : Dev :=
  if d.flag R.FLU_RACC_CTRL F.FLU_RACC_CTRL_BUSY then d
  else
    let dest := d.getF R.FLU_RACC_CTRL F.FLU_RACC_CTRL_DEST
    let a := d.raccAddr
    let high := a / 4 % 2
    let be := if high = 1 then 0xF0 else 0x0F
    match d.route dest with
    | .port _ =>
      if d.flag R.FLU_RACC_CTRL F.FLU_RACC_CTRL_WRITE then
        (d.sendPacket { type := ptWrite, dest := dest, src := d.deviceNum, tag := 0, be := be, arg := 0, addr := a - 4 * high
                        payload := [(d.reg R.FLU_RACC_DATA).toNat * 2 ^ (32 * high)] }).raccEnd 0
      else (d.setF R.FLU_RACC_CTRL F.FLU_RACC_CTRL_BUSY 1).issueRead dest (a - 4 * high) 1 be (.racc dest high)
    | _ => d.raccEnd 2

/-- A response ends the access of FLU_RACC; `high` is the half of its block that the access asked for (R330, R338). -/
def Dev.raccResponse (d : Dev) (high status : Nat) (payload : List Nat) : Dev :=
  let d := if status = 0 then d.setReg R.FLU_RACC_DATA (BitVec.ofNat 32 (nth payload 0 0 / 2 ^ (32 * high))) else d
  d.raccEnd status

/-! ### Join and epoch markers (R336, R341) -/

/-- JOIN_TIMEOUT: the join wait ends, and the neighbours that have not joined stay absent (R336). The manager fixes FLU_TREE_PRESENT; `reach` names
the devices reachable over ACTIVE ports (log entry 1). A device counts only when the profile lists it and its parent counts. How a worker learns of
the end of the manager's wait is not stated: it fixes its own neighbours (DESIGN CHOICE, log entry 118). -/
def Dev.joinTimeout (d : Dev) (reach : List Nat) : Dev :=
  if d.role = 0 ∨ d.flue.joined = true then d
  else if d.role ≠ 1 then
    { d with flue := { d.flue with joined := true, kids := [1, 2, 3].filter (fun k => d.portState k == psActive && reach.contains (3 * d.deviceNum + k)) } }
  else
    let listed := fun x => d.board.profile.tree.contains x && reach.contains x
    let l := (List.range 121).foldl (fun (acc : List Nat) x =>
      if x = 0 then acc ++ [0]
      else if x ≤ 3 then (if listed x && d.portState x == psActive then acc ++ [x] else acc)
      else if listed x && acc.contains ((x - 1) / 3) then acc ++ [x] else acc) []
    let m := maskOf l
    let d := (List.range 4).foldl (fun (d : Dev) i => d.setReg (R.FLU_TREE_PRESENT i) (BitVec.ofNat 32 (m / 2 ^ (32 * i)))) d
    ({ d with flue := { d.flue with joined := true, kids := [1, 2, 3].filter l.contains } }).flueInt F.FLU_INT_STATUS_JOIN_DONE

/-- EPOCH_MARKER_SEND: 16,000 ticks after the edge that opens E − 1 the manager names E, once, when E is a multiple of MARKER_EVERY (which of every
MARKER_EVERY epochs is not stated: DESIGN CHOICE, log entry 118) or a downstream port has joined (R341). -/
def Dev.markerSend (d : Dev) : Dev :=
  let e := d.flue.epoch + 1
  if d.role = 1 ∧ d.flue.known = true ∧ d.flue.marked ≠ some e ∧
      (e % d.getF R.FLU_CFG F.FLU_CFG_MARKER_EVERY = 0 ∨ d.flue.joinDue = true) then
    ({ d with flue := { d.flue with marked := some e, joinDue := false } }).sendPacket
      { type := ptMarker, dest := destAll, src := d.deviceNum, tag := 0, be := 0, arg := 0, addr := 0, payload := [e] }
  else d

/-- EPOCH_MARKER: a marker for epoch `e` arrives (R341) before or after this device's edge that opens it. -/
def Dev.marker (d : Dev) (e : Nat) : Dev :=
  if d.flue.known && e ≤ d.flue.epoch then d.flueLate F.FLU_LATE_EVENTS
  else
    let next := d.flue.assign.getD (d.flue.epoch + 1)
    let clash := d.flue.known && e != next
    let d := { d with flue := { d.flue with assign := some e } }
    let d := d.latch R.FLU_STATUS F.FLU_STATUS_MARKER_SEEN
    if clash then
      let d := (d.bump R.FLU_STATUS F.FLU_STATUS_MISMATCH_COUNT).flueInt F.FLU_INT_STATUS_EPOCH_MISMATCH
      d.smotherAll d.activeSites 2
    else d

/-! ### Registers (R351) -/

/-- The port of a FLU_PORTp offset and the offset within it. -/
def fluePort (off : Nat) : Option (Nat × Nat) :=
  if 0xA0100 ≤ off ∧ off < 0xA0500 then some ((off - 0xA0100) / 256, (off - 0xA0100) % 256) else none

/-- Value rules (R325, R351). -/
def Dev.flueRule (d : Dev) (off : Nat) (w : Word) : Option Nat :=
  match fluePort off with
  | some (_, o) =>
    if o = 0 then failWhen (getBits w F.FLU_PORT_CTRL_RETRAIN == 1 && d.multiBusy) vkRunLock
    else if o = 8 then
      let pre := getBits w F.FLU_PORT_EQ_PRE
      let main := getBits w F.FLU_PORT_EQ_MAIN
      let post := getBits w F.FLU_PORT_EQ_POST
      failWhen (main < 32 || pre + main + post > 63) vkValue
    else none
  | none => none

/-- Writes that set another value than written (R351). -/
def flueNorm (off : Nat) (w : Word) : Word :=
  if off = R.FLU_CFG then
    let one := fun (w : Word) f => if getBits w f = 0 then setBits w f 1 else w
    let w := one (one w F.FLU_CFG_RSP_TIMEOUT_US) F.FLU_CFG_MARKER_EVERY
    if getBits w F.FLU_CFG_STOP_LEAD < 2 then setBits w F.FLU_CFG_STOP_LEAD 2 else w
  else match fluePort off with
    | some (_, 0) => if getBits w F.FLU_PORT_CTRL_IDLE_DELAY = 0 then setBits w F.FLU_PORT_CTRL_IDLE_DELAY 1 else w
    | _ => w

/-- Effects of a write. -/
def Dev.flueEffect (d : Dev) (off : Nat) (w : Word) : Dev :=
  match fluePort off with
  | some (p, 0) => d.portCtrl p w
  | _ =>
    if off = R.FLU_RACC_CTRL ∧ getBits w F.FLU_RACC_CTRL_GO = 1 then d.raccGo
    else if off = R.FLU_SKEW_CTRL ∧ getBits w F.FLU_SKEW_CTRL_START = 1 then d.skewStart
    else d

end Sys2Proof.Machine
end

