-- ==== Sys2Proof/Machine/Tmu.lean ====
section
/-! DEFINITION. The time measurement unit (spec/09 R258–R281): arming, stamps, records, difference mode, code-density test. -/

namespace Sys2Proof.Machine

/-! ### Live tables (R278, R482, R484) -/

/-- The width of bin `i` of channel `n`, live; 500 in a default table (R495). -/
def Dev.binWidth (d : Dev) (n i : Nat) : Nat :=
  match mapFind d.cal.live 16 with
  | some t => fieldAt t.body (288 * n + 2 * i) 2
  | none => 500

/-- PATH of a channel and source, live, in 1/8 ps. -/
def Dev.tmuPath (d : Dev) (n source : Nat) : Int :=
  match mapFind d.cal.live 16 with
  | some t => sgn (fieldAt t.body (288 * n + 256 + 4 * source) 4) 32
  | none => 0

/-- COMPARE_DESKEW of a channel of the pin electronics, live, in 1/16 code. -/
def Dev.compareDeskew (d : Dev) (ch : Nat) : Int :=
  match mapFind d.cal.live (chHearth ch) with
  | some t => sgn (fieldAt t.body (544 * (ch % 64) + 2) 2) 16
  | none => 0

/-- The raw fine offset of a code in 1/256 ps (R267 step 1). -/
def Dev.rawFine (d : Dev) (n code : Nat) : Nat := ((List.range code).map (d.binWidth n)).sum + d.binWidth n code / 2

/-! ### Settings -/

/-- The pin-electronics channel a TMU channel listens to, when its source is a pin (R258, R273). -/
def Dev.tmuPin (d : Dev) (n : Nat) : Option Nat :=
  match d.tmuClaim n with
  | some c => some c.ch
  | none => if d.getF (R.TMU_CH_CFG n) F.TMU_CH_CFG_SOURCE = 0 then some (64 * (n / 2) + d.getF (R.TMU_CH_CFG n) F.TMU_CH_CFG_PIN) else none

/-- SOURCE in force. -/
def Dev.tmuSource (d : Dev) (n : Nat) : Nat := if (d.tmuClaim n).isSome then 0 else d.getF (R.TMU_CH_CFG n) F.TMU_CH_CFG_SOURCE

/-- Whether an edge of this direction is selected (R259, R273). -/
def Dev.tmuSelected (d : Dev) (n : Nat) (rise : Bool) : Bool :=
  (d.tmuClaim n).isSome || tbit (d.getF (R.TMU_CH_CFG n) F.TMU_CH_CFG_POLARITY) (if rise then 0 else 1)

/-- Whether the input can give an edge: a pin source reads 0 while its grate is not ON (R259). -/
def Dev.tmuLive (d : Dev) (n : Nat) : Bool := match d.tmuPin n with | some ch => (d.grate (chGrate ch)).dom == .on | none => true

/-! ### Power groups (R275) -/

/-- Whether a channel keeps its group's domain on. -/
def Dev.tmuNeeds (d : Dev) (n : Nat) : Bool := (d.tmuCh n).st != tmIdle || (d.tmuClaim n).isSome

/-- The domains follow their channels: a group that is needed wakes, one that is not powers off. -/
def Dev.tmuPower (d : Dev) : Dev :=
  [0, 1].foldl (fun (d : Dev) g =>
    let need := (List.range 16).any (fun i => d.tmuNeeds (16 * g + i))
    let set := fun (x : Dom) => { d with tmu := { d.tmu with groups := mapSet d.tmu.groups g x } }
    if need && d.tmuGroup g == .off && d.running then set .waking
    else if !need && d.tmuGroup g != .off then set .off
    else d) d

/-! ### Arming (R271, R276) -/

/-- The lowest failing code of R271. -/
def Dev.armErr (d : Dev) (n : Nat) : Nat :=
  let f := fun k fl => d.getF (R.TMU_CH_CFG k) fl
  let diff := f n F.TMU_CH_CFG_MODE = 1
  let st := fun k => (d.tmuCh k).st
  let badSel := fun k => f k F.TMU_CH_CFG_SOURCE ≥ 4 || f k F.TMU_CH_CFG_POLARITY = 0 ||
    (f k F.TMU_CH_CFG_SOURCE = 0 && d.absent (64 * (k / 2) + f k F.TMU_CH_CFG_PIN))
  let base := 4096 * (d.reg (R.TMU_CH_BUF_BASE n)).toNat
  let len := 4096 * d.getF (R.TMU_CH_BUF_SIZE n) F.TMU_CH_BUF_SIZE_BUF_4K
  if !d.tbValid then 1
  else if (d.tmuClaim n).isSome || st n = tmPaired then 2
  else if badSel n || (diff && n % 2 = 1) || (diff && badSel (n + 1)) || (f n F.TMU_CH_CFG_RECORD = 1 && (len = 0 || !(d.inHost base len))) then 3
  else if diff && ((d.tmuClaim (n + 1)).isSome || (st (n + 1) != tmIdle && st (n + 1) != tmPaired)) then 4
  else if st n = tmCalibrating then 5
  else 0

/-- ARM: a write of 1 (R271). A group that is not ON makes the channel report WAKING. -/
def Dev.arm (d : Dev) (n : Nat) : Dev :=
  let e := d.armErr n
  if e ≠ 0 then d.setF (R.TMU_CH_STATUS n) F.TMU_CH_STATUS_ARM_ERR e
  else
    let d := if d.getF (R.TMU_CH_CFG n) F.TMU_CH_CFG_MODE = 1 then d.modTmu (n + 1) (fun c => { c with st := tmPaired }) else d
    let d := d.modTmu n (fun c => { c with byReg := true })
    if d.tmuGroup (n / 16) = .on then d.tbNow.armNow n
    else (d.modTmu n (fun c => { c with st := tmWaking })).tmuPower

/-- TMU_GROUP_ON: 20 µs of waking are over; pending armings take effect (R275). -/
def Dev.tmuGroupOn (d : Dev) (g : Nat) : Dev :=
  if d.tmuGroup g ≠ .waking then d
  else
    let d := { d with tmu := { d.tmu with groups := mapSet d.tmu.groups g Dom.on } }
    ((List.range 16).map (fun i => 16 * g + i)).foldl (fun d n => if (d.tmuCh n).st = tmWaking then d.armNow n else d) d.tbNow

/-! ### Code-density test (R279) -/

/-- Whether the test of a channel may begin: not armed or suspended, no claiming site in a run, no calibration commit pending for the
TMU table (R489). -/
def Dev.tmuCalReady (d : Dev) (n : Nat) : Bool :=
  let c := d.tmuCh n
  c.calWant && c.st == tmIdle && !(d.calPending 16) &&
    (match d.tmuClaim n with | some k => !(d.site k.site).st.busy | none => true)

/-- Waiting tests whose channels are free begin. -/
def Dev.tmuCalKick (d : Dev) : Dev :=
  ((List.range 32).foldl (fun d n =>
    if d.tmuCalReady n then d.modTmu n (fun c => { c with st := tmCalibrating, calWant := false }) else d) d).tmuPower

/-- BUSY ends with the last test (R281). -/
def Dev.tmuCalView (d : Dev) : Dev :=
  let busy := (List.range 32).any (fun n => (d.tmuCh n).calWant || (d.tmuCh n).st == tmCalibrating)
  d.setF R.TMU_CAL_CTRL F.TMU_CAL_CTRL_BUSY (bit busy)

/-- TMU_CAL_START: a write of START, ignored while BUSY; the temperature is sampled (R496). -/
def Dev.tmuCalStart (d : Dev) : Dev :=
  if d.flag R.TMU_CAL_CTRL F.TMU_CAL_CTRL_BUSY then d
  else
    let (t, d) := d.meanTemp (List.range 16)
    let d := { d with tmu := { d.tmu with calTemp := t } }
    let d := (bitList (d.reg R.TMU_CAL_MASK).toNat 32).foldl (fun d n => d.modTmu n (fun c => { c with calWant := true })) d
    d.tmuCalKick.tmuCalView

/-- The widths that 128 counts give (R279 step 5). -/
def binWidths (counts : List Nat) : List Nat :=
  let w := (List.range 128).map (fun i => (2 * 64000 * nth counts i 0 + 2 ^ 20) / 2 ^ 21)
  let top := w.foldl max 0
  let i := (w.idxOf top)
  setNth w i (top + 64000 - w.sum)

/-- The end of a channel's test: it leaves CALIBRATING (or waits no more). -/
def Dev.tmuCalEnd (d : Dev) (n : Nat) (failed : Bool) : Dev :=
  let d := d.modTmu n (fun c => { c with st := if c.st = tmCalibrating then tmIdle else c.st })
  let d := d.setBit R.TMU_CAL_FAIL n failed
  ((d.latch R.TMU_INT_STATUS F.TMU_INT_STATUS_CAL_DONE).tmuPower).tmuCalView

/-- TMU_CAL_DONE: the 2^20 edges of a channel are counted. The shadow TMU table takes its bins, time and temperature (R488). -/
def Dev.tmuCalDone (d : Dev) (n : Nat) (counts : List Nat) : Dev :=
  if (d.tmuCh n).st ≠ tmCalibrating then d
  else if (List.range 128).any (fun i => nth counts i 0 < 2048 || nth counts i 0 > 16384) then d.tmuCalEnd n true
  else
    let t := d.calShadow 16
    let body := splice t.body (288 * n) ((binWidths counts).flatMap (bytesOf 2))
    (d.calWriteShadow 16 { t with body := body, secs := d.time.secs, temp := d.tmu.calTemp }).tmuCalEnd n false

/-! ### Disarming -/

/-- DISARM: a channel armed by register (R271). -/
def Dev.disarm (d : Dev) (n : Nat) : Dev :=
  let c := d.tmuCh n
  if !c.byReg then d
  else
    let d := if c.st = tmWaking then d else d.tbNow.tmuMark n 1
    let d := if d.tmuDiff n then d.modTmu (n + 1) (fun c => { c with st := tmIdle }) else d
    (d.modTmu n (fun c => { c with st := tmIdle, byReg := false, interval := none })).tmuClaims.tmuCalKick

/-! ### Stamps (R266, R267, R277) -/

/-- The stamp of an edge at tick `tb` and fine code `code`: converted, or as a suspended channel stamps (R265, R267). -/
def Dev.tmuStampOf (d : Dev) (n tb code seq : Nat) (rise : Bool) : TmuStamp × Dev :=
  if (d.tmuCh n).st = tmSuspended ∨ d.tbValid = false then (⟨seq, tb, 0, tb, 0, rise, true, none, []⟩, d)
  else
    let desk := match d.tmuPin n with | some ch => d.compareDeskew ch | none => 0
    -- units of 1/2,048 ps: a tick 512,000, a fine offset unit 8, a path unit 256, a deskew unit 125
    let x : Int := 512000 * tb + 8 * d.rawFine n code - 256 * d.tmuPath n (d.tmuSource n) - 125 * desk
    let (q, d) := d.divFree x 256
    let q := (q % (2000 * 2 ^ 64)).toNat
    (⟨seq, tb, code, q / 2000, q % 2000, rise, false, none, []⟩, d)

/-- The pair of even channel `n` writes a time-out for its open interval (R277). SEQ, STOP_CODE and RISE have no stop edge to come from: free
values (log entry 7). -/
def Dev.diffOut (d : Dev) (n : Nat) (o : TmuOpen) : Dev :=
  let (f, d) := d.drawNat
  (d.modTmu n (fun c => { c with interval := none })).tmuAfter (n + 1) n
    ⟨none, true, f % 65536, o.tick, differenceRecord n (f % 65536) 0 o.code (f / 65536 % 128) true o.unref (tbit f 23)⟩

/-- The open interval of a pair, and the tick of its DIFF_MAX expiry where it has one. -/
def Dev.diffOpen (d : Dev) (n : Nat) : Option (TmuOpen × Nat) :=
  let m := (d.reg (R.TMU_CH_DIFF_MAX n)).toNat
  match (d.tmuCh n).interval with
  | none => none
  | some o => if m = 0 ∨ d.tmuDiff n = false then none else some (o, o.tick + m)

/-- TMU_DIFF_TIMEOUT: DIFF_MAX ticks after a start (R277). -/
def Dev.diffTimeout (d : Dev) (n : Nat) : Dev :=
  match d.diffOpen n with
  | none => d
  | some (o, due) => (d.tbAt due).diffOut n o

/-- An edge of the pair of `n` finds an interval whose DIFF_MAX is past: its time-out came first. In the tick of the expiry a stop wins (R277). -/
def Dev.diffPast (d : Dev) (n : Nat) : Dev :=
  let k := n - n % 2
  match d.diffOpen k with
  | none => d
  | some (o, due) => if d.tmu.tb > due then d.diffOut k o else d

/-- Whether a channel stamps its edges: armed, suspended from being armed, or the partner of such a channel (R265, R275, R276). -/
def Dev.tmuActive (d : Dev) (n : Nat) : Bool :=
  let on := fun (c : TmuCh) => c.st == tmArmed || (c.st == tmSuspended && (c.byReg || c.claimRun))
  on (d.tmuCh n) || ((d.tmuCh n).st == tmPaired && on (d.tmuCh (n - 1)))

/-- TMU_EDGE: an edge reaches a channel at tick `tick`, fine code `code`. -/
def Dev.tmuEdge (d : Dev) (n tick code : Nat) (rise : Bool) : Dev :=
  let d := (d.tbAt tick).diffPast n
  let tb := d.tmu.tb
  let c := d.tmuCh n
  if !(d.tmuActive n) || !(d.tmuSelected n rise) || !(d.tmuLive n) then d
  else
    let susp := c.st = tmSuspended ∨ d.tbValid = false
    let at_ := 64000 * tb + (if susp then 0 else d.rawFine n code)
    let dead : Bool := match c.lastAt with | some t => decide (at_ < t + 20 * 64000) | none => false
    if dead ∨ (d.tmuDiff n = true ∧ c.interval.isSome = true) then d.bump (R.TMU_CH_MISSED n) F.TMU_CH_MISSED_MISSED
    else
      let (s, d) := d.tmuStampOf n tb code c.seq rise
      let d := d.modTmu n (fun c => { c with seq := (c.seq + 1) % 65536, lastAt := some at_ })
      if d.tmuDiff n then d.modTmu n (fun c => { c with interval := some ⟨s.time, s.code, tb, s.unref⟩ })
      else if c.st = tmPaired then
        match (d.tmuCh (n - 1)).interval with
        | some o =>
          if s.time < o.start then d
          else (d.modTmu (n - 1) (fun c => { c with interval := none })).modTmu n (fun c => { c with held := c.held ++ [{ s with closes := some o }] })
        | none => d
      else d.modTmu n (fun c => { c with held := c.held ++ [s] })

/-- The tick of the test source's next pulse at or after `tick`: INTERVAL ticks apart (R260). -/
def Dev.nextPulse (d : Dev) (tick : Nat) : Nat :=
  let t := max tick d.tmu.tb
  match d.tmu.pulse with
  | none => t
  | some p =>
    let i := d.getF R.TMU_TEST F.TMU_TEST_INTERVAL
    p + i * max 1 (ceilDiv (t - p) i)

/-- TMU_TEST_PULSE: the test source's next pulse from tick `tick` on, fine code 0, on every channel that selects it (R260). -/
def Dev.testPulse (d : Dev) (tick : Nat) : Dev :=
  let t := d.nextPulse tick
  let d : Dev := { d with tmu := { d.tmu with pulse := some t } }
  (List.range 32).foldl (fun d n => if d.tmuSource n = 3 then d.tmuEdge n t 0 true else d) (d.tbAt t)

/-! ### Draining (R269, R270) -/

/-- Losses before a record: what the FIFO lost, after what the buffer lost. -/
def gapJoin : Option TmuGap → Option TmuGap → Option TmuGap
  | none, g => g
  | g, none => g
  | some a, some b => some ⟨a.first.orElse (fun _ => b.first), a.lost + b.lost, a.cause ||| b.cause⟩

/-- Whether the buffer of a channel has no room for a record. -/
def Dev.tmuFull (d : Dev) (n : Nat) : Bool :=
  let len := 4096 * d.getF (R.TMU_CH_BUF_SIZE n) F.TMU_CH_BUF_SIZE_BUF_4K
  len == 0 || ((d.reg (R.TMU_CH_WR n)).toNat + 16) % len == (d.reg (R.TMU_CH_RD n)).toNat

/-- Write a record at WR. -/
def Dev.tmuPut (d : Dev) (n : Nat) (bytes : List Byte) : Dev :=
  let len := 4096 * d.getF (R.TMU_CH_BUF_SIZE n) F.TMU_CH_BUF_SIZE_BUF_4K
  let wr := (d.reg (R.TMU_CH_WR n)).toNat
  (d.write (4096 * (d.reg (R.TMU_CH_BUF_BASE n)).toNat + wr) bytes).setReg (R.TMU_CH_WR n) (BitVec.ofNat 32 ((wr + 16) % len))

/-- A record is lost to the full buffer. -/
def Dev.tmuLose (d : Dev) (n : Nat) (x : TmuItem) : Dev :=
  let d := d.modTmu n (fun c => { c with bufGap := some (gapAdd c.bufGap x.lostSeq 2) })
  if x.stamp then d.bump (R.TMU_CH_LOST n) F.TMU_CH_LOST_LOST else d

/-- Write a GAP record; one that tells of lost markers only has a free SEQ (log entry 7). -/
def Dev.tmuGapPut (d : Dev) (n : Nat) (g : TmuGap) : Dev :=
  let (f, d) := match g.first with | some f => (f, d) | none => d.drawNat
  ((d.tmuPut n (g.record n f)).modTmu n (fun c => { c with bufGap := none })).latch R.TMU_INT_STATUS F.TMU_INT_STATUS_GAP

/-- TMU_RECORD_DRAIN: the oldest record of the FIFO goes to the buffer, after a GAP record for the losses before it. -/
def Dev.tmuDrain (d : Dev) (n : Nat) : Dev :=
  match (d.tmuCh n).fifo with
  | [] => d
  | x :: rest =>
    let gap := gapJoin (d.tmuCh n).bufGap x.gap
    let d := d.modTmu n (fun c => { c with fifo := rest, bufGap := gap })
    if d.tmuFull n then d.tmuLose n x
    else
      let d := match gap with
        | some g => d.tmuGapPut n g
        | none => d
      if d.tmuFull n then d.tmuLose n x
      else
        let a := 4096 * (d.reg (R.TMU_CH_BUF_BASE n)).toNat + (d.reg (R.TMU_CH_WR n)).toNat
        (d.tmuPut n x.bytes).modTmu n (fun c => { c with written := if x.stamp then c.written ++ [(a, x.tb)] else c.written })

/-! ### Loss and return of the time base (R262–R265) -/

/-- TB stops being valid: armed and claimed channels are suspended, running tests fail (R265, R279). -/
def Dev.tbLost (d : Dev) : Dev :=
  if !d.tbValid then d
  else
    let d := d.tbNow.setF R.TMU_REF_STATUS F.TMU_REF_STATUS_TB_VALID 0
    ((List.range 32).foldl (fun (d : Dev) n =>
      let st := (d.tmuCh n).st
      if st = tmArmed then (d.tmuMark n 2).modTmu n (fun c => { c with st := tmSuspended })
      else if st = tmCalibrating then d.tmuCalEnd n true
      else d) d).tmuClaims

/-- Stamps whose tick meets `late` carry UNREFERENCED: those held, with the intervals that they open or wait for (R264, R265). -/
def TmuCh.unrefHeld (late : Nat → Bool) (c : TmuCh) : TmuCh :=
  let item := fun (x : TmuItem) => if x.stamp && late x.tb then { x with bytes := setNth x.bytes 12 (nth x.bytes 12 0 ||| 1) } else x
  let open_ := fun (o : TmuOpen) => if late o.tick then { o with unref := true } else o
  { c with held := c.held.map (fun s => { s with unref := s.unref || late s.tb, closes := s.closes.map open_, after := s.after.map item })
           interval := c.interval.map open_ }

/-- The same of the stamps that are committed: kept, queued in the FIFO. -/
def TmuCh.unrefDone (late : Nat → Bool) (c : TmuCh) : TmuCh :=
  let item := fun (x : TmuItem) => if x.stamp && late x.tb then { x with bytes := setNth x.bytes 12 (nth x.bytes 12 0 ||| 1) } else x
  { c with recent := c.recent.map (fun s => { s with unref := s.unref || late s.tb }), fifo := c.fifo.map item }

/-- Set bit 0 of bytes of memory: FLAGS of written records. -/
def Dev.flagBytes (d : Dev) (places : List Nat) : Dev := places.foldl (fun (d : Dev) a => d.write a [memByte d.mem a ||| 1]) d

/-- The capture records whose fine time came from a stamp that turns UNREFERENCED (R256). -/
def Dev.unrefFine (d : Dev) (late : Nat → Bool) : Dev :=
  d.flagBytes ((d.tmu.fineRefs.filter (fun r => late r.tb)).map (·.place + 10))

/-- Stamps taken after tick `last`, the last REFCLK edge before the declaration of absence, carry UNREFERENCED (R265). -/
def Dev.tmuRefLost (d : Dev) (last : Nat) : Dev :=
  let late := fun t => decide (t > last)
  let held := fun (r : FineRef) => (d.tmuCh r.tmu).held.any (fun s => s.tb == r.tb)
  let d : Dev := { d with tmu := { d.tmu with chs := d.tmu.chs.map (fun (x : Nat × TmuCh) => (x.1, x.2.unrefHeld late)) } }
  d.flagBytes ((d.tmu.fineRefs.filter (fun r => late r.tb && held r)).map (·.place + 10))

/-- A slip flags every stamp taken since the previous SYNC edge: held, queued and written (R264). -/
def Dev.tmuSlip (d : Dev) : Dev :=
  let late := fun t => decide (t ≥ d.tmu.syncTb)
  let d := (d.latch R.TMU_TB_STATUS F.TMU_TB_STATUS_SLIP).bump R.TMU_TB_STATUS F.TMU_TB_STATUS_SLIP_COUNT
  let d := d.latch R.TMU_INT_STATUS F.TMU_INT_STATUS_SLIP
  let places := d.tmu.chs.flatMap (fun x => (x.2.written.filter (fun w => late w.2)).map (·.1 + 12))
  let d : Dev := { d with tmu := { d.tmu with chs := d.tmu.chs.map (fun (x : Nat × TmuCh) => (x.1, (x.2.unrefHeld late).unrefDone late)) } }
  (d.flagBytes places).unrefFine late

/-- The TMU's part of a SYNC edge at which TB reads `tick` (R261, R262, R264, R265). A slip is a TB that is no multiple of 40,000, or, with TB
valid, that of another epoch (R341, R491). -/
def Dev.tmuSync (d : Dev) (tick : Nat) : Dev :=
  let e := d.flue.epoch
  let slip := tick % 40000 != 0 || (d.tbValid && d.flue.known && tick != 40000 * e)
  let d := if slip then d.tmuSlip else d
  let tb := if d.flue.known then 40000 * e else tick
  let chs := d.tmu.chs.map (fun (x : Nat × TmuCh) => (x.1, { x.2 with written := [] }))
  let refs := d.tmu.fineRefs.filter (fun r => (d.tmuCh r.tmu).held.any (fun s => s.tb == r.tb))
  let d : Dev := { d with tmu := { d.tmu with tb := tb, syncTb := tb, chs := chs, fineRefs := refs, pulse := d.tmu.pulse.map (fun p => p + tb - tick) } }
  let valid := d.board.refPresent && d.getF (R.CLK_PLL_STATUS 0) F.CLK_PLL_STATUS_STATE == 3 && d.flue.known
  if valid && !d.tbValid then
    let d := d.setF R.TMU_REF_STATUS F.TMU_REF_STATUS_TB_VALID 1
    (List.range 32).foldl (fun (d : Dev) n =>
      let c := d.tmuCh n
      if c.st = tmSuspended then
        (d.tmuMark n 3).modTmu n (fun c => { c with st := if c.byReg || c.claimRun then tmArmed else tmIdle })
      else d) d
  else d

/-! ### Registers (R281) -/

/-- The channel of a TMU_CHn offset and the offset within it. -/
def tmuOf (off : Nat) : Option (Nat × Nat) :=
  if 0xC0100 ≤ off ∧ off < 0xC0900 then some ((off - 0xC0100) / 64, (off - 0xC0100) % 64) else none

/-- Writes that set another value than written (R260, R281). -/
def tmuNorm (off : Nat) (w : Word) : Word :=
  if off = R.TMU_TEST then (if getBits w F.TMU_TEST_INTERVAL < 20 then setBits w F.TMU_TEST_INTERVAL 20 else w)
  else match tmuOf off with
    | some (_, 0) => let r := getBits w F.TMU_CH_CFG_RATE; if r = 0 ∨ r > 50 then setBits w F.TMU_CH_CFG_RATE 50 else w
    | _ => w

/-- The run lock of R272: THRESH, RECORD, RATE and the buffer of a claimed channel while its site is in a run. -/
def Dev.tmuLocked (d : Dev) (off : Nat) (old w : Word) : Bool :=
  match tmuOf off with
  | some (n, o) =>
    (match d.tmuClaim n with | some c => (d.site c.site).st.busy | none => false) &&
    ((o == 0 && [F.TMU_CH_CFG_THRESH, F.TMU_CH_CFG_RECORD, F.TMU_CH_CFG_RATE].any (fun f => getBits old f != getBits w f)) ||
      ((o == 0x0C || o == 0x10) && old != w))
  | none => false

/-- Effects of a write: ARM, then DISARM, when both are written (DESIGN CHOICE, log entry 44). -/
def Dev.tmuEffect (d : Dev) (off : Nat) (w : Word) : Dev :=
  if off = R.TMU_CAL_CTRL then (if getBits w F.TMU_CAL_CTRL_START = 1 then d.tmuCalStart else d)
  else match tmuOf off with
    | some (n, 4) =>
      let d := if getBits w F.TMU_CH_CTRL_ARM = 1 then d.arm n else d
      if getBits w F.TMU_CH_CTRL_DISARM = 1 then d.disarm n else d
    | _ => d

end Sys2Proof.Machine
end

