-- ==== Sys2Proof/Machine/Clocks.lean ====
section
/-! DEFINITION. Reference, PLLs, grid phase, SYNC generator, clock outputs (spec/11 R300–R322). A PLL's bypass source, the lock
summary and the state of a clock output follow from what is held; they are computed where they are read. -/

namespace Sys2Proof.Machine

/-- States of R307. -/
def plOff : Nat := 0
def plAcquire : Nat := 1
def plSettle : Nat := 2
def plLocked : Nat := 3
def plHoldover : Nat := 4
def plError : Nat := 5

/-- Indices of R303. -/
def pllGrid : Nat := 0
def pllCore : Nat := 1
def pllFabric : Nat := 2
def pllDram0 : Nat := 3
def pllDram1 : Nat := 4

/-- Bits of SOURCE with a stopped clock and the like: BYPASS_SRC of R322. -/
def Dev.bypassSrc (d : Dev) (p : Nat) : Nat := if d.pllLocked p then 0 else if d.board.refPresent then 1 else 2

/-! ### Value rules (R303, R304, R318) -/

/-- Whether N and POST lie in a PLL's row and keep its tree within its maximum. -/
def pllRowOk (p n post : Nat) : Bool :=
  if p = 0 then n == 40 && post == 0
  else if p = 1 then 32 ≤ n && n ≤ 44 && (post == 1 || post == 2 || post == 3) && n * 100 ≤ 2000 * 2 ^ post
  else if p = 2 then n == 40 && post == 2
  else if p = 3 ∨ p = 4 then 40 ≤ n && n ≤ 68 && post == 1 && n * 100 ≤ 3200 * 2
  else n == 125 && post == 0

/-- The highest frequency of a format, in MHz. -/
def outLimit (format : Nat) : Nat := if format = 1 then 1000 else if format = 2 then 400 else 200

/-- Whether SOURCE, DIV and FORMAT are allowed together. -/
def outComboOk (source div format : Nat) : Bool :=
  if source = 0 then 4 ≤ div && (format == 0 || 4000 ≤ outLimit format * div)
  else if source = 1 then 1 ≤ div && (format == 0 || 100 ≤ outLimit format * div)
  else if source = 2 then 1 ≤ div && (format == 0 || 50 ≤ outLimit format * div)
  else div == 1

/-- Whether the source of an output runs for it (R320). -/
def Dev.outSourceRuns (d : Dev) (n : Nat) : Bool :=
  let src := d.getF (R.CLK_OUT_CFG n) F.CLK_OUT_CFG_SOURCE
  if src = 0 then d.pllLocked pllGrid || !(d.flag (R.CLK_OUT_CFG n) F.CLK_OUT_CFG_STOP_ON_BYPASS)
  else if src = 1 then d.board.refPresent
  else true

/-- Whether an output is enabled with a format that drives. -/
def Dev.outEnabled (d : Dev) (n : Nat) : Bool :=
  d.flag (R.CLK_OUT_CFG n) F.CLK_OUT_CFG_ENABLE && d.getF (R.CLK_OUT_CFG n) F.CLK_OUT_CFG_FORMAT != 0

/-- CLK_OUTn_STATUS (R320): RUNNING, HELD, FOLLOWING. -/
def Dev.outStatus (d : Dev) (n : Nat) : Word :=
  let on := d.outEnabled n
  let runs := d.outSourceRuns n
  let follow := on && runs && d.getF (R.CLK_OUT_CFG n) F.CLK_OUT_CFG_SOURCE == 0 && !(d.pllLocked pllGrid)
  BitVec.ofNat 32 (bit (on && runs) + 2 * bit (on && !runs) + 4 * bit follow)

/-- CLK_STATUS (R322). -/
def Dev.clkStatus (d : Dev) : Word :=
  let lock := maskOf ((List.range 6).filter d.pllLocked)
  BitVec.ofNat 32 ((63 - lock) * 2 ^ 16 + lock * 2 ^ 8 + 2 + bit d.board.refPresent)

/-- The PLL of a CLK_pll offset and the offset within it. -/
def pllOf (off : Nat) : Option (Nat × Nat) :=
  if 0x30100 ≤ off ∧ off < 0x301C0 then some ((off - 0x30100) / 32, (off - 0x30100) % 32) else none

/-- The output of a CLK_OUT offset and the offset within it. -/
def clkOutOf (off : Nat) : Option (Nat × Nat) :=
  if 0x30200 ≤ off ∧ off < 0x30240 then some ((off - 0x30200) / 16, (off - 0x30200) % 16) else none

/-- Value rules of the clock registers. -/
def Dev.clkRule (d : Dev) (off : Nat) (w : Word) : Option Nat :=
  if off = R.CLK_BAND_SEL then
    let p := getBits w F.CLK_BAND_SEL_PLL
    failWhen (p > 5 || (getBits w F.CLK_BAND_SEL_MEASURE == 1 && d.pllState p != plOff)) vkValue
  else match pllOf off, clkOutOf off with
    | some (p, 0), _ => failWhen (!(pllRowOk p (getBits w F.CLK_PLL_CTRL_N) (getBits w F.CLK_PLL_CTRL_POST))) vkValue
    | _, some (n, 0) =>
      let f := getBits w F.CLK_OUT_CFG_FORMAT
      failWhen (!(outComboOk (getBits w F.CLK_OUT_CFG_SOURCE) (getBits w F.CLK_OUT_CFG_DIV) f) ||
        ((d.outEnabled n && d.outSourceRuns n) && f != d.getF (R.CLK_OUT_CFG n) F.CLK_OUT_CFG_FORMAT)) vkValue
    | _, _ => none

/-- The run lock of R304: GRID, FABRIC and the DRAM PLLs while any site is in a run, FLUE while one of a start that spans devices is, CORE
never; and that of CLK_GRID_PHASE.TARGET (R315). -/
def Dev.pllLockedBy (d : Dev) (off : Nat) : Bool :=
  match pllOf off with
  | some (1, 0) => false
  | some (5, 0) => d.multiBusy
  | some (_, 0) => d.anyBusy
  | some (0, 12) => d.anyBusy
  | _ => false

/-- Writes that set another value than written. -/
def clkNorm (off : Nat) (w : Word) : Word :=
  if off = R.CLK_GRID_PHASE then (if getBits w F.CLK_GRID_PHASE_STEP_INTERVAL = 0 then setBits w F.CLK_GRID_PHASE_STEP_INTERVAL 1 else w)
  else match pllOf off with
    | some (_, 4) => if getBits w F.CLK_PLL_LIMIT_SETTLE = 0 then setBits w F.CLK_PLL_LIMIT_SETTLE 1 else w
    | _ => w

/-! ### Acquisition (R306, R307, R310) -/

/-- An entry of a band table (R305). -/
def Dev.band (d : Dev) (p b : Nat) : Word := mapGet d.clk.bands (64 * p + b) 0

/-- Whether band `b` meets R306 for a divider N. -/
def Dev.bandFits (d : Dev) (p n b : Nat) : Bool :=
  let e := d.band p b
  b ≤ d.getF (R.CLK_PLL_LIMIT p) F.CLK_PLL_LIMIT_CEIL_BAND && getBits e F.CLK_BAND_DATA_VALID == 1 &&
    getBits e F.CLK_BAND_DATA_FMIN + 2 ≤ 16 * n && 16 * n + 2 ≤ getBits e F.CLK_BAND_DATA_FMAX

/-- The lowest band from `lo` on that fits. -/
def Dev.bandFrom (d : Dev) (p n lo : Nat) : Option Nat := (List.range 64).find? (fun b => lo ≤ b && d.bandFits p n b)

def Dev.pll (d : Dev) (p : Nat) : Pll := mapGet d.clk.plls p ⟨0, 0, false⟩
def Dev.setPll (d : Dev) (p : Nat) (x : Pll) : Dev := { d with clk := { d.clk with plls := mapSet d.clk.plls p x } }
/-- The PLL is no longer one whose settle count the loss of REFCLK broke. -/
def Dev.uncut (d : Dev) (p : Nat) : Dev := { d with clk := { d.clk with cut := d.clk.cut.filter (· != p) } }

def Dev.setPllState (d : Dev) (p s : Nat) : Dev := d.setF (R.CLK_PLL_STATUS p) F.CLK_PLL_STATUS_STATE s

/-- A PLL enters ERROR (R306, R307, R464). -/
def Dev.pllError (d : Dev) (p err : Nat) : Dev :=
  (((d.setPllState p plError).setF (R.CLK_PLL_STATUS p) F.CLK_PLL_STATUS_ERR err).latch R.CLK_INT_STATUS F.CLK_INT_STATUS_PLL_ERROR).raise 12 p

/-- Load the dividers and the starting band, and acquire. -/
def Dev.acquire (d : Dev) (p : Nat) : Dev :=
  let n := d.getF (R.CLK_PLL_CTRL p) F.CLK_PLL_CTRL_N
  let d := (d.uncut p).setPll p ⟨n, d.getF (R.CLK_PLL_CTRL p) F.CLK_PLL_CTRL_POST, false⟩
  let d := (d.setF (R.CLK_PLL_STATUS p) F.CLK_PLL_STATUS_NEAR_RAIL 0).setF (R.CLK_PLL_STATUS p) F.CLK_PLL_STATUS_ERR 0
  match d.bandFrom p n 0 with
  | none => d.pllError p 1
  | some b => (d.setF (R.CLK_PLL_CTRL p) F.CLK_PLL_CTRL_BAND b).setPllState p plAcquire

/-- A LOCKED PLL leaves LOCKED for a state: counts, and what its trees' users suffer (R308, R311). The FLUE PLL takes the links with it: a site with
both reasons reports the lower one and logs both (R35, R333). -/
def Dev.unlock (d : Dev) (p st : Nat) : Dev :=
  if !(d.pllLocked p) then d.setPllState p st
  else
    let d := (d.bump (R.CLK_PLL_STATUS p) F.CLK_PLL_STATUS_LOSS_COUNT).setBit R.CLK_INT_STATUS p true
    let d := d.setPllState p st
    if p = pllGrid then (d.tbLost).smotherAll d.activeSites 2
    else if p = pllFabric then d.smotherAll d.activeSites 2
    else if p = 3 ∨ p = 4 then (d.dramPark p).smotherAll d.activeSites 2
    else if p = pllFlue then
      let spans := fun s => match d.startOf s with | some r => r.multi | none => false
      let links := (List.range 4).any d.portHeld
      let multi := d.activeSites.filter spans
      let linked := if links then d.activeSites.filter (fun s => d.isMulti s && !(spans s)) else []
      let d := d.flueDown
      let d := multi.foldl (fun (d : Dev) s => if links && d.isMulti s then d.smotherBoth s 2 10 else d.smother s 2) d
      d.smotherAll linked 10
    else d

/-- HOLDOVER is left for ACQUIRE while REFCLK is present and AUTO_RELOCK is 1. -/
def Dev.relock (d : Dev) (p : Nat) : Dev :=
  if d.pllState p = plHoldover ∧ d.board.refPresent = true ∧ d.flag (R.CLK_PLL_CTRL p) F.CLK_PLL_CTRL_AUTO_RELOCK = true then d.acquire p else d

/-- A write of CLK_pll_CTRL acts (R307, R310, R313). `old` is what the register held. -/
def Dev.pllCtrl (d : Dev) (p : Nat) (old w : Word) : Dev :=
  let en := getBits w F.CLK_PLL_CTRL_ENABLE = 1
  let st := d.pllState p
  let changed := getBits old F.CLK_PLL_CTRL_N != getBits w F.CLK_PLL_CTRL_N || getBits old F.CLK_PLL_CTRL_POST != getBits w F.CLK_PLL_CTRL_POST
  if ¬en then
    if st = plOff then d else (d.unlock p plOff).setF (R.CLK_PLL_STATUS p) F.CLK_PLL_STATUS_ERR 0
  else if st = plOff then d.acquire p
  else if st = plHoldover then (if changed && d.board.refPresent then d.acquire p else d.relock p)
  else if changed && st != plError then (d.unlock p plAcquire).acquire p
  else d

/-- PLL_IN_LOCK_WINDOW: 2,048 periods in the window. A loss in the same period wins (R313): without REFCLK nothing locks. -/
def Dev.inLockWindow (d : Dev) (p : Nat) : Dev := if d.pllState p = plAcquire ∧ d.board.refPresent = true then d.setPllState p plSettle else d

/-- ACQ_TIMEOUT: 200 µs without lock. -/
def Dev.acqTimeout (d : Dev) (p : Nat) : Dev :=
  if d.pllState p ≠ plAcquire then d
  else
    let x := d.pll p
    match (if x.retried then none else d.bandFrom p x.n (d.getF (R.CLK_PLL_CTRL p) F.CLK_PLL_CTRL_BAND + 1)) with
    | some b => (d.setPll p { x with retried := true }).setF (R.CLK_PLL_CTRL p) F.CLK_PLL_CTRL_BAND b
    | none => d.pllError p 2

/-- The trees switch to the PLL; the grid's starts the SYNC generator (R63, R307). -/
def Dev.lockNow (d : Dev) (p : Nat) : Dev :=
  if d.pllState p ≠ plSettle then d
  else
    let d := (d.setPllState p plLocked).dramUnpark p
    if p = pllGrid ∧ (d.role = 0 ∨ d.role = 1) then d.setF R.CLK_SYNC_STATUS F.CLK_SYNC_STATUS_GEN 1 else d

/-- SETTLE_END: the trees switch to the PLL. When REFCLK is declared absent in the same cycle they do not, and the PLL is in HOLDOVER: a settle count
that the declaration broke ends in its cycle or not at all (R313). The FLUE PLL lets enabled ports train (R327). -/
def Dev.settleEnd (d : Dev) (p : Nat) : Dev :=
  if d.clk.cut.contains p ∧ d.pllState p = plAcquire then (d.uncut p).setPllState p plHoldover
  else if d.pllState p = plSettle ∧ p = pllFlue then (d.lockNow p).flueUp
  else d.lockNow p

/-- LOCK_LOSS: the phase error leaves the window on four periods, or a slip (R307, R308). -/
def Dev.lockLoss (d : Dev) (p : Nat) : Dev :=
  if d.pllState p = plSettle then d.setPllState p plAcquire
  else if d.pllLocked p then (d.unlock p plHoldover).relock p
  else d

/-- NEAR_RAIL (R314). -/
def Dev.nearRail (d : Dev) (p : Nat) : Dev :=
  if d.pllLocked p then (d.setF (R.CLK_PLL_STATUS p) F.CLK_PLL_STATUS_NEAR_RAIL 1).latch R.CLK_INT_STATUS F.CLK_INT_STATUS_NEAR_RAIL else d

/-! ### REFCLK (R263, R308, R312) -/

/-- The band measurement in progress ends with an entry (R305). -/
def Dev.measureEnd (d : Dev) (entry : Word) : Dev :=
  match d.clk.measuring with
  | none => d
  | some k => ({ d with clk := { d.clk with bands := mapSet d.clk.bands k entry, measuring := none } }).setF R.CLK_BAND_SEL F.CLK_BAND_SEL_BUSY 0

/-- REFCLK_ABSENT: declared after 25 to 35 ns; `last` is TB at the last edge that came (R265). -/
def Dev.refAbsent (d : Dev) (last : Nat) : Dev :=
  if !d.board.refPresent then d
  else
    let d := { d with board := { d.board with refPresent := false } }
    let d := (d.latch R.CLK_INT_STATUS F.CLK_INT_STATUS_REF_LOSS).latch R.TMU_INT_STATUS F.TMU_INT_STATUS_REF_LOSS
    let d := (d.bump R.TMU_REF_STATUS F.TMU_REF_STATUS_LOSS_COUNT).raise 13 0
    let d := (d.tmuRefLost last).tbLost
    let d := (d.measureEnd 0).smotherAll d.activeSites 2
    let d := match d.cal.proc with
      | some q => if q.proc = 1 ∨ q.proc = 3 then q.running.foldl (fun d h => d.calEnd h.1 (some (4, 0))) d else d
      | none => d
    (List.range 6).foldl (fun (d : Dev) p =>
      if d.pllLocked p then d.unlock p plHoldover
      else if d.pllState p = plSettle then
        ({ d with clk := { d.clk with cut := p :: d.clk.cut } }).setPllState p plAcquire
      else d) d

/-- REFCLK_PRESENT: 4,096 good periods (R312). -/
def Dev.refPresentAgain (d : Dev) : Dev :=
  if d.board.refPresent then d
  else
    let d : Dev := { d with board := { d.board with refPresent := true }, clk := { d.clk with cut := [] } }
    let d := d.latch R.CLK_INT_STATUS F.CLK_INT_STATUS_REF_RETURN
    (List.range 6).foldl (fun d p => d.relock p) d

/-! ### Band measurement (R305) -/

/-- MEASURE of the selected entry; ignored while one runs (DESIGN CHOICE, log entry 45). -/
def Dev.measure (d : Dev) : Dev :=
  if d.clk.measuring.isSome then d
  else
    let k := 64 * d.getF R.CLK_BAND_SEL F.CLK_BAND_SEL_PLL + d.getF R.CLK_BAND_SEL F.CLK_BAND_SEL_BAND
    let d := ({ d with clk := { d.clk with measuring := some k } }).setF R.CLK_BAND_SEL F.CLK_BAND_SEL_BUSY 1
    if d.board.refPresent then d else d.measureEnd 0

/-- BAND_MEASURE_DONE: counts of VCO ÷ 64 over 1,024 REFCLK periods at the two clamps; one count is 6.25 MHz. -/
def Dev.measureDone (d : Dev) (low high : Nat) : Dev := d.measureEnd (BitVec.ofNat 32 (2 ^ 31 + (high + 1) % 4096 * 2 ^ 12 + low % 4096))

/-- The entry that CLK_BAND_SEL selects. -/
def Dev.bandSel (d : Dev) : Nat := 64 * d.getF R.CLK_BAND_SEL F.CLK_BAND_SEL_PLL + d.getF R.CLK_BAND_SEL F.CLK_BAND_SEL_BAND

/-! ### Grid phase, SYNC generator, ember clock (R302, R315, R317) -/

/-- GRID_PHASE_STEP: CURRENT moves one step the shorter way round, upward on a tie. -/
def Dev.phaseStep (d : Dev) : Dev :=
  let c := d.getF R.CLK_GRID_PHASE F.CLK_GRID_PHASE_CURRENT
  let t := d.getF R.CLK_GRID_PHASE F.CLK_GRID_PHASE_TARGET
  let ahead := (t + 256 - c) % 256
  if ahead = 0 ∨ d.pllLocked pllGrid = false then d
  else d.setF R.CLK_GRID_PHASE F.CLK_GRID_PHASE_CURRENT (if ahead ≤ 128 then (c + 1) % 256 else (c + 255) % 256)

/-- SYNC_PULSE_GEN: the generator of a manager or a standalone device drives a pulse, which opens the next epoch of its count (R317,
R340). -/
def Dev.syncPulse (d : Dev) : Dev :=
  if d.flag R.CLK_SYNC_STATUS F.CLK_SYNC_STATUS_GEN && d.role != 2 then
    ({ d with flue := { d.flue with genCount := d.flue.genCount + 1 } }).out .syncPulse
  else d

/-- EMBER_CLK_FAIL: 1 ms without an edge (R302, R509). -/
def Dev.emberFail (d : Dev) : Dev :=
  if d.flag R.CLK_EMBER_STATUS F.CLK_EMBER_STATUS_ON_BACKUP then d
  else
    let d := (d.setF R.CLK_EMBER_STATUS F.CLK_EMBER_STATUS_ON_BACKUP 1).count 3
    let d := d.setF R.CLK_EMBER_STATUS F.CLK_EMBER_STATUS_FAIL_COUNT (capAt (d.ledger 3) 65535)
    let d := (d.latch R.CLK_INT_STATUS F.CLK_INT_STATUS_EMBER).raise 14 0
    d.setF R.EMB_RTC_STATUS F.EMB_RTC_STATUS_DEGRADED 1

/-- EMBER_CLK_RETURN: 32,768 good crystal periods. -/
def Dev.emberReturn (d : Dev) : Dev :=
  if d.flag R.CLK_EMBER_STATUS F.CLK_EMBER_STATUS_ON_BACKUP then
    (d.setF R.CLK_EMBER_STATUS F.CLK_EMBER_STATUS_ON_BACKUP 0).latch R.CLK_INT_STATUS F.CLK_INT_STATUS_EMBER
  else d

/-- Effects of a write to a clock register. -/
def Dev.clkEffect (d : Dev) (off : Nat) (old w : Word) : Dev :=
  if off = R.CLK_BAND_SEL then (if getBits w F.CLK_BAND_SEL_MEASURE = 1 then d.measure else d)
  else if off = R.CLK_BAND_DATA then { d with clk := { d.clk with bands := mapSet d.clk.bands d.bandSel (w &&& 0x80FFFFFF) } }
  else match pllOf off with
    | some (p, 0) => d.pllCtrl p old w
    | _ => d

end Sys2Proof.Machine
end

