-- ==== Sys2Proof/Machine/Ed448.lean ====
section
/-! DEFINITION. Ed448 as RFC 8032 defines it, not Ed448ph (spec/20 R524, spec/21 R532, R535, R540): the curve, key generation,
signing and verification. The specification names the RFC and does not write it out: the constants and the equations are taken from the
RFC (PRESUMED, log entry 10). How the OTP secret and the string of R540 are joined is left open (`Config.idSeed`). -/

namespace Sys2Proof.Machine

/-- The field's prime. -/
def edP : Nat := 2 ^ 448 - 2 ^ 224 - 1

/-- The order of the base point. -/
def edL : Nat := 2 ^ 446 - 13818066809895115352007386748515426880336692474882178609894547503885

/-- A negative of the curve's constant d: the curve is x² + y² = 1 − 39081 x² y². -/
def edNegD : Nat := 39081

/-- A point in projective coordinates. -/
structure EdPoint where
  x : Nat
  y : Nat
  z : Nat
  deriving DecidableEq, Repr

/-- Difference of two residues below the prime. -/
def edSub (a b : Nat) : Nat := (a + edP - b) % edP

def edMul (a b : Nat) : Nat := a * b % edP

/-- The neutral point. -/
def EdPoint.zero : EdPoint := ⟨0, 1, 1⟩

/-- Sum of two points. -/
def EdPoint.add (p q : EdPoint) : EdPoint :=
  let a := edMul p.z q.z
  let b := edMul a a
  let c := edMul p.x q.x
  let d := edMul p.y q.y
  let e := edMul edNegD (edMul c d)
  let f := (b + e) % edP
  let g := edSub b e
  let h := edMul (p.x + p.y) (q.x + q.y)
  ⟨edMul (edMul a f) (edSub (edSub h c) d), edMul (edMul a g) (edSub d c), edMul f g⟩

/-- `k` times a point, over the lowest `n` bits of `k`. -/
def EdPoint.times : Nat → Nat → EdPoint → EdPoint
  | 0, _, _ => .zero
  | n + 1, k, p =>
    let r := EdPoint.times n (k / 2) (p.add p)
    if k % 2 = 1 then r.add p else r

/-- The same point of the curve. -/
def EdPoint.same (p q : EdPoint) : Bool := edMul p.x q.z == edMul q.x p.z && edMul p.y q.z == edMul q.y p.z

/-- A power modulo the prime, over the lowest `n` bits of the exponent. -/
def edPow : Nat → Nat → Nat → Nat
  | 0, _, _ => 1
  | n + 1, b, e => if e % 2 = 1 then edMul b (edPow n (edMul b b) (e / 2)) else edPow n (edMul b b) (e / 2)

def edInv (a : Nat) : Nat := edPow 448 a (edP - 2)

/-- The base point. -/
def edBase : EdPoint :=
  ⟨224580040295924300187604334099896036246789641632564134246125461686950415467406032909029192869357953282578032075146446173674602635247710,
    298819210078481492676017930443930673437544040154080242095928241372331506189835876003536878655418784733982303233503462500531545062832660, 1⟩

/-- The 57 bytes of a point: y, and the lowest bit of x as the highest bit. -/
def EdPoint.encode (p : EdPoint) : List Byte :=
  let i := edInv p.z
  bytesOf 57 (edMul p.y i + edMul p.x i % 2 * 2 ^ 455)

/-- The point of 57 bytes, if they spell one. -/
def edDecode (bs : List Byte) : Option EdPoint :=
  let n := natOf bs
  let y := n % 2 ^ 455
  let sign := n / 2 ^ 455
  let y2 := edMul y y
  let u := edSub y2 1
  let v := (edMul (edSub 0 edNegD) y2 + edP - 1) % edP
  let u3v := edMul (edMul u (edMul u u)) v
  let x := edMul u3v (edPow 448 (edMul (edMul u3v (edMul u u)) (edMul v v)) ((edP - 3) / 4))
  if bs.length ≠ 57 ∨ edP ≤ y ∨ edMul v (edMul x x) ≠ u ∨ (x = 0 ∧ sign = 1) then none
  else some ⟨if x % 2 = sign then x else edSub 0 x, y, 1⟩

/-- SHAKE256 over the prefix of Ed448 with a context, and a message, as a scalar. -/
def edHash (ctx msg : List Byte) : Nat :=
  natOf (shake256 114 ([0x53, 0x69, 0x67, 0x45, 0x64, 0x34, 0x34, 0x38, 0] ++ bytesOf 1 ctx.length ++ ctx ++ msg)) % edL

/-- The secret scalar of a hashed seed. -/
def edScalar (h : List Byte) : Nat := natOf (slice h 0 56) / 4 % 2 ^ 445 * 4 + 2 ^ 447

/-- The public key of a 57-byte seed. -/
def edPublic (seed : List Byte) : List Byte := (edBase.times 448 (edScalar (shake256 114 seed))).encode

/-- The signature with a 57-byte seed over a message under a context. -/
def edSign (seed ctx msg : List Byte) : List Byte :=
  let h := shake256 114 seed
  let s := edScalar h
  let key := (edBase.times 448 s).encode
  let r := edHash ctx (slice h 57 57 ++ msg)
  let commit := (edBase.times 448 r).encode
  commit ++ bytesOf 57 ((r + edHash ctx (commit ++ key ++ msg) * s) % edL)

/-- Verification: key, context, message, signature. The equation is the one with the cofactor 4. -/
def edVerify (key ctx msg sig : List Byte) : Bool :=
  let s := natOf (slice sig 57 57)
  match edDecode key, edDecode (slice sig 0 57) with
  | some a, some r =>
    sig.length == 114 && decide (s < edL) &&
      ((edBase.times 448 s).times 3 4).same ((r.add (a.times 448 (edHash ctx (slice sig 0 57 ++ key ++ msg)))).times 3 4)
  | _, _ => false

end Sys2Proof.Machine
end

