-- ==== Sys2Proof/Machine/Time.lean ====
section
/-! DEFINITION. Device time, PTP time stamps, management ports and the ember RTC (spec/20 R498–R509, R526). -/

namespace Sys2Proof.Machine

/-- One second in units of 2^-32 ns. -/
def secUnits : Nat := 10 ^ 9 * 2 ^ 32

/-- Device time moves by a signed amount of 2^-32 ns; carries and borrows go into SECONDS. A rollover of SECONDS loads the RTC and ends
its degradation (R501, R503, R509). -/
def Dev.addTime (d : Dev) (q : Int) : Dev :=
  let t : Int := (d.time.ns * 2 ^ 32 + d.time.frac : Nat) + q
  let carry := t / (secUnits : Int)
  let rest := (t % (secUnits : Int)).toNat
  let secs := ((d.time.secs + carry) % (2 ^ 48 : Int)).toNat
  let d := { d with time := { d.time with secs := secs, ns := rest / 2 ^ 32, frac := rest % 2 ^ 32 } }
  if carry > 0 then
    ({ d with time := { d.time with rtcSecs := secs, rtcSub := 0 } }).setF R.EMB_RTC_STATUS F.EMB_RTC_STATUS_DEGRADED
      (d.getF R.CLK_EMBER_STATUS F.CLK_EMBER_STATUS_ON_BACKUP)
  else d

/-- HOLDOVER is set; its rising is latched (R508, R526). -/
def Dev.timeHoldover (d : Dev) : Dev :=
  if d.flag R.MGT_TIME_STATUS F.MGT_TIME_STATUS_HOLDOVER then d
  else (d.setF R.MGT_TIME_STATUS F.MGT_TIME_STATUS_HOLDOVER 1).latch R.MGT_INT_STATUS F.MGT_INT_STATUS_HOLDOVER

/-- Whether the device-time tick is on OSC50 (R502). -/
def Dev.onOsc (d : Dev) : Bool := d.bypassSrc pllFabric == 2

/-- DEVICE_TIME_TICK (R501–R503): a new INC is loaded, INC is added as the tick's clock scales it, then a SET loads SECONDS and the ADJs
are added. Half a unit of INC × 5/2 falls up or down freely. -/
def Dev.timeTick (d : Dev) : Dev :=
  if d.banked then d
  else
    let d := match d.time.incPend with
      | some v => { d with time := { d.time with inc := v, incPend := none } }
      | none => d
    let src := d.bypassSrc pllFabric
    let (q, d) := if src = 0 then ((d.time.inc : Int), d)
      else if src = 1 then d.divFree (5 * d.time.inc) 2
      else ((5 * d.time.inc : Nat), d)
    let d := if src = 2 then d.timeHoldover else d
    let d := d.addTime q
    let d := match d.time.setPend with
      | some v => { d with time := { d.time with secs := v, setPend := none } }
      | none => d
    let adj := d.time.adjPend
    ({ d with time := { d.time with adjPend := [] } }).addTime ((adj.foldl (· + ·) 0) * 2 ^ 32)

/-! ### The MGT time registers -/

/-- The value that a write of MGT_TIME_INC_HI would load (R503). -/
def Dev.incOf (d : Dev) (w : Word) : Nat := getBits w F.MGT_TIME_INC_HI_INC * 2 ^ 32 + (d.reg R.MGT_TIME_INC_LO).toNat

/-- The range of R503: 3.996 ns to 4.004 ns. -/
def incOk (v : Nat) : Bool := 3996 * 2 ^ 32 ≤ 1000 * v && 1000 * v ≤ 4004 * 2 ^ 32

/-- Value rules of the MGT registers. -/
def Dev.mgtRule (d : Dev) (off : Nat) (w : Word) : Option Nat :=
  if off = R.MGT_TIME_INC_HI then failWhen (!(incOk (d.incOf w))) vkValue else none

/-- A write of SYNC_TIMEOUT_MS 0 sets 1. -/
def mgtNorm (off : Nat) (w : Word) : Word :=
  if off = R.MGT_PTP_CFG ∧ getBits w F.MGT_PTP_CFG_SYNC_TIMEOUT_MS = 0 then setBits w F.MGT_PTP_CFG_SYNC_TIMEOUT_MS 1 else w

/-- MGT_TIME_INC_HI: INC is loaded at the next tick; FROM_RTC clears; HOLDOVER clears when a Sync of the master that MGT_PTP_MASTER
names has come, off OSC50 (R503, R508, log entry 133). -/
def Dev.incWrite (d : Dev) (w : Word) : Dev :=
  let d := { d with time := { d.time with incPend := some (d.incOf w) } }
  let d := d.setF R.MGT_TIME_STATUS F.MGT_TIME_STATUS_FROM_RTC 0
  if d.time.syncs.contains d.time.master && !d.onOsc then d.setF R.MGT_TIME_STATUS F.MGT_TIME_STATUS_HOLDOVER 0 else d

/-- MGT_TIME_ADJ: signed nanoseconds, added at the next tick (R503). -/
def Dev.adjWrite (d : Dev) (w : Word) : Dev :=
  { d with time := { d.time with adjPend := d.time.adjPend ++ [sgn w.toNat 32] } }

/-- MGT_TIME_SET_SEC_HI: SECONDS is loaded at the next tick; UNSET clears (R503, R509). -/
def Dev.setSecWrite (d : Dev) (w : Word) : Dev :=
  let v := (d.reg R.MGT_TIME_SET_SEC_LO).toNat + 2 ^ 32 * getBits w F.MGT_TIME_SET_SEC_HI_SECONDS
  ({ d with time := { d.time with setPend := some v } }).setF R.MGT_TIME_STATUS F.MGT_TIME_STATUS_UNSET 0

/-- MGT_PTP_MASTER2 applies the master's identity; a change sets MASTER_CHANGE and HOLDOVER (R508). -/
def Dev.masterWrite (d : Dev) (w : Word) : Dev :=
  let m := [(d.reg (R.MGT_PTP_MASTER 0)).toNat, (d.reg (R.MGT_PTP_MASTER 1)).toNat, w.toNat % 65536]
  if m = d.time.master then d
  else
    let d := { d with time := { d.time with master := m } }
    let d := (d.latch R.MGT_TIME_STATUS F.MGT_TIME_STATUS_MASTER_CHANGE).latch R.MGT_INT_STATUS F.MGT_INT_STATUS_MASTER_CHANGE
    d.timeHoldover

/-- Effects of a write to an MGT register. -/
def Dev.mgtEffect (d : Dev) (off : Nat) (w : Word) : Dev :=
  if off = R.MGT_TIME_INC_HI then d.incWrite w
  else if off = R.MGT_TIME_ADJ then d.adjWrite w
  else if off = R.MGT_TIME_SET_SEC_HI then d.setSecWrite w
  else if off = R.MGT_PTP_MASTER 2 then d.masterWrite w
  else d

/-- MGT_TIME_NS: a read latches SECONDS and FRAC of the same tick (R504). -/
def Dev.readTimeNs (d : Dev) : Word × Dev :=
  let d' := (d.setReg R.MGT_TIME_SEC_LO (BitVec.ofNat 32 d.time.secs)).setReg R.MGT_TIME_SEC_HI
    (BitVec.ofNat 32 (d.time.secs / 2 ^ 32 % 65536 + 65536 * (d.time.frac / 65536)))
  (BitVec.ofNat 32 d.time.ns, d')

/-- MGT_TIME_STATUS with BYPASS as the tree stands (R502), once kindling has ended (log entry 114). -/
def Dev.timeStatus (d : Dev) : Word :=
  setBits (d.reg R.MGT_TIME_STATUS) F.MGT_TIME_STATUS_BYPASS (bit (d.flag R.SEC_KINDLE F.SEC_KINDLE_READY && !(d.pllLocked pllFabric)))

/-! ### PTP (R505–R508) -/

/-- The error of a timestamp in 2^-16 ns: within ±4 ns (R506). -/
def stampError (delta : Int) : Int := max (-262144) (min 262144 delta)

/-- A stamp of the present device time, `delta` in 2^-16 ns away from it (R506). -/
def Dev.stampNow (d : Dev) (tx : Bool) (m : PtpMsg) (delta : Int) : PtpStamp :=
  let t := (((d.time.secs * 10 ^ 9 + d.time.ns) * 65536 + d.time.frac / 65536 : Nat) + stampError delta).toNat
  { tx := tx, type := m.type, seqId := m.seqId, ns := t / 65536 % 10 ^ 9, secs := t / (65536 * 10 ^ 9) % 2 ^ 48, frac := t % 65536 }

/-- PTP_TIMESTAMP: a Sync or Delay_Req of the domain is sent or received on a port and stamped, `delta` being the error of at most 4 ns (R506); who
sent a Sync received is kept, for the INC write that looks for a matching one (R508). -/
def Dev.ptpStamp (d : Dev) (p : Nat) (tx : Bool) (m : PtpMsg) (delta : Int) : Dev :=
  if m.domain ≠ d.getF R.MGT_PTP_CFG F.MGT_PTP_CFG_DOMAIN ∨ m.type > 1 then d
  else
    let q := mapGet d.time.tsFifo p []
    let d := if q.length ≥ 16 then d.latch (R.MGT_TS_INFO p) F.MGT_TS_INFO_OVERFLOW
      else
        ({ d with time := { d.time with tsFifo := mapSet d.time.tsFifo p (q ++ [d.stampNow tx m delta]) } }).latch
          R.MGT_INT_STATUS F.MGT_INT_STATUS_TS
    if !tx && m.type == 0 && !(d.time.syncs.contains m.source) then { d with time := { d.time with syncs := d.time.syncs ++ [m.source] } } else d

/-- SYNC_TIMEOUT: no Sync of the master for SYNC_TIMEOUT_MS (R508). -/
def Dev.ptpTimeout (d : Dev) : Dev := ({ d with time := { d.time with syncs := [] } }).timeHoldover

/-- MGT_TSp_INFO: a read removes the oldest entry and latches it (R506, R526). -/
def Dev.readTsInfo (d : Dev) (p : Nat) : Word × Dev :=
  match mapGet d.time.tsFifo p [] with
  | [] =>
    let d := d.setF (R.MGT_TS_INFO p) F.MGT_TS_INFO_VALID 0
    (d.reg (R.MGT_TS_INFO p), d)
  | x :: t =>
    let d := { d with time := { d.time with tsFifo := mapSet d.time.tsFifo p t } }
    let ov := d.getF (R.MGT_TS_INFO p) F.MGT_TS_INFO_OVERFLOW
    let d := d.setReg (R.MGT_TS_INFO p) (BitVec.ofNat 32 (2 ^ 31 + 2 ^ 30 * ov + 2 ^ 20 * bit x.tx + 2 ^ 16 * (x.type % 16) + x.seqId % 65536))
    let d := (d.setReg (R.MGT_TS_NS p) (BitVec.ofNat 32 x.ns)).setReg (R.MGT_TS_SEC_LO p) (BitVec.ofNat 32 x.secs)
    let d := d.setReg (R.MGT_TS_SEC_HI p) (BitVec.ofNat 32 (x.secs / 2 ^ 32 % 65536 + 65536 * (x.frac % 65536)))
    (d.reg (R.MGT_TS_INFO p), d)

/-! ### Management ports (R498, R499, R507) -/

/-- A number spelled most significant byte first, as networks do. -/
def natBE (bs : List Byte) : Nat := natOf bs.reverse

/-- The MAC address of a port; bits 47:40 go first on the wire. -/
def Dev.portMac (d : Dev) (p : Nat) : Nat := (d.reg (R.MGT_PORT_MAC_LO p)).toNat + 2 ^ 32 * d.getF (R.MGT_PORT_MAC_HI p) F.MGT_PORT_MAC_HI_MAC

def Dev.mgtUp (d : Dev) (p : Nat) : Bool := d.flag (R.MGT_PORT_CTRL p) F.MGT_PORT_CTRL_ENABLE && d.flag (R.MGT_PORT_STATUS p) F.MGT_PORT_STATUS_LINK

/-- Whether a port may forward to the other (R499). -/
def Dev.mgtForwards (d : Dev) (p : Nat) : Bool :=
  let both := fun (f : Fld) => d.flag (R.MGT_PORT_CTRL p) f && d.flag (R.MGT_PORT_CTRL (1 - p)) f
  both F.MGT_PORT_CTRL_ENABLE && both F.MGT_PORT_CTRL_FORWARD && d.flag (R.MGT_PORT_STATUS (1 - p)) F.MGT_PORT_STATUS_LINK

/-- Offset of the type field behind VLAN tags, and its value. -/
def etherType (bs : List Byte) : Nat → Nat → Nat × Nat
  | 0, o => (o, natBE (slice bs o 2))
  | fuel + 1, o =>
    let t := natBE (slice bs o 2)
    if t = 0x8100 ∨ t = 0x88A8 then etherType bs fuel (o + 4) else (o, t)

/-- Where the PTP header of a frame starts, and where a UDP checksum stands (IEEE 1588 Annexes C and E, R505). -/
def ptpHeader (bs : List Byte) : Option (Nat × Option Nat) :=
  let (o, t) := etherType bs 4 12
  if t = 0x88F7 then some (o + 2, none)
  else if t = 0x0800 ∧ fieldAt bs (o + 11) 1 = 17 then
    let u := o + 2 + 4 * (fieldAt bs (o + 2) 1 % 16)
    let port := natBE (slice bs (u + 2) 2)
    if port = 319 ∨ port = 320 then some (u + 8, some (u + 6)) else none
  else none

/-- A frame of the Leloisk Ethertype (R475): the MAC answers or discards it, and the agent never sees it. -/
def isLeloisk (bs : List Byte) : Bool := (etherType bs 4 12).2 == 0x88B5

/-- A forwarded frame with the transparent-clock correction of R507; `residence` in 2^-16 ns. -/
def tcCorrect (bs : List Byte) (residence : Int) : List Byte :=
  match ptpHeader bs with
  | none => bs
  | some (h, cks) =>
    if fieldAt bs h 1 % 16 > 1 then bs
    else
      let v := unsgn (sgn (natBE (slice bs (h + 8) 8)) 64 + residence) 64
      let bs := splice bs (h + 8) (bytesOf 8 v).reverse
      match cks with
      | some c => splice bs c (bytesOf 2 0)
      | none => bs

/-- MGT_FRAME_RECEIVE: a frame without its FCS reaches a port (R498–R500). Bad or long frames are discarded;
a Leloisk frame goes to no agent, its answer being the row of its operation (R500). -/
def Dev.frameReceive (d : Dev) (p : Nat) (bytes : List Byte) (fcsOk : Bool) (residence : Int) : Dev :=
  if !fcsOk || bytes.length + 4 > 1522 || d.banked || !(d.mgtUp p) then d
  else
    let dest := natBE (slice bytes 0 6)
    let group := fieldAt bytes 0 1 % 2 = 1
    let own := dest = d.portMac p
    let d := if (group ∨ own) ∧ isLeloisk bytes = false then d.out (.agentFrame p bytes) else d
    if own ∨ d.mgtForwards p = false then d
    else d.out (.frame (1 - p) (if d.flag R.MGT_PTP_CFG F.MGT_PTP_CFG_TC_EN then tcCorrect bytes residence else bytes))

/-- MGT_LINK_CHANGE: the link state that a port's partner gives (R498): SPEED_BAD holds the link down. -/
def Dev.mgtLink (d : Dev) (p : Nat) (up anDone speedBad : Bool) : Dev :=
  let link := up && !speedBad
  let was := d.flag (R.MGT_PORT_STATUS p) F.MGT_PORT_STATUS_LINK
  let d := d.setReg (R.MGT_PORT_STATUS p) (BitVec.ofNat 32 (bit link + 2 * bit anDone + 4 * bit speedBad))
  if link = was then d else d.latch R.MGT_INT_STATUS F.MGT_INT_STATUS_LINK

/-! ### RTC (R509) -/

/-- EMB_RTC_SEC_LO: a read latches HI. -/
def Dev.readRtc (d : Dev) : Word × Dev :=
  (BitVec.ofNat 32 d.time.rtcSecs,
    d.setReg R.EMB_RTC_SEC_HI (BitVec.ofNat 32 (d.time.rtcSecs / 2 ^ 32 % 65536 + 65536 * (d.time.rtcSub % 32768))))

/-- Device time is loaded from the RTC (R509, step 2 of an ascent). -/
def Dev.timeFromRtc (d : Dev) : Dev :=
  let d := { d with time := { d.time with secs := d.time.rtcSecs, ns := d.time.rtcSub * 10 ^ 9 / 32768, frac := 0 } }
  (d.setF R.MGT_TIME_STATUS F.MGT_TIME_STATUS_FROM_RTC 1).timeHoldover

end Sys2Proof.Machine
end

