-- ==== Sys2Proof/Machine/Ledger.lean ====
section
/-! DEFINITION. The lifetime ledger and its checkpoints (spec/20 R510–R515), the flushing, checkpoints and reading of the audit log
(R522–R525), the permission registers (R517). -/

namespace Sys2Proof.Machine

/-! ### Ledger -/

/-- Ledger items of R510. -/
def liPowerOn : Nat := 0
def liBanked : Nat := 1
def liDouses : Nat := 2
def liEmberFails : Nat := 3
def liEmberLosses : Nat := 4
def liCheckpoints : Nat := 5
def liFlashErase (r : Nat) : Nat := 0x20 + r
def liTemp (i : Nat) : Nat := 0x30 + i
def liGrate (g : Nat) : Nat := 0x80 + g
def liRelayTotal (k : Nat) : Nat := 0x100 + k
def liRelaySince (k : Nat) : Nat := 0x190 + k
def liRelayLimit (k : Nat) : Nat := 0x220 + k
def liLastCal (k : Nat) : Nat := 0x300 + k
def liDue (k : Nat) : Nat := 0x320 + k

/-- DUE of a relay drive (R85, R511). -/
def Dev.relayDue (d : Dev) (k : Nat) : Bool := d.ledger (liRelayLimit k) != 0 && d.ledger (liRelayLimit k) ≤ d.ledger (liRelaySince k)

/-- One actuation of a drive (R85, R511): NOTICE 1 when DUE rises. -/
def Dev.relayActuate (d : Dev) (k : Nat) : Dev :=
  let was := d.relayDue k
  let d := (d.count (liRelayTotal k)).count (liRelaySince k)
  if d.relayDue k && !was then d.notice 1 k 0 else d

/-- RELAY_LIMIT of every drive is the board profile's, whatever the counts were kept under (R85, R510, R514): NOTICE 1 when that makes DUE rise. -/
def Dev.ledgerLimits (d : Dev) : Dev :=
  (List.range 144).foldl (fun (d : Dev) k =>
    let was := d.relayDue k
    let d := d.setLedger (liRelayLimit k) (mapGet d.board.profile.relayLimit k 0)
    if d.relayDue k && !was then d.notice 1 k 0 else d) d

/-- LDG_SERVICE (R512): RELAY_SINCE to 0, a SERVICE entry. A drive above 143 names none. -/
def Dev.ledgerService (d : Dev) (origin k : Nat) : Dev :=
  if k ≥ 144 then d
  else
    let old := bytesOf 8 (d.ledger (liRelaySince k))
    (d.setLedger (liRelaySince k) 0).log origin 0x0B (liRelaySince k) old 0

/-- The die sensors' highest reading, in 1/16 °C, two's complement (R557, R558). -/
def Dev.hottest (d : Dev) : Int :=
  (List.range 16).foldl (fun m i => max m (sgn (d.getF (R.PWR_TEMP i) F.PWR_TEMP_TEMP) 16)) (sgn (d.getF (R.PWR_TEMP 0) F.PWR_TEMP_TEMP) 16)

/-- The histogram bin of a reading in 1/16 °C (R510). -/
def tempBin (t : Int) : Nat := if t < 0 then 0 else capAt ((t / 80).toNat + 1) 23

/-- RTC_SECOND (R510, R511, R513, R454): one second of the RTC and what accrues in it. -/
def Dev.rtcSecond (d : Dev) : Dev :=
  let d := { d with time := { d.time with rtcSecs := (d.time.rtcSecs + 1) % 2 ^ 48, rtcSub := 0, ckptIn := d.time.ckptIn - 1 } }
  let d := if d.running then d else { d with power := { d.power with belowSecs := d.power.belowSecs + 1 } }
  if d.banked then d.count liBanked
  else
    let d := (d.count liPowerOn).count (liTemp (tempBin d.hottest))
    ((mapKeys d.seq.grates).filter (fun g => (d.grate g).dom == .on)).foldl (fun d g => d.count (liGrate g)) d

/-- A checkpoint is taken (R513) into the older of the two slots. A write that fails leaves a slot that passes no check. -/
def Dev.checkpoint (d : Dev) (fails : Bool) : Dev :=
  let slot : LedgerSlot := { good := !fails, rtc := d.time.rtcSecs, epoch := d.devEpoch, count := d.audit.count, chain := d.audit.chain
                             items := d.time.ledger }
  let slots := (d.time.slots.drop (d.time.slots.length - 1)) ++ [slot]
  let d := { d with time := { d.time with slots := if fails then slot :: (d.time.slots.drop (d.time.slots.length - 1)) else slots } }
  if fails then
    (({ d with time := { d.time with ckptIn := 3600 } }).latch R.LDG_STATUS F.LDG_STATUS_CKPT_ERR).raise 18 0
  else ({ d with time := { d.time with ckptIn := 86400, ckptSecs := d.time.rtcSecs } }).count liCheckpoints

/-- LEDGER_CHECKPOINT: a checkpoint that has fallen due; one due in BANKED waits for the ascent (R513). -/
def Dev.checkpointDue (d : Dev) (fails : Bool) : Dev := if d.time.ckptIn = 0 ∧ d.banked = false then d.checkpoint fails else d

/-- The ledger after a loss of VDD_EMBER (R514, R509): the newest slot that passes its checks, else nothing. -/
def Dev.ledgerRestore (d : Dev) : Dev :=
  match d.time.slots.reverse.find? (·.good) with
  | some s =>
    let d := { d with time := { d.time with ledger := s.items, rtcSecs := s.rtc, rtcSub := 0, ckptSecs := s.rtc } }
    let d := (d.setF R.LDG_STATUS F.LDG_STATUS_RESTORED 1).setF R.LDG_STATUS F.LDG_STATUS_NO_CKPT 0
    (d.count liEmberLosses).notice 6 0 0
  | none =>
    let d := { d with time := { d.time with ledger := [], rtcSecs := 0, rtcSub := 0, ckptSecs := 0 } }
    (d.setF R.LDG_STATUS F.LDG_STATUS_RESTORED 0).setF R.LDG_STATUS F.LDG_STATUS_NO_CKPT 1

/-- Ten times the weight of a temperature bin (R560). -/
def lifeWeight (i : Nat) : Nat := if i < 20 then 10 else if i = 20 then 14 else if i = 21 then 20 else 28

/-- Ten times the weighted life W, in seconds (R560). -/
def Dev.weightedLife (d : Dev) : Nat := ((List.range 24).map (fun i => d.ledger (liTemp i) * lifeWeight i)).sum

/-- A sum of ledger items that saturates at 32 bits. -/
def Dev.ledgerSum (d : Dev) (l : List Nat) : Nat := capAt ((l.map d.ledger).foldl (· + ·) 0) (2 ^ 32 - 1)

/-- CAL_DUE (R496): a live table whose due date has come. -/
def Dev.calDue (d : Dev) (k : Nat) : Bool := d.bitOf R.CAL_DUE k

/-- The ledger summary of R515. -/
def Dev.ledgerSummary (d : Dev) : List Byte :=
  let due := maskOf ((List.range calTables).filter d.calDue)
  let relays := ((List.range 144).filter d.relayDue).length
  let top := (List.range 24).foldl (fun m i => if d.ledger (liTemp i) != 0 then i else m) 0
  let flags := d.getF R.LDG_STATUS F.LDG_STATUS_RESTORED + 2 * d.getF R.EMB_RTC_STATUS F.EMB_RTC_STATUS_DEGRADED +
    4 * d.getF R.MGT_TIME_STATUS F.MGT_TIME_STATUS_HOLDOVER + 8 * d.getF R.LDG_STATUS F.LDG_STATUS_CKPT_ERR
  let oldest := (listMin? (d.cal.live.map (fun x => x.2.secs))).getD 0
  let records := (List.range calTables).flatMap (fun k => match mapFind d.cal.live k with
    | some t => bytesOf 4 t.count ++ bytesOf 6 t.secs ++ bytesOf 2 t.temp
    | none => bytesOf 12 0)
  bytesOf 8 (d.ledger liPowerOn) ++ bytesOf 8 (d.ledger liBanked) ++ bytesOf 4 d.devEpoch ++ bytesOf 4 (d.ledger liDouses) ++
  bytesOf 4 (d.ledgerSum ((List.range 8).map (0x10 + ·))) ++ bytesOf 4 (d.ledgerSum ((List.range 8).map (0x18 + ·))) ++ bytesOf 4 due ++
  bytesOf 2 relays ++ bytesOf 1 top ++ bytesOf 1 flags ++ bytesOf 6 oldest ++ bytesOf 2 0 ++ bytesOf 6 d.time.ckptSecs ++ bytesOf 2 0 ++
  slice (shake256 8 records) 0 8

/-- LDG_DATA_LO: a read latches HI. -/
def Dev.readLedger (d : Dev) : Word × Dev :=
  let v := d.ledger (d.getF R.LDG_SEL F.LDG_SEL_INDEX)
  (BitVec.ofNat 32 v, d.setReg R.LDG_DATA_HI (BitVec.ofNat 32 (v / 2 ^ 32)))

/-! ### Audit log -/

/-- The oldest entries leave the flash region with their sector when it is full (R523): a sector holds 2,048 entries. -/
def Dev.auditMakeRoom (d : Dev) : Dev :=
  if d.audit.flash.length < 2048 * d.board.profile.auditEntries then d
  else ({ d with audit := { d.audit with flash := d.audit.flash.drop 2048 } }).count (liFlashErase 13)

/-- AUDIT_FLUSH of up to `n` entries, oldest first (R523). -/
def Dev.auditFlush (d : Dev) : Nat → Dev
  | 0 => d
  | n + 1 =>
    match d.audit.buffer with
    | [] => d
    | (i, e) :: t =>
      let d := d.auditMakeRoom
      ({ d with audit := { d.audit with buffer := t, flash := d.audit.flash ++ [(i, e)]
                                        flashChain := shake256 32 (d.audit.flashChain ++ e) } }).auditFlush n

/-- Entries of the ember tail reach the buffer in order (R523). -/
def Dev.auditTail (d : Dev) : Dev :=
  let t := d.audit.tail
  { d with audit := t.foldl (fun a e => a.log d.time.secs d.time.ns e) { d.audit with tail := [] } }

/-- The context of an audit checkpoint: "ISV-4610 audit" (R524). -/
def auditContext : List Byte := [0x49, 0x53, 0x56, 0x2D, 0x34, 0x36, 0x31, 0x30, 0x20, 0x61, 0x75, 0x64, 0x69, 0x74]

/-- The seed of the device identity key (R540). -/
def Dev.idSeed (d : Dev) : List Byte := Config.idSeed d.board.otp.idSecret

/-- AUDIT_CHECKPOINT: the oldest chain head whose checkpoint is still to be written (R524). -/
def Dev.auditCheckpoint (d : Dev) : Dev :=
  match d.audit.heads with
  | [] => d
  | (n, h) :: t =>
    let body := [0x41, 0x55, 0x44, 0x1A] ++ bytesOf 4 d.devEpoch ++ bytesOf 8 d.serial ++ bytesOf 8 n ++ bytesOf 6 d.time.secs ++ bytesOf 2 0 ++
      bytesOf 4 d.time.ns ++ bytesOf 4 d.audit.lostTotal ++ slice h 0 32 ++ List.replicate 56 0
    let sig := edSign d.idSeed auditContext body
    { d with audit := { d.audit with heads := t, ckpts := d.audit.ckpts ++ [(n / 4096 - 1, body ++ sig ++ List.replicate 14 0)] } }

/-- At kindling the ember entry count is compared with flash (R523): what never reached flash is noted as lost and the chain goes on from
the last flushed entry. The region's end is the entry after the last that flash holds. -/
def Dev.auditKindle (d : Dev) : Dev :=
  let flushed := match d.audit.flash.getLast? with | some x => x.1 + 1 | none => 0
  let a := { d.audit with buffer := [], folding := [], lost := 0, lossFrom := none, heads := [] }
  let lost := a.count - flushed
  let a := { a with chain := a.flashChain, count := max a.count flushed, lostTotal := capAt (a.lostTotal + lost) (2 ^ 32 - 1) }
  if lost = 0 then { d with audit := a }
  else { d with audit := a.push (auditEntry d.time.secs d.time.ns 0 0x0D flushed [] (capAt lost (2 ^ 32 - 1)) []) }

/-- Words of a byte string into the AUD_RD_DATA registers. -/
def Dev.auditData (d : Dev) (bs : List Byte) : Dev :=
  (List.range (bs.length / 4)).foldl (fun (d : Dev) w => d.setReg (R.AUD_RD_DATA w) (BitVec.ofNat 32 (fieldAt bs (4 * w) 4))) d

/-- AUD_RD_CTRL.GO (R525). The words above an entry's eight keep what they held. -/
def Dev.auditRead (d : Dev) (ckpt : Bool) : Dev :=
  let i := (d.reg R.AUD_RD_INDEX_LO).toNat + 2 ^ 32 * (d.reg R.AUD_RD_INDEX_HI).toNat
  let found := if ckpt then mapFind d.audit.ckpts i
    else match mapFind d.audit.flash i with
      | some e => some e
      | none => mapFind d.audit.buffer i
  match found with
  | some bs => (d.auditData bs).setF R.AUD_RD_CTRL F.AUD_RD_CTRL_GONE 0
  | none => (d.auditData (List.replicate (if ckpt then 256 else 32) 0)).setF R.AUD_RD_CTRL F.AUD_RD_CTRL_GONE 1

/-- AUD_STATUS. -/
def Dev.audStatus (d : Dev) : Word := BitVec.ofNat 32 (65536 * d.audit.lost + d.audit.buffer.length % 2 ^ 14)

/-- AUD_COUNT_LO: a read latches HI. -/
def Dev.readAudCount (d : Dev) : Word × Dev :=
  (BitVec.ofNat 32 d.audit.count, d.setReg R.AUD_COUNT_HI (BitVec.ofNat 32 (d.audit.count / 2 ^ 32)))

/-- Offsets of the permission registers (R517). -/
def isPermReg (off : Nat) : Bool := (R.AUD_PERM_REG 0 ≤ off && off ≤ R.AUD_PERM_REG 31) || off == R.AUD_PERM_DESC

/-- Rules of the ledger and audit registers (R512, R517). -/
def Dev.ledgerRule (d : Dev) (origin off : Nat) (w : Word) : Option Nat :=
  if isPermReg off then
    failWhen (!(origin == 0x20 || origin == 0x7F) || d.flag R.AUD_PERM_DESC F.AUD_PERM_DESC_LOCK) vkPermission
  else if off = R.LDG_SERVICE then failWhen (getBits w F.LDG_SERVICE_GO == 1 && !(isTrusted origin)) vkFixed
  else none

/-- Effects of a write to a ledger or audit register. -/
def Dev.ledgerEffect (d : Dev) (origin off : Nat) (w : Word) : Dev :=
  if off = R.LDG_SERVICE then (if getBits w F.LDG_SERVICE_GO = 1 then d.ledgerService origin (getBits w F.LDG_SERVICE_INDEX) else d)
  else if off = R.AUD_RD_CTRL then (if getBits w F.AUD_RD_CTRL_GO = 1 then d.auditRead (getBits w F.AUD_RD_CTRL_CHECKPOINT == 1) else d)
  else if off = R.AUD_VIOL_INFO ∧ getBits w F.AUD_VIOL_INFO_VALID = 1 then
    let d := (d.setF R.AUD_VIOL_INFO F.AUD_VIOL_INFO_KIND 0).setF R.AUD_VIOL_INFO F.AUD_VIOL_INFO_ORIGIN 0
    (d.setReg R.AUD_VIOL_ADDR_LO 0).setReg R.AUD_VIOL_ADDR_HI 0
  else d

end Sys2Proof.Machine
end

