-- ==== Sys2Proof/Machine/Grates.lean ====
section
/-! DEFINITION. Grate domains: waking, settling, policies, automatic power-off (spec/03 R98–R101). -/

namespace Sys2Proof.Machine

/-- A grate's domain goes OFF: its channels are in the pin safe state and lose their residues (R87, R98, R511). -/
def Dev.grateOff (d : Dev) (g : Nat) : Dev :=
  let chs := (List.range 8).map (8 * g + ·)
  let d := (d.pinsSafe chs).modGrate g (fun x => { x with dom := .off })
  { d with time := { d.time with residue := d.time.residue.filter (fun r => r.1 / 8 != g) } }

/-- GRATE_WAKE_DONE: 20 µs of WAKING end. -/
def Dev.grateWakeDone (d : Dev) (g : Nat) : Dev :=
  if (d.grate g).dom = .waking then d.modGrate g (fun x => { x with dom := .settling }) else d

/-- GRATE_SETTLE_DONE: 50 µs of SETTLING end. -/
def Dev.grateSettleDone (d : Dev) (g : Nat) : Dev :=
  if (d.grate g).dom = .settling then d.modGrate g (fun x => { x with dom := .on }) else d

/-- Sites bound to a channel of a grate. -/
def Dev.grateSites (d : Dev) (g : Nat) : List Nat := d.sitesWith (fun ch => chGrate ch == g)

/-- What keeps an AUTO grate on (R99, R487). -/
def Dev.grateInUse (d : Dev) (g : Nat) : Bool :=
  (d.grateSites g).any (fun s => (d.site s).st.busy) || d.stepBusy g || (d.staticPin g).isSome || d.procRuns (g / 8)

/-- GRATE_IDLE_OFF: IDLE_MS have passed with nothing in force (R99). -/
def Dev.grateIdleOff (d : Dev) (g : Nat) : Dev :=
  let p := d.policy g
  if p = polOn ∨ p = polOff ∨ d.getF (R.HRT_GRT_PWR g) F.HRT_GRT_PWR_IDLE_MS = 0 ∨ (d.grate g).dom = .off ∨ d.grateInUse g = true then d
  else d.grateOff g

/-- Policy ON wakes its grates once kindling is complete and hearth state is restored (R99). -/
def Dev.policyKick (d : Dev) : Dev :=
  if !(d.flag R.SEC_KINDLE F.SEC_KINDLE_READY) || d.power.restoring then d
  else ((List.range 128).filter (fun g => d.policy g == polOn)).foldl (fun d g => d.wakeGrate g) d

/-- Offset of a grate register and the grate. -/
def grateOf (off : Nat) : Option (Nat × Nat) :=
  if 0x100000 ≤ off ∧ off < 0x200000 ∧ 0x8000 ≤ off % 65536 then some (8 * ((off - 0x100000) / 65536) + off % 65536 / 4096 - 8, off % 4096) else none

/-- POLICY 0b11 acts as AUTO and reads 0b00 (R101). -/
def grateNorm (off : Nat) (w : Word) : Word :=
  match grateOf off with
  | some (_, 0) => if getBits w F.HRT_GRT_PWR_POLICY = 3 then setBits w F.HRT_GRT_PWR_POLICY 0 else w
  | _ => w

/-- HRT_GRT_PWR takes effect (R99). -/
def Dev.grateEffect (d : Dev) (off : Nat) : Dev :=
  match grateOf off with
  | some (g, 0) => if d.policy g = polOff then d.grateOff g else d.policyKick
  | _ => d

/-- HRT_GRT_PWR with the domain state (R101). -/
def Dev.gratePwr (d : Dev) (g : Nat) : Word := setBits (d.reg (R.HRT_GRT_PWR g)) F.HRT_GRT_PWR_STATE (d.grate g).dom.code

/-- Whether a settle time runs. -/
def Dev.settling (d : Dev) (x : Settle) : Bool := d.seq.settles.contains x

/-- HRT_GRTg_RELAY and HRT_GRT_SPARE_RELAY (R83, R85). SETTLE_US is the board profile's. -/
def Dev.relayReg (d : Dev) (off drive : Nat) (live busy : Bool) : Word :=
  setBits (d.reg off) ⟨0, 3⟩ (bit live + 2 * bit busy + 4 * bit (d.relayDue drive))

/-- HRT_GRTg_STATUS: LVL_SETTLED follows the domain and the level settle time (R101). -/
def Dev.grateStatus (d : Dev) (g : Nat) : Word :=
  setBits (d.reg (R.HRT_GRT_STATUS g)) F.HRT_GRT_STATUS_LVL_SETTLED (bit ((d.grate g).dom == .on && !(d.settling (.level g))))

/-- HRT_GRTg_PPMU_STATUS: what the PPMU connects now (R101). -/
def Dev.ppmuStatus (d : Dev) (g : Nat) : Word :=
  let base := 32 * bit ((d.grate g).dom == .on && d.stepBusy g) + 16 * bit (d.staticPin g).isSome
  match d.ppmuNow g with
  | some (ch, mode, range) => BitVec.ofNat 32 (256 * (ch % 8) + base + 4 * range + mode)
  | none => BitVec.ofNat 32 base

/-- PIN_STATEk of a channel and the level registers are computed where registers are read; the codes are those of the live level set. -/
def Dev.grateLevels (d : Dev) (g : Nat) : LevelEntry := d.liveLevel g

end Sys2Proof.Machine
end

