-- ==== Sys2Proof/Machine/Timing.lean ====
section
/-! DEFINITION. Timing sets: the code scale (spec/04 R104), set images (R115), the per-set checks (R117, R118), the pairwise
checks (R121), the order in which they run (R123). -/

namespace Sys2Proof.Machine

/-- Nominal codes of a programmed time in ps (R104): x × 1.024 to the nearest integer; no tie arises. -/
def codes (x : Nat) : Nat := (1024 * x + 500) / 1000

/-- The value of an unused edge field (R108). -/
def edgeUnused : Nat := 0xFFFFFFFF

/-- Used drive edges of a format (R108). -/
def usedDrive (format : Nat) : List Nat :=
  match format with
  | 1 => [0, 3]
  | 2 => [0, 1, 3]
  | 3 => [0, 1, 3]
  | 4 => [0, 1, 2, 3]
  | _ => []

/-- Used strobe edges of a strobe mode (R108). -/
def usedStrobe (strobe : Nat) : List Nat :=
  match strobe with
  | 1 => [4]
  | 2 => [4, 5]
  | _ => []

/-- Drive edges of a format that may spill (R118). -/
def maySpill (format : Nat) : List Nat :=
  match format with
  | 1 => [0, 3]
  | 2 => [1, 3]
  | 3 => [1, 3]
  | 4 => [3]
  | _ => []

/-- The edge of a pin entry with a code, programmed ps. -/
def PinTiming.edge (p : PinTiming) (i : Nat) : Nat := nth p.edges i edgeUnused

/-- Its nominal codes. -/
def PinTiming.ecode (p : PinTiming) (i : Nat) : Nat := codes (p.edge i)

/-- The pin entry that stands for a pin no image names: format Off, no strobe. -/
def PinTiming.off : PinTiming := ⟨0, 0, false, List.replicate 6 edgeUnused⟩

/-- Period of a set in codes (R105). -/
def TimSet.pq (t : TimSet) : Nat := codes t.periodPs

/-- VALID of an image (R115). -/
def TimSet.valid (t : TimSet) : Bool := tbit t.flags 0

/-- The entry of pin p = ch mod 64. -/
def TimSet.pin (t : TimSet) (p : Nat) : PinTiming := nth t.pins p PinTiming.off

/-- Size of a set image (R114, R115). -/
def timImageSize : Nat := 2064

/-- A pin entry read from 32 bytes (R115). -/
def parsePinTiming (bs : List Byte) : PinTiming :=
  { format := fieldAt bs 0 1
    strobe := fieldAt bs 1 1
    resvBad := !(zeroAt bs 2 2 && zeroAt bs 28 4)
    edges := (List.range 6).map (fun i => fieldAt bs (4 + 4 * i) 4) }

/-- A set image read from 2,064 bytes (R115). -/
def parseTimSet (bs : List Byte) : TimSet :=
  { periodPs := fieldAt bs 0 4
    set := fieldAt bs 4 1
    flags := fieldAt bs 5 1
    resvBad := !(zeroAt bs 6 10)
    pins := (List.range 64).map (fun p => parsePinTiming (slice bs (16 + 32 * p) 32)) }

/-- The failure of a check that concerns no pin (R123 item 3). A refused image whose SET byte is above 31 reports it modulo 32 (the model's choice, log entry 124);
GANG_PERIOD names the set of either hearth, which is the same (R126, R128). -/
def timFailSet (check set : Nat) : TimFail := ⟨check, set % 32, if check = 0x13 then set % 32 else 0, 0, 7, 7, false⟩

/-- The failure of a per-set check on a pin. -/
def timFailPin (check set pin ea eb : Nat) : TimFail := ⟨check, set % 32, 0, pin, ea, eb, false⟩

/-- PERIOD_RANGE (R105, R117); `minPs` is GLB_GRADE.MIN_PERIOD_PS (R3). -/
def periodBad (minPs : Nat) (t : TimSet) : Bool :=
  decide (t.periodPs < 500 ∨ t.periodPs > 4194303999 ∨ t.periodPs < minPs)

/-- The part of FIELD that concerns the header: SET, FLAGS and, in a valid image, reserved header bytes (R115, R117, R123). -/
def headerFieldBad (t : TimSet) : Bool :=
  decide (t.set > 31 ∨ t.flags ≥ 2) || (t.valid && t.resvBad)

/-- First edge, in ascending code, that satisfies a predicate. -/
def firstEdge (l : List Nat) (p : Nat → Bool) : Option Nat := l.find? p

/-- Consecutive transition edges of a format, in order (R117 DRIVE_ORDER). -/
def driveOrderPairs (format : Nat) : List (Nat × Nat) :=
  match format with
  | 2 => [(0, 1)]
  | 3 => [(0, 1)]
  | 4 => [(0, 1), (1, 2)]
  | _ => []

/-- The per-set checks of one present pin, in ascending code order (R117, R118, R123 items 5 and 6). -/
def pinChecks (t : TimSet) (p : Nat) : Option TimFail :=
  let e := t.pin p
  let used := usedDrive e.format ++ usedStrobe e.strobe
  firstSome [
    failWhen (decide (e.format > 4 ∨ e.strobe > 2) || e.resvBad) (timFailPin 0x02 t.set p 7 7),
    (firstEdge (List.range 6) (fun i => (used.contains i) == (e.edge i == edgeUnused))).map
      (fun i => timFailPin 0x03 t.set p i 7),
    (firstEdge used (fun i => decide (e.ecode i ≥ 2 * t.pq ∨ e.edge i > 4194303998))).map
      (fun i => timFailPin 0x04 t.set p i 7),
    (firstEdge used (fun i => decide (e.ecode i ≥ t.pq ∧ i < 4) && !((maySpill e.format).contains i))).map
      (fun i => timFailPin 0x05 t.set p i 7),
    ((driveOrderPairs e.format).find? (fun q => decide (e.ecode q.2 < e.ecode q.1 + 256))).map
      (fun q => timFailPin 0x06 t.set p q.1 q.2),
    failWhen (decide (e.strobe = 2 ∧ e.ecode 5 < e.ecode 4 + 256)) (timFailPin 0x07 t.set p 4 5)]

/-- First failure over a list of numbers. -/
def firstFail {α : Type} (l : List Nat) (f : Nat → Option α) : Option α := l.findSome? f

/-- The per-set checks of one image (R114, R117, R123); `present p` says whether pin p of some named hearth is present.
An image with VALID = 0 is checked only by FIELD. -/
def setChecks (minPs : Nat) (present : Nat → Bool) (t : TimSet) : Option TimFail :=
  firstSome [
    failWhen (t.valid && periodBad minPs t) (timFailSet 0x01 t.set),
    failWhen (headerFieldBad t) (timFailSet 0x02 t.set),
    if t.valid then firstFail ((List.range 64).filter present) (pinChecks t) else none]

/-- The last strobe event of a pin entry (R121). -/
def lastStrobe (e : PinTiming) : Option Nat := if e.strobe = 2 then some 5 else if e.strobe = 1 then some 4 else none

/-- The pairwise checks of one pin for the ordered pair (A, B) (R121, R123). PAIR_REACH names no edge of B: its EDGE_B is 7 (the model's choice, log entry 124). -/
def pairPinChecks (a b : TimSet) (p : Nat) : Option TimFail :=
  let ea := a.pin p
  let eb := b.pin p
  let fail (check x y : Nat) : TimFail := ⟨check, a.set, b.set, p, x, y, true⟩
  firstSome [
    firstFail (usedDrive ea.format) (fun x =>
      firstFail (usedDrive eb.format) (fun y =>
        failWhen (decide (a.pq + eb.ecode y < ea.ecode x + 256)) (fail 0x10 x y))),
    (match lastStrobe ea with
      | some x => failWhen (decide (eb.strobe ≠ 0 ∧ a.pq + eb.ecode 4 < ea.ecode x + 256)) (fail 0x11 x 4)
      | none => none),
    firstFail (usedDrive ea.format ++ usedStrobe ea.strobe) (fun x =>
      failWhen (decide (ea.ecode x ≥ a.pq ∧ ea.ecode x + 256 > a.pq + b.pq)) (fail 0x12 x 7))]

/-- The pairwise checks of one ordered pair. -/
def pairChecks (present : Nat → Bool) (a b : TimSet) : Option TimFail :=
  firstFail ((List.range 64).filter present) (pairPinChecks a b)

/-- Every check of a hearth's valid sets at a commit: per-set, then pairs by ascending A and B (R122, R123). -/
def hearthTimingChecks (minPs : Nat) (present : Nat → Bool) (sets : List (Nat × TimSet)) : Option TimFail :=
  firstSome [
    sets.findSome? (fun s => setChecks minPs present s.2),
    sets.findSome? (fun a => sets.findSome? (fun b => pairChecks present a.2 b.2))]

/-- HRT_TIM_REFUSE as a failure latches it (R128). -/
def timRefuseWord (f : TimFail) : Word :=
  BitVec.ofNat 32 (f.check * 2 ^ 24 + f.edgeB * 2 ^ 21 + f.edgeA * 2 ^ 18 + f.pin * 2 ^ 12 + f.setB * 2 ^ 7
    + f.setA * 2 ^ 2 + bit f.pair * 2 + 1)

/-- The sets after the images of an accepted load, in the order carried (R114): a valid image replaces, an invalid one removes. -/
def applyTimImages (sets : List (Nat × TimSet)) (imgs : List TimSet) : List (Nat × TimSet) :=
  imgs.foldl (fun m t => if t.valid then mapSet m t.set t else mapErase m t.set) sets

/-- The mask of valid sets (R128). -/
def validMask (sets : List (Nat × TimSet)) : Word := BitVec.ofNat 32 (maskOf (mapKeys sets))

end Sys2Proof.Machine
end

