-- ==== Sys2Proof/Machine/Loads.lean ====
section
/-! DEFINITION. The load descriptors (spec/13 R358, R359): images (spec/05 R165–R168, spec/07 R205–R213), timing sets (spec/04 R114,
R122), level sets (spec/03 R72, R81), bindings (spec/06 R170, R171), capture plans (spec/08 R227–R231), DDS list sets (spec/10
R287–R289) and PPMU plans (spec/03 R93, R94). `remote` stands for the bytes that a remote pair's Flue READs bring (log entry 1). -/

namespace Sys2Proof.Machine

/-- A descriptor of opcode `op` begins its execution over its source area: a local area on a poisoned line is a fetch refused (R425). -/
def Dev.withLoad (d : Dev) (n op : Nat) (remote : RemoteRead) (k : Dev → Desc → List Byte → Dev) : Dev :=
  match d.nextDesc n op with
  | none => d
  | some q =>
    match q.areas d.deviceNum with
    | [] => k (d.beginDesc n q) q []
    | (a, len, _) :: _ =>
      if !(d.ringRemote n) && d.poisoned a len then d.fetchFault n reFetchDenied
      else match d.ownerFails n remote with
        | some st => (d.beginDesc n q).complete n q st
        | none => k (d.beginDesc n q) q (d.ownerRead n a len remote)

/-! ### Images -/

/-- Segments that a parting decision makes pinned (R210). -/
def ZImage.pinned (z : ZImage) : List Nat :=
  let seg := fun g => segOf z.segs g
  sortNats ((z.grans.zipIdx).flatMap (fun (x : Gran × Nat) =>
    let g := x.2
    match x.1.ins with
    | .jumpIf t _ vec cond _ _ _ =>
      if cond = 0 ∨ cond = 1 ∨ cond = 4 then [seg (z.target t), seg (if vec ≤ 48 then g + 1 else g + 2)] else []
    | .wait ev _ _ _ => if ev = 0 then [seg g, seg (g + 1)] else []
    | .rendezvous r =>
      match z.rdvs[r]? with
      | some e => if tbit e.flags 1 && e.cond % 16 = 0 then [seg (z.target e.target), seg (g + 1)] else []
      | none => []
    | _ => []))

/-- The matching LOOP_END of a LOOP_BEGIN in storage order (R213); `depth` opens so far. -/
def loopMatch : List Gran → Nat → Nat → Option Nat
  | [], _, _ => none
  | g :: t, i, depth =>
    let depth := match g.ins with | .loopBegin _ => depth + 1 | .loopEnd => depth - 1 | _ => depth
    if depth = 0 then some i else loopMatch t (i + 1) depth

/-- The residency table (R213). -/
def ZImage.loops (z : ZImage) : List (Nat × Nat) :=
  (z.grans.zipIdx).filterMap (fun (x : Gran × Nat) => match x.1.ins with
    | .loopBegin _ => (loopMatch (z.grans.drop x.2) x.2 0).map (fun e => (x.2, e))
    | _ => none)

/-- The stripe unit: 8 × GRAIN (R205). -/
def Dev.stripe (d : Dev) : Nat := 8 * 2 ^ d.getF R.DMC_CFG F.DMC_CFG_GRAIN_LOG2

/-- The range an image occupies (R205). -/
def Dev.imageSpan (d : Dev) (i : Image) : Nat := roundUp i.z.bytes d.stripe

/-- The lowest free address from `a` on that is a multiple of the stripe unit, for a length; each image can push it on once. -/
def freeFrom (ranges : List (Nat × Nat)) (stripe len top : Nat) : Nat → Nat → Option Nat
  | 0, _ => none
  | fuel + 1, a =>
    if a + len > top then none
    else match ranges.find? (fun r => r.1 < a + len && a < r.1 + r.2) with
      | none => some a
      | some r => freeFrom ranges stripe len top fuel (roundUp (r.1 + r.2) stripe)

/-- Where an image of a length is placed (R205). -/
def Dev.placeImage (d : Dev) (len : Nat) : Option Nat :=
  let ranges := d.seq.images.map (fun i => (i.2.base, d.imageSpan i.2))
  freeFrom ranges d.stripe (roundUp len d.stripe) d.capacity (ranges.length + 1) (roundUp d.hostEnd d.stripe)

/-- An image number that no image has and that is not 0xFFFF: which, the specification leaves open (R165, log entry 8). -/
def Dev.newImageNumber (d : Dev) : Nat × Dev :=
  let (f, d) := d.drawNat
  let used := mapKeys d.seq.images
  (((List.range (used.length + 1)).map (fun k => (f + k) % 65535)).find? (fun n => !(used.contains n)) |>.getD 0, d)

/-- IMAGE_LOAD (R165, R205). -/
def Dev.imageLoad (d : Dev) (n : Nat) (remote : RemoteRead) : Dev :=
  d.withLoad n opImageLoad remote (fun d q bs =>
    match loadImage bs (q.get 24 8) with
    | .inl f => d.complete n q stRefused (refuseArg f.check 0xFF 0xFFFF f.index) f.arg1
    | .inr z =>
      match d.placeImage z.bytes with
      | none => d.complete n q stRefused (refuseArg 0x50)
      | some base =>
        let (num, d) := d.newImageNumber
        let im : Image := { z := z, base := base, pinned := z.pinned, loops := z.loops, poisoned := [] }
        let d := d.write base (slice bs 0 z.bytes)
        ({ d with seq := { d.seq with images := mapSet d.seq.images num im } }).complete n q stOk num base)

/-- Sites whose live binding names an image. -/
def Dev.imageSites (d : Dev) (num : Nat) : List Nat := (d.seq.live.binds.filter (fun b => b.2.image == num)).map (·.1)

/-- IMAGE_UNLOAD (R168, R207): waits for a pending commit that holds the image. A number that names no image is DESC_FIELD (DEDUCED). -/
def Dev.imageUnload (d : Dev) (n : Nat) : Dev :=
  match d.nextDesc n opImageUnload with
  | none => d
  | some q =>
    let num := q.get 16 2
    if d.seq.commits.any (fun c => c.setUp.binds.any (fun b => b.2.image == num)) then d
    else
      let d := d.beginDesc n q
      if (d.image num).isNone then d.complete n q stRefused (refuseArg 0x80 0xFF 0xFFFF num)
      else match listMin? (d.imageSites num) with
        | some s => d.complete n q stConflict (claimant 6 num) (claimant 1 s s)
        | none => ({ d with seq := { d.seq with images := mapErase d.seq.images num } }).complete n q stOk

/-! ### Timing sets -/

/-- Hearths a commit is pending for (R22). -/
def Dev.commitPending (d : Dev) (h : Nat) : Bool := d.seq.commits.any (fun c => c.hearths.contains h && !(c.applied.contains h))

/-- GLB_GRADE.MIN_PERIOD_PS. -/
def Dev.minPeriod (d : Dev) : Nat := d.getF R.GLB_GRADE F.GLB_GRADE_MIN_PERIOD_PS

/-- The images of a timing load in ascending set, an earlier image of one set first. -/
def insertTim (t : TimSet) : List TimSet → List TimSet
  | [] => [t]
  | u :: r => if t.set < u.set then t :: u :: r else u :: insertTim t r

/-- The first failing per-set check of a timing load: hearths, then sets ascending (R114, R123). -/
def Dev.timingFail (d : Dev) (hs : List Nat) (imgs : List TimSet) : Option (Nat × TimFail) :=
  let order := imgs.foldl (fun l t => insertTim t l) []
  hs.findSome? (fun h => (order.findSome? (fun t => setChecks d.minPeriod (fun p => !(d.absent (64 * h + p))) t)).map (fun f => (h, f)))

/-- TIMING_LOAD (R114): all images are checked, then all replace their shadow sets; held while a commit is pending for a named hearth
(R122). -/
def Dev.timingLoad (d : Dev) (n : Nat) (remote : RemoteRead) : Dev :=
  match d.nextDesc n opTimingLoad with
  | none => d
  | some q =>
    let hs := q.mask 26 2
    if hs.any d.commitPending then d
    else d.withLoad n opTimingLoad remote (fun d q bs =>
      let imgs := (List.range (q.get 24 2)).map (fun i => parseTimSet (slice bs (timImageSize * i) timImageSize))
      match d.timingFail hs imgs with
      | some (h, f) =>
        let d := hs.foldl (fun (d : Dev) h => d.setReg (R.HRT_TIM_REFUSE h) (timRefuseWord f)) d
        d.complete n q stRefused (refuseArg f.check h 0xFFFF f.setA)
      | none =>
        let t := hs.foldl (fun (m : List (Nat × List (Nat × TimSet))) h => mapSet m h (applyTimImages (mapGet m h []) imgs)) d.seq.shadow.timing
        ({ d with seq := { d.seq with shadow := { d.seq.shadow with timing := t } } }).complete n q stOk)

/-! ### Level sets -/

/-- LEVELS_LOAD (R72, R81). -/
def Dev.levelsLoad (d : Dev) (n : Nat) (remote : RemoteRead) : Dev :=
  d.withLoad n opLevelsLoad remote (fun d q bs =>
    let gs := (q.mask 24 16).zipIdx
    match gs.findSome? (fun (x : Nat × Nat) => levelChecks d.absent bs x.1 (64 * x.2)) with
    | some f => d.complete n q stRefused (refuseArg f.check (f.grate / 8) 0xFFFF f.grate) f.off
    | none =>
      let l := gs.foldl (fun (m : List (Nat × LevelEntry)) x => mapSet m x.1 (parseLevel d.absent bs x.1 (64 * x.2))) d.seq.shadow.levels
      ({ d with seq := { d.seq with shadow := { d.seq.shadow with levels := l } } }).complete n q stOk)

/-! ### Bindings, capture plans, DDS list sets -/

/-- A refusal latched in HRT_SEQ_REFUSE of a site's home hearth (R171, R204). -/
def Dev.latchSeqRefuse (d : Dev) (check site pin : Nat) : Dev :=
  d.setReg (R.HRT_SEQ_REFUSE (homeHearth site)) (BitVec.ofNat 32 (2 ^ 24 * check + 2 ^ 16 * (site % 256) + 2 * (pin % 1024) + 1))

/-- HRT_CAP_REFUSE (R231). -/
def Dev.latchCapRefuse (d : Dev) (check site win pin : Nat) : Dev :=
  d.setReg (R.HRT_CAP_REFUSE (homeHearth site)) (BitVec.ofNat 32 (2 ^ 24 * check + 2 ^ 16 * (site % 256) + 2 ^ 12 * (win % 16) + 4 * (pin % 1024) + 1))

/-- HRT_DDS_REFUSE (R289). -/
def Dev.latchDdsRefuse (d : Dev) (check site pin : Nat) : Dev :=
  d.setReg (R.HRT_DDS_REFUSE (homeHearth site)) (BitVec.ofNat 32 (2 ^ 24 * check + 2 ^ 16 * (site % 256) + 4 * (pin % 1024) + 1))

/-- The entries of a descriptor with their own lengths (R363): a failure is DESC_FIELD. -/
def Dev.withEntries (d : Dev) (n op : Nat) (remote : RemoteRead) (entLen : List Byte → Nat → Nat)
    (k : Dev → Desc → List Byte → List Nat → Dev) : Dev :=
  d.withLoad n op remote (fun d q bs =>
    match entryOffsets bs (q.get 24 8) entLen (q.get 32 2) 0 0 with
    | .inr (i, o) => d.complete n q stRefused (refuseArg 0x80 0xFF 0xFFFF i) o
    | .inl offs => k d q bs offs)

/-- BIND_LOAD (R170, R171). -/
def Dev.bindLoad (d : Dev) (n : Nat) (remote : RemoteRead) : Dev :=
  d.withEntries n opBindLoad remote bindLen (fun d q bs offs =>
    match offs.zipIdx.findSome? (fun (x : Nat × Nat) => (bindChecks d.absent bs x.1 x.2).map (fun f => (x.1, f))) with
    | some (o, f) => (d.latchSeqRefuse f.check f.site f.pin).complete n q stRefused (refuseArg f.check (homeHearth f.site) f.site f.index) o
    | none =>
      let b := applyEntries d.seq.shadow.binds (offs.map (parseBind bs))
      ({ d with seq := { d.seq with shadow := { d.seq.shadow with binds := b } } }).complete n q stOk)

/-- Entries in ascending key, earlier entries of one key first. -/
def insertKey (x : Nat × Nat × Nat) : List (Nat × Nat × Nat) → List (Nat × Nat × Nat)
  | [] => [x]
  | y :: t => if x.1 < y.1 then x :: y :: t else y :: insertKey x t

/-- The offsets of a descriptor's entries as (key, offset, index), keys rising. -/
def byKey (key : Nat → Nat) (offs : List Nat) : List (Nat × Nat × Nat) :=
  offs.zipIdx.foldl (fun l (x : Nat × Nat) => insertKey (key x.1, x.1, x.2) l) []

/-- CAPTURE_LOAD (R227–R231): sites ascending, within a site every CAP_FIELD before every CAP_WINDOW. -/
def Dev.captureLoad (d : Dev) (n : Nat) (remote : RemoteRead) : Dev :=
  d.withEntries n opCaptureLoad remote capLen (fun d q bs offs =>
    let entries := byKey (fun o => fieldAt bs o 2) offs
    let sites := sortNats (entries.map (·.1))
    let check := fun (s : Nat) (f : List Byte → Nat → Nat → Option CapFail) =>
      (entries.filter (fun x => x.1 == s)).findSome? (fun x => (f bs x.2.1 x.2.2).map (fun y => (x.2.1, y)))
    match sites.findSome? (fun s => firstSome [check s capFieldCheck, check s capWindowCheck]) with
    | some (o, f) =>
      (d.latchCapRefuse f.check f.site f.win f.pin).complete n q stRefused (refuseArg f.check (homeHearth f.site) f.site f.index) o
    | none =>
      let b := applyEntries d.seq.shadow.plans (offs.map (parseCap bs))
      ({ d with seq := { d.seq with shadow := { d.seq.shadow with plans := b } } }).complete n q stOk)

/-- DDS_SPACE of the entry at place `i` of the entries in ascending site and pin (R289): it is the one that makes more than 64 valid list sets stand, and
that many stand at the end. -/
def ddsSpace (m : List (Nat × DdsList)) (bs : List Byte) (offs : List Nat) (i : Nat) : Bool :=
  let n := fun (k : Nat) => (applyEntries m ((offs.take k).map (parseDds bs))).length
  decide (64 < n offs.length ∧ 64 < n (i + 1) ∧ n i ≤ 64)

/-- DDS_LOAD (R287–R289): checks by ascending site, image pin and code. -/
def Dev.ddsLoad (d : Dev) (n : Nat) (remote : RemoteRead) : Dev :=
  d.withEntries n opDdsLoad remote ddsLen (fun d q bs offs =>
    let entries := byKey (fun o => 65536 * fieldAt bs o 2 + fieldAt bs (o + 2) 2) offs
    let bad := entries.zipIdx.findSome? (fun x =>
      if ddsFieldBad bs x.1.2.1 then some (0x70, x.1.2) else if ddsSpace d.seq.shadow.dds bs (entries.map (·.2.1)) x.2 then some (0x71, x.1.2) else none)
    let refuse := fun (check i o : Nat) =>
      let site := fieldAt bs o 2 % 256
      (d.latchDdsRefuse check site (fieldAt bs (o + 2) 2)).complete n q stRefused (refuseArg check (homeHearth site) site i) o
    match bad with
    | some (check, o, i) => refuse check i o
    | none =>
      let b := applyEntries d.seq.shadow.dds (offs.map (parseDds bs))
      ({ d with seq := { d.seq with shadow := { d.seq.shadow with dds := b } } }).complete n q stOk)

/-! ### PPMU plans (R93–R97) -/

/-- A step entry (R93); SETTLE_US is raised to the range's minimum. -/
def parseStep (bs : List Byte) (i : Nat) : PpmuStep :=
  let o := 16 * i
  let flags := fieldAt bs (o + 13) 1
  { n := i, ch := fieldAt bs o 2, mode := fieldAt bs (o + 2) 1, range := fieldAt bs (o + 3) 1, value := fieldAt bs (o + 4) 2
    clampHi := fieldAt bs (o + 6) 2, clampLo := fieldAt bs (o + 8) 2
    settle := max (fieldAt bs (o + 10) 2) (ppmuMinSettle (fieldAt bs (o + 3) 1))
    samplesLog2 := fieldAt bs (o + 12) 1, keep := tbit flags 0, draught := tbit flags 1 }

/-- A field of a step out of range: the same rules as a level set's static pin, and the step's own (R93, R94). -/
def stepFieldBad (bs : List Byte) (i : Nat) : Bool :=
  let o := 16 * i
  let mode := fieldAt bs (o + 2) 1
  fieldAt bs o 2 > 1023 || mode > 3 || fieldAt bs (o + 3) 1 > 3 || fieldAt bs (o + 12) 1 > 10 || fieldAt bs (o + 13) 1 > 3 ||
  fieldAt bs (o + 14) 2 != 0 || !(ppmuValueOk mode (fieldAt bs (o + 4) 2)) ||
  (mode == 2 && (!(levelCodeOk (fieldAt bs (o + 6) 2)) || !(levelCodeOk (fieldAt bs (o + 8) 2))))

/-- A step measures the static pin as it is: same pin, mode, range and value (R92, R94). -/
def PpmuStep.matchesStatic (s : PpmuStep) (p : StaticPpmu) : Bool :=
  s.ch % 8 == p.pin && s.mode == p.mode && s.range == p.range && s.value == p.value

/-- Why a step meets another user of its grate's PPMU (R94, R164): the step's channel and the PPMU with the claiming site. A step on the
channel of a PPMU claim's own site is none. -/
def Dev.stepConflict (d : Dev) (s : PpmuStep) : Option (Nat × Nat) :=
  let g := chGrate s.ch
  let me := claimant 8 s.ch ((d.siteOfChannel s.ch).getD 0xFFFF)
  match d.staticPin g with
  | some p => failWhen (!(s.matchesStatic p)) (me, claimant 4 g)
  | none =>
    match d.seq.claims.find? (fun c => c.kind == 3 && c.unit == g) with
    | some c => failWhen (((d.siteOfChannel s.ch).map (fun x => x != c.site)).getD false) (me, claimant 4 g c.site)
    | none => none

/-- PPMU_MEASURE (R93–R96): the plan is refused, or it begins its steps once its hearths are at their run boundary. -/
def Dev.ppmuMeasure (d : Dev) (n : Nat) (remote : RemoteRead) : Dev :=
  match d.nextDesc n opPpmu with
  | none => d
  | some q =>
    let count := q.get 24 2
    if !(d.ringRemote n) && d.poisoned (q.get 16 8) (16 * count) then d.fetchFault n reFetchDenied
    else if let some st := d.ownerFails n remote then (d.beginDesc n q).complete n q st
    else
      let bs := d.ownerRead n (q.get 16 8) (16 * count) remote
      let steps := (List.range count).map (parseStep bs)
      match (List.range count).find? (fun i => stepFieldBad bs i || d.absent (fieldAt bs (16 * i) 2) ||
          d.policy (chGrate (fieldAt bs (16 * i) 2)) == polOff) with
      | some i => (d.beginDesc n q).complete n q stRefused (refuseArg 0x80 0xFF 0xFFFF i) (16 * i)
      | none =>
        match steps.findSome? (fun s => d.stepConflict s) with
        | some (x, y) => (d.beginDesc n q).complete n q stConflict x y
        | none =>
          let d := d.beginDesc n q true
          let plan : PpmuPlan := { ring := n, hostSeq := q.hostSeq, irq := q.irq, result := q.get 32 8, started := false, steps := steps
                                   executed := 0, skipped := 0, doused := false }
          ({ d with rings := { d.rings with plans := d.rings.plans ++ [plan] } }).ppmuKick

end Sys2Proof.Machine
end

