-- ==== Sys2Proof/Machine/Admission.lean ====
section
/-! DEFINITION. The checks of a commit (R561): scope (spec/13 R360), binding images (spec/06 R171), timing (spec/04 R121–R126), static
PPMU policy and conflicts (spec/03 R92, spec/06 R173, spec/05 R164), capture plans (spec/08 R231), DDS list sets (spec/10 R289, R290)
and stream admission (spec/07 R208, R209, R220–R224). -/

namespace Sys2Proof.Machine

/-! ### Exact rates (R220) -/

/-- A non-negative fraction. -/
structure Frac where
  num : Nat
  den : Nat
  deriving DecidableEq, Repr

def Frac.add (a b : Frac) : Frac := ⟨a.num * b.den + b.num * a.den, a.den * b.den⟩
def Frac.le (a b : Frac) : Bool := a.num * b.den ≤ b.num * a.den
def Frac.sum (l : List Frac) : Frac := l.foldl Frac.add ⟨0, 1⟩
def Frac.ceil (a : Frac) : Nat := ceilDiv a.num a.den

/-- Insert a fraction into a falling list. -/
def insertFrac (x : Frac) : List Frac → List Frac
  | [] => [x]
  | y :: t => if y.le x then x :: y :: t else y :: insertFrac x t

/-! ### What a commit would make live -/

/-- Hearths of a site in a map of bindings, with its home hearth. -/
def siteSpan (binds : List (Nat × Binding)) (s : Nat) : List Nat :=
  match mapFind binds s with
  | some b => if b.hearths = 0 then [homeHearth s] else bitList b.hearths 16
  | none => [homeHearth s]

/-- Hearths that a site's live and new bindings hold (R360). -/
def siteScope (live new : List (Nat × Binding)) (s : Nat) : List Nat := sortNats (siteSpan live s ++ siteSpan new s)

/-- Take the value of a key from another map, present or absent. -/
def mapCopy {α : Type} (src dst : List (Nat × α)) (k : Nat) : List (Nat × α) :=
  match mapFind src k with
  | some v => mapSet dst k v
  | none => mapErase dst k

/-- The list sets of a site taken from another map. -/
def ddsCopy (src dst : List (Nat × DdsList)) (s : Nat) : List (Nat × DdsList) :=
  (src.filter (fun x => x.1 / 65536 == s)).foldl (fun (m : List (Nat × DdsList)) x => mapSet m x.1 x.2) (dst.filter (fun x => x.1 / 65536 != s))

/-- Timing and level sets of a hearth taken from the shadow (R360). -/
def SetUp.takeHearth (live sh : SetUp) (h : Nat) : SetUp :=
  { live with timing := mapCopy sh.timing live.timing h
              levels := ((List.range 8).map (8 * h + ·)).foldl (fun (m : List (Nat × LevelEntry)) g => mapCopy sh.levels m g) live.levels }

/-- Binding, capture plan and list sets of a site taken from the shadow; an unbound site loses its plan (R232). -/
def SetUp.takeSite (live sh : SetUp) (s : Nat) : SetUp :=
  let gone := (mapFind sh.binds s).isNone && (mapFind live.binds s).isSome
  { live with binds := mapCopy sh.binds live.binds s
              plans := if gone then mapErase live.plans s else mapCopy sh.plans live.plans s
              dds := ddsCopy sh.dds live.dds s }

/-- Sites that a commit of `named` hearths reaches: one of the hearths of their live or new binding is named. -/
def sitesReached (live new : SetUp) (named : List Nat) : List Nat :=
  (List.range 256).filter (fun s => (siteScope live.binds new.binds s).any named.contains &&
    ((mapFind live.binds s).isSome || (mapFind new.binds s).isSome || (mapFind new.plans s).isSome || (mapFind live.plans s).isSome ||
     new.dds.any (fun x => x.1 / 65536 == s) || live.dds.any (fun x => x.1 / 65536 == s)))

/-- The whole set-up after a commit. -/
def SetUp.after (live sh : SetUp) (named : List Nat) : SetUp :=
  (sitesReached live sh named).foldl (fun (u : SetUp) s => u.takeSite sh s) (named.foldl (fun (u : SetUp) h => u.takeHearth sh h) live)

/-- The set-up once every commit pending has applied. -/
def Dev.afterPending (d : Dev) : SetUp := d.seq.commits.foldl (fun (u : SetUp) c => u.after c.setUp c.hearths) d.seq.live

/-- The claims once every commit pending has applied. -/
def Dev.claimsPending (d : Dev) : List LiveClaim := match d.seq.commits.getLast? with | some c => c.claims | none => d.seq.claims

/-! ### A failing check -/

/-- How a commit fails: status, ARG0, ARG1. -/
structure CommitFail where
  status : Nat
  arg0 : Nat
  arg1 : Nat
  deriving DecidableEq, Repr

def refused (check hearth site index : Nat) : CommitFail := ⟨stRefused, refuseArg check hearth site index, 0⟩
def conflict (a b : Nat) : CommitFail := ⟨stConflict, a, b⟩

/-- One check group: what it latches, and how it fails. -/
abbrev Judged := Dev × Option CommitFail

/-- Failures in the order found, the first of each key kept, keys rising. -/
def firstPer {α : Type} (key : α → Nat) (l : List α) : List (Nat × α) :=
  l.foldl (fun (m : List (Nat × α)) x => if (mapFind m (key x)).isSome then m else mapSet m (key x) x) []

/-! ### Groups 1 and 2 -/

/-- COMMIT_SCOPE (R360): a site of which a changed binding, plan or list set reaches named hearths and others. -/
def Dev.scopeBad (d : Dev) (named : List Nat) : Bool :=
  let live := d.seq.live
  let sh := d.seq.shadow
  (List.range 256).any (fun s =>
    let span := siteScope live.binds sh.binds s
    let differs := mapFind live.binds s != mapFind sh.binds s || mapFind live.plans s != mapFind sh.plans s ||
      live.dds.filter (fun x => x.1 / 65536 == s) != sh.dds.filter (fun x => x.1 / 65536 == s)
    differs && span.any named.contains && !(span.all named.contains))

/-- Sites bound in a set-up of which a hearth is named, ascending. -/
def SetUp.boundIn (u : SetUp) (named : List Nat) : List Nat :=
  sortNats ((u.binds.filter (fun b => (siteSpan u.binds b.1).any named.contains)).map (·.1))

/-- The image of a site in a set-up. -/
def Dev.imageIn (d : Dev) (u : SetUp) (s : Nat) : Option Image :=
  match mapFind u.binds s with
  | some b => d.image b.image
  | none => none

/-- BIND_IMAGE (R171). -/
def Dev.judgeImages (d : Dev) (u : SetUp) (named : List Nat) : Judged :=
  let bad := (u.boundIn named).filter (fun s => match mapFind u.binds s with
    | some b => (match d.image b.image with | some i => i.z.w != b.chs.length | none => true)
    | none => false)
  ((firstPer homeHearth bad).foldl (fun d x => d.latchSeqRefuse 0x43 x.2 0) d, (bad.head?).map (fun s => refused 0x43 (homeHearth s) s 0))

/-! ### Group 3: timing -/

def timingIn (u : SetUp) (h : Nat) : List (Nat × TimSet) := mapGet u.timing h []

/-- Pq of a set in a hearth, when it is valid there. -/
def pqIn (u : SetUp) (h k : Nat) : Option Nat := (mapFind (timingIn u h) k).map TimSet.pq

/-- GANG_PERIOD of a site (R126). -/
def gangFail (u : SetUp) (s : Nat) : Option Nat :=
  let hs := siteSpan u.binds s
  (List.range 32).find? (fun k => hs.any (fun h => pqIn u h k != pqIn u (homeHearth s) k))

/-- IMAGE_SET of a site (R126). -/
def setFail (u : SetUp) (z : ZImage) (s : Nat) : Option Nat :=
  let hs := siteSpan u.binds s
  (bitList z.setMask 32).find? (fun k => hs.any (fun h => (pqIn u h k).isNone))

/-- CROSS_DEVICE of an image (R162): the granule of the first instruction that needs another device's pins. -/
def crossFail (z : ZImage) : Option Nat :=
  (z.grans.zipIdx.find? (fun (x : Gran × Nat) => match x.1.ins with
    | .jumpIf _ _ _ cond _ _ _ => cond == 0 || cond == 1 || cond == 4
    | .wait ev _ _ _ => ev == 0
    | _ => false)).map (·.2)

/-- The checks of R126 and R162 as (site, code, index), in their order. -/
def Dev.imageTiming (d : Dev) (u : SetUp) (named : List Nat) : List (Nat × Nat × Nat) :=
  let sites := u.boundIn named
  let gang := sites.filterMap (fun s => match mapFind u.binds s with
    | some b => if b.gang then (gangFail u s).map (fun k => (s, 0x13, k)) else none
    | none => none)
  gang ++ sites.flatMap (fun s => match mapFind u.binds s, d.imageIn u s with
    | some b, some i =>
      ((setFail u i.z s).map (fun k => (s, 0x14, k))).toList ++ (if b.multi then ((crossFail i.z).map (fun g => (s, 0x15, g))).toList else [])
    | _, _ => [])

/-- The timing group (R122, R126). -/
def Dev.judgeTiming (d : Dev) (u : SetUp) (named : List Nat) : Judged :=
  let bad := named.filterMap (fun h => (hearthTimingChecks d.minPeriod (fun p => !(d.absent (64 * h + p))) (timingIn u h)).map (fun f => (h, f)))
  match bad with
  | (h, f) :: _ => (bad.foldl (fun (d : Dev) x => d.setReg (R.HRT_TIM_REFUSE x.1) (timRefuseWord x.2)) d, some (refused f.check h 0xFFFF f.setA))
  | [] =>
    let l := firstPer (fun (x : Nat × Nat × Nat) => homeHearth x.1) (d.imageTiming u named)
    let d := l.foldl (fun (d : Dev) x => if x.2.2.1 = 0x15 then d.latchSeqRefuse 0x15 x.2.1 0
      else d.setReg (R.HRT_TIM_REFUSE x.1) (timRefuseWord (timFailSet x.2.2.1 x.2.2.2))) d
    (d, (l.head?).map (fun x => refused x.2.2.1 x.1 x.2.1 x.2.2.2))

/-! ### Groups 4 and 5 -/

/-- The level entry of a grate in a set-up. -/
def levelIn (u : SetUp) (g : Nat) : LevelEntry := mapGet u.levels g LevelEntry.reset

/-- STATIC_POLICY (R72, R92). -/
def Dev.judgeStatic (d : Dev) (u : SetUp) (named : List Nat) : Judged :=
  (d, (((List.range 128).filter (fun g => named.contains (g / 8))).find? (fun g => (levelIn u g).ppmu.isSome && d.policy g == polOff)).map
    (fun g => refused 0x1D (g / 8) 0xFFFF g))

/-- The first channel-sharing or gang-slot conflict (R173). Two ganged bindings that would meet in a gang-member slot of a third hearth are not on R173's list: both go
live (the model's choice, log entry 127). -/
def bindConflict (binds : List (Nat × Binding)) : Option CommitFail :=
  let sites := sortNats (mapKeys binds)
  let name := fun (s : Nat) => claimant 1 s s
  let shared := sites.findSome? (fun s => match mapFind binds s with
    | none => none
    | some b => (sites.filter (· < s)).findSome? (fun r => match mapFind binds r with
      | none => none
      | some c => if b.channels.any c.channels.contains then some (conflict (name r) (name s)) else none))
  match shared with
  | some f => some f
  | none =>
    sites.findSome? (fun s => (sites.find? (fun g => g != s && g % 16 == s % 16 && (match mapFind binds g with
      | some b => b.gang && tbit b.hearths (homeHearth s)
      | none => false))).map (fun g => conflict (name g) (name s)))

/-! ### Group 6: claims (R92, R164, R274, R290) -/

/-- The static PPMU pin of a grate lies in a live binding (R92). -/
def staticConflict (u : SetUp) : Option CommitFail :=
  (u.levels.findSome? (fun x => match x.2.ppmu with
    | none => none
    | some p => ((u.binds.find? (fun b => b.2.channels.contains (8 * x.1 + p.pin))).map (fun b => conflict (claimant 4 x.1) (claimant 1 b.1 b.1)))))

/-- A channel that is armed by register, or paired to one (R274). -/
def Dev.tmuByReg (d : Dev) (n : Nat) : Bool := (d.tmuCh n).byReg || (d.tmuCh n).st == tmPaired

/-- Resolve one claim against those already assigned (R164). -/
def Dev.resolveClaim (d : Dev) (u : SetUp) (done : List LiveClaim) (s : Nat) (b : Binding) (c : Claim) : LiveClaim ⊕ CommitFail ⊕ Unit :=
  let holder := fun (k n : Nat) => done.find? (fun x => x.kind == k && x.unit == n)
  if c.kind = 4 then
    let h := homeHearth s
    let held := done.filter (fun x => x.kind == 4 && x.unit == h)
    if (held.map (·.amount)).sum + c.amount > 256 then
      .inr (.inl (conflict (claimant 5 h s) (claimant 5 h ((listMin? (held.map (·.site))).getD s))))
    else .inl ⟨s, 4, 0xFFFF, h, 0, c.amount, false⟩
  else
    let ch := nth b.chs c.pin 0xFFFF
    if ch ≥ 1024 then .inr (.inr ())
    else if c.kind = 3 then
      let g := chGrate ch
      if (levelIn u g).ppmu.isSome then .inr (.inl (conflict (claimant 4 g s) (claimant 4 g)))
      else match done.find? (fun x => x.kind == 3 && x.unit == g && x.site != s) with
        | some x => .inr (.inl (conflict (claimant 4 g s) (claimant 4 g x.site)))
        | none => .inl ⟨s, 3, c.pin, g, ch, 0, false⟩
    else
      let per := if c.kind = 1 then 4 else 2
      let k := if c.kind = 1 then 2 else 3
      let units := (List.range per).map (per * chHearth ch + ·)
      let want := if c.slot = 0xFF then (units.find? (fun n => (holder c.kind n).isNone)).getD (per * chHearth ch) else per * chHearth ch + c.slot
      match holder c.kind want with
      | some x => .inr (.inl (conflict (claimant k want s) (claimant k want x.site)))
      | none =>
        if c.kind = 2 ∧ d.tmuByReg want = true then .inr (.inl (conflict (claimant 1 s s) (claimant 7 want)))
        else if c.kind = 2 then
          .inl ⟨s, 2, c.pin, want, ch, d.getF (R.TMU_CH_CFG want) F.TMU_CH_CFG_RATE, d.flag (R.TMU_CH_CFG want) F.TMU_CH_CFG_RECORD⟩
        else .inl ⟨s, c.kind, c.pin, want, ch, 0, false⟩

/-- Resolve the claims of a site in table order. -/
def Dev.resolveSite (d : Dev) (u : SetUp) (done : List LiveClaim) (s : Nat) : List LiveClaim ⊕ CommitFail :=
  match mapFind u.binds s, d.imageIn u s with
  | some b, some i => i.z.claims.foldl (fun (acc : List LiveClaim ⊕ CommitFail) c => match acc with
      | .inr f => .inr f
      | .inl l => match d.resolveClaim u l s b c with
        | .inl x => .inl (l ++ [x])
        | .inr (.inl f) => .inr f
        | .inr (.inr _) => .inl l) (.inl done)
  | _, _ => .inl done

/-- A claim that stays live takes RATE and RECORD anew where the commit reaches its site (R272). -/
def Dev.renewClaim (d : Dev) (c : LiveClaim) : LiveClaim :=
  if c.kind = 2 then { c with amount := d.getF (R.TMU_CH_CFG c.unit) F.TMU_CH_CFG_RATE, record := d.flag (R.TMU_CH_CFG c.unit) F.TMU_CH_CFG_RECORD } else c

/-- The static pin that a commit puts on a PPMU that a claim which stays live holds (R92, R164). -/
def keptConflict (u : SetUp) (claims : List LiveClaim) : Option CommitFail :=
  (claims.find? (fun c => c.kind == 3 && (levelIn u c.unit).ppmu.isSome)).map (fun c => conflict (claimant 4 c.unit c.site) (claimant 4 c.unit))

/-- The claims that a commit makes live (R164, R282): those of other sites, and of sites whose binding does not change, stay with their units; those of
the other sites it reaches are resolved in ascending site. -/
def Dev.resolveClaims (d : Dev) (u : SetUp) (named : List Nat) : List LiveClaim ⊕ CommitFail :=
  let mine := u.boundIn named
  let before := d.afterPending
  let stays := fun (s : Nat) => mapFind before.binds s == mapFind u.binds s
  let keep := (d.claimsPending.filter (fun c => (mapFind u.binds c.site).isSome && (!(mine.contains c.site) || stays c.site))).map (fun c =>
    if mine.contains c.site then d.renewClaim c else c)
  match keptConflict u keep with
  | some f => .inr f
  | none =>
    (mine.filter (fun s => !(stays s))).foldl (fun (acc : List LiveClaim ⊕ CommitFail) s => match acc with
      | .inr f => .inr f
      | .inl l => d.resolveSite u l s) (.inl keep)

/-- The list set of a claim in a set-up. -/
def ddsIn (u : SetUp) (c : LiveClaim) : Option DdsList := mapFind u.dds (c.site * 65536 + c.pin)

/-- Whether a claim's unit takes its grate's VIH (R290). -/
def ampUnit (u : SetUp) (c : LiveClaim) : Bool := c.kind == 1 && (match ddsIn u c with | some l => !l.amp.isEmpty | none => false)

/-- A unit with amplitudes shares its grate (R290). -/
def ampConflict (u : SetUp) (claims : List LiveClaim) : Option CommitFail :=
  (claims.filter (ampUnit u)).findSome? (fun c =>
    let g := chGrate c.ch
    let me := claimant 2 c.unit c.site
    match claims.find? (fun x => ampUnit u x && x.unit != c.unit && chGrate x.ch == g) with
    | some x => some (conflict me (claimant 2 x.unit x.site))
    | none => u.binds.findSome? (fun b => (b.2.channels.find? (fun ch => chGrate ch == g && ch != c.ch)).map (fun ch =>
        conflict me (claimant 8 ch b.1))))

/-! ### Group 7: capture plans (R231) -/

/-- Whether two areas overlap. -/
def overlap (a b : Nat × Nat) : Bool := a.1 < b.1 + b.2 && b.1 < a.1 + a.2

/-- Buffer and result areas of a plan. -/
def CapPlan.areas (p : CapPlan) : List (Nat × Nat) :=
  (p.bufBase, p.bufBytes) :: (if p.resEntries = 0 then [] else [(p.resBase, 64 * p.resEntries)])

/-- The smallest period in codes among an image's sets in a hearth (R220). -/
def pMin (u : SetUp) (z : ZImage) (h : Nat) : Option Nat := listMin? ((bitList z.setMask 32).filterMap (fun k => pqIn u h k))

/-- Σ 64 × f / MIN_LEN over the MARK_EACH windows (CAP_WRATE), in bytes per second. -/
def CapPlan.markRate (p : CapPlan) (pq : Nat) : Frac :=
  Frac.sum ((p.wins.filter (fun w => w.kind == 1 && w.stop != 0)).map (fun w => ⟨64 * 1024 * 10 ^ 9, pq * w.stop⟩))

/-- The first failing commit check of a plan, with its window. -/
def Dev.planFail (d : Dev) (u : SetUp) (claims : List LiveClaim) (s : Nat) (p : CapPlan) : Option Nat :=
  let h := homeHearth s
  let share := ((claims.filter (fun c => c.site == s && c.kind == 4)).map (·.amount)).sum
  let drain := ((u.plans.filter (fun x => homeHearth x.1 == h)).map (fun x => x.2.drain)).sum
  match d.imageIn u s with
  | none => some 0x62
  | some i =>
    firstSome [
      failWhen (!(i.z.claims.any (fun c => c.kind == 4)) || i.z.w != p.w) 0x62,
      failWhen (p.areas.any (fun a => !(d.inHost a.1 a.2)) ||
        u.plans.any (fun x => x.1 != s && x.2.areas.any (fun b => p.areas.any (overlap b)))) 0x63,
      failWhen (decide (drain > 8000)) 0x64,
      failWhen (decide (capLimitOf share p.drain d.tGap < 4096)) 0x65,
      failWhen (match pMin u i.z h with
        | some pq => !((p.markRate pq).le ⟨p.drain * 500000, 1⟩)
        | none => false) 0x66]

/-- The capture group. -/
def Dev.judgePlans (d : Dev) (u : SetUp) (claims : List LiveClaim) : Judged :=
  let bad := u.plans.filterMap (fun x => (d.planFail u claims x.1 x.2).map (fun c => (x.1, c)))
  ((firstPer (fun (x : Nat × Nat) => homeHearth x.1) bad).foldl (fun (d : Dev) x => d.latchCapRefuse x.2.2 x.2.1 0 0) d,
   (bad.head?).map (fun x => refused x.2 (homeHearth x.1) x.1 0))

/-! ### Group 8: DDS list sets (R289) -/

/-- The failures of the DDS group as (site × 65,536 + pin, code), keys rising. -/
def ddsFails (u : SetUp) (claims : List LiveClaim) : List (Nat × Nat) :=
  let mine := claims.filter (fun c => c.kind == 1)
  let keys := sortNats (mapKeys u.dds ++ mine.map (fun c => c.site * 65536 + c.pin))
  keys.filterMap (fun k => match mapFind u.dds k, mine.find? (fun c => c.site * 65536 + c.pin == k) with
    | some l, some c => if l.amp.any (fun a => a < (levelIn u (chGrate c.ch)).vil + 2000) then some (k, 0x73) else none
    | none, none => none
    | _, _ => some (k, 0x72))

/-- The DDS group: a list set on a pin that another device binds has no live claim here. -/
def Dev.judgeDds (d : Dev) (u : SetUp) (claims : List LiveClaim) : Judged :=
  let bad := ddsFails u claims
  ((firstPer (fun (x : Nat × Nat) => homeHearth (x.1 / 65536)) bad).foldl (fun (d : Dev) x => d.latchDdsRefuse x.2.2 (x.2.1 / 65536) (x.2.1 % 65536)) d,
   (bad.head?).map (fun x => refused x.2 (homeHearth (x.1 / 65536)) (x.1 / 65536) (x.1 % 65536)))

/-! ### Groups 9 and 10: streams (R208, R209, R220–R224) -/

/-- Bytes of an image's pool area (R209). -/
def Image.poolArea (i : Image) : Nat :=
  roundUp (i.z.dictCount * (64 + 64 * i.z.rowBytes) + ((i.pinned.map (fun k => (nth i.z.segs k ⟨0, 0, 0, 0, 0⟩).len)).sum)) 4096

/-- Images live in a hearth, ascending, each with n(I, h). -/
def imagesIn (u : SetUp) (h : Nat) : List (Nat × Nat) :=
  (u.binds.filter (fun b => if b.2.gang then tbit b.2.hearths h else homeHearth b.1 == h)).foldl
    (fun (m : List (Nat × Nat)) b => mapSet m b.2.image (mapGet m b.2.image 0 + 1)) []

/-- D(I, h) in bytes per second (R220). -/
def Image.demand (i : Image) (u : SetUp) (h : Nat) : Frac :=
  let rate := ((i.z.segs.zipIdx.filter (fun (x : Seg × Nat) => !(i.pinned.contains x.2))).map (fun x => x.1.rate)).foldl max 0
  match pMin u i.z h with
  | some pq => ⟨rate * 10 ^ 9, 64 * pq⟩
  | none => ⟨0, 1⟩

/-- G_req(I, h) (R220). -/
def Dev.gReq (d : Dev) (x : Frac) : Nat := ceilDiv (x.num * d.tGap) (x.den * 10 ^ 9 * 64) * 64

/-- Pool, ring and charge of a hearth (R208, R220). -/
structure StreamFig where
  pool : Nat
  ring : Nat
  charge : Frac
  deriving DecidableEq, Repr

def Dev.streamFig (d : Dev) (u : SetUp) (engines h : Nat) : StreamFig :=
  let l := imagesIn u h
  let pool := (l.map (fun x => ((d.image x.1).map Image.poolArea).getD 0)).sum
  let demands := l.flatMap (fun x => match d.image x.1 with | some i => List.replicate x.2 (i.demand u h) | none => [])
  { pool := pool, ring := (4 * 2 ^ 20 - pool) / engines / 4096 * 4096
    charge := Frac.sum ((demands.foldl (fun l x => insertFrac x l) []).take engines) }

/-- ENGINES of HRT_STR_CFG. -/
def Dev.enginesCfg (d : Dev) (h : Nat) : Nat := d.getF (R.HRT_STR_CFG h) F.HRT_STR_CFG_ENGINES

/-- ENGINES of a hearth after a commit of `named` (R221, R223): of a hearth that it does not name, what a commit pending there will make live. -/
def Dev.enginesAfter (d : Dev) (named : List Nat) (h : Nat) : Nat :=
  if named.contains h then d.enginesCfg h
  else match d.seq.commits.reverse.find? (fun c => c.hearths.contains h && !(c.applied.contains h)) with
    | some c => mapGet c.engines h (d.hearth h).engines
    | none => (d.hearth h).engines

/-- L of R220 in bytes per second: the peak of the two DRAM PLLs' N (R421) at 0.8 GB/s per unit and channel, tREFI at the rate of R224. -/
def Dev.streamLimit (d : Dev) : Frac :=
  let peak := 4 * 8 * 10 ^ 8 * (d.getF (R.CLK_PLL_CTRL 3) F.CLK_PLL_CTRL_N + d.getF (R.CLK_PLL_CTRL 4) F.CLK_PLL_CTRL_N)
  let trefi := d.getF R.DMC_REFRESH F.DMC_REFRESH_TREFI_NS
  let trfc := d.getF R.DMC_TRFC F.DMC_TRFC_TRFC_NS * (if d.flag R.DMC_CFG F.DMC_CFG_THERMAL_2X then 2 else 1)
  let avail : Frac := ⟨peak * (trefi - trfc) * 99998 * 95, trefi * 100000 * 100⟩
  if trefi = 0 then ⟨0, 1⟩ else if avail.le ⟨320 * 10 ^ 9, 1⟩ then avail else ⟨320 * 10 ^ 9, 1⟩

/-- Reserves of R220 in bytes per second: capture, TMU (R272), rings. -/
def reserves (u : SetUp) (claims : List LiveClaim) : Nat :=
  let cap := ((List.range 16).map (fun h => capAt (((u.plans.filter (fun x => homeHearth x.1 == h)).map (fun x => x.2.drain)).sum) 8000)).sum
  let tmu := ((claims.filter (fun c => c.kind == 2 && c.record)).map (fun c => 16 * c.amount)).sum
  (cap + tmu + 2000) * 10 ^ 6

/-- S of R220. -/
def Dev.streamSum (d : Dev) (u : SetUp) (claims : List LiveClaim) (named : List Nat) : Frac :=
  (Frac.sum ((List.range 16).map (fun h => (d.streamFig u (d.enginesAfter named h) h).charge))).add ⟨reserves u claims, 1⟩

/-- The first layout failure of a hearth: code and image (R221). -/
def Dev.layoutFail (d : Dev) (u : SetUp) (named : List Nat) (h : Nat) : Option (Nat × Nat) :=
  let engines := d.enginesAfter named h
  let f := d.streamFig u engines h
  (imagesIn u h).findSome? (fun x => match d.image x.1 with
    | none => none
    | some i =>
      let g := d.gReq (i.demand u h)
      (firstSome [
        failWhen (decide (4 * 2 ^ 20 < f.pool + 4096 * engines)) 0x51,
        failWhen (decide (f.ring < i.z.windowGuard + g)) 0x52,
        failWhen (decide (i.z.windowGuard < g)) 0x53,
        failWhen (decide (f.ring < i.z.windowGuard + d.stripe) || i.base % d.stripe != 0) 0x56]).map (fun c => (c, x.1)))

/-- The stream-budget failures as (hearth, code, image) (R221). -/
def Dev.budgetFails (d : Dev) (u : SetUp) (claims : List LiveClaim) (named : List Nat) : List (Nat × Nat × Nat) :=
  let rate := (List.range 16).flatMap (fun h => (imagesIn u h).filterMap (fun x => match d.image x.1 with
    | some i => if (i.demand u h).le ⟨24 * 10 ^ 9, 1⟩ then none else some (h, 0x54, x.1)
    | none => none))
  rate ++ (if (d.streamSum u claims named).le d.streamLimit then [] else [(0, 0x55, 0xFFFF)])

/-- HRT_STR_REFUSE (R225). -/
def Dev.latchStr (d : Dev) (h check image : Nat) : Dev :=
  d.setReg (R.HRT_STR_REFUSE h) (BitVec.ofNat 32 (2 ^ 24 * check + 2 ^ 8 * (image % 65536) + 1))

/-- The stream groups: a layout failure refuses, a budget failure only latches. -/
def Dev.judgeStreams (d : Dev) (u : SetUp) (claims : List LiveClaim) (named : List Nat) : Judged :=
  let bad := (List.range 16).filterMap (fun h => (d.layoutFail u named h).map (fun f => (h, f)))
  match bad with
  | (h, c, i) :: _ => (bad.foldl (fun (d : Dev) x => d.latchStr x.1 x.2.1 x.2.2) d, some (refused c h 0xFFFF i))
  | [] =>
    let overs := firstPer (fun (x : Nat × Nat × Nat) => x.1) (d.budgetFails u claims named)
    (overs.foldl (fun (d : Dev) x => d.latchStr x.1 x.2.2.1 x.2.2.2) d, none)

/-! ### All groups (R561) -/

/-- Every check of a commit of `named` hearths: what the checks latch, and the resolved claims or the failure. -/
def Dev.judgeCommit (d : Dev) (named : List Nat) : Dev × (List LiveClaim ⊕ CommitFail) :=
  let u := d.afterPending.after d.seq.shadow named
  if d.scopeBad named then (d, .inr (refused 0x81 0xFF 0xFFFF 0))
  else match d.judgeImages u named with
  | (d, some f) => (d, .inr f)
  | (d, none) => match d.judgeTiming u named with
  | (d, some f) => (d, .inr f)
  | (d, none) => match d.judgeStatic u named with
  | (d, some f) => (d, .inr f)
  | (d, none) => match bindConflict u.binds with
  | some f => (d, .inr f)
  | none => match staticConflict u with
  | some f => (d, .inr f)
  | none => match d.resolveClaims u named with
  | .inr f => (d, .inr f)
  | .inl claims => match ampConflict u claims with
  | some f => (d, .inr f)
  | none => match d.judgePlans u claims with
  | (d, some f) => (d, .inr f)
  | (d, none) => match d.judgeDds u claims with
  | (d, some f) => (d, .inr f)
  | (d, none) => match d.judgeStreams u claims named with
  | (d, some f) => (d, .inr f)
  | (d, none) => (d, .inl claims)

end Sys2Proof.Machine
end

