-- ==== Sys2Proof/Machine/Commit.lean ====
section
/-! DEFINITION. Commits: take-up, application at run boundaries, pool loading, settle times, entry into ARMED, completion (spec/01
R15–R23, spec/03 R82–R85, spec/07 R208, R209, R222, R223). -/

namespace Sys2Proof.Machine

/-- Sites that a settle time concerns (R82, R291). -/
def Dev.settleConcerns (d : Dev) (x : Settle) (s : Nat) : Bool :=
  match x with
  | .level g | .relay g => (match d.binding s with | some b => b.channels.any (fun ch => chGrate ch == g) | none => false)
  | .spare h => (match d.binding s with | some b => b.channels.any (fun ch => chHearth ch == h) | none => false)
  | .ddsAmp t => t == s

/-- A commit is still pending for a site (R22, R82, R209): for a hearth of its live or coming binding, or over a settle time or a pool
load that concerns it. -/
def Dev.commitHolds (d : Dev) (s : Nat) : Bool :=
  (d.siteHearths s).any (fun h => d.commitPending h || (d.hearth h).loading) ||
  d.seq.commits.any (fun c => (siteSpan c.setUp.binds s).any (fun h => c.hearths.contains h && !(c.applied.contains h))) ||
  d.seq.settles.any (fun x => (match x with | .ddsAmp _ => false | _ => true) && d.settleConcerns x s)

/-- Bound sites in IDLE whose commit has settled enter ARMED (R82, R209). -/
def Dev.armKick (d : Dev) : Dev :=
  (mapKeys d.seq.live.binds).foldl (fun (d : Dev) s =>
    if (d.site s).st = .idle && !(d.commitHolds s) then d.modSite s (fun x => { x with st := .armed }) else d) d

/-- Whether a settle time or a pool load of a commit's hearths runs (R82, R209). -/
def Dev.commitSettling (d : Dev) (hs : List Nat) : Bool :=
  hs.any (fun h => (d.hearth h).loading) ||
  d.seq.settles.any (fun x => match x with | .level g | .relay g => hs.contains (g / 8) | .spare h => hs.contains h | .ddsAmp _ => false)

/-- Commits that have applied and settled everywhere complete (R21, R82, R209). -/
def Dev.commitKick (d : Dev) : Dev :=
  let isOver := fun (c : PendCommit) => c.hearths.all c.applied.contains && !(d.commitSettling c.hearths)
  let done := d.seq.commits.filter isOver
  let d := { d with seq := { d.seq with commits := d.seq.commits.filter (fun c => !(isOver c)) } }
  done.foldl (fun (d : Dev) c =>
    (d.post c.ring { hostSeq := c.hostSeq, opcode := opCommit, status := stOk, flags := 8 * bit c.irq, arg0 := maskOf c.hearths, arg1 := 0
                     counted := true }).endCurrent c.ring) d

/-- COMMIT is taken up: checked, refused or pending (R20, R122, R364, R561). -/
def Dev.commitTake (d : Dev) (n : Nat) : Dev :=
  match d.nextDesc n opCommit with
  | none => d
  | some q =>
    let named := q.mask 16 2
    match (d.beginDesc n q true).judgeCommit named with
    | (d, .inr f) => (d.complete n q f.status f.arg0 f.arg1).endCurrent n
    | (d, .inl claims) =>
      let c : PendCommit :=
        { ring := n, hostSeq := q.hostSeq, origin := q.origin, irq := q.irq, hearths := named, applied := [], setUp := d.seq.shadow, claims := claims
          engines := named.map (fun h => (h, d.enginesCfg h)) }
      { d with seq := { d.seq with commits := d.seq.commits ++ [c] } }

/-- A settle time starts, or starts afresh. -/
def Dev.startSettle (d : Dev) (x : Settle) : Dev :=
  if d.seq.settles.contains x then d else { d with seq := { d.seq with settles := d.seq.settles ++ [x] } }

/-- The level codes of a grate that the data path holds (R82, R290): VIH is AMP[a] while a unit with amplitudes serves the grate. -/
def Dev.gratePath (d : Dev) (g : Nat) : Nat × Nat × Nat × List (Nat × Nat) :=
  let e := d.liveLevel g
  let amp := (d.seq.claims.find? (fun c => ampUnit d.seq.live c && chGrate c.ch == g)).bind (fun c =>
    (ddsIn d.seq.live c).map (fun l => nth l.amp (d.ddsUnit c.unit).a 0))
  (amp.getD e.vih, e.vil, e.vtt, e.pins.map (fun p => (p.voh, p.vol)))

/-- The relay drives of a hearth take the live level sets (R83, R85): a change starts its settle time, a closing counts. -/
def Dev.applyRelays (d : Dev) (h : Nat) : Dev :=
  let d := ((List.range 8).map (8 * h + ·)).foldl (fun (d : Dev) g =>
    let want := (d.liveLevel g).relay
    if (d.grate g).relay = want then d
    else
      let d := (d.modGrate g (fun x => { x with relay := want })).startSettle (.relay g)
      if want then d.relayActuate g else d) d
  let want := (d.liveLevel (8 * h)).spare
  if (d.hearth h).spare = want then d
  else
    let d := (d.modHearth h (fun x => { x with spare := want })).startSettle (.spare h)
    if want then d.relayActuate (128 + h) else d

/-- Sites of a commit that go live with hearth `h`: their last named hearth applies (R20, R170). -/
def Dev.sitesDue (d : Dev) (c : PendCommit) (h : Nat) : List Nat :=
  (sitesReached d.seq.live c.setUp c.hearths).filter (fun s =>
    let span := (siteScope d.seq.live.binds c.setUp.binds s).filter c.hearths.contains
    span.contains h && span.all (fun x => x == h || c.applied.contains x))

/-- A site takes its binding, plan, list sets and claims; a changed binding leaves it IDLE until it arms (R19, R82), and starts its
draught round (R388, R393). -/
def Dev.applySite (d : Dev) (c : PendCommit) (s : Nat) : Dev :=
  let old := d.binding s
  let sh := d.seq.shadow
  let live := d.seq.live.takeSite c.setUp s
  let new := mapFind live.binds s
  let claims := d.seq.claims.filter (fun x => x.site != s) ++ c.claims.filter (fun x => x.site == s)
  let gone := old.isSome && new.isNone
  let shadow := if gone then { sh with plans := mapErase sh.plans s } else sh
  let d := { d with seq := { d.seq with live := live, claims := claims, shadow := shadow } }
  let d := (claims.filter (fun x => x.site == s && x.kind == 1)).foldl (fun (d : Dev) x => match ddsIn live x with
    | some l => d.modDds x.unit (fun u => { (DdsUnit.reset.load l 0 0 0) with steps := u.steps, aligns := u.aligns, delayed := u.delayed })
    | none => d) d
  if old = new then d else (d.modSite s (fun x => { x with st := .idle })).drtBind s new.isSome

/-- Charge, use and OVER of the live state (R222, R223, R225). -/
def Dev.streamView (d : Dev) : Dev :=
  let u := d.seq.live
  let d := (List.range 16).foldl (fun (d : Dev) h =>
    let f := d.streamFig u (d.hearth h).engines h
    d.modHearth h (fun x => { x with chargeMbps := capAt (Frac.ceil ⟨f.charge.num, f.charge.den * 10 ^ 6⟩) (2 ^ 32 - 1) })) d
  let s := d.streamSum u d.seq.claims []
  let d := d.setReg R.HRT_STR_ADM_USED (BitVec.ofNat 32 (capAt (Frac.ceil ⟨s.num, s.den * 10 ^ 6⟩) (2 ^ 32 - 1)))
  d.setF R.HRT_STR_ADM_STATUS F.HRT_STR_ADM_STATUS_OVER (bit !(d.budgetFails u d.seq.claims []).isEmpty)

/-- HRT_CAP_PEAK as it stands when it is looked at, or when the claims that bound it change: the real occupancy of the capture FIFO depends on DRAM timing, so
how far it has risen is free; it is 0 without a live plan in the hearth, and never above the live CAPTURE claims (R247, R257; log entry 7). -/
def Dev.peakLook (d : Dev) (h : Nat) : Dev :=
  let most := ((d.seq.claims.filter (fun c => c.kind == 4 && c.unit == h)).map (·.amount)).sum
  if !(d.seq.live.plans.any (fun x => homeHearth x.1 == h)) then d
  else
    let (n, d) := d.drawNat
    d.setF (R.HRT_CAP_PEAK h) F.HRT_CAP_PEAK_PEAK_KIB (max (n % (most + 1)) (d.getF (R.HRT_CAP_PEAK h) F.HRT_CAP_PEAK_PEAK_KIB))

/-- One commit applies in hearth `h` in one step (R20). -/
def Dev.applyCommit (d : Dev) (c : PendCommit) (h : Nat) : Dev :=
  let d := d.peakLook h
  let gs := (List.range 8).map (8 * h + ·)
  let before := gs.map d.gratePath
  let statics := gs.map d.staticPin
  let due := d.sitesDue c h
  let d := { d with seq := { d.seq with live := d.seq.live.takeHearth c.setUp h } }
  let d := due.foldl (fun (d : Dev) s => d.applySite c s) d
  let d := gs.foldl (fun (d : Dev) g => d.modGrate g (fun x => { x with forceOff := false })) d
  let d := (gs.zip before).foldl (fun (d : Dev) x =>
    if d.gratePath x.1 != x.2 && (d.grate x.1).dom != .off then d.startSettle (.level x.1) else d) d
  let d := d.applyRelays h
  let d := (gs.zip statics).foldl (fun (d : Dev) x =>
    if (d.staticPin x.1).isSome && d.staticPin x.1 != x.2 then d.wakeGrate x.1 else d) d
  let engines := mapGet c.engines h (d.hearth h).engines
  let f := d.streamFig d.seq.live engines h
  let d := d.modHearth h (fun x => { x with engines := engines, poolKib := f.pool / 1024, ringKib := f.ring / 1024, loading := f.pool != 0 })
  { d with seq := { d.seq with commits := d.seq.commits.map (fun (x : PendCommit) =>
      if x.ring = c.ring ∧ x.hostSeq = c.hostSeq then { x with applied := insertNat h x.applied } else x) } }

/-- RUN_BOUNDARY_APPLY: the first commit pending for a hearth at its run boundary applies there (R20, R22). -/
def Dev.runBoundary (d : Dev) (h : Nat) : Dev :=
  if d.noBoundary h then d
  else match d.seq.commits.find? (fun c => c.hearths.contains h && !(c.applied.contains h)) with
    | none => d
    | some c =>
      let d := (d.applyCommit c h).log c.origin 0x03 (2 ^ 40 * opCommit + 2 ^ 32 * c.ring + c.hostSeq) [] (2 ^ h)
      ((((d.streamView).tmuClaims.tmuPower).tmuCalKick).ppmuKick.armKick).commitKick

/-- POOL_LOAD_DONE: the hearth's pool stands in the window (R209). -/
def Dev.poolLoaded (d : Dev) (h : Nat) : Dev :=
  if (d.hearth h).loading then ((d.modHearth h (fun x => { x with loading := false })).armKick).commitKick else d

/-- SETTLE_TIME_END: a level, relay or spare-drive settle time ends (R82). -/
def Dev.settleTimeEnd (d : Dev) (x : Settle) : Dev :=
  if d.seq.settles.contains x then
    (({ d with seq := { d.seq with settles := d.seq.settles.filter (· != x) } }).armKick).commitKick
  else d

end Sys2Proof.Machine
end

