-- ==== Sys2Proof/Machine/Start.lean ====
section
/-! DEFINITION. Starts and stops (spec/01 R22–R25, R36, spec/03 R96, R99, R100, spec/06 R175, R176, R193, spec/07 R222, spec/10 R291,
spec/12 R342–R347, spec/13 R363, R369, R371, R381, spec/17 R452, spec/18 R472, spec/19 R487, R490), and the amplitude settle time
(spec/10 R291). -/

namespace Sys2Proof.Machine

/-! ### What holds a start (R22) -/

/-- A calibration commit holds starts of a site (R490). -/
def Dev.calHolds (d : Dev) (s : Nat) : Bool :=
  let pins := match d.binding s with | some b => b.channels | none => []
  d.rings.calCommits.any (fun c =>
    c.tables.any (fun k => (k < 16 && pins.any (fun ch => chHearth ch == k)) ||
      (k == 16 && d.seq.claims.any (fun x => x.site == s && x.kind == 2)) || k == 17) ||
    (c.applied.contains 17 && d.getF R.CLK_GRID_PHASE F.CLK_GRID_PHASE_CURRENT != d.getF R.CLK_GRID_PHASE F.CLK_GRID_PHASE_TARGET))

/-- A start naming a site is held (R22, R82, R96, R209, R279, R291, R452, R487, R490). -/
def Dev.startHeld (d : Dev) (s : Nat) : Bool :=
  let pins := match d.binding s with | some b => b.channels | none => []
  d.power.restoring || d.commitHolds s || d.calHolds s || d.seq.settles.contains (.ddsAmp s) ||
  (d.siteHearths s).any d.procRuns || pins.any (fun ch => d.stepBusy (chGrate ch)) ||
  d.seq.claims.any (fun c => c.site == s && c.kind == 2 && (d.tmuCh c.unit).st == tmCalibrating)

/-! ### Acceptance -/

/-- The lockstep groups of a start: image, hearths, members (R175), ascending identity. -/
def Dev.formGroups (d : Dev) (sites : List Nat) : List Group :=
  sites.foldl (fun (l : List Group) s =>
    match d.binding s with
    | none => l
    | some b =>
      if b.gang then l ++ [Group.mk b.image (bitList b.hearths 16) [s] true 0 none false]
      else if l.any (fun g => g.image == b.image && g.hearths == [homeHearth s] &&
          (match g.members.head? with | some m => !((d.binding m).map (·.gang)).getD true | none => false)) then
        l.map (fun g => if g.image = b.image ∧ g.hearths = [homeHearth s] ∧
            (match g.members.head? with | some m => !((d.binding m).map (·.gang)).getD true | none => false) = true
          then { g with members := g.members ++ [s] } else g)
      else l ++ [Group.mk b.image [homeHearth s] [s] true 0 none false]) []

/-- The lowest free admitted engine of a hearth (R176, R208). -/
def Dev.freeEngineOf (d : Dev) (h : Nat) : Option Nat :=
  ((List.range (d.hearth h).engines).map (4 * h + ·)).find? (fun e => (d.engine e).group.isNone)

/-- A group takes one engine in each of its hearths; none when a hearth lacks one. -/
def Dev.takeEngines (d : Dev) (k : Nat) (hs : List Nat) : Option Dev :=
  hs.foldl (fun (acc : Option Dev) h => match acc with
    | none => none
    | some d => match d.freeEngineOf h with
      | some e => some (d.modEngine e (fun _ => { group := some k, ring := [] }))
      | none => none) (some d)

/-- Every group of a start with its engines, or none (R176). Groups of one hearth take its free engines in ascending identity (the model's choice, log entry 125). -/
def Dev.takeGroups (d : Dev) (gs : List Group) : Option Dev :=
  gs.foldl (fun (acc : Option Dev) g => match acc with
    | none => none
    | some d =>
      let k := d.freshGroup
      match d.takeEngines k g.hearths with
      | some d => some ((d.setGroup k g).nameGroup k)
      | none => none) (some d)

/-- Channels of the sites of a start. -/
def Dev.startPins (d : Dev) (sites : List Nat) : List Nat :=
  sites.flatMap (fun s => match d.binding s with | some b => b.channels | none => [])

/-- How a start is decided: held, completed without a run, or accepted. -/
inductive StartEnd where
  | held
  | refused (arg0 : Nat)
  | late
  | accepted
  deriving DecidableEq, Repr

/-- The checks of a start in the order of the model (R363, R22, R100, R472, R222, R24; log entry 46). -/
def Dev.judgeStart (d : Dev) (sites : List Nat) (epoch : Nat) (unadmitted : Bool) : StartEnd :=
  let pins := d.startPins sites
  let mask := maskOf (sortNats pins)
  match sites.find? (fun s => (d.site s).st.busy || ((d.site s).st == .idle && !(d.commitHolds s))) with
  | some s => .refused (refuseArg 0x82 (homeHearth s) s)
  | none =>
    if !d.flue.known then .refused (refuseArg 0x84)
    else if !(d.pllLocked pllGrid) then .refused (refuseArg 0x85)
    else if sites.any d.startHeld then .held
    else match pins.find? (fun ch => d.policy (chGrate ch) == polOff) with
    | some ch => .refused (refuseArg 0x86 (chHearth ch) 0xFFFF (chGrate ch))
    | none =>
      if d.board.douseLow || d.faults.douses.any (fun x => x.scope &&& mask != 0) then .refused (refuseArg 0x88)
      else if d.faultSet mask then .refused (refuseArg 0x89)
      else if d.flag R.HRT_STR_ADM_STATUS F.HRT_STR_ADM_STATUS_OVER && !unadmitted then .refused (refuseArg 0x55)
      else if d.flue.epoch + 2 > epoch then .late
      else if pins.any (fun ch => (d.grate (chGrate ch)).dom != .on) && d.flue.epoch + 8 > epoch then .late
      else .accepted

/-- Wake the grates of a start that are OFF (R99, R100). -/
def Dev.startWake (d : Dev) (sites : List Nat) : Dev :=
  (sortNats ((d.startPins sites).map chGrate)).foldl (fun d g => d.wakeGrate g) d

/-- The registers of a site that are cleared when a start naming it is accepted (R203, R298), and its run at its entry granule. A start that carries
the unadmitted option gives its sites reason 0x01 (R33), also where no budget check was waived (log entry 115). -/
def Dev.armSite (d : Dev) (r : Start) (s : Nat) : Dev :=
  let (entry, w) := match d.binding s with
    | some b => ((d.image b.image).map (fun (i : Image) => (i.z.target i.z.entryIndex, b.chs.length))).getD (0, b.chs.length)
    | none => (0, 0)
  let waived := r.unadmitted
  let d := d.modSite s (fun x => { x with st := .starting, endCause := .none, reason := if waived then 1 else 0, reasons := if waived then [1] else []
                                          invalid := waived, holds := 0, holdTicks := 0, lateJump := false, start := r.id
                                          run := SiteRun.start entry w, cap := CapRun.start, summary := 0, holdsOut := 0 })
  let d := if waived then d.latch (R.HRT_INT_STATUS (homeHearth s)) F.HRT_INT_STATUS_SMOTHER else d
  (d.ddsClaims s).foldl (fun (d : Dev) (c : LiveClaim) => d.modDds c.unit (fun u => { u with steps := 0, aligns := 0, delayed := 0 })) d

/-- Whether the clocks that condition (b) of R32 names hold for a start: REFCLK, the grid, fabric and DRAM PLLs, the Flue PLL for a start that
spans devices. -/
def Dev.clocksHold (d : Dev) (r : Start) : Bool :=
  d.board.refPresent && [pllGrid, pllFabric, pllDram0, pllDram1].all d.pllLocked && (!r.multi || d.pllLocked pllFlue)

/-- OWNED follows the last start that each site accepted (R373): its ring takes the sites, every other ring loses them. -/
def Dev.ownSites (d : Dev) (r : Start) : Dev :=
  let others : Dev := { d with rings := { d.rings with rings := d.rings.rings.map (fun (x : Nat × RingSt) =>
    (x.1, { x.2 with owned := x.2.owned.filter (fun s => !(r.sites.contains s)) })) } }
  others.modRing r.ring (fun x => { x with owned := r.sites.foldl (fun l s => insertNat s l) x.owned })

/-- A start is accepted (R24, R99, R175, R176, R328); none when a group finds no engine. The conditions of R32 are monitored from this instant:
sites of a start whose clocks do not hold now are smothered with reason 0x02. -/
def Dev.acceptStart (d : Dev) (r : Start) : Option Dev :=
  match d.takeGroups (d.formGroups r.sites) with
  | none => none
  | some d =>
    let d := { d with seq := { d.seq with starts := d.seq.starts ++ [r], nextStart := r.id + 1 } }
    let d := r.sites.foldl (fun d s => d.armSite r s) d
    let d := d.ownSites r
    let d := d.startWake r.sites
    let d := if r.multi then d.wakePorts else d
    some (if d.clocksHold r then d else d.smotherAll r.sites 2)

/-! ### Completion of a start that does not run -/

/-- The result entry of a site (R371). -/
def Dev.resultEntry (d : Dev) (s status : Nat) : List Byte :=
  let x := d.site s
  if status = stLate then bytesOf 1 s ++ bytesOf 1 stLate ++ bytesOf 14 0
  else bytesOf 1 s ++ bytesOf 1 status ++ bytesOf 1 x.endCause.code ++ bytesOf 1 x.reason ++ bytesOf 6 x.run.vc ++
    bytesOf 2 (capAt x.holds 65535) ++ bytesOf 1 (bit x.invalid + 2 * bit x.lateJump) ++ bytesOf 3 0

/-- Whether a result write is refused before it is made (R371): a local area outside the host region, a remote one without a route. -/
def Dev.resultLost (d : Dev) (ring a : Nat) : Bool :=
  if d.ringRemote ring then (match d.route 0 with | .none_ => true | _ => false) else !(d.inHost a 16)

/-- Write the result entries of a start; the second component is RESULT_LOST. -/
def Dev.writeResults (d : Dev) (r : Start) (status : Dev → Nat → Nat) : Dev × Bool :=
  r.sites.foldl (fun (acc : Dev × Bool) s =>
    let a := r.result + 4096 * acc.1.deviceNum + 16 * s
    if acc.1.resultLost r.ring a then (acc.1, true) else (acc.1.ownerWrite r.ring a (acc.1.resultEntry s (status acc.1 s)), acc.2)) (d, false)

/-- A start's completion (R369, R381). -/
def Dev.postStart (d : Dev) (r : Start) (status arg0 arg1 : Nat) (lost : Bool) : Dev :=
  d.post r.ring { hostSeq := r.hostSeq, opcode := opStart, status := status, flags := 2 * bit r.event + 4 * bit lost + 8 * bit r.irq
                  arg0 := arg0, arg1 := arg1, counted := !r.event }

/-- This device declines a start: it tells the partners of each multi-device site that it serves (R346). -/
def Dev.declineStart (d : Dev) (r : Start) : Dev :=
  (r.sites.filter d.isMulti).foldl (fun d s => d.sendEvent r.ring d.epochNow evFail s 0 false r.hostSeq []) d

/-- A start is decided. None while it is held. One that comes too late is counted and reported as LATE (R24, R339; the counter: log entry 46). -/
def Dev.decideStart (d : Dev) (r : Start) : Option Dev :=
  match d.judgeStart r.sites r.epoch r.unadmitted with
  | .held => none
  | .refused a => some ((d.declineStart r).postStart r stRefused a 0 false)
  | .late =>
    let (d, lost) := ((d.flueLate F.FLU_LATE_EVENTS).startWake r.sites).writeResults r (fun _ _ => stLate)
    some ((d.declineStart r).postStart r stLate d.flue.epoch r.epoch lost)
  | .accepted =>
    match d.acceptStart r with
    | some d => some d
    | none => some ((d.declineStart r).postStart r stRefused (refuseArg 0x87) 0 false)

/-- The start that a descriptor asks for. It spans devices when this device is in a tree and one of its sites does (DESIGN CHOICE, log
entry 47). -/
def Dev.startOfDesc (d : Dev) (n : Nat) (q : Desc) (event : Bool) : Start :=
  let sites := q.mask 16 32
  { id := d.seq.nextStart, ring := n, hostSeq := q.hostSeq, sites := sites, epoch := q.get 48 8, result := q.get 56 8
    unadmitted := tbit q.flags 1, irq := q.irq, event := event, multi := event || (d.role != 0 && sites.any d.isMulti) }

/-- The first start on a ring that came as a Flue event (R344, R381) is decided, unless it is held. -/
def Dev.startEvents (d : Dev) (n : Nat) : Dev :=
  match (d.ring n).events with
  | [] => d
  | q :: rest =>
    let r := d.startOfDesc n q true
    if (d.decideStart r).isNone then d
    else
      let d := (d.modRing n (fun x => { x with events := rest })).logDesc n q
      (d.decideStart r).getD d

/-- A start that spans devices is sent to the tree once, when its execution begins (R343, R344). -/
def Dev.startSend (d : Dev) (n : Nat) (q : Desc) (r : Start) : Dev :=
  if !r.multi || (d.ring n).startSent then d
  else
    (d.sendEvent n r.epoch evStart 0 0 false r.hostSeq ((List.range 8).map (fun i => fieldAt q.bytes (8 * i) 8))).modRing n (fun x =>
      { x with startSent := true })

/-- The START descriptor at the front of a ring (R24): it reaches its ordering point at its acceptance or final refusal (R362). -/
def Dev.startDesc (d : Dev) (n : Nat) : Dev :=
  match d.nextDesc n opStart with
  | none => d
  | some q =>
    let r := d.startOfDesc n q false
    let d := d.startSend n q r
    if (d.decideStart r).isNone then d
    else
      let d := (d.beginDesc n q).modRing n (fun x => { x with startSent := false })
      (d.decideStart r).getD d

/-- START (R24, R344): what came as a Flue event, then the descriptor at the front of the ring. -/
def Dev.startTake (d : Dev) (n : Nat) : Dev := (d.startEvents n).startDesc n

/-! ### STOP (R193, R347) -/

/-- STOP reaches a site that is not multi-device, or whose epoch has come: at its next granule boundary, at once in STARTING. -/
def Dev.stopSite (d : Dev) (s : Nat) : Dev :=
  match (d.site s).st with
  | .starting => d.endSite s .stop 7
  | .running => d.modSite s (fun x => { x with run := { x.run with stop := true } })
  | _ => d

/-- Sites with the start that each runs under. -/
def Dev.withStart (d : Dev) (sites : List Nat) : List (Nat × Nat) := sites.map (fun s => (s, (d.site s).start))

/-- A STOP waits for its epoch, for the starts that its sites run under, or acts now when it is late (R347). -/
def Dev.stopAt (d : Dev) (epoch : Nat) (sites : List Nat) : Dev :=
  if d.flue.known && d.flue.epoch + 2 ≤ epoch then { d with flue := { d.flue with stops := d.flue.stops ++ [(epoch, d.withStart sites)] } }
  else sites.foldl (fun d s => d.stopSite s) (d.flueLate F.FLU_LATE_EVENTS)

/-- Starts of a list of sites. -/
def Dev.startsOf (d : Dev) (sites : List Nat) : List Start := d.seq.starts.filter (fun r => r.sites.any (fun s => sites.contains s && (d.site s).start == r.id))

/-- STOP: an immediate descriptor (R193, R347, R369). Multi-device sites stop at a named epoch on every device. -/
def Dev.stopTake (d : Dev) (n : Nat) : Dev :=
  match (d.ring n).immediate with
  | [] => d
  | q :: rest =>
    let d := (d.modRing n (fun r => { r with immediate := rest })).logDesc n q
    let hit := (q.mask 16 32).filter (fun s => (d.site s).st == .starting || (d.site s).st == .running)
    let multi := hit.filter d.isMulti
    let e := d.epochNow + d.getF R.FLU_CFG F.FLU_CFG_STOP_LEAD
    let d := (d.startsOf multi).foldl (fun (d : Dev) r =>
      d.sendEvent r.ring e evStop 0 0 false r.hostSeq (maskBlocks (maskOf (multi.filter r.sites.contains)))) d
    let d := if multi.isEmpty then d else d.stopAt e multi
    let d := (hit.filter (fun s => !(d.isMulti s))).foldl (fun d s => d.stopSite s) d
    d.complete n q stOk hit.length

/-- DDS_AMP_SETTLE_END: the 50 µs of R291 end for a site. -/
def Dev.ampSettleEnd (d : Dev) (s : Nat) : Dev :=
  { d with seq := { d.seq with settles := d.seq.settles.filter (· != .ddsAmp s) } }

end Sys2Proof.Machine
end

