-- ==== Sys2Proof/Machine/Stream.lean ====
section
/-! DEFINITION. Stream engines: the margin register, fetching, poison (spec/07 R209, R212–R219, R225, spec/16 R425). -/

namespace Sys2Proof.Machine

/-- HRT_STR_MARGINi: the margin of an engine beyond the granule in execution; 0 while it serves no group (R225). -/
def Dev.marginReg (d : Dev) (e : Nat) : Nat :=
  match (d.engine e).group with
  | none => 0
  | some k => match d.group k with
    | none => 0
    | some g => match d.groupImage g with
      | none => 0
      | some i => d.marginNow e g i

/-! ### Poison (R218, R425) -/

/-- Offset of the dictionary of an image, from its header (R132). -/
def Dev.dictOff (d : Dev) (i : Image) : Nat := d.readN (i.base + 72) 8

/-- Whether a granule's stored bytes in DRAM are poisoned. -/
def Dev.storedPoison (d : Dev) (i : Image) (n : Nat) : Bool := d.poisoned (i.base + (i.z.gran n).off) (i.z.gran n).len

/-- Whether the dictionary entry of a DICT granule is poisoned in DRAM. -/
def Dev.dictPoison (d : Dev) (i : Image) (n : Nat) : Bool :=
  (i.z.gran n).enc == 1 && d.poisoned (i.base + d.dictOff i + (64 + 64 * i.z.rowBytes) * (i.z.gran n).encArg) (64 + 64 * i.z.rowBytes)

/-- The granules of which the pool brings poisoned bytes when a hearth loads it (R209, R218): stored bytes of pinned granules, dictionary entries. -/
def Dev.poolPoison (d : Dev) (i : Image) : List Nat :=
  if d.poison.isEmpty then []
  else (List.range i.z.grans.length).filter (fun n => (i.pinned.contains (segOf i.z.segs n) && d.storedPoison i n) || d.dictPoison i n)

/-- What of an image stands poisoned in a hearth's pool. -/
def Image.poolBad (i : Image) (h n : Nat) : Bool := (mapGet i.poisoned h []).contains n

/-- Whether a granule is poisoned as it stands delivered in a hearth (R218): its pool bytes, its entry in the ring; a REPEAT_PREV granule takes the body
of the granule stored before it, as that was delivered. -/
def deliveredBad (i : Image) (h : Nat) (ring : List RingGran) : Nat → Bool
  | 0 => i.poolBad h 0 || ring.any (fun x => x.gran == 0 && x.poison)
  | n + 1 => i.poolBad h (n + 1) || ring.any (fun x => x.gran == n + 1 && x.poison) ||
    ((i.z.gran (n + 1)).enc == 2 && deliveredBad i h ring n)

/-- Whether the body that a REPEAT_PREV granule takes is poisoned in DRAM where it is not at hand (R212, R218): an engine delivers whole granules, so it
fetches that body with the granule (log entry 38). -/
def Dev.bodyPoison (d : Dev) (i : Image) (ring : List RingGran) : Nat → Bool
  | 0 => false
  | n + 1 =>
    if (i.z.gran (n + 1)).enc ≠ 2 ∨ atHand i.z i.pinned ring n = true then false
    else d.storedPoison i n || d.bodyPoison i ring n

/-- Whether any hearth of a group holds a granule poisoned (R218). -/
def Dev.granBad (d : Dev) (k : Nat) (g : Group) (i : Image) (n : Nat) : Bool :=
  g.hearths.any (fun h => deliveredBad i h [] n) || (d.enginesOf k).any (fun e => deliveredBad i (e / 4) (d.engine e).ring n)

/-- The pool of a hearth is loaded: what of it is poisoned is known (R209, R218). -/
def Dev.poolDone (d : Dev) (h : Nat) : Dev :=
  if !(d.hearth h).loading then d
  else
    let d := (imagesIn d.seq.live h).foldl (fun (d : Dev) x => match d.image x.1 with
      | none => d
      | some i => { d with seq := { d.seq with images := mapSet d.seq.images x.1 { i with poisoned := mapSet i.poisoned h (d.poolPoison i) } } }) d
    d.poolLoaded h

/-! ### Fetching (R212) -/

/-- Bytes that a ring holds. -/
def ringUse (z : ZImage) (ring : List RingGran) : Nat := (ring.map (fun x => (z.gran x.gran).len)).sum

/-- GRANULE_FETCH: the next granule that the prediction names and the ring lacks arrives, while the ring has room; `bad` says that its read
was uncorrectable (R212, R425). -/
def Dev.granuleFetch (d : Dev) (e : Nat) (bad : Bool) : Dev :=
  match (d.engine e).group with
  | none => d
  | some k => match d.group k with
    | none => d
    | some g => match d.groupImage g with
      | none => d
      | some i =>
        match (d.engineWalk e g i ((d.site g.lead).run.flowIn i.z)).next with
        | none => d
        | some n =>
          let ring := (d.engine e).ring
          if ringUse i.z ring + (i.z.gran n).len > d.ringBytes e then d
          else d.modEngine e (fun x => { x with ring := ring ++ [⟨n, false, bad || d.storedPoison i n || d.bodyPoison i ring n⟩] })

end Sys2Proof.Machine
end

