-- ==== Sys2Proof/Machine/Vector.lean ====
section
/-! DEFINITION. One vector of a site: its edges, strobes, samples, records, DDS steps, and what JUMP_IF and WAIT recognise in it
(spec/03 R73–R80, spec/04 R106–R110, R119, R120, spec/05 R135, R136, R149–R154, spec/06 R187, R188, spec/08 R233, R255, R256, spec/10
R286, R292–R295). -/

namespace Sys2Proof.Machine

/-- The observation of a channel: MID throughout where none is given. -/
def obsOf (obs : List PinObs) (ch : Nat) : PinObs := (obs.find? (fun o => o.ch == ch)).getD ⟨ch, .mid, []⟩

/-- A live timing set of a hearth. -/
def Dev.timSet (d : Dev) (h set : Nat) : TimSet := mapGet (d.timing h) set ⟨0, set, 0, false, []⟩

/-- The pin entry of a channel in a set (R115). -/
def Dev.pinTiming (d : Dev) (ch set : Nat) : PinTiming := (d.timSet (chHearth ch) set).pin (ch % 64)

/-- The image pins of a site on this device with their channels. -/
def Binding.pins (b : Binding) : List (Nat × Nat) := (b.chs.zipIdx.map (fun p => (p.2, p.1))).filter (fun p => p.2 < 1024)

/-- The vector that a site executes: its control byte, and the symbols of its pins with keep-previous resolved (R136). -/
def vectorRun (body : List Run) (vec : Nat) (prev : List Nat) : Nat × List Nat :=
  let r := runAt body vec
  (r.ctrl, prev.zipIdx.map (fun p => let x := symOf r.row p.2; if x = 8 then p.1 else x))

/-! ### Drivers and termination -/

/-- Whether a symbol drives (R135). -/
def symDrives (sym : Nat) : Bool := sym == 0 || sym == 1

/-- The driver transitions of a vector: place in the vector and output (R73–R75). An Off vector is high-impedance from T(n) (R110; log entry 130). -/
def driveEvents (e : PinTiming) (sym : Nat) : List (Nat × Drv) :=
  let v : Drv := if sym = 1 then .h else .l
  let n : Drv := if sym = 1 then .l else .h
  match e.format with
  | 0 => [(0, .z)]
  | f =>
    if symDrives sym then
      match f with
      | 1 => [(e.ecode 0, v)]
      | 2 => [(e.ecode 0, v), (e.ecode 1, .l)]
      | 3 => [(e.ecode 0, v), (e.ecode 1, .h)]
      | _ => [(e.ecode 0, n), (e.ecode 1, v), (e.ecode 2, n)]
    else [(e.ecode 3, .z)]

/-- The termination of a channel after a vector (R80). -/
def Dev.setTerm (d : Dev) (ch sym : Nat) : Dev :=
  let drv := (d.chan ch).drv
  let mode := ((d.liveLevel (chGrate ch)).pin (ch % 8)).term
  let on := match mode with
    | 1 => drv == .z
    | 2 => (sym == 6 || sym == 7) && drv == .z
    | _ => false
  if (d.chan ch).term = on then d else d.modChan ch (fun c => { c with term := on })

/-- The driver of a pin in a vector of period `pq` that starts at `t`: the events that fall in it. -/
def Dev.drivePin (d : Dev) (ch : Nat) (e : PinTiming) (sym t pq : Nat) : Dev :=
  ((driveEvents e sym).filter (fun x => x.1 < pq)).foldl (fun d (x : Nat × Drv) => d.drive ch x.2 (t + x.1)) d

/-- The driver events of a pin that spill into the next vector (R118, R119). -/
def spillPin (ch : Nat) (e : PinTiming) (sym t pq : Nat) : List Spill :=
  ((driveEvents e sym).filter (fun x => pq ≤ x.1)).map (fun x => ⟨ch, x.2, t + x.1⟩)

/-- The spilled events of a site's last vector occur (R119, R123): they stand before every event of the next vector (R121). -/
def Dev.spillCome (d : Dev) (s : Nat) : Dev :=
  let d := (d.site s).run.spill.foldl (fun (d : Dev) x => d.drive x.ch x.drv x.t) d
  (d.capSpilled s).modSite s (fun x => { x with run := { x.run with spill := [] } })

/-! ### DDS units -/

/-- Transitions of a unit that fall before an instant (R284). -/
def Dev.ddsCatch (d : Dev) (c : LiveClaim) (t : Nat) : Nat → Dev
  | 0 => d
  | fuel + 1 => if (d.ddsUnit c.unit).ftw = 0 ∨ t ≤ (d.ddsUnit c.unit).next then d else (d.ddsTransition c.unit).ddsCatch c t fuel

/-- How many transitions there can be before an instant. -/
def DdsUnit.before (u : DdsUnit) (t : Nat) : Nat := (t - u.loadT) * u.ftw / 2 ^ 55 + 2

/-- Realignment instants of a counted vector, as places in it (R188, R294): edges of epochs k after the start's, at CT
(40,000 k − 1,024) × 256. -/
def realignAt (startEpoch every ct pq : Nat) : List Nat :=
  if every = 0 then []
  else
    let k0 := (ct + 1024 * 256) / (40000 * 256)
    ((List.range (pq / (40000 * 256) + 2)).map (k0 + ·)).filterMap (fun k =>
      if 1 ≤ k ∧ (startEpoch + k) % every = 0 ∧ ct ≤ (40000 * k - 1024) * 256 ∧ (40000 * k - 1024) * 256 < ct + pq
      then some ((40000 * k - 1024) * 256 - ct) else none)

/-- A DDS unit in a vector: step, then the symbol, then a realignment (R286, R292–R295). -/
def Dev.ddsVector (d : Dev) (c : LiveClaim) (segStart lane counted : Bool) (sym t ct pq epoch : Nat) : Dev :=
  match d.ddsList c with
  | none => d
  | some l =>
    let d := d.ddsCatch c t ((d.ddsUnit c.unit).before t)
    let step := counted && ((l.stepSrc % 2 == 1 && segStart) || (l.stepSrc / 2 == 1 && lane))
    let d := if step then d.ddsStepUnit c t else d
    let d := if (d.binding c.site).any (fun b => b.channels.contains c.ch) then d.ddsSymbol c (sym == 9) t else d
    (if counted then realignAt epoch l.alignEvery ct pq else []).foldl (fun (d : Dev) at_ =>
      if step && at_ == 0 then d
      else (d.ddsCatch c (t + at_) ((d.ddsUnit c.unit).before (t + at_))).ddsAlignUnit c (t + at_)) d

/-! ### Samples -/

/-- Whether a level state meets an expect symbol (R78). -/
def levelPasses (sym : Nat) (l : Level) : Bool :=
  match sym with
  | 4 => l == .low
  | 5 => l == .high
  | 6 | 7 => l == .mid
  | _ => true

/-- Whether a symbol compares (R135). -/
def symCompares (sym : Nat) : Bool := sym == 4 || sym == 5 || sym == 6 || sym == 7

/-- The last stamp in a direction within one period before a strobe, as FINE and the stamp's tick (R256). `strobe` is the strobe time in units of
1/128 ps on the TMU's scale. -/
def Dev.fineOf (d : Dev) (tmu strobe pq : Nat) (rise : Bool) : Option (Nat × Nat) × Dev :=
  let x := d.tmuCh tmu
  let fits := (x.recent ++ x.held).filter (fun s =>
    s.rise == rise && decide (16 * (2000 * s.ticks + s.fineQ3) < strobe ∧ strobe ≤ 16 * (2000 * s.ticks + s.fineQ3) + 125 * pq))
  match fits.getLast? with
  | none => (none, d)
  | some s =>
    let (q, d) := d.divFree ((16 * (2000 * s.ticks + s.fineQ3) : Int) - strobe) 16
    (some (unsgn q 32, s.tb), d)

/-- The direction in which an outcome's pin has moved when its strobe sees a level state (R256): to HIGH, to LOW, or to MID from the level that
the symbol expects (log entry 122). -/
def outcomeUp (sym : Nat) (l : Level) : Option Bool :=
  match l with
  | .high => some true
  | .low => some false
  | .mid => if sym = 4 then some true else if sym = 5 then some false else none

/-- The sample of a pin in a vector (R233, R255), its strobes placed with compare deskew and linearity (R111, R254). -/
def Dev.samplePin (d : Dev) (s pin ch : Nat) (e : PinTiming) (sym t pq epoch : Nat) (o : PinObs) : Samp × Dev :=
  let s1 := e.ecode 4
  let last := match lastStrobe e with | some k => e.ecode k | none => s1
  let fail := if symCompares sym then some (!((o.s1 :: (if e.strobe = 2 then o.during else [])).all (levelPasses sym))) else none
  let base : Samp := { pin := pin, fail := fail, level := some o.s1, s1 := s1, spillFail := decide (pq ≤ last), spillLevel := decide (pq ≤ s1)
                       places := (usedStrobe e.strobe).map (fun k => d.place ch (t + e.ecode k) true), up := outcomeUp sym o.s1
                       tmu := 0, rise := none, fall := none }
  match d.seq.claims.find? (fun c => c.site == s && c.kind == 2 && c.pin == pin) with
  | none => (base, d)
  | some c =>
    if !(((d.plan s).map (·.fine)).getD false) then (base, d)
    else
      let strobe := ((40000 * epoch + 1024) * 256 + t + s1) * 125
      let (r, d) := d.fineOf c.unit strobe pq true
      let (f, d) := d.fineOf c.unit strobe pq false
      ({ base with tmu := c.unit, rise := r, fall := f }, d)

/-! ### Decisions -/

/-- The condition of a JUMP_IF at vector VEC, before NEG, and the flow after it (R149, R150). -/
def SiteRun.condition (r : SiteRun) (cond pin : Nat) (samps : List Samp) : Bool × Flow :=
  match cond with
  | 0 => (r.siteFail, r.flow)
  | 1 => (r.pinFails.contains pin, r.flow)
  | 2 => (tbit r.flow.flags (pin % 8), r.flow)
  | 3 => r.flow.cntNz pin
  | _ => (samps.any (fun x => x.pin == pin && x.level == some .high), r.flow)

/-- Failing samples set the fail latches (R149). -/
def SiteRun.latch (r : SiteRun) (fails : List Samp) : SiteRun :=
  { r with siteFail := r.siteFail || !fails.isEmpty, pinFails := fails.foldl (fun l y => insertNat y.pin l) r.pinFails }

/-- JUMP_IF_EVALUATE (R149, R150): at its vector VEC. PIN_HIGH without a strobe is false before NEG by having no sample. -/
def SiteRun.evaluate (r : SiteRun) (i : ZIns) (samps : List Samp) : SiteRun :=
  match i with
  | .jumpIf _ _ vec cond neg clear pin =>
    if r.vec ≠ vec then r
    else
      let (truth, flow) := r.condition cond pin samps
      let r := { r with flow := flow, condTrue := truth != neg }
      if clear then r.clearFails else r
  | _ => r

/-- Whether a WAIT recognises its event at this vector (R154, R188). -/
def SiteRun.recognises (r : SiteRun) (i : ZIns) (samps : List Samp) : Bool :=
  match i with
  | .wait 0 pin level _ => samps.any (fun x => x.pin == pin && (x.level.map Level.code) == some level)
  | .wait 1 _ _ _ =>
    let k := (r.waitCt + 1024 * 256 + 40000 * 256 - 1) / (40000 * 256)
    decide ((40000 * max k 1 - 1024) * 256 ≤ r.ct)
  | .wait 2 pin _ _ => r.vec == 0 && tbit r.flow.flags (pin % 8)
  | _ => false

/-- WAIT recognition holds the first vector that recognises the event. -/
def SiteRun.waitStep (r : SiteRun) (i : ZIns) (samps : List Samp) : SiteRun :=
  if r.waitHit.isNone && r.recognises i samps then { r with waitHit := some r.vec } else r

/-- TARGET of a late jump that is requested at this vector, for its LATE_JUMP record (R240). -/
def SiteRun.lateAt (r : SiteRun) (i : ZIns) : Option Nat :=
  match i with
  | .jumpIf t lpop vec _ _ _ _ =>
    if r.vec = vec ∧ 49 ≤ vec ∧ r.condTrue = true ∧ lpop ≤ r.flow.loops.length then some t else none
  | _ => none

/-! ### The vector -/

/-- VECTOR: the vector period in progress of a running site ends and the next vector starts (R106). -/
def Dev.vector (d : Dev) (s : Nat) (obs : List PinObs) : Dev :=
  let x := d.site s
  let r := x.run
  if x.st != .running || r.vec ≥ 64 then d
  else match d.binding s with
    | none => d
    | some b => match d.image b.image with
      | none => d
      | some img =>
        let g := img.z.gran r.flow.pc
        let (ctrl, syms) := vectorRun g.body r.vec r.prevSyms
        let counted := !r.idle
        let pq := (d.timSet (homeHearth s) (ctrl % 32)).pq
        let epoch := match d.startOf s with | some st => st.epoch | none => 0
        let segStart := r.vec == 0 && img.z.segs.any (fun q => q.first == r.flow.pc) && r.prevGran != some r.flow.pc && r.prevGran.isSome
        let dds := d.ddsClaims s
        let d := d.spillCome s
        let d := dds.foldl (fun (d : Dev) c => d.ddsVector c segStart (tbit ctrl 7) counted (nth syms c.pin 3) r.t r.ct pq epoch) d
        let (samps, d) := b.pins.foldl (fun (acc : List Samp × Dev) (p : Nat × Nat) =>
          let (l, d) := acc
          let e := d.pinTiming p.2 (ctrl % 32)
          let sym := nth syms p.1 3
          let d := (if dds.any (fun c => c.pin == p.1) then d else d.drivePin p.2 e sym r.t pq).setTerm p.2 sym
          if e.strobe = 0 then (l, d)
          else let (y, d) := d.samplePin s p.1 p.2 e sym r.t pq epoch (obsOf obs p.2); (l ++ [y], d)) ([], d)
        let spill := b.pins.flatMap (fun p =>
          if dds.any (fun c => c.pin == p.1) then [] else spillPin p.2 (d.pinTiming p.2 (ctrl % 32)) (nth syms p.1 3) r.t pq)
        let fails := samps.filter (fun y => y.fail == some true)
        let sure := r.latch (fails.filter (fun y => !y.spillFail))
        let r := { (r.latch fails) with prevSyms := syms, spill := spill, sureFail := sure.siteFail, surePins := sure.pinFails }
        let r := (r.evaluate g.ins samps).waitStep g.ins samps
        let late := r.lateAt g.ins
        let d := if counted then d.capVector s { vc := r.vc, ctrl := ctrl, pq := pq, ct := r.ct, samps := samps, late := late } else d
        d.modSite s (fun x => { x with run := { r with vec := r.vec + 1, t := r.t + pq, vc := if counted then r.vc + 1 else r.vc
                                                       ct := if counted then r.ct + pq else r.ct } })

end Sys2Proof.Machine
end

