-- ==== Sys2Proof/Machine/Sequencer.lean ====
section
/-! DEFINITION. Granule boundaries: what each instruction does at the end of its granule, parting, pending groups, holds, guard and
underrun, rendezvous, vector 0 (spec/05 R145–R154, R158–R161, spec/06 R175–R202, spec/07 R215–R218, spec/01 R25, R35). -/

namespace Sys2Proof.Machine

/-! ### What a member does at the end of a granule execution -/

/-- The end of an execution for one member: on to the next granule, once more the same granule, or the end of its run. -/
inductive MemberEnd where
  | go (f : Flow) (r : SiteRun)
  | again (r : SiteRun)
  | ends (cause : EndCause)
  deriving DecidableEq, Repr

/-- A stack fault where the flow has none to go to (R148). -/
def SiteRun.goTo (r : SiteRun) : Option Flow → MemberEnd
  | some f => .go f r
  | none => .ends .stackFault

/-- SETREG on counters, flags or the fail latches (R153). -/
def SiteRun.setReg (r : SiteRun) (value reg : Nat) : SiteRun :=
  if reg = 7 then r.clearFails else { r with flow := r.flow.setReg value reg }

/-- NOP (R147). -/
def endNop (r : SiteRun) : MemberEnd := .go r.flow.succ r

/-- REPEAT (R147). -/
def endRepeat (count : Nat) (r : SiteRun) : MemberEnd := if r.rep + 1 < count then .again { r with rep := r.rep + 1 } else .go r.flow.succ r

/-- SETREG (R153). -/
def endSetReg (value reg : Nat) (r : SiteRun) : MemberEnd := let r := r.setReg value reg; .go r.flow.succ r

/-- JUMP_IF (R147, R151): a late jump pops its loop entries here and goes to its prefix. -/
def endJumpIf (z : ZImage) (target lpop vec : Nat) (r : SiteRun) : MemberEnd :=
  if !r.condTrue then .go r.flow.succ r
  else if vec ≤ 48 then r.goTo (r.flow.jump (z.target target) lpop)
  else match r.flow.pop lpop with
    | some f => .go f.succ { r with late := some ⟨z.target target, target⟩ }
    | none => .ends .stackFault

/-- The end of a late jump's prefix (R151, R185): the prefix's own NOP or SETREG, then the jump for the members that take it. -/
def endLate (i : ZIns) (r : SiteRun) : MemberEnd :=
  let r := match i with | .setreg v g => r.setReg v g | _ => r
  match r.late with
  | some j => .go (r.flow.goto j.target) { r with late := none }
  | none => .go r.flow.succ r

/-- WAIT (R154). -/
def endWaitIns (m : Nat) (r : SiteRun) : MemberEnd :=
  if r.waitMore then .go r.flow.succ r
  else match r.waitHit with
    | some v => if v ≤ 48 then .go r.flow.succ r else .again { r with waitMore := true, rep := r.rep + 1 }
    | none => if r.rep + 1 < maxRep m then .again { r with rep := r.rep + 1 } else .go { r.flow.succ with flags := r.flow.flags ||| 128 } r

/-! ### The boundary -/

/-- A run enters a granule. -/
def SiteRun.enter (r : SiteRun) (f : Flow) : SiteRun :=
  { r with flow := f, vec := 0, prevGran := some r.flow.pc, rep := 0, idle := false, condTrue := false, waitHit := none, waitMore := false
           waitCt := r.ct, wait := none, rdvDone := none }

/-- A run repeats its granule. -/
def SiteRun.repeat_ (r : SiteRun) : SiteRun := { r with vec := 0, prevGran := some r.flow.pc, condTrue := false }

/-- The granule boundary of one member (R35, R193, R194): a smother prevails over HALT and stack fault, and they over STOP. A STOP beside a smother is
reason 0x07 among its reasons; the lowest is reported, and the end cause is that reason's. -/
def Dev.finishMember (d : Dev) (m : Nat) (o : MemberEnd) : Dev :=
  let r := (d.site m).run
  let d := if r.idle then d else d.capBoundary m
  let stopped := r.stop && (match o with | .ends _ => false | _ => true)
  if !r.smother.isEmpty then
    if stopped && r.smother.all (7 < ·) then d.endSite m .stop 7
    else d.endSite m .smother (if stopped then 7 else 0) (r.smother == [9] && !stopped)
  else match o with
    | .ends c => d.endSite m c 0
    | .go f r' =>
      if r.stop then d.endSite m .stop 7
      else
        let d := if r.wait.isSome then d.endWait m 0 else d
        let d := if r.late.isSome && r'.late.isNone then d.capJumped m else d
        d.modSite m (fun x => { x with run := r'.enter f, lateJump := x.lateJump || (r.late.isSome && r'.late.isNone) })
    | .again r' => if r.stop then d.endSite m .stop 7 else d.modSite m (fun x => { x with run := r'.repeat_ })

/-- The next granule shared by most members; on a tie that of the lowest member (R177). Members ascend. -/
def majority (l : List (Nat × Nat)) : Nat :=
  let n := fun pc => (l.filter (fun x => x.2 == pc)).length
  match l with
  | [] => 0
  | x :: t => (t.foldl (fun (b : Nat × Nat) (y : Nat × Nat) => if n y.2 > n b.2 then y else b) x).2

/-- The grid tick of a site's vector clock (R106). -/
def Dev.siteTick (d : Dev) (s : Nat) : Nat :=
  40000 * (match d.startOf s with | some r => r.epoch | none => 0) + 1024 + (d.site s).run.t / 256

/-- Members that leave together form a group, which takes a free engine or becomes pending (R178–R180). -/
def Dev.splitOff (d : Dev) (g : Group) (z : ZImage) (ms : List Nat) (pc : Nat) : Dev × Nat :=
  let k := d.freshGroup
  let tick := d.siteTick ((listMin? ms).getD 0)
  let new : Group := { image := g.image, hearths := g.hearths, members := ms, hasEngine := true, since := tick, span := none, refill := false }
  match d.takeEngines k g.hearths with
  | some d => ((d.setGroup k new).nameGroup k, k)
  | none =>
    let d := (d.setGroup k { new with hasEngine := false, span := some (segOf z.segs pc) }).nameGroup k
    (g.hearths.foldl (fun d h => d.latch (R.HRT_INT_STATUS h) F.HRT_INT_STATUS_PENDING) d, k)

/-- The executed granule leaves the rings of a group's engines (R212–R214). -/
def Dev.ringPass (d : Dev) (k pc : Nat) (i : Image) (f : Flow) : Dev :=
  (d.enginesOf k).foldl (fun (d : Dev) e => d.modEngine e (fun x => { x with ring := ringLeave (i.resident (d.ringBytes e)) x.ring pc f })) d

/-- Parting after the members of a group have passed a boundary (R177, R178): the keys of the groups that go on. -/
def Dev.part (d : Dev) (k pc : Nat) (i : Image) : Dev × List Nat :=
  match d.group k with
  | none => (d, [])
  | some g =>
    let nexts := g.members.map (fun m => (m, (d.site m).run.flow.pc))
    let stay := majority nexts
    let others := sortNats ((nexts.filter (fun x => x.2 != stay)).map (·.2))
    let sets := others.map (fun n => (n, (nexts.filter (fun x => x.2 == n)).map (·.1)))
    let keep := (nexts.filter (fun x => x.2 == stay)).map (·.1)
    let lead := (d.site ((listMin? keep).getD 0)).run
    let d := if lead.rep > 0 ∨ lead.idle = true then d else d.ringPass k pc i lead.flow
    let d := (d.setGroup k { g with members := keep }).nameGroup k
    (byLead sets.length sets).foldl (fun (acc : Dev × List Nat) (x : Nat × List Nat) =>
      let (d, n) := acc.1.splitOff g i.z x.2 x.1
      (d, acc.2 ++ [n])) (d, [k])
where
  /-- New groups in ascending identity. -/
  byLead : Nat → List (Nat × List Nat) → List (Nat × List Nat)
    | 0, _ => []
    | n + 1, l =>
      match listMin? (l.filterMap (fun x => listMin? x.2)) with
      | none => []
      | some m => l.filter (fun x => x.2.contains m) ++ byLead n (l.filter (fun x => !x.2.contains m))

/-- The margins that a guard comparison finds, one per engine of a group (R215, R216). -/
def Dev.margins (d : Dev) (k : Nat) (g : Group) (i : Image) : List (Nat × Nat) := (d.enginesOf k).map (fun e => (e, d.marginNow e g i))

/-- HRT_STR_LOWi takes the margins found (R225). -/
def Dev.lowTake (d : Dev) (ms : List (Nat × Nat)) : Dev :=
  ms.foldl (fun (d : Dev) x => d.setF (R.HRT_STR_LOW x.1) F.HRT_STR_LOW_LOW (min x.2 (d.getF (R.HRT_STR_LOW x.1) F.HRT_STR_LOW_LOW))) d

/-- What the guard comparison of a group decides (R216, R189): a refill hold where an engine's margin is below WINDOW_GUARD. It is counted in each hearth whose
engine is below (the model's choice, log entry 126). -/
def Dev.guardCheck (d : Dev) (k : Nat) (g : Group) (i : Image) (ms : List (Nat × Nat)) : Dev :=
  let low := ms.filter (fun x => x.2 < i.z.windowGuard)
  if low.isEmpty then d
  else if d.isMulti g.lead then g.members.foldl (fun d m => d.endSite m .smother 4) d
  else if g.refill then d
  else low.foldl (fun (d : Dev) (x : Nat × Nat) => d.bump (R.HRT_STR_COUNTS (x.1 / 4)) F.HRT_STR_COUNTS_REFILL_HOLDS) (d.setGroup k { g with refill := true })

/-- The next granule of a group is judged at the boundary (R180, R217, R218, R216); every boundary compares the margin. An underrun is counted in each hearth whose
engine lacks the granule; a group without an engine that leaves its span is smothered under R180 and is no underrun (the model's choices, log entry 126). -/
def Dev.judgeNext (d : Dev) (k : Nat) : Dev :=
  match d.group k with
  | none => d
  | some g =>
    match d.groupImage g with
    | none => d
    | some i =>
      let pc := (d.site g.lead).run.flow.pc
      let es := d.enginesOf k
      let ms := d.margins k g i
      let d := d.lowTake ms
      let away := es.filter (fun e => !(atHand i.z i.pinned (d.engine e).ring pc))
      if g.hasEngine = false ∧ g.span ≠ some (segOf i.z.segs pc) then g.members.foldl (fun d m => d.endSite m .smother 4) d
      else if !away.isEmpty then
        let d := g.members.foldl (fun d m => d.endSite m .smother 4) d
        away.foldl (fun (d : Dev) e => d.bump (R.HRT_STR_COUNTS (e / 4)) F.HRT_STR_COUNTS_UNDERRUNS) d
      else if d.granBad k g i pc then g.members.foldl (fun d m => d.endSite m .smother 8) d
      else d.guardCheck k g i ms

/-- The group of a site at the end of a granule execution, with its image. -/
def Dev.atBoundary (d : Dev) (s : Nat) : Option (Nat × Group × Image) :=
  if (d.site s).st != .running then none
  else match d.groupOf s with
    | none => none
    | some (k, g) =>
      match d.image g.image with
      | none => none
      | some i => if g.members.all (fun m => (d.site m).run.vec ≥ 64) then some (k, g, i) else none

/-- The boundary of a group: each member's end, then parting; the keys of the groups that go on. -/
def Dev.passBoundary (d : Dev) (k : Nat) (g : Group) (i : Image) (o : SiteRun → MemberEnd) : Dev × List Nat :=
  let pc := (d.site g.lead).run.flow.pc
  let d := g.members.foldl (fun (d : Dev) m => d.finishMember m (o (d.site m).run)) d
  d.part k pc i

/-- The boundary with the judgement of what comes next. -/
def Dev.boundary (d : Dev) (k : Nat) (g : Group) (i : Image) (o : SiteRun → MemberEnd) : Dev :=
  let (d, ks) := d.passBoundary k g i o
  ks.foldl (fun d k => d.judgeNext k) d

/-- Whether any member of a group has a late jump due at the end of this granule. -/
def Dev.lateDue (d : Dev) (g : Group) : Bool := g.members.any (fun m => (d.site m).run.late.isSome)

/-- The instruction of a group's granule. -/
def Dev.groupIns (d : Dev) (g : Group) (i : Image) : ZIns := (i.z.gran (d.site g.lead).run.flow.pc).ins

/-- An instruction acts for the whole lockstep group of a site (R147, R175), where `pick` says how its granule ends. -/
def Dev.instr (d : Dev) (s : Nat) (pick : ZImage → ZIns → Option (SiteRun → MemberEnd)) : Dev :=
  match d.atBoundary s with
  | none => d
  | some (k, g, i) =>
    if d.lateDue g then d
    else match pick i.z (d.groupIns g i) with
      | none => d
      | some o => d.boundary k g i o

def Dev.nopInstr (d : Dev) (s : Nat) : Dev := d.instr s (fun _ x => match x with | .nop => some endNop | _ => none)

def Dev.repeatInstr (d : Dev) (s : Nat) : Dev := d.instr s (fun _ x => match x with | .rep n => some (endRepeat n) | _ => none)

def Dev.loopBegin (d : Dev) (s : Nat) : Dev :=
  d.instr s (fun _ x => match x with | .loopBegin n => some (fun r => r.goTo (r.flow.loopBegin n)) | _ => none)

def Dev.loopEnd (d : Dev) (s : Nat) : Dev :=
  d.instr s (fun _ x => match x with | .loopEnd => some (fun r => r.goTo r.flow.loopEnd) | _ => none)

def Dev.callInstr (d : Dev) (s : Nat) : Dev :=
  d.instr s (fun z x => match x with | .call t _ => some (fun r => r.goTo (r.flow.call (z.target t))) | _ => none)

def Dev.returnInstr (d : Dev) (s : Nat) : Dev :=
  d.instr s (fun _ x => match x with | .ret => some (fun r => r.goTo r.flow.ret) | _ => none)

def Dev.jumpInstr (d : Dev) (s : Nat) : Dev :=
  d.instr s (fun z x => match x with | .jump t l => some (fun r => r.goTo (r.flow.jump (z.target t) l)) | _ => none)

def Dev.jumpIf (d : Dev) (s : Nat) : Dev :=
  d.instr s (fun z x => match x with | .jumpIf t l v _ _ _ _ => some (endJumpIf z t l v) | _ => none)

def Dev.waitInstr (d : Dev) (s : Nat) : Dev :=
  d.instr s (fun _ x => match x with | .wait _ _ _ m => some (endWaitIns m) | _ => none)

def Dev.haltInstr (d : Dev) (s : Nat) : Dev :=
  d.instr s (fun _ x => match x with | .halt => some (fun _ => .ends .halt) | _ => none)

def Dev.setRegInstr (d : Dev) (s : Nat) : Dev :=
  d.instr s (fun _ x => match x with | .setreg v g => some (endSetReg v g) | _ => none)

/-- LATE_JUMP: the end of the 64-vector prefix of a group with a late jump due (R151, R185). -/
def Dev.lateJumpEnd (d : Dev) (s : Nat) : Dev :=
  match d.atBoundary s with
  | none => d
  | some (k, g, i) => if d.lateDue g then d.boundary k g i (endLate (d.groupIns g i)) else d

/-! ### Holds (R158, R180, R182, R189, R190) -/

/-- The end of an idle execution of a hold (R182): resume when the group has an engine and its margin has reached WINDOW_GUARD. -/
def Dev.holdIdle (d : Dev) (k : Nat) (g : Group) (i : Image) : Dev :=
  let f := (d.site g.lead).run.flow.succ
  if g.hasEngine && d.groupMargin k g i f ≥ i.z.windowGuard then
    (d.setGroup k { g with refill := false }).boundary k { g with refill := false } i endNop
  else (d.holdCause k).boundary k g i (fun r => .again r)

/-- HOLD_RESUME: the end of an idle execution of a hold. -/
def Dev.holdResume (d : Dev) (s : Nat) : Dev :=
  match d.atBoundary s with
  | none => d
  | some (k, g, i) =>
    match d.groupIns g i with
    | .holdPoint _ => if (d.site g.lead).run.idle then d.holdIdle k g i else d
    | _ => d

/-- Smother a group at this boundary (R180). -/
def Dev.smotherHere (d : Dev) (g : Group) (reason : Nat) : Dev :=
  g.members.foldl (fun (d : Dev) m => d.modSite m (fun x => { x with run := { x.run with smother := insertNat reason x.run.smother } })) d

/-- A hold begins for a site that goes into idle executions (R190). -/
def Dev.holdBegun (d : Dev) (m : Nat) : Dev :=
  if (d.site m).st = .running ∧ (d.site m).run.idle = true then
    (d.modSite m (fun x => { x with holds := x.holds + 1 })).latch (R.HRT_INT_STATUS (homeHearth m)) F.HRT_INT_STATUS_HOLD
  else d

/-- HOLD_POINT: the end of an execution of a hold-point granule (R147, R180, R182). -/
def Dev.holdPoint (d : Dev) (s : Nat) : Dev :=
  match d.atBoundary s with
  | none => d
  | some (k, g, i) =>
    match d.groupIns g i with
    | .holdPoint n =>
      let r := (d.site g.lead).run
      if r.idle then d.holdIdle k g i
      else if g.hasEngine && !g.refill then d.boundary k g i endNop
      else
        let neutral := ((i.z.holds[n]?).map (·.neutral)).getD false
        if d.isMulti g.lead || i.z.noHolds || !neutral then (d.smotherHere g 4).boundary k g i (fun r => .again r)
        else
          let hold := fun (r : SiteRun) => MemberEnd.again { r with
            idle := true, wait := some { rdv := false, cause := bit g.hasEngine, point := n, rdvId := 0, vc := r.vc, t := r.t
                                         epoch := d.flue.epoch, limitHit := false } }
          let d := d.boundary k g i hold
          g.members.foldl (fun d m => d.holdBegun m) d
    | _ => d

/-! ### Rendezvous (R161, R196–R201) -/

/-- The end of an execution of a released site's rendezvous (R200): the condition is evaluated once, latches are cleared with CLEAR. -/
def endRdv (z : ZImage) (e : RdvPt) (r : SiteRun) : MemberEnd :=
  let truth := if e.cond % 16 = 0 then r.siteFail else tbit r.flow.flags (e.cond / 32)
  let r' := if tbit e.flags 2 then r.clearFails else r
  .go (if tbit e.flags 1 && truth != tbit e.cond 4 then r.flow.goto (z.target e.target) else r.flow.succ) r'

/-- Whether a site has been released and its epoch has come. -/
def Dev.rdvFree (d : Dev) (s : Nat) : Bool :=
  match (d.site s).run.rdvDone with | some e => d.flue.known && decide (e ≤ d.flue.epoch) | none => false

/-- Groups of the start of a site that may merge with group `k` after a rendezvous with REJOIN (R201). -/
def Dev.rejoinSet (d : Dev) (k : Nat) : List Nat :=
  match d.group k with
  | none => []
  | some g =>
    let r := (d.site g.lead).run
    (d.seq.groups.filter (fun p =>
      let x := d.site p.2.lead
      p.1 != k && p.2.image == g.image && p.2.hearths == g.hearths && p.2.hearths.length == 1 && x.start == (d.site g.lead).start &&
      !(((d.binding p.2.lead).map (·.gang)).getD true) && x.st == .running && x.run.vec == 0 && !x.run.idle && x.run.t == r.t &&
      x.run.flow.pc == r.flow.pc && rejoined p.2 x.run)).map (·.1)
where
  /-- Whether a group has just left a rendezvous with REJOIN. -/
  rejoined (g : Group) (r : SiteRun) : Bool :=
    match d.image g.image, r.prevGran with
    | some i, some n => match (i.z.gran n).ins with
      | .rendezvous x => ((i.z.rdvs[x]?).map (fun e => tbit e.flags 0)).getD false
      | _ => false
    | _, _ => false

/-- Merge groups (R201): the lowest-numbered engine stays, the others are freed. The merged group keeps key `k`. -/
def Dev.rejoin (d : Dev) (k : Nat) : Dev :=
  match d.rejoinSet k, d.group k with
  | [], _ => d
  | _, none => d
  | others, some g =>
    let all := others.filterMap d.group
    let members := sortNats (g.members ++ all.flatMap (·.members))
    let es := sortNats (d.enginesOf k ++ others.flatMap d.enginesOf)
    let keeper := match es with
      | [] => none
      | e :: _ => (d.engine e).group
    let base := match keeper with | some x => (d.group x).getD g | none => g
    let d := others.foldl (fun d o => d.dropGroup o) d
    let d := (d.setGroup k { base with members := members, hasEngine := !es.isEmpty }).nameGroup k
    match es with
    | [] => d
    | e :: rest => rest.foldl (fun d e => d.freeEngine e) (d.modEngine e (fun x => { x with group := some k }))

/-- The end of an execution of a rendezvous granule: the first begins the wait, an idle one repeats or, once released, goes on. -/
def Dev.rendezvous (d : Dev) (s : Nat) : Dev :=
  match d.atBoundary s with
  | none => d
  | some (k, g, i) =>
    match d.groupIns g i with
    | .rendezvous n =>
      let e := (i.z.rdvs[n]?).getD ⟨0, 0, 0, 0, 0⟩
      let r := (d.site g.lead).run
      if !r.idle then
        let start := (d.site g.lead).start
        let d := d.boundary k g i (fun r => .again { r with
          idle := true, rdvDone := none
          wait := some { rdv := true, cause := 0, point := n, rdvId := e.id, vc := r.vc, t := r.t, epoch := d.flue.epoch, limitHit := false } })
        d.rdvCheck start
      else if d.rdvFree g.lead then
        let (d, ks) := d.passBoundary k g i (endRdv i.z e)
        let d := if tbit e.flags 0 then ks.foldl (fun d k => d.rejoin k) d else d
        ks.foldl (fun d k => d.judgeNext k) d
      else d.boundary k g i (fun r => .again r)
    | _ => d

/-- RDV_RESUME: the end of an idle execution of a rendezvous. -/
def Dev.rdvResume (d : Dev) (s : Nat) : Dev := if (d.site s).run.idle then d.rendezvous s else d

/-- RDV_WAIT_LIMIT: at the edge that opens epoch B + RDV_MAX_EPOCHS + 1 an unreleased site is withdrawn, and smothered with 0x04 at the end
of its idle execution (R202). -/
def Dev.rdvLimit (d : Dev) (s : Nat) : Dev :=
  let max_ := d.getF R.HRT_SEQ_CFG F.HRT_SEQ_CFG_RDV_MAX_EPOCHS
  match d.rdvWait s with
  | none => d
  | some w =>
    if max_ = 0 ∨ d.flue.known = false ∨ d.flue.epoch < w.epoch + max_ + 1 then d
    else (d.rdvWithdraw s).rdvCheck (d.site s).start

/-! ### Vector 0 (R25) -/

/-- A STARTING site issues vector 0 (R25, R76, R80, R145, R235, R273, R291). -/
def Dev.enterRunning (d : Dev) (s : Nat) : Dev :=
  let d := d.modSite s (fun x => { x with st := .running, seconds := d.time.secs, ns := d.time.ns })
  let d := ((d.capBegin s).ddsBegin s).tmuBegin s
  (((d.binding s).map Binding.channels).getD []).foldl (fun (d : Dev) ch => d.setTerm ch 3) d

/-- VECTOR_ZERO: 1,024 grid ticks after the edge that opens the present epoch, the sites of its starts enter RUNNING. -/
def Dev.vectorZero (d : Dev) : Dev :=
  if !d.flue.known then d
  else
    let due := (d.seq.starts.filter (fun r => r.epoch == d.flue.epoch)).flatMap (fun r =>
      r.sites.filter (fun s => (d.site s).st == .starting && (d.site s).start == r.id))
    due.foldl (fun d s => d.enterRunning s) (if d.tbValid then d.tbAt (40000 * d.flue.epoch + 1024) else d.tbNow)

/-- The guard at the edge that opens a start's epoch (R192): a group without WINDOW_GUARD bytes, or whose first granule is poisoned, issues no
vector. -/
def Dev.windowGuards (d : Dev) : Dev :=
  (mapKeys d.seq.groups).foldl (fun (d : Dev) k =>
    match d.group k with
    | none => d
    | some g =>
      match d.groupImage g, d.startOf g.lead with
      | some i, some r =>
        let x := (d.site g.lead).run
        if (d.site g.lead).st != .starting || r.epoch != d.flue.epoch then d
        else if d.groupMargin k g i x.flow < i.z.windowGuard then g.members.foldl (fun d m => d.endSite m .smother 4) d
        else if d.granBad k g i x.flow.pc then
          g.members.foldl (fun d m => d.endSite m .smother 8) d
        else d
      | _, _ => d) d

end Sys2Proof.Machine
end

