-- ==== Sys2Proof/Machine/Finish.lean ====
section
/-! DEFINITION. The end of a start: its sites' drain, result entries and completion (spec/01 R19, R27, R34, spec/06 R194, spec/13 R369, R371),
and the hold-report ring (spec/06 R191). -/

namespace Sys2Proof.Machine

/-- A STOPPING site has drained: its capture is in DRAM, its SUMMARY accepted and its run's events released, its holds reported (R27, R396). -/
def Dev.drained (d : Dev) (s : Nat) : Bool :=
  let x := d.site s
  x.st == .stopping && x.cap.finished && x.summary == 2 && x.holdsOut == 0 && !(d.drt.awaiting.any (fun a => a.1 == s))

/-- A site's own status (R194, R371). -/
def Dev.siteStatus (d : Dev) (s : Nat) : Nat :=
  let x := d.site s
  if x.endCause = .douse then stDoused else if x.reason ≠ 0 then stSmothered else stOk

/-- The status of a start: DOUSED before SMOTHERED before OK (R27). -/
def Dev.startStatus (d : Dev) (r : Start) : Nat :=
  let l := r.sites.map d.siteStatus
  if l.contains stDoused then stDoused else if l.contains stSmothered then stSmothered else stOk

/-- ARG0 of a start that ran (R369). -/
def Dev.startArg (d : Dev) (r : Start) : Nat :=
  let n := fun st => (r.sites.filter (fun s => d.siteStatus s == st)).length
  n stOk + 2 ^ 16 * n stSmothered + 2 ^ 32 * n stDoused +
    2 ^ 48 * (listMin? ((r.sites.map (fun s => (d.site s).reason)).filter (· != 0))).getD 0

/-- A start's part on this device is over. The manager of a start that spans devices goes on gathering for the others until all have withdrawn (R198). -/
def Dev.startOver (d : Dev) (r : Start) : Dev :=
  if d.isManager && r.multi && d.seq.meets.any (fun m => m.start == r.id) then { d with seq := { d.seq with met := d.seq.met ++ [r] } }
  else d.dropMeet r.id

/-- SITE_COMPLETE: when every site of the start of this site has drained, results and completion are posted, and the sites pass through
COMPLETE to ARMED (R19, R27). Result writes of a remote pair that cannot be routed wait, with the ring in FAULT, until they can or the ring is
disabled (R383). -/
def Dev.siteComplete (d : Dev) (s : Nat) : Dev :=
  match d.startOf s with
  | none => d
  | some r =>
    if !(r.sites.all d.drained) then d
    else if d.ownerCut r.ring && d.ringState r.ring != rsDisabled then
      if (d.ring r.ring).faultErr = reWriteDenied then d
      else d.writeDenied r.ring
    else
      let (d, lost) := d.writeResults r (fun d s => d.siteStatus s)
      let d := d.postStart r (d.startStatus r) (d.startArg r) r.epoch lost
      let d := r.sites.foldl (fun (d : Dev) s =>
        (d.modSite s (fun x => { x with st := .armed })).latch (R.HRT_INT_STATUS (homeHearth s)) F.HRT_INT_STATUS_SITE_END) d
      let d := { d with seq := { d.seq with starts := d.seq.starts.filter (fun q => q.id != r.id) } }
      ((d.startOver r).tmuCalKick).ppmuKick

/-! ### The hold-report ring (R191) -/

/-- HOLD_REPORT_WRITE: the oldest queued report is written once the ring has room, and PI advances. -/
def Dev.holdReportWrite (d : Dev) : Dev :=
  match d.seq.reports with
  | [] => d
  | q :: rest =>
    let pi := (d.reg R.HRT_HOLD_PI).toNat
    let size := 2 ^ d.getF R.HRT_HOLD_CTRL F.HRT_HOLD_CTRL_LOG2
    if sub32 pi (d.reg R.HRT_HOLD_CI).toNat ≥ size then d
    else
      let d := d.write (4096 * (d.reg R.HRT_HOLD_BASE).toNat + 32 * (pi % size)) (slice q.bytes 0 32)
      let d := (d.setReg R.HRT_HOLD_PI (BitVec.ofNat 32 (pi + 1))).modSite q.site (fun x => { x with holdsOut := x.holdsOut - 1 })
      { d with seq := { d.seq with reports := rest } }

/-- Value rules of the hold-report registers. -/
def Dev.holdRule (d : Dev) (off : Nat) (w : Word) : Option Nat :=
  let en := d.flag R.HRT_HOLD_CTRL F.HRT_HOLD_CTRL_ENABLE
  if off = R.HRT_HOLD_CTRL then
    let l := getBits w F.HRT_HOLD_CTRL_LOG2
    failWhen (l < 4 || l > 16 || (en && l != d.getF R.HRT_HOLD_CTRL F.HRT_HOLD_CTRL_LOG2)) vkValue
  else if off = R.HRT_HOLD_BASE then failWhen (en && w != d.reg R.HRT_HOLD_BASE) vkValue
  else if off = R.HRT_HOLD_CI then failWhen (ciBad (d.reg R.HRT_HOLD_PI).toNat (d.reg R.HRT_HOLD_CI).toNat w.toNat) vkValue
  else none

/-- ENABLE of HRT_HOLD_CTRL: a rise clears PI, CI and SEQ; while it is 0 what is queued is counted as lost. -/
def Dev.holdCtrl (d : Dev) (old w : Word) : Dev :=
  let was := getBits old F.HRT_HOLD_CTRL_ENABLE
  let now := getBits w F.HRT_HOLD_CTRL_ENABLE
  if was = 0 ∧ now = 1 then { (d.setReg R.HRT_HOLD_PI 0).setReg R.HRT_HOLD_CI 0 with seq := { d.seq with reportSeq := 0 } }
  else if was = 1 ∧ now = 0 then
    let d := d.seq.reports.foldl (fun (d : Dev) q =>
      (d.bump R.HRT_HOLD_STATUS F.HRT_HOLD_STATUS_LOST).modSite q.site (fun x => { x with holdsOut := x.holdsOut - 1 })) d
    { d with seq := { d.seq with reports := [] } }
  else d

end Sys2Proof.Machine
end

