-- ==== Sys2Proof/Machine/Calibration.lean ====
section
/-! DEFINITION. Calibration: loads, procedures, commits, storage, due dates (spec/19 R481–R497, spec/12 R349). -/

namespace Sys2Proof.Machine

/-! ### CAL_LOAD (R481, R485) -/

/-- A failing check: code, INDEX, byte offset in the image. -/
structure CalFail where
  check : Nat
  index : Nat
  off : Nat
  deriving DecidableEq, Repr

/-- The first element of a list at which a check fails. -/
def firstBad (l : List Nat) (bad : Nat → Bool) (f : Nat → CalFail) : Option CalFail := (l.find? bad).map f

/-- CAL_FIELD of a HEARTH body: pin entries, then grate entries; `o` runs over the 16-bit words of an entry. -/
def calHearthFields (bs : List Byte) : Option CalFail :=
  let pin := (List.range 64).findSome? (fun p =>
    let base := 64 + 544 * p
    let w := fun o => fieldAt bs (base + o) 2
    firstBad ((List.range 272).map (2 * ·)) (fun o =>
      (o == 4 && w o > 1023) || (14 ≤ o && o < 32 && w o != 0) || (32 ≤ o && (w o / 256 % 4 == 2 || w o / 1024 != 0)))
      (fun o => ⟨0x93, p, base + o⟩))
  match pin with
  | some f => some f
  | none => (List.range 8).findSome? (fun g =>
      let base := 64 + 34816 + 64 * g
      firstBad ((List.range 14).map (fun i => 36 + 2 * i)) (fun o => fieldAt bs (base + o) 2 != 0) (fun o => ⟨0x93, g, base + o⟩))

/-- CAL_FIELD of any body. -/
def calFields (id : Nat) (bs : List Byte) : Option CalFail :=
  if fieldAt bs 6 2 ≠ 0 then some ⟨0x93, 0, 6⟩
  else if id < 16 then calHearthFields bs
  else if id = 16 then
    (List.range 32).findSome? (fun n => firstBad ((List.range 8).map (fun i => 272 + 2 * i)) (fun o => fieldAt bs (64 + 288 * n + o) 2 != 0)
      (fun o => ⟨0x93, n, 64 + 288 * n + o⟩))
  else if id = 17 then
    if fieldAt bs 64 2 > 4095 then some ⟨0x93, 0, 64⟩
    else if fieldAt bs 67 1 ≠ 0 then some ⟨0x93, 0, 67⟩
    else if fieldAt bs 72 8 ≠ 0 then some ⟨0x93, 0, 72⟩
    else none
  else none

/-- CAL_BINS (R485): a width of 0 names its bin, a wrong sum its channel. -/
def calBins (id : Nat) (bs : List Byte) : Option CalFail :=
  if id ≠ 16 then none
  else (List.range 32).findSome? (fun n =>
    let w := (List.range 128).map (fun i => fieldAt bs (64 + 288 * n + 2 * i) 2)
    match w.idxOf? 0 with
    | some i => some ⟨0x94, i, 64 + 288 * n + 2 * i⟩
    | none => if w.sum ≠ 64000 then some ⟨0x94, n, 64 + 288 * n⟩ else none)

/-- The checks of R485 in ascending code. -/
def calChecks (table len : Nat) (bs : List Byte) : Option CalFail :=
  let fmt := fun o => some (CalFail.mk 0x90 0 o)
  if table > 18 ∨ len ≠ 64 + calBody table then fmt 0
  else if slice bs 0 4 ≠ [0x43, 0x41, 0x4C, 0x1A] then fmt 0
  else if fieldAt bs 4 1 ≠ table then fmt 4
  else if fieldAt bs 5 1 ≠ 1 then fmt 5
  else if fieldAt bs 8 4 ≠ calBody table then fmt 8
  else if fieldAt bs 60 4 ≠ crc32c (slice bs 0 60) then some ⟨0x91, 0, 60⟩
  else if slice bs 28 32 ≠ shake256 32 (slice bs 64 (calBody table)) then some ⟨0x92, 0, 28⟩
  else match calFields table bs with
    | some f => some f
    | none => calBins table bs

/-- Whether a filling of a table is under way (R489). -/
def Dev.calFilling (d : Dev) (k : Nat) : Bool :=
  if k < 16 then d.procRuns k
  else if k = 16 then d.flag R.TMU_CAL_CTRL F.TMU_CAL_CTRL_BUSY
  else k == 17 && d.flue.skew.isSome

/-- CAL_LOAD: held while a commit or an earlier filling of the table is under way (R489). -/
def Dev.calLoad (d : Dev) (n : Nat) (remote : RemoteRead) : Dev :=
  match d.nextDesc n opCalLoad with
  | none => d
  | some q =>
    let k := q.get 32 2
    if d.calPending k || d.calFilling k then d
    else d.withLoad n opCalLoad remote (fun d q bs =>
      match calChecks k (q.get 24 8) bs with
      | some f => d.complete n q stRefused (refuseArg f.check 0xFF 0xFFFF f.index) f.off
      | none =>
        (d.calWriteShadow k { count := (d.calShadow k).count, secs := fieldAt bs 16 6, temp := fieldAt bs 22 2, dueDays := fieldAt bs 24 2
                              drift := fieldAt bs 26 2, body := slice bs 64 (calBody k) }).complete n q stOk)

/-! ### Procedures (R486, R487) -/

/-- The board path of a channel is none (R484). -/
def Dev.noPath (d : Dev) (ch : Nat) : Bool := fieldAt (d.calLive 18).body (4 * ch) 4 == 0x80000000

/-- Why a hearth cannot run a procedure, checked at GO: code and pin (R487). -/
def Dev.procBar (d : Dev) (proc h : Nat) : Option (Nat × Nat) :=
  if [2 * h, 2 * h + 1].any (fun n => (d.tmuCh n).byReg || (d.tmuCh n).st == tmPaired || (d.tmuCh n).st == tmCalibrating) then some (6, 0)
  else if proc = 3 then ((List.range 64).find? (fun p => !(d.absent (64 * h + p)) && d.noPath (64 * h + p))).map (fun p => (7, p))
  else none

/-- Hearths that wait take up their procedure at their run boundary; DESKEW runs in one at a time (R486, R487, R489, R490), and, as it
drives balls, not while DOUSE_N is low (R59). -/
def Dev.procKick (d : Dev) : Dev :=
  match d.cal.proc with
  | none => d
  | some p => p.waiting.foldl (fun (d : Dev) h =>
      match d.cal.proc with
      | none => d
      | some q =>
        let ready := !(d.hearthBusy h) && !(d.calPending h) && !(d.commitPending h) && !((List.range 8).any (fun k => d.stepBusy (8 * h + k))) &&
          (q.proc != 3 || (!d.board.douseLow && q.running.isEmpty && !(d.calPending 18)))
        if !ready then d
        else
          let (t, d) := d.meanTemp [h]
          let d := { d with cal := { d.cal with proc := some { q with waiting := q.waiting.filter (· != h), running := q.running ++ [(h, t)] } } }
          (List.range 8).foldl (fun d k => d.wakeGrate (8 * h + k)) d) d

/-- GO of CAL_PROC (R486): the checks made at GO, then the hearths wait for their boundaries. -/
def Dev.calGo (d : Dev) : Dev :=
  let proc := d.getF R.CAL_PROC F.CAL_PROC_PROC
  let hs := bitList (d.getF R.CAL_PROC F.CAL_PROC_HEARTHS) 16
  if proc = 0 ∨ 3 < proc ∨ hs.isEmpty = true then d
  else
    let d := d.setReg R.CAL_PROC_STATUS 0
    match hs.find? (fun h => (List.range 8).any (fun k => d.policy (8 * h + k) == polOff)) with
    | some h =>
      let d := (d.setF R.CAL_PROC_STATUS F.CAL_PROC_STATUS_OUTCOME 2).setF R.CAL_PROC_STATUS F.CAL_PROC_STATUS_HEARTH h
      d.latch R.CAL_INT_STATUS F.CAL_INT_STATUS_PROC_DONE
    | none =>
      let bars := hs.filterMap (fun h => (d.procBar proc h).map (fun b => (h, b)))
      let ok := hs.filter (fun h => (d.procBar proc h).isNone)
      let d := { d with cal := { d.cal with proc := some (CalProc.mk proc ok (bars.map (fun (b : Nat × Nat × Nat) => (b.1, 0)))) } }
      let d := d.latch R.CAL_PROC_STATUS F.CAL_PROC_STATUS_BUSY
      let d := bars.foldl (fun (d : Dev) b => d.calEnd b.1 (some b.2)) d
      d.procKick

/-- Copy a field of every entry of a HEARTH body from a measured body. -/
def calCopy (src dst : List Byte) (places : List (Nat × Nat)) : List Byte :=
  places.foldl (fun b p => splice b p.1 (slice src p.1 p.2)) dst

/-- The fields that a procedure writes (R486). -/
def procPlaces (proc : Nat) : List (Nat × Nat) :=
  let pins := fun (o n : Nat) => (List.range 64).map (fun p => (544 * p + o, n))
  match proc with
  | 1 => pins 4 2 ++ pins 32 512
  | 2 => pins 6 8 ++ (List.range 8).map (fun g => (34816 + 64 * g, 36))
  | _ => pins 0 4

/-- CAL_PROC_DONE: the procedure of a hearth ends, failed with LIMIT (3) or NO_REF (4) and a pin, or with the measured fields (R487).
LINEARITY and DESKEW fail with NO_REF while REFCLK is absent (log entry 134). -/
def Dev.calProcDone (d : Dev) (h : Nat) (fail : Option (Nat × Nat)) (measured : List Byte) : Dev :=
  match d.cal.proc with
  | none => d
  | some p =>
    match p.running.find? (fun x => x.1 == h) with
    | none => d
    | some (_, temp) =>
      let fail := if fail.isNone && p.proc != 2 && !d.board.refPresent then some (4, 0) else fail
      let d := match fail with
        | some (code, pin) => d.calEnd h (some (if code = 4 then 4 else 3, pin))
        | none =>
          let t := d.calShadow h
          let cfg := d.reg R.CAL_CFG
          (d.calWriteShadow h { t with body := calCopy measured t.body (procPlaces p.proc), secs := d.time.secs, temp := temp
                                       dueDays := getBits cfg F.CAL_CFG_DUE_DAYS, drift := getBits cfg F.CAL_CFG_DRIFT }).calEnd h none
      d.procKick

/-! ### Commits (R490–R494) -/

/-- Calibration commits that have applied everywhere and settled complete (R490). -/
def Dev.calKick (d : Dev) : Dev :=
  let isOver := fun (c : CalCommit) => c.tables.all c.applied.contains &&
    !(c.tables.any (fun k => k < 16 && d.seq.settles.any (fun x => match x with | .level g => g / 8 == k | _ => false))) &&
    (!(c.tables.contains 17) || d.getF R.CLK_GRID_PHASE F.CLK_GRID_PHASE_CURRENT == d.getF R.CLK_GRID_PHASE F.CLK_GRID_PHASE_TARGET)
  let done := d.rings.calCommits.filter isOver
  let d := { d with rings := { d.rings with calCommits := d.rings.calCommits.filter (fun c => !(isOver c)) } }
  done.foldl (fun (d : Dev) c =>
    (d.post c.ring { hostSeq := c.hostSeq, opcode := opCalCommit, status := stOk, flags := 8 * bit c.irq, arg0 := 0, arg1 := 0
                     counted := true }).endCurrent c.ring) d

/-- Whether a table's boundary has come (R490). -/
def Dev.calBoundary (d : Dev) (k : Nat) : Bool :=
  if k < 16 then !(d.noBoundary k) && !((List.range 8).any (fun i => d.stepBusy (8 * k + i)))
  else if k = 16 then
    !(d.seq.claims.any (fun c => c.kind == 2 && (d.site c.site).st.busy)) && !(d.tmu.chs.any (fun c => c.2.st == tmCalibrating))
  else if k = 17 then !d.anyBusy
  else match d.cal.proc with | some p => p.proc != 3 || p.running.isEmpty | none => true

/-- The flash slot that does not hold the previous live image (R494). -/
def Dev.calSlot (d : Dev) (k : Nat) : Nat :=
  match d.getF (R.CAL_TAB_STATUS k) F.CAL_TAB_STATUS_LIVE_SLOT with
  | 0 => 1
  | 1 => 0
  | _ => match mapFind d.cal.stored (2 * k), mapFind d.cal.stored (2 * k + 1) with
    | some (true, a), some (true, b) => if b.count < a.count then 1 else 0
    | some (true, _), _ => 1
    | _, _ => 0

/-- Store a live table in the other slot, with its ledger items (R494, R510). -/
def Dev.calStore (d : Dev) (k : Nat) (fails : Bool) : Dev :=
  let slot := d.calSlot k
  let d := { d with cal := { d.cal with stored := mapSet d.cal.stored (2 * k + slot) (!fails, d.calLive k) } }
  if fails then
    let d := (d.setF (R.CAL_TAB_STATUS k) F.CAL_TAB_STATUS_LIVE_SLOT 2).latch (R.CAL_TAB_STATUS k) F.CAL_TAB_STATUS_STORE_ERR
    (d.latch R.CAL_INT_STATUS F.CAL_INT_STATUS_STORE_ERR).raise 18 0
  else d.setF (R.CAL_TAB_STATUS k) F.CAL_TAB_STATUS_LIVE_SLOT slot

/-- The due date of a table in device-time seconds; 0 for none (R496). -/
def CalTab.due (t : CalTab) : Nat := if t.dueDays = 0 then 0 else t.secs + 86400 * t.dueDays

/-- The ledger's calibration calendar (R510). -/
def Dev.calCalendar (d : Dev) (k : Nat) : Dev :=
  (d.setLedger (liLastCal k) (d.calLive k).secs).setLedger (liDue k) (d.calLive k).due

/-- A table goes live in one step (R490–R494, R496). -/
def Dev.calApply (d : Dev) (c : CalCommit) (k : Nat) (fails : Bool) : Dev :=
  let t := { d.calShadow k with count := (d.calLive k).count + 1 }
  let d := { d with cal := { d.cal with live := mapSet d.cal.live k t, shadow := mapSet d.cal.shadow k t } }
  let st := R.CAL_TAB_STATUS k
  let d := (d.setF st F.CAL_TAB_STATUS_SHADOW_DIRTY 0).setF st F.CAL_TAB_STATUS_FORCED (bit (c.forced && k != 18))
  let d := ((d.setF st F.CAL_TAB_STATUS_DUE 0).setF st F.CAL_TAB_STATUS_DEFAULT 0).setBit R.CAL_DUE k false
  let d := (d.calStore k fails).calCalendar k
  let d := d.log c.origin 0x03 (2 ^ 40 * opCalCommit + 2 ^ 32 * c.ring + c.hostSeq) [] (k + 2 ^ 31 * bit (c.forced && k != 18))
  let d := d.latch R.CAL_INT_STATUS F.CAL_INT_STATUS_APPLIED
  let d := if k < 16 then
      ((List.range 8).map (8 * k + ·)).foldl (fun (d : Dev) g => if (d.grate g).dom = Dom.on then d.startSettle (.level g) else d) d
    else if k = 17 then
      (d.setF R.CLK_SYNC_CFG F.CLK_SYNC_CFG_DELAY_TICKS (fieldAt t.body 0 2)).setF R.CLK_GRID_PHASE F.CLK_GRID_PHASE_TARGET (fieldAt t.body 2 1)
    else d
  { d with rings := { d.rings with calCommits := d.rings.calCommits.map (fun (x : CalCommit) =>
      if x.ring = c.ring ∧ x.hostSeq = c.hostSeq then { x with applied := insertNat k x.applied } else x) } }

/-- Sites that a forced table smothers (R492). -/
def Dev.calForced (d : Dev) (k : Nat) : List Nat :=
  if k < 16 then d.activeSites.filter (fun s => (d.siteHearths s).contains k)
  else if k = 16 then d.activeSites.filter (fun s => d.seq.claims.any (fun c => c.site == s && c.kind == 2))
  else if k = 17 then d.activeSites
  else []

/-- CAL_COMMIT: tables whose shadow has not been written since their last commit drop out; FORCE applies at once (R490, R492). -/
def Dev.calCommit (d : Dev) (n : Nat) (fails : List Nat) : Dev :=
  match d.nextDesc n opCalCommit with
  | none => d
  | some q =>
    let named := (q.mask 16 8).filter (fun k => k < 19 && d.flag (R.CAL_TAB_STATUS k) F.CAL_TAB_STATUS_SHADOW_DIRTY && !(d.calPending k))
    let c : CalCommit := { ring := n, hostSeq := q.hostSeq, irq := q.irq, tables := named, applied := [], forced := tbit q.flags 2, origin := q.origin }
    let d := d.beginDesc n q true
    let d := { d with rings := { d.rings with calCommits := d.rings.calCommits ++ [c] } }
    let d := if !c.forced then d
      else (named.filter (· != 18)).foldl (fun (d : Dev) k => (d.smotherAll (d.calForced k) 5).calApply c k (fails.contains k)) d
    d.calKick

/-- CAL_TABLE_APPLY: a table's boundary has come for the first commit that waits for it; `fails` says that its store failed. -/
def Dev.calTableApply (d : Dev) (k : Nat) (fails : Bool) : Dev :=
  match d.rings.calCommits.find? (fun c => c.tables.contains k && !(c.applied.contains k)) with
  | none => d
  | some c => if d.calBoundary k then ((d.calApply c k fails).calKick).procKick else d

/-- RUN_BOUNDARY_APPLY: a calibration commit due at the same boundary applies first (R491). -/
def Dev.runBoundaryApply (d : Dev) (h : Nat) : Dev :=
  let cal := d.rings.calCommits.any (fun c => c.tables.contains h && !(c.applied.contains h))
  if cal && d.calBoundary h then d else (d.runBoundary h).procKick

/-- SETTLE_TIME_END. -/
def Dev.settleEndAll (d : Dev) (x : Settle) : Dev := (d.settleTimeEnd x).calKick

/-- GRID_PHASE_STEP. -/
def Dev.gridPhaseStep (d : Dev) : Dev := d.phaseStep.calKick

/-! ### The SYNC skew table (R349, R488) -/

/-- SKEW_DONE: a valid measurement fills the shadow SYNC table; held while a commit of it is pending. Units of 1/128 ps: a tick 32,000, a
code 125, θ in 1/8 ps. A total that no DELAY_TICKS can hold gives free values (log entry 7). -/
def Dev.skewFill (d : Dev) : Dev :=
  if d.calPending 17 then d
  else
    let temp := match d.flue.skew with | some k => k.temp | none => 0
    match d.skewDone with
    | (none, d) => d
    | (some theta, d) =>
      let total : Int := 32000 * (d.getF R.CLK_SYNC_CFG F.CLK_SYNC_CFG_DELAY_TICKS : Int) + 125 * (d.getF R.CLK_GRID_PHASE F.CLK_GRID_PHASE_TARGET : Int) - 16 * theta
      let code := (2 * total + 125) / 250
      let (c, d) := if 0 ≤ code ∧ code < 4096 * 256 then (code.toNat, d) else let (v, d) := d.drawNat; (v % (4096 * 256), d)
      let t := d.calShadow 17
      d.calWriteShadow 17 { t with secs := d.time.secs, temp := temp
                                   body := bytesOf 2 (c / 256) ++ bytesOf 1 (c % 256) ++ bytesOf 1 0 ++ bytesOf 4 (unsgn theta 32) ++ bytesOf 8 0 }

/-! ### Due (R496) -/

/-- A live table falls due. -/
def Dev.calFallDue (d : Dev) (k : Nat) : Dev :=
  if d.calDue k then d
  else
    let d := (d.setBit R.CAL_DUE k true).latch (R.CAL_TAB_STATUS k) F.CAL_TAB_STATUS_DUE
    ((d.latch R.CAL_INT_STATUS F.CAL_INT_STATUS_DUE).notice 2 k 0).calCalendar k

/-- Tables whose date has come. -/
def Dev.calDates (d : Dev) : Dev :=
  d.cal.live.foldl (fun (d : Dev) (p : Nat × CalTab) => if p.2.due != 0 && p.2.due ≤ d.time.secs then d.calFallDue p.1 else d) d

/-- Tables whose temperature has drifted, at a 1 ms sample. -/
def Dev.calDrifts (d : Dev) : Dev :=
  d.cal.live.foldl (fun (d : Dev) (p : Nat × CalTab) =>
    if p.2.drift = 0 then d
    else
      let (t, d) := d.meanTemp (if p.1 < 16 then [p.1] else List.range 16)
      if (sgn t 16 - sgn p.2.temp 16).natAbs > p.2.drift then d.calFallDue p.1 else d) d

/-! ### Registers (R497) -/

/-- CAL_TABk registers: the table and the offset. -/
def calTabOf (off : Nat) : Option (Nat × Nat) := if 0xD0100 ≤ off ∧ off < 0xD0230 then some ((off - 0xD0100) / 16, (off - 0xD0100) % 16) else none

/-- What CAL_TABk and CAL_PENDING read. -/
def Dev.calView (d : Dev) (off : Nat) : Option Word :=
  if off = R.CAL_PENDING then some (BitVec.ofNat 32 (maskOf ((List.range 19).filter (fun k => d.calPending k))))
  else match calTabOf off with
    | some (k, 0) => some (BitVec.ofNat 32 (if d.flag (R.CAL_TAB_STATUS k) F.CAL_TAB_STATUS_DEFAULT then 0 else (d.calLive k).count))
    | some (k, 4) => some (BitVec.ofNat 32 (d.calLive k).secs)
    | some (k, 8) => some (BitVec.ofNat 32 (2 ^ 16 * ((d.calLive k).temp % 2 ^ 16) + (d.calLive k).secs / 2 ^ 32 % 2 ^ 16))
    | some (k, 12) =>
      let w := setBits (d.reg off) F.CAL_TAB_STATUS_PENDING (bit (d.calPending k))
      some (setBits w F.CAL_TAB_STATUS_DUE_DAYS (d.calLive k).dueDays)
    | _ => none

/-- Value rule: CAL_PROC while BUSY. -/
def Dev.calRule (d : Dev) (off : Nat) : Option Nat :=
  failWhen (off == R.CAL_PROC && d.flag R.CAL_PROC_STATUS F.CAL_PROC_STATUS_BUSY) vkValue

end Sys2Proof.Machine
end

