-- ==== Sys2Proof/Machine/Supplies.lean ====
section
/-! DEFINITION. DUT supply sequences, supply readings and alerts (spec/17 R457–R462), die temperatures (spec/22 R557–R559). -/

namespace Sys2Proof.Machine

/-! ### Sequences (R458, R459) -/

/-- Whether supply n has a regulator on PMB1. -/
def Dev.supPmb (d : Dev) (n : Nat) : Bool := d.flag (R.PWR_SUP_CFG n) F.PWR_SUP_CFG_USE_PMBUS

/-- An up sequence fails: what it enabled goes down again, in down-table order (R459). -/
def Dev.supUnwind (d : Dev) (q : SupSeq) (outcome : Nat) : Dev :=
  ((d.downOrder q.enabled).foldl (fun d n => d.supDisable n) d).supSeqEnd outcome q.step

/-- Step `q.step` of the running sequence is made; `pmbFail` says that its PMB1 transaction fails. -/
def Dev.supStep (d : Dev) (q : SupSeq) (pmbFail : Bool) : Dev :=
  match (d.supTable q.up)[q.step]? with
  | none => match q.pmbErr with
    | some k => d.supSeqEnd 3 k
    | none => d.supSeqEnd 1 0
  | some s =>
    let bad := pmbFail && d.supPmb s.supply
    if q.up then
      if bad then (d.supOperation s.supply 0x80).supUnwind q 3
      else
        let d := d.supEnable s.supply
        { d with power := { d.power with seq := some { q with enabled := q.enabled ++ [s.supply], waitPg := s.timeoutMs != 0 } } }
    else
      let d := d.supDisable s.supply
      { d with power := { d.power with seq := some { q with waitPg := false, pmbErr := if bad && q.pmbErr.isNone then some q.step else q.pmbErr } } }

/-- UP or DOWN of PWR_SUP_CTRL: UP when both are written (log entry 50). The refusals are in `supCtrlRule`. -/
def Dev.supStart (d : Dev) (up : Bool) (pmbFail : Bool) : Dev :=
  let d := (d.setF R.PWR_SUP_CTRL F.PWR_SUP_CTRL_OUTCOME 0).setF R.PWR_SUP_CTRL F.PWR_SUP_CTRL_STEP 0
  if d.supTableBad up then d.supSeqEnd 5 0
  else (d.latch R.PWR_SUP_CTRL F.PWR_SUP_CTRL_BUSY).supStep ⟨up, 0, false, [], none⟩ pmbFail

/-- SUP_STEP_ADVANCE: the power-good wait or the DELAY of a step ends; `pg` is SUP_PG. A power-good wait with a DELAY goes on to wait
for it. -/
def Dev.supAdvance (d : Dev) (pmbFail : Bool) (pg : Nat) : Dev :=
  let d := d.setReg R.PWR_SUP_PG (BitVec.ofNat 32 pg)
  match d.power.seq with
  | none => d
  | some q =>
    match (d.supTable q.up)[q.step]? with
    | none => d
    | some s =>
      if q.waitPg && !(tbit pg s.supply) then d
      else if q.waitPg && s.delay != 0 then { d with power := { d.power with seq := some { q with waitPg := false } } }
      else d.supStep { q with step := q.step + 1, waitPg := false } pmbFail

/-- PG_TIMEOUT: TIMEOUT_MS of an ENABLE step end without power-good (R459). -/
def Dev.pgTimeout (d : Dev) : Dev :=
  match d.power.seq with
  | some q => if q.up && q.waitPg then d.supUnwind q 2 else d
  | none => d

/-- SUP_PG_FALL: power-good of an enabled supply falls for more than 10 µs outside a down sequence (R459, R464). -/
def Dev.pgFall (d : Dev) (n : Nat) : Dev :=
  let down := match d.power.seq with | some q => !q.up | none => false
  if !(d.supOn n) || down then d
  else (((d.setBit R.PWR_SUP_PG n false).setBit R.PWR_SUP_FAULT n true).latch R.PWR_INT_STATUS F.PWR_INT_STATUS_SUP_FAULT).raise 2 n

/-! ### Readings and alerts (R461, R462) -/

/-- GO of PWR_SUP_READ: the reading, and the SUPPLY operand when DRAUGHT is set and SITE is in a live binding. -/
def Dev.supRead (d : Dev) (r : SupReading) : Dev :=
  let n := d.getF R.PWR_SUP_READ F.PWR_SUP_READ_SUPPLY
  let s := d.getF R.PWR_SUP_READ F.PWR_SUP_READ_SITE
  let flags := bit (d.supOn n) + 2 * bit (d.bitOf R.PWR_SUP_PG n) + 4 * bit r.err
  let d := d.setReg R.PWR_SUP_VALUE (BitVec.ofNat 32 (2 ^ 16 * (r.iout % 2 ^ 16) + r.vout % 2 ^ 16))
  let d := d.setReg R.PWR_SUP_VSTATUS (BitVec.ofNat 32 (2 ^ 16 * (r.status % 2 ^ 16) + flags))
  let d := d.latch R.PWR_INT_STATUS F.PWR_INT_STATUS_READ_DONE
  if d.flag R.PWR_SUP_READ F.PWR_SUP_READ_DRAUGHT && (d.binding s).isSome then
    d.offer s srcSupply (bytesOf 1 n ++ bytesOf 1 flags ++ bytesOf 2 s ++ bytesOf 2 r.vout ++ bytesOf 2 r.iout ++ bytesOf 2 r.status ++
      bytesOf 1 (mapGet d.power.voutExp n 0))
  else d

/-- A reading of which nothing is told: free values (log entry 7). -/
def Dev.supReadFree (d : Dev) : Dev :=
  let (a, d) := d.drawNat
  let (b, d) := d.drawNat
  let (c, d) := d.drawNat
  let (e, d) := d.drawBool
  d.supRead ⟨a, b, c, e⟩

/-- PMB_ALERT: SMBALERT# on PMB1; the alert response address is read, and CLEAR_FAULTS goes to the device that answers, if any. -/
def Dev.pmbAlert (d : Dev) (answer : Option Nat) : Dev :=
  if d.banked then d
  else
    let d := d.latch R.PWR_INT_STATUS F.PWR_INT_STATUS_ALERT
    match answer with
    | none => d
    | some a => d.out (.pmbus 1 (a % 128) 0 3 0)

/-! ### Registers (R457, R459) -/

/-- A supply of whose hearths a site is in a run. -/
def Dev.supLocked (d : Dev) (n : Nat) : Bool := (bitList (d.supHearths n) 16).any d.hearthBusy

/-- Value rules of the supply registers. -/
def Dev.supRule (d : Dev) (off : Nat) (w : Word) : Option Nat :=
  if off = R.PWR_SUP_CTRL then
    let up := getBits w F.PWR_SUP_CTRL_UP == 1
    failWhen (d.power.seq.isSome || (up && !d.faults.douses.isEmpty)) vkValue
  else if R.PWR_SUP_CFG 0 ≤ off ∧ off ≤ R.PWR_SUP_CFG 31 then
    if d.power.seq.isSome then some vkValue else failWhen (d.supLocked ((off - R.PWR_SUP_CFG 0) / 4)) vkRunLock
  else if R.PWR_SEQ_UP 0 ≤ off ∧ off ≤ R.PWR_SEQ_DOWN 15 then
    if d.power.seq.isSome then some vkValue
    else
      let sup := fun (w : Word) => (parseSupStep w).supply
      failWhen (d.supLocked (sup w) || d.supLocked (sup (d.reg off))) vkRunLock
  else if off = R.PWR_DOMAIN_CTRL then failWhen (getBits w F.PWR_DOMAIN_CTRL_CORE_ON == 0) vkValue
  else none

/-! ### Die temperatures (R464, R557–R559) -/

/-- TEMP_SAMPLE: the 1 ms sample of the 16 sensors, in 1/16 °C. -/
def Dev.tempSample (d : Dev) (temps : List Int) : Dev :=
  if d.banked then d
  else
    let d := (List.range 16).foldl (fun (d : Dev) i =>
      let t := nth temps i 0
      let d := d.setReg (R.PWR_TEMP i) (BitVec.ofNat 32 (2 ^ 31 + unsgn t 16))
      if sgn (d.getF R.PWR_TEMP_MAX F.PWR_TEMP_MAX_TEMP) 16 < t then
        (d.setF R.PWR_TEMP_MAX F.PWR_TEMP_MAX_TEMP (unsgn t 16)).setF R.PWR_TEMP_MAX F.PWR_TEMP_MAX_SENSOR i
      else d) d
    let l := (List.range 16).map (fun i => (i, nth temps i 0))
    let crit := l.find? (fun x => 1840 ≤ x.2)
    let hot := l.find? (fun x => x.2 < 0 || 1680 < x.2)
    let d := match crit with | some x => d.raise 5 x.1 | none => d
    let d := match hot with | some x => (d.smotherAll d.activeSites 6).raise 6 x.1 | none => d
    d.calDrifts

end Sys2Proof.Machine
end

