-- ==== Sys2Proof/Machine/Flash.lean ====
section
/-! DEFINITION. The boot flash, its directory and boot control record, and the stages with their verification (spec/21 R530–R537). -/

namespace Sys2Proof.Machine

/-! ### Bytes of the flash -/

/-- An erased byte of a NOR flash: programming clears bits, erasing sets them. -/
def flashErased : Byte := 0xFF

def flashByteOf : List Host.Cell → Nat → Byte
  | [], _ => flashErased
  | (k, b) :: t, a => if k = a then b else flashByteOf t a

/-- `n` bytes of flash. -/
def Dev.flashRead (d : Dev) (a n : Nat) : List Byte := (List.range n).map (fun i => flashByteOf d.board.flash (a + i))

/-- Cells of a byte string, without those that hold the erased value. -/
def flashCells : Nat → List Byte → List Host.Cell
  | _, [] => []
  | a, b :: bs => if b = flashErased then flashCells (a + 1) bs else (a, b) :: flashCells (a + 1) bs

/-- The bytes from an address on replaced. -/
def flashPut (m : List Host.Cell) (a : Nat) (bs : List Byte) : List Host.Cell :=
  m.filter (fun c => c.1 < a) ++ flashCells a bs ++ m.filter (fun c => a + bs.length ≤ c.1)

def Dev.setFlash (d : Dev) (m : List Host.Cell) : Dev := { d with board := { d.board with flash := m } }

/-- Size of a sector (R530). -/
def sectorBytes : Nat := 65536

/-- A program operation clears bits (R543). -/
def Dev.flashProgram (d : Dev) (a : Nat) (bs : List Byte) : Dev :=
  d.setFlash (flashPut d.board.flash a (List.zipWith (· &&& ·) (d.flashRead a bs.length) bs))

/-! ### Directory (R531) -/

def directoryMagic : List Byte := [0x44, 0x49, 0x52, 0x1A]

/-- The directory copy at an offset: SEQ and the 16 (OFFSET, LENGTH) pairs, when it is valid. -/
def Dev.directoryAt (d : Dev) (a : Nat) : Option (Nat × List (Nat × Nat)) :=
  let bs := d.flashRead a 268
  if slice bs 0 4 = directoryMagic ∧ fieldAt bs 264 4 = crc32c (slice bs 0 264) then
    some (fieldAt bs 4 4, (List.range 16).map (fun r => (fieldAt bs (8 + 16 * r) 8, fieldAt bs (16 + 16 * r) 8)))
  else none

/-- The directory in use: of the valid copies the one with the higher SEQ. -/
def Dev.directory (d : Dev) : Option (List (Nat × Nat)) :=
  match d.directoryAt 0, d.directoryAt 0x10000 with
  | some a, some b => some (if a.1 < b.1 then b.2 else a.2)
  | some a, none => some a.2
  | none, some b => some b.2
  | none, none => none

/-- OFFSET and LENGTH of a region; an empty one without a directory. -/
def Dev.region (d : Dev) (r : Nat) : Nat × Nat := nth (d.directory.getD []) r (0, 0)

/-- The region that holds a whole range. -/
def Dev.regionOf (d : Dev) (a n : Nat) : Option Nat :=
  (List.range 16).find? (fun r => let (o, l) := d.region r; o ≤ a && a + n ≤ o + l)

/-- The sector of an address is erased, which FLASH_ERASE[r] counts (R544). -/
def Dev.flashErase (d : Dev) (a r : Nat) : Dev :=
  (d.setFlash (flashPut d.board.flash (a / sectorBytes * sectorBytes) (List.replicate sectorBytes flashErased))).count (liFlashErase r)

/-! ### Boot control record (R536) -/

/-- PREFER and TRIES of the stages, the SEQ, and the copy they were read from. -/
structure BootRecord where
  copy : Nat
  seq : Nat
  prefer : List Nat
  tries : List Nat
  deriving DecidableEq, Repr

def bootMagic : List Byte := [0x42, 0x43, 0x52, 0x1A]

def bootAt (copy : Nat) : Nat := 0x20000 + 0x10000 * copy

def Dev.bootCopy (d : Dev) (copy : Nat) : Option BootRecord :=
  let bs := d.flashRead (bootAt copy) 64
  if slice bs 0 4 = bootMagic ∧ fieldAt bs 60 4 = crc32c (slice bs 0 60) then
    some ⟨copy, fieldAt bs 4 4, (List.range 5).map (fun s => fieldAt bs (8 + 4 * s) 1), (List.range 5).map (fun s => fieldAt bs (9 + 4 * s) 1)⟩
  else none

/-- The record in use; with no valid copy, every stage prefers slot A, confirmed (DEDUCED). -/
def Dev.bootRecord (d : Dev) : BootRecord :=
  match d.bootCopy 0, d.bootCopy 1 with
  | some a, some b => if a.seq < b.seq then b else a
  | some a, none => a
  | none, some b => b
  | none, none => ⟨1, 0, List.replicate 5 0, List.replicate 5 0xFF⟩

def BootRecord.bytes (b : BootRecord) : List Byte :=
  let body := bootMagic ++ bytesOf 4 b.seq ++ ((List.range 5).flatMap (fun s => bytesOf 1 (nth b.prefer s 0) ++ bytesOf 1 (nth b.tries s 0) ++ bytesOf 2 0))
  let body := slice body 0 60
  body ++ bytesOf 4 (crc32c body)

/-- An update of one stage writes the other copy with SEQ + 1; its sector is erased first. -/
def Dev.bootUpdate (d : Dev) (s prefer tries : Nat) : Dev :=
  let b := d.bootRecord
  let b' : BootRecord := ⟨1 - b.copy, (b.seq + 1) % 2 ^ 32, setNth b.prefer s prefer, setNth b.tries s tries⟩
  if b'.prefer = b.prefer ∧ b'.tries = b.tries then d
  else (d.flashErase (bootAt b'.copy) 0).flashProgram (bootAt b'.copy) b'.bytes

/-! ### Stages (R532–R535) -/

/-- Stage numbers. -/
def stSfw : Nat := 0
def stAgent : Nat := 1
def stCore : Nat := 2
def stBoard : Nat := 3
def stHost : Nat := 4

/-- The flash region of a stage's slot. -/
def slotRegion (stage slot : Nat) : Nat :=
  (match stage with | 0 => 3 | 1 => 5 | 2 => 7 | 3 => 1 | _ => 9) + slot

/-- The stage and slot of a region 1–10. -/
def regionSlot (r : Nat) : Nat × Nat :=
  ((match (r - 1) / 2 with | 0 => stBoard | 1 => stSfw | 2 => stAgent | 3 => stCore | _ => stHost), (r - 1) % 2)

/-- "ISV-4610 stage", "ISV-4610 attest". -/
def contextOf (tail : List Byte) : List Byte := [0x49, 0x53, 0x56, 0x2D, 0x34, 0x36, 0x31, 0x30, 0x20] ++ tail
def stageContext : List Byte := contextOf [0x73, 0x74, 0x61, 0x67, 0x65]
def attestContext : List Byte := contextOf [0x61, 0x74, 0x74, 0x65, 0x73, 0x74]

/-- SIGNER of a stage (R532), and the signer slot that verifies it (R533). -/
def stageSigner (stage : Nat) : Nat := if stage = stBoard ∨ stage = stHost then 1 else 0
def Otp.signerSlot (o : Otp) (stage : Nat) : Nat :=
  if stageSigner stage = 1 ∧ o.customer.toList.any (·.isSome) = true then 1 else 0

/-- The unrevoked digest of a key (R533). -/
def Otp.keyDigest (o : Otp) (signer index : Nat) : Option (List Byte) :=
  if tbit o.revoked (4 * signer + index) then none else (if signer = 0 then o.rhokemund else o.customer).toList.getD index none

/-- Rollback counter of a stage (R534). -/
def Otp.counter (o : Otp) (stage : Nat) : Nat := nth o.counters.toList stage 0

/-- The digest that a customer key slot holds. -/
def Otp.customerKey (o : Otp) (i : Nat) : Option (List Byte) := nth o.customer.toList i none

/-- What a qualifying slot gives: the run, its LOAD and ENTRY, and its body's place in flash. -/
structure SlotOk where
  run : StageRun
  load : Nat
  entry : Nat
  body : Nat
  len : Nat
  deriving DecidableEq, Repr

/-- A slot qualifies for its stage (R535). A body that would leave the region does not. -/
def Dev.slotOk (d : Dev) (stage slot : Nat) : Option SlotOk :=
  let (o, l) := d.region (slotRegion stage slot)
  let h := d.flashRead o 288
  let n := fieldAt h 16 8
  let key := fieldAt h 6 1
  let signer := d.board.otp.signerSlot stage
  let version := fieldAt h 8 2
  if l < 288 + n then none
  else if slice h 0 4 = [0x53, 0x54, 0x47, 0x1A] ∧ fieldAt h 4 1 = stage ∧ fieldAt h 5 1 = stageSigner stage ∧
      (zeroAt h 7 1 && zeroAt h 10 6 && zeroAt h 129 15 && zeroAt h 258 30) = true ∧ key < 4 ∧
      d.board.otp.keyDigest signer key = some (shake256 32 (slice h 72 57)) ∧
      edVerify (slice h 72 57) stageContext (slice h 0 144) (slice h 144 114) = true ∧
      slice h 40 32 = shake256 32 (d.flashRead (o + 288) n) ∧ d.board.otp.counter stage ≤ version then
    some ⟨⟨stage, slot, version, signer, key, shake256 32 (slice h 0 144)⟩, fieldAt h 24 8, fieldAt h 32 8, o + 288, n⟩
  else none

/-- The slot of a stage is selected and the boot control record follows (R537). -/
def Dev.selectStage (d : Dev) (stage : Nat) : Option SlotOk × Dev :=
  let b := d.bootRecord
  let prefer := nth b.prefer stage 0 % 2
  let tries := nth b.tries stage 0xFF
  let first := if tries = 0 then 1 - prefer else prefer
  let d := if tries ≠ 0 ∧ tries ≠ 0xFF then d.bootUpdate stage prefer (tries - 1) else d
  match d.slotOk stage first with
  | some x => (some x, if tries = 0 then d.bootUpdate stage first 0xFF else d)
  | none =>
    match d.slotOk stage (1 - first) with
    | some x => (some x, d.bootUpdate stage (1 - first) 0xFF)
    | none => (none, d)

/-- Where a stage runs from. -/
def Dev.runOf (d : Dev) (stage : Nat) : Option StageRun := d.board.running.find? (fun r => r.stage == stage)

/-- SEC_BOOTs and the OTP bits of SEC_STATUS follow the state (R548). -/
def Dev.secView (d : Dev) : Dev :=
  let b := d.bootRecord
  let d := (List.range 5).foldl (fun (d : Dev) s =>
    let d := d.setF (R.SEC_BOOT s) F.SEC_BOOT_COUNTER (d.board.otp.counter s)
    let tries := nth b.tries s 0xFF
    let d := d.setF (R.SEC_BOOT s) F.SEC_BOOT_TRIES (if tries = 0xFF then 7 else tries)
    match d.runOf s with
    | some r => (d.setF (R.SEC_BOOT s) F.SEC_BOOT_VERSION r.version).setF (R.SEC_BOOT s) F.SEC_BOOT_SLOT r.slot
    | none => d) d
  let d := d.setF R.SEC_STATUS F.SEC_STATUS_FIELD (bit d.board.otp.field)
  let d := d.setF R.SEC_STATUS F.SEC_STATUS_CUST_KEYS (maskOf ((List.range 4).filter (fun i => (d.board.otp.customerKey i).isSome)))
  d.setF R.SEC_STATUS F.SEC_STATUS_REVOKED d.board.otp.revoked

/-- A FIRMWARE entry (R521): the slot by its flash region, the old stage's measurement, the new VERSION. -/
def Dev.logFirmware (d : Dev) (origin : Nat) (r : StageRun) (old : List Byte) : Dev :=
  d.log origin 0x04 (slotRegion r.stage r.slot) old r.version

/-- A warm start re-verifies SFW and BOARD from the slots of SEC_BOOTs (R539). -/
def Dev.warmOk (d : Dev) : Bool :=
  [stSfw, stBoard].all (fun s => (d.slotOk s (d.getF (R.SEC_BOOT s) F.SEC_BOOT_SLOT)).isSome)

/-- A device reset begins with a douse of cause RESET and follows its relay step; in BANKED it falls due at once. Active douses go on and the
reset follows the relay steps of all of them; where one of them already covers all channels no second douse runs, and CAUSE gains RESET
(R60, R61; several active douses: log entry 70). -/
def Dev.resetDouse (d : Dev) : Dev :=
  if d.banked then
    let d := d.douse dcReset allChannels
    { d with board := { d.board with resetDue := true } }
  else
    let whole := d.faults.douses.any (fun x => x.scope == allChannels)
    let d : Dev := { d with faults := { d.faults with douses := d.faults.douses.map (fun (x : Douse) => { x with resetAfter := true }) } }
    if whole then d.joinCause dcReset else d.douse dcReset allChannels 0xFF true

/-- A supervisor warm start: a stage that fails sets SECURITY and starts a device reset (R539). -/
def Dev.warmStart (d : Dev) : Dev := if d.warmOk then d else (d.raise 21 0).resetDouse

end Sys2Proof.Machine
end

