-- ==== Sys2Proof/Machine/Digest.lean ====
section
/-! DEFINITION. The configuration digest (spec/21 R542) and the attestation report (R541). The bytes of the entries are spelled again
from the parsed form; bytes that their checks ignore (the slots of absent channels, the static PPMU fields without a pin, what an
invalid or absent part holds) stand as 0: log entry 51. -/

namespace Sys2Proof.Machine

/-- A timing-set image (R115). -/
def TimSet.spell (t : TimSet) : List Byte :=
  bytesOf 4 t.periodPs ++ bytesOf 1 t.set ++ bytesOf 1 t.flags ++ bytesOf 10 0 ++
  (List.range 64).flatMap (fun p => let e := t.pin p
    bytesOf 1 e.format ++ bytesOf 1 e.strobe ++ bytesOf 2 0 ++ (List.range 6).flatMap (fun i => bytesOf 4 (e.edge i)) ++ bytesOf 4 0)

/-- A level-set entry (R81). -/
def LevelEntry.spell (e : LevelEntry) : List Byte :=
  bytesOf 2 e.vih ++ bytesOf 2 e.vil ++ bytesOf 2 e.vtt ++ bytesOf 2 (bit e.relay + 2 * bit e.spare) ++
  (List.range 8).flatMap (fun k => bytesOf 2 (e.pin k).voh ++ bytesOf 2 (e.pin k).vol) ++
  (List.range 8).flatMap (fun k => bytesOf 1 (e.pin k).term) ++
  (match e.ppmu with
   | some p => bytesOf 1 p.pin ++ bytesOf 1 p.mode ++ bytesOf 1 p.range ++ bytesOf 1 0 ++ bytesOf 2 p.value ++ bytesOf 2 p.clampHi ++ bytesOf 2 p.clampLo
   | none => bytesOf 1 0xFF ++ bytesOf 9 0) ++ bytesOf 6 0

/-- A list of bytes padded to a multiple of `n`. -/
def padBytes (n : Nat) (fill : Byte) (bs : List Byte) : List Byte := bs ++ List.replicate (roundUp bs.length n - bs.length) fill

/-- A binding entry (R170). -/
def Binding.spell (b : Binding) (s : Nat) : List Byte :=
  bytesOf 2 s ++ bytesOf 2 b.image ++ bytesOf 2 b.chs.length ++ bytesOf 1 (bit b.gang + 2 * bit b.multi) ++ bytesOf 1 0 ++ bytesOf 2 b.hearths ++
  bytesOf 6 0 ++ padBytes 8 0xFF (b.chs.flatMap (bytesOf 2))

/-- A record-window definition (R229). -/
def CapWin.spell (w : CapWin) : List Byte :=
  bytesOf 1 w.kind ++ bytesOf 1 w.meas ++ bytesOf 2 w.pin ++ bytesOf 6 w.start ++ bytesOf 6 w.stop

/-- A capture plan entry (R228). -/
def CapPlan.spell (p : CapPlan) (s : Nat) : List Byte :=
  bytesOf 2 s ++ bytesOf 2 (1 + 2 * p.overload + 8 * bit p.fine) ++ bytesOf 2 p.w ++ bytesOf 1 p.wins.length ++ bytesOf 1 p.relax ++ bytesOf 4 p.drain ++
  bytesOf 4 0 ++ bytesOf 8 p.bufBase ++ bytesOf 8 p.bufBytes ++ bytesOf 8 p.resBase ++ bytesOf 4 p.resEntries ++ bytesOf 20 0 ++
  p.wins.flatMap (·.spell) ++
  padBytes 16 0 ((List.range (ceilDiv p.w 4)).flatMap (fun i => bytesOf 1 ((List.range 4).foldl (fun a k => a + nth p.modes (4 * i + k) 0 * 4 ^ k) 0)))

/-- A DDS list-set entry (R288). -/
def DdsList.spell (l : DdsList) (key : Nat) : List Byte :=
  bytesOf 2 (key / 65536) ++ bytesOf 2 (key % 65536) ++ bytesOf 1 (1 + 2 * l.stepSrc) ++ bytesOf 1 (l.ftw.length - 1) ++ bytesOf 1 l.freqLoop ++
  bytesOf 1 l.amp.length ++ bytesOf 1 l.ampLoop ++ bytesOf 1 0 ++ bytesOf 2 l.alignEvery ++ bytesOf 4 0 ++
  (List.range l.ftw.length).flatMap (fun i => bytesOf 8 (nth l.ftw i 0) ++ bytesOf 8 (nth l.phase i 0)) ++ padBytes 16 0 (l.amp.flatMap (bytesOf 2))

/-- A calibration table's header (R481). -/
def CalTab.header (t : CalTab) (id : Nat) : List Byte :=
  let body : List Byte := [0x43, 0x41, 0x4C, 0x1A] ++ bytesOf 1 id ++ bytesOf 1 1 ++ bytesOf 2 0 ++ bytesOf 4 (calBody id) ++ bytesOf 4 t.count ++ bytesOf 6 t.secs ++
    bytesOf 2 t.temp ++ bytesOf 2 t.dueDays ++ bytesOf 2 t.drift ++ shake256 32 t.body
  body ++ bytesOf 4 (crc32c body)

/-- The configuration digest (R542). -/
def Dev.configDigest (d : Dev) : List Byte :=
  let live := d.seq.live
  let words (l : List Nat) := l.flatMap (fun off => bytesOf 4 (d.reg off).toNat)
  shake256 32 (
    (List.range 16).flatMap (fun h => (d.timing h).flatMap (fun x => x.2.spell) ++
      (List.range 8).flatMap (fun g => (d.liveLevel (8 * h + g)).spell)) ++
    live.binds.flatMap (fun b => b.2.spell b.1 ++
      (match mapFind live.plans b.1 with | some p => p.spell b.1 | none => []) ++
      (live.dds.filter (fun x => x.1 / 65536 == b.1)).flatMap (fun x => x.2.spell x.1)) ++
    (d.seq.images.filter (fun i => live.binds.any (fun b => b.2.image == i.1))).flatMap (fun i => d.read (i.2.base + 216) 32) ++
    words ((List.range 32).map R.AUD_PERM_REG) ++ words [R.AUD_PERM_DESC] ++ words ((List.range 8).map R.FLT_CFG) ++
    (List.range calTables).flatMap (fun k => (d.calLive k).header k))

/-- The attestation report (R541). -/
def Dev.attestation (d : Dev) : List Byte :=
  let stages := List.range 5
  let runs := stages.map d.runOf
  let magic : List Byte := [0x41, 0x54, 0x54, 0x1A]
  let body := magic ++ bytesOf 1 1 ++ bytesOf 3 0 ++ bytesOf 8 d.serial ++ bytesOf 4 d.devEpoch ++
    bytesOf 1 d.board.otp.grade.code ++ bytesOf 1 d.role ++ bytesOf 2 (d.reg R.GLB_STEPPING).toNat ++ bytesOf 6 d.time.secs ++ bytesOf 2 0 ++
    bytesOf 4 d.time.ns ++ bytesOf 4 0 ++ (List.range 8).flatMap (fun w => bytesOf 4 (d.reg (R.SEC_DATA w)).toNat) ++ slice d.board.otp.bootRom 0 32 ++
    runs.flatMap (fun (r : Option StageRun) => match r with | some r => slice r.measurement 0 32 | none => bytesOf 32 0) ++
    (List.zip stages runs).flatMap (fun (x : Nat × Option StageRun) =>
      bytesOf 1 (match x.2 with | some r => r.slot | none => 0) ++ bytesOf 1 (d.board.otp.counter x.1) ++
      bytesOf 2 (match x.2 with | some r => r.version | none => 0) ++ bytesOf 4 0) ++
    bytesOf 2 (d.reg R.SEC_STATUS).toNat ++ bytesOf 2 0 ++ bytesOf 4 0 ++ d.configDigest ++ d.ledgerSummary ++ bytesOf 8 0
  body ++ edSign d.idSeed attestContext body ++ bytesOf 14 0

end Sys2Proof.Machine
end

