-- ==== Sys2Proof/Machine/Kindling.lean ====
section
/-! DEFINITION. Reset and kindling (spec/21 R528, R529, R538, R545, R546, spec/20 R509, R514, R523, spec/19 R495, spec/18 R477), and the
loss of VDD_EMBER. What the board and the silicon give kindling is an operand (log entry 4). -/

namespace Sys2Proof.Machine

/-! ### State after a reset -/

def Profile.none_ : Profile := ⟨[], [], [], 0, [], 0, false, []⟩

def Flue.reset : Flue :=
  { ports := [], known := false, epoch := 0, everKnown := false, genCount := 0, assign := none, reads := [], nextTag := 1, skew := none
    stops := [], fails := [], joined := false, kids := [], joinDue := false, marked := none }

def SeqState.reset : SeqState :=
  { sites := [], groups := [], engines := [], images := [], imageDraws := 0, starts := [], nextStart := 1, shadow := ⟨[], [], [], [], []⟩
    live := ⟨[], [], [], [], []⟩, claims := [], commits := [], hearths := [], grates := [], chans := [], settles := []
    dds := [], reports := [], reportSeq := 0, meets := [], met := [] }

def Draught.reset : Draught := ⟨[], [], [], [], [], 0, 0, []⟩

def Power.reset : Power := ⟨none, none, false, none, false, 0, 0, []⟩

/-- The value of MGT_TIME_INC after reset: 4 ns (R503). -/
def incReset : Nat := 4 * 2 ^ 32

def TimeState.reset : TimeState :=
  { secs := 0, ns := 0, frac := 0, incPend := none, inc := incReset, adjPend := [], setPend := none, lastIncLogged := incReset, lastIncSecs := 0
    master := [0, 0, 0], syncs := [], tsFifo := [], rtcSecs := 0, rtcSub := 0, ckptIn := 86400, ckptSecs := 0, slots := []
    ledger := [], residue := [] }

def Otp.blank : Otp :=
  { grade := .g20, stepping := 0x0100, serial := 0, maker := 0, field := true, rhokemund := Vector.replicate 4 none
    customer := Vector.replicate 4 none, revoked := 0, counters := Vector.replicate 5 0, idSecret := [], bootRom := [] }

/-- A register of the ember domain or one that tells of its clock (R302, R509, R463). -/
def isEmber (off : Nat) : Bool := off / 65536 == 1 || off == R.CLK_EMBER_STATUS

/-- Registers loaded from OTP (R12, R47, R548). -/
def Dev.otpRegs (d : Dev) : Dev :=
  let o := d.board.otp
  let d := d.setReg R.GLB_STEPPING (BitVec.ofNat 32 (o.stepping % 65536))
  let d := d.setReg R.GLB_GRADE (BitVec.ofNat 32 (o.grade.minPeriod * 65536 + o.grade.code))
  let d := (d.setReg R.GLB_SERIAL_LO (BitVec.ofNat 32 o.serial)).setReg R.GLB_SERIAL_HI (BitVec.ofNat 32 (o.serial / 2 ^ 32))
  let key := edPublic d.idSeed
  (List.range 15).foldl (fun (d : Dev) w => d.setReg (R.SEC_IDKEY w) (BitVec.ofNat 32 (fieldAt key (4 * w) 4))) d

/-- The bits of each register that the board profile fills (R12 "Table", R528 step 4): first offset of the row, mask. What training, the straps
or other parts of the profile give (GLB_CAPACITY, ROLE, PRESENT, REMOTE) is not among them. -/
def tableMasks : List (Nat × Nat) :=
  [(R.GLB_ROLE, 0x37F70), (R.HRT_GRT_RELAY 0, 0xFFFF0000), (R.HRT_GRT_SPARE_RELAY 0, 0xFFFF0000), (R.HRT_SEQ_CFG, 0xFFFF00FF),
   (R.CLK_SYNC_CFG, 0xFFF), (R.CLK_PLL_LIMIT 0, 0x3F), (R.CLK_GRID_PHASE, 0xFF), (R.FLU_CFG, 0xFF000000), (R.FLU_PORT_CTRL 0, 0x80000000),
   (R.FLU_PORT_EQ 0, 0xFFFF7FFF), (R.DMC_CFG, 0x40FF0F1F), (R.DMC_REGION, 0xFFF), (R.DMC_REFRESH, 0x800FFFFF), (R.DMC_TRFC, 0xFFFFFFFF),
   (R.EMB_RAIL 0, 0xE0FFFFFF), (R.PWR_SUP_CFG 0, 0xFFFFFFBF), (R.PWR_SEQ_UP 0, 0xFFFFFFFF), (R.PWR_SEQ_DOWN 0, 0xFFFFFFFF),
   (R.FLT_CFG 0, 0xFFFFFFFF), (R.FLT_LLK_CFG, 0xF0000000), (R.FLT_LLK_SRC_LO 0, 0xFFFFFFFF), (R.FLT_LLK_SRC_HI 0, 0x8000FFFF),
   (R.CAL_CFG, 0xFFFFFFFF), (R.MGT_PORT_CTRL 0, 0xC0000000), (R.MGT_PORT_MAC_LO 0, 0xFFFFFFFF), (R.MGT_PORT_MAC_HI 0, 0xFFFFFFFF),
   (R.MGT_PTP_CFG, 0x800000FF), (R.AUD_PERM_REG 0, 0xFFF), (R.AUD_PERM_DESC, 0x3FFFFFFF)]

/-- The bits of a register that the board profile fills. -/
def tableMask (off : Nat) : Nat :=
  match regRow off with
  | some r => mapGet tableMasks r.base 0
  | none => 0

/-- A value of the board profile is loaded: the "Table" fields of its register and no other bit (R2, R12). A value of FLT_CFGk that R465 would
refuse is not loaded. -/
def Dev.loadTable (d : Dev) (x : Nat × Word) : Dev :=
  let m := tableMask x.1
  if m = 0 then d
  else match fltCfgOf x.1 with
  | some k => if d.faultCfgBad k (faultNorm x.1 x.2) then d else d.setReg x.1 (faultNorm x.1 x.2)
  | none => d.setReg x.1 (BitVec.ofNat 32 ((d.reg x.1).toNat &&& (0xFFFFFFFF ^^^ m) ||| (x.2.toNat &&& m)))

/-- What a reset leaves (R545). `lost`: VDD_EMBER was lost, so that only flash and OTP survive; else the ember domain survives too. The
record of what ran at the last kindling survives with the flash. DRAM keeps its content until step 6. -/
def Dev.resetState (d : Dev) (lost : Bool) : Dev :=
  let epoch := (d.devEpoch + 1) % 2 ^ 32
  let fault := d.faultWord
  let t := TimeState.reset
  let time := if lost then { t with slots := d.time.slots }
    else { t with rtcSecs := d.time.rtcSecs, rtcSub := d.time.rtcSub, ckptIn := d.time.ckptIn, ckptSecs := d.time.ckptSecs, slots := d.time.slots
                  ledger := d.time.ledger, residue := [] }
  let audit := { d.audit with buffer := [], folding := [], heads := [], lost := 0, lossFrom := none
                              tail := if lost then [] else d.audit.tail
                              lostTotal := if lost then 0 else d.audit.lostTotal
                              count := if lost then (match d.time.slots.reverse.find? (·.good) with | some s => s.count | none => 0) else d.audit.count }
  let d : Dev :=
    { d with
      regs := if lost then [] else d.regs.filter (fun r => isEmber r.1)
      board := { d.board with profile := Profile.none_, profileLoaded := false, stopped := false, factory := false, resetDue := false
                              recovery := if lost then none else d.board.recovery, faultEmber := false }
      faults := { units := [], held := [], douses := if lost then [] else d.faults.douses }
      power := Power.reset, time := time, audit := audit, seq := SeqState.reset, rings := ⟨[], [], []⟩, flue := Flue.reset
      tmu := Tmu.reset, clk := ⟨[], [], none, []⟩, drt := Draught.reset, mbx := ⟨[], []⟩, dram := ⟨[], false⟩
      cal := { d.cal with live := [], shadow := [], proc := none }, llk := [] }
  let d := d.setReg R.GLB_DEVICE_EPOCH (BitVec.ofNat 32 epoch)
  let prev := if lost then 0 else fault
  let d := (d.setReg R.FLT_PREV_LO (BitVec.ofNat 32 prev)).setReg R.FLT_PREV_HI (BitVec.ofNat 32 (prev / 2 ^ 32))
  let d := ((d.setF R.EMB_PSTATE F.EMB_PSTATE_STATE 5).setF R.EMB_PSTATE F.EMB_PSTATE_TARGET 2).setF R.EMB_PSTATE F.EMB_PSTATE_RESTORED 0
  let d := d.setF R.FLT_DOUSE_STATUS F.FLT_DOUSE_STATUS_DOUSE_N (bit d.board.douseLow)
  if lost then d.otpRegs else (d.otpRegs).timeFromRtc

/-! ### Stopping -/

/-- Kindling stops (R29, R538): SEC_KINDLE.STOP; FAULT_N stays low; the device answers only JTAG and Leloisk frames. It stops in SMOULDER
(R29; DEDUCED for the other causes). -/
def Dev.kindleStop (d : Dev) (code : Nat) (security : Bool) : Dev :=
  let d := (d.setF R.SEC_KINDLE F.SEC_KINDLE_STOP code).setF R.EMB_PSTATE F.EMB_PSTATE_STATE devSmoulder
  let d : Dev := { d with board := { d.board with stopped := true } }
  if security then d.raise 21 0 else d

def Dev.kindleStep (d : Dev) (n : Nat) : Dev := d.setF R.SEC_KINDLE F.SEC_KINDLE_STEP n

/-- A stage runs. -/
def Dev.runStage (d : Dev) (r : StageRun) : Dev :=
  { d with board := { d.board with running := d.board.running.filter (fun x => x.stage != r.stage) ++ [r] } }

/-- The FIRMWARE entry of a stage that runs from another slot or VERSION than at the last kindling (R537). -/
def Dev.noteStage (d : Dev) (old : List StageRun) (stage : Nat) : Dev :=
  match d.runOf stage with
  | none => d
  | some r =>
    match old.find? (fun x => x.stage == stage) with
    | some o => if o.slot = r.slot ∧ o.version = r.version then d else d.logFirmware 0 r o.measurement
    | none => d.logFirmware 0 r []

/-! ### The steps of R528 -/

/-- Step 1: the ember domain starts on its backup oscillator; FAULT_N is low until it has (R62, R528). DOUSE_N already low is recognised from
the moment VDD_EMBER is within limits (R59). -/
def Dev.kindle1 (d : Dev) (lost : Bool) : Dev :=
  if !lost then d
  else
    let d : Dev := ({ d with board := { d.board with faultEmber := true } } : Dev).kindleStep 1
    let d := d.setF R.EMB_RTC_STATUS F.EMB_RTC_STATUS_DEGRADED 1
    let d := if d.board.douseLow then d.douse dcPin allChannels else d
    { d with board := { d.board with faultEmber := false } }

/-- Step 2: the rails of the valid EMB_RAIL entries, ascending (R456). -/
def Dev.railsOn (d : Dev) (levels : List Nat) : Dev :=
  ((List.range 8).filter (fun r => d.flag (R.EMB_RAIL r) F.EMB_RAIL_VALID && levels.contains (d.getF (R.EMB_RAIL r) F.EMB_RAIL_LEVEL))).foldl
    (fun (d : Dev) r => d.out (.pmbus 0 (d.getF (R.EMB_RAIL r) F.EMB_RAIL_ADDR) (d.getF (R.EMB_RAIL r) F.EMB_RAIL_PAGE) 1 0x80)) d

/-- Rails off, descending. -/
def Dev.railsOff (d : Dev) (levels : List Nat) : Dev :=
  (((List.range 8).filter (fun r => d.flag (R.EMB_RAIL r) F.EMB_RAIL_VALID && levels.contains (d.getF (R.EMB_RAIL r) F.EMB_RAIL_LEVEL))).reverse).foldl
    (fun (d : Dev) r => d.out (.pmbus 0 (d.getF (R.EMB_RAIL r) F.EMB_RAIL_ADDR) (d.getF (R.EMB_RAIL r) F.EMB_RAIL_PAGE) 1 0x00)) d

/-- Step 3: straps; directory; board profile and supervisor firmware (R29, R538). -/
def Dev.kindle3 (d : Dev) (e : KindleEnv) : Dev :=
  let d := (d.kindleStep 3).setF R.GLB_STRAP F.GLB_STRAP_ROLE e.strap
  let d := d.setF R.GLB_ROLE F.GLB_ROLE_ROLE e.strap
  if e.strap % 4 = 3 then (d.setF R.GLB_ROLE F.GLB_ROLE_STRAP_BAD 1).kindleStop 1 false
  else
    match d.directory with
    | none => d.kindleStop 7 true
    | some _ =>
      match d.selectStage stBoard with
      | (none, d) => d.kindleStop 2 true
      | (some b, d) =>
        match d.selectStage stSfw with
        | (none, d) => (d.runStage b.run).kindleStop 3 true
        | (some f, d) => ((d.runStage b.run).runStage f.run).secView

/-- Registers that the recovery copy holds (R477). -/
def recoveryRegs : List Nat :=
  [R.FLT_LLK_CFG] ++ (List.range 4).flatMap (fun i => [R.FLT_LLK_SRC_LO i, R.FLT_LLK_SRC_HI i]) ++
  (List.range 2).flatMap (fun p => [R.MGT_PORT_CTRL p, R.MGT_PORT_MAC_LO p, R.MGT_PORT_MAC_HI p])

/-- A PLL is enabled and locks, if REFCLK is there and a band fits (R306, R307). -/
def Dev.kindlePll (d : Dev) (p : Nat) : Dev :=
  (((d.setF (R.CLK_PLL_CTRL p) F.CLK_PLL_CTRL_ENABLE 1).acquire p).inLockWindow p).lockNow p

/-- VOUT_MODE is read from every regulator of a DUT supply (R461). -/
def Dev.readVoutModes (d : Dev) : Dev :=
  ((List.range 32).filter (fun n => d.flag (R.PWR_SUP_CFG n) F.PWR_SUP_CFG_USE_PMBUS)).foldl (fun (d : Dev) n =>
    d.out (.pmbus 1 (d.getF (R.PWR_SUP_CFG n) F.PWR_SUP_CFG_ADDR) (d.getF (R.PWR_SUP_CFG n) F.PWR_SUP_CFG_PAGE) 0x20 0)) d

/-- Step 4: the profile's values, the recovery copy, the band tables, which are all zero without REFCLK
(R305), VOUT_MODE of the DUT supplies (R461), the PLLs. The device's number and port are 0 on a standalone or manager
device (R47). -/
def Dev.kindle4 (d : Dev) (e : KindleEnv) : Dev :=
  let d := d.kindleStep 4
  let d : Dev := e.profile.regs.foldl (fun (d : Dev) (x : Nat × Word) => d.loadTable x)
    { d with board := { d.board with profile := e.profile, profileLoaded := true } }
  let d := (d.setF R.GLB_ROLE F.GLB_ROLE_ROLE e.strap).setF R.GLB_ROLE F.GLB_ROLE_STRAP_BAD 0
  let d := if e.strap % 4 = 2 then d
    else ((d.setF R.GLB_ROLE F.GLB_ROLE_UPSTREAM_PORT 0).setF R.GLB_ROLE F.GLB_ROLE_DEVICE_NUM 0).setF R.GLB_ROLE F.GLB_ROLE_TREE_LEVEL 0
  let copy : LlkCopy := ⟨recoveryRegs.map (fun off => (off, d.reg off))⟩
  let bands := if d.board.refPresent then e.bands else []
  let d : Dev := { d with board := { d.board with recovery := some copy }, clk := { d.clk with bands := bands }
                          power := { d.power with voutExp := e.voutExp } }
  let d := d.readVoutModes
  (List.range 6).foldl (fun (d : Dev) p => d.kindlePll p) d

/-- Step 5: the DRAM configuration is checked and every channel trained; the capacity is eight times a channel's (R419), the allowance N (R431). -/
def Dev.kindle5 (d : Dev) (e : KindleEnv) : Dev :=
  let d := d.kindleStep 5
  let fails := if (configGib d.dramConfig).isNone then 0xFF else e.dramFail % 256
  let d := (List.range 8).foldl (fun (d : Dev) c =>
    if tbit fails c then d.setF (R.DMC_CH_STATUS c) F.DMC_CH_STATUS_TRAIN_FAIL 1
    else ((d.setF (R.DMC_CH_STATUS c) F.DMC_CH_STATUS_TRAINED 1).setF (R.DMC_CH_STATUS c) F.DMC_CH_STATUS_ALLOW d.postponeMax).setDramState c dsActive) d
  if fails ≠ 0 then d.kindleStop 4 false
  else d.setF R.GLB_CAPACITY F.GLB_CAPACITY_DRAM_GIB (8 * (configGib d.dramConfig).getD 0)

/-- Step 6: DRAM is filled with zeros. -/
def Dev.kindle6 (d : Dev) (_ : KindleEnv) : Dev :=
  ({ d.kindleStep 6 with mem := [], poison := [] }).setF R.DMC_CFG F.DMC_CFG_INIT_DONE 1

/-- Step 7: the ledger after a loss of VDD_EMBER, the checkpoint, the audit log's LOSS entry, the ROLE entry and those of the stages that run
(R514, R509, R40, R513, R523, R521). -/
def Dev.kindle7 (d : Dev) (lost : Bool) (old : List StageRun) (e : KindleEnv) : Dev :=
  let d := d.kindleStep 7
  let d := if lost then
      let d := ((d.ledgerRestore).setF R.EMB_RTC_STATUS F.EMB_RTC_STATUS_INVALID 1).setF R.EMB_RTC_STATUS F.EMB_RTC_STATUS_DEGRADED 1
      let d := d.timeFromRtc
      d.setF R.MGT_TIME_STATUS F.MGT_TIME_STATUS_UNSET 1
    else d
  let d := (d.auditKindle).auditTail
  let d := d.log 0 0x06 0 [] (d.reg R.GLB_ROLE).toNat
  let d := ((d.noteStage old stSfw).noteStage old stBoard).ledgerLimits
  d.checkpoint e.ckptFails

/-- Step 8: the declared Flue ports train (R336); the ports of a standalone device stay unused (R28). -/
def Dev.kindle8 (d : Dev) (_ : KindleEnv) : Dev :=
  (d.kindleStep 8).flueUp

/-- A stage is selected, verified and loaded into the host region. -/
def Dev.loadStage (d : Dev) (old : List StageRun) (stage : Nat) : Bool × Dev :=
  match d.selectStage stage with
  | (none, d) => (false, { d with board := { d.board with running := d.board.running.filter (fun x => x.stage != stage) } })
  | (some x, d) =>
    let d := if d.inHost x.load x.len then d.write x.load (d.flashRead x.body x.len) else d
    (true, (d.runStage x.run).noteStage old stage)

/-- Step 9: AGENT, CORE and HOST (R538). -/
def Dev.kindle9 (d : Dev) (old : List StageRun) (_ : KindleEnv) : Dev :=
  let (ok, d) := (d.kindleStep 9).loadStage old stAgent
  let d := if ok then d else d.latch R.SEC_KINDLE F.SEC_KINDLE_AGENT_ABSENT
  let (ok, d) := d.loadStage old stCore
  if !ok then d.kindleStop 5 true
  else
    let (ok, d) := d.loadStage old stHost
    if !ok then d.kindleStop 6 true else d.secView

/-- The flash slot from which a table is loaded, with its content (R495). -/
def Dev.calPick (d : Dev) (k : Nat) : Option (Nat × CalTab) :=
  match mapFind d.cal.stored (2 * k), mapFind d.cal.stored (2 * k + 1) with
  | some (true, a), some (true, b) => if a.count < b.count then some (1, b) else some (0, a)
  | some (true, a), _ => some (0, a)
  | _, some (true, b) => some (1, b)
  | _, _ => none

/-- A table is loaded at kindling, or takes default values (R495). -/
def Dev.calKindle (d : Dev) (k : Nat) : Dev :=
  match d.calPick k with
  | some (slot, t) =>
    let d : Dev := { d with cal := { d.cal with live := mapSet d.cal.live k t, shadow := mapSet d.cal.shadow k t } }
    let d := (d.setF (R.CAL_TAB_STATUS k) F.CAL_TAB_STATUS_LIVE_SLOT slot).calCalendar k
    if k = 17 then (d.setF R.CLK_SYNC_CFG F.CLK_SYNC_CFG_DELAY_TICKS (fieldAt t.body 0 2)).setF R.CLK_GRID_PHASE F.CLK_GRID_PHASE_TARGET (fieldAt t.body 2 1) else d
  | none =>
    let d := ((d.setF (R.CAL_TAB_STATUS k) F.CAL_TAB_STATUS_LIVE_SLOT 2).latch (R.CAL_TAB_STATUS k) F.CAL_TAB_STATUS_DEFAULT)
    (d.latch R.CAL_INT_STATUS F.CAL_INT_STATUS_CHECK).raise 19 k

/-- The code-density test of channel `n` at kindling (R279): its bins go into the shadow TMU table, or the test fails. -/
def Dev.densityKindle (d : Dev) (n : Nat) (counts : List Nat) (temp : Nat) : Dev :=
  if (List.range 128).any (fun i => nth counts i 0 < 2048 || nth counts i 0 > 16384) then d.setBit R.TMU_CAL_FAIL n true
  else
    let t := d.calShadow 16
    d.calWriteShadow 16 { t with body := splice t.body (288 * n) ((binWidths counts).flatMap (bytesOf 2)), secs := d.time.secs, temp := temp }

/-- Step 10: calibration tables and the code-density test of all 32 TMU channels, which is committed (R279, R495). -/
def Dev.kindle10 (d : Dev) (e : KindleEnv) : Dev :=
  let d := (List.range calTables).foldl (fun (d : Dev) k => d.calKindle k) (d.kindleStep 10)
  let d := (List.range 32).foldl (fun (d : Dev) n => d.densityKindle n (nth e.counts n []) e.temp) d
  d.calApply ⟨0, 0, false, [16], [], false, 0⟩ 16 false

/-- Kindling ends: READY, GLOW. -/
def Dev.kindleEnd (d : Dev) : Dev :=
  let d := ((d.latch R.SEC_KINDLE F.SEC_KINDLE_READY).setF R.EMB_PSTATE F.EMB_PSTATE_STATE devGlow).log 0 0x07 0 [] (devAscending + 256 * devGlow)
  d.policyKick

/-- A reset, and kindling up to its step 2 (R528). -/
def Dev.kindle12 (d : Dev) (lost : Bool) : Dev := (((d.resetState lost).kindle1 lost).kindleStep 2).railsOn [1, 2, 3]

/-- Reset and kindling (R528, R545); each step runs unless kindling has stopped. -/
def Dev.kindle (d : Dev) (e : KindleEnv) (lost : Bool) : Dev :=
  let old := d.board.running
  let go (f : Dev → Dev) (d : Dev) : Dev := if d.board.stopped then d else f d
  let d := d.kindle12 lost
  let d := go (fun d => d.kindle3 e) d
  let d := go (fun d => d.kindle4 e) d
  let d := go (fun d => d.kindle5 e) d
  let d := go (fun d => d.kindle6 e) d
  let d := go (fun d => d.kindle7 lost old e) d
  let d := go (fun d => d.kindle8 e) d
  let d := go (fun d => d.kindle9 old e) d
  let d := go (fun d => d.kindle10 e) d
  go Dev.kindleEnd d

/-- What was programmed before a power-on: OTP, once and by the factory, so that neither the grade nor anything else fused changes after it (R2),
with a serial the chain value before audit entry 0 (R522); and the board's flash. -/
def Dev.factoryFill (d : Dev) (e : KindleEnv) : Dev :=
  let d := match (if d.board.fused then none else e.otp) with
    | some o => ({ d with board := { d.board with otp := o, fused := true }
                          audit := { d.audit with chain := auditGenesis o.serial, flashChain := auditGenesis o.serial } } : Dev).otpRegs
    | none => d
  match e.flash with
  | some f => { d with board := { d.board with flash := f } }
  | none => d

/-- POWER_ON: VDD_EMBER comes within limits, kindling from step 1. -/
def Dev.powerOn (d : Dev) (e : KindleEnv) : Dev := (d.factoryFill e).kindle e true

/-- DEVICE_RESET_AFTER_DOUSE: a device reset that has fallen due, kindling from step 2. -/
def Dev.deviceReset (d : Dev) (e : KindleEnv) : Dev := if d.board.resetDue then d.kindle e false else d

/-- VDD_EMBER_LOSS: every state but flash and OTP is gone (R545, R552); the outputs fall to the pin safe state. The device answers nothing until
POWER_ON. What the flash records of the device epoch stands in GLB_DEVICE_EPOCH. -/
def Dev.emberLoss (d : Dev) : Dev :=
  let epoch := d.devEpoch
  let d := (({ d with mem := [], poison := [], jtag := ⟨0x01, 0, 0, 32⟩ } : Dev).resetState true).setReg R.GLB_DEVICE_EPOCH (BitVec.ofNat 32 epoch)
  d.setF R.EMB_PSTATE F.EMB_PSTATE_STATE devBanked

end Sys2Proof.Machine
end

