-- ==== Sys2Proof/Machine/State.lean ====
section
/-! DEFINITION. The state: everything the device holds, and the queue of commands that wait; the reasons a step can stop; the state after
reset (spec/21 R545, log entry 4). -/

namespace Sys2Proof.Machine

/-- The device and the commands that wait, first in, first out. -/
structure State where
  pending : List Instr
  dev : Dev
  deriving DecidableEq, Repr

/-- No command of this device faults: what goes wrong in it is recorded in its state. -/
inductive Fault where
  /-- Raised by no command; the type needs no other reason. Safe. -/
  | none_
  deriving DecidableEq, Repr

/-- Reasons to refuse a command. -/
inductive Refusal where
  /-- The command of this mnemonic has no meaning yet. Raised by no arm now. Safe. -/
  | notModelled (mnemonic : String)
  deriving DecidableEq, Repr

/-- The device before kindling: registers at their reset values, OTP and flash as a part that no factory has programmed, everything else
empty (log entries 3 and 4); the ember domain has not started (R57, R62). -/
def Dev.blank : Dev :=
  { regs := [], mem := [], poison := []
    board := { douseLow := false, resetLow := false, faultEmber := true, refPresent := false, otp := Otp.blank, fused := false, profile := Profile.none_
               recovery := none, profileLoaded := false, flash := [], stopped := false, running := [], factory := false, resetDue := false }
    faults := ⟨[], [], []⟩, power := Power.reset, time := TimeState.reset
    audit := { count := 0, chain := auditGenesis 0, buffer := [], flash := [], flashChain := auditGenesis 0, ckpts := [], heads := [], lost := 0
               lostTotal := 0, lossFrom := none, tail := [], folding := [] }
    seq := SeqState.reset, rings := ⟨[], [], []⟩, flue := Flue.reset, tmu := Tmu.reset, clk := ⟨[], [], none, []⟩, drt := Draught.reset
    mbx := ⟨[], []⟩, dram := ⟨[], false⟩, cal := ⟨[], [], [], none⟩, llk := [], jtag := ⟨0x01, 0, 0, 32⟩, outbox := [], fresh := 0 }

/-- The state right after reset: no command waits, registers hold their reset values (R12), the registers of OTP what OTP holds. -/
def State.reset : State := ⟨[], Dev.blank.otpRegs⟩

end Sys2Proof.Machine
end

