-- ==== Sys2Proof/Machine/Act.lean ====
section
/-! DEFINITION. How a meaning answers: the device moves, the queue stays. -/

namespace Sys2Proof.Machine

/-- The state with another device, whose memory stands in its canonical form. -/
def State.put (s : State) (d : Dev) : State := { s with dev := d.canon }

/-- The command moves the device by `f` and always answers a next state. -/
def State.act (s : State) (f : Dev → Dev) : Host.Outcome State Fault Refusal := .next (s.put (f s.dev))

end Sys2Proof.Machine
end

