-- ==== Sys2Proof/Machine/Mailbox.lean ====
section
/-! DEFINITION. Mailboxes and locks (spec/15 R406–R418). -/

namespace Sys2Proof.Machine

/-- An empty mailbox, no wait (R410). -/
def Mbx.reset : Mbx := ⟨[], [], ⟨0, 0, 0⟩, ⟨0, 0, 0⟩⟩

def Dev.mbxBox (d : Dev) (n : Nat) : Mbx := mapGet d.mbx.boxes n Mbx.reset
def Dev.modMbx (d : Dev) (n : Nat) (f : Mbx → Mbx) : Dev := { d with mbx := { d.mbx with boxes := mapSet d.mbx.boxes n (f (d.mbxBox n)) } }

/-- Wait results (R418). -/
def wrNone : Nat := 0
def wrPending : Nat := 1
def wrDone : Nat := 2
def wrTimeout : Nat := 3
def wrCrossed : Nat := 4
def wrAborted : Nat := 5

/-- Wait modes (R412). -/
def wmReceipt : Nat := 1
def wmMessage : Nat := 2

def Side.other : Side → Side
  | .a => .b
  | .b => .a

def Mbx.outQ (m : Mbx) : Side → List MbxMsg
  | .a => m.ab | .b => m.ba
def Mbx.inQ (m : Mbx) (s : Side) : List MbxMsg := m.outQ s.other
def Mbx.setOut (m : Mbx) (s : Side) (q : List MbxMsg) : Mbx :=
  match s with
  | .a => { m with ab := q } | .b => { m with ba := q }
def Mbx.wait (m : Mbx) : Side → MbxWait
  | .a => m.waitA | .b => m.waitB
def Mbx.setWait (m : Mbx) (s : Side) (w : MbxWait) : Mbx :=
  match s with
  | .a => { m with waitA := w } | .b => { m with waitB := w }

/-- Identities listed in R13 that may be an endpoint (R407). -/
def idListed (i : Nat) : Bool :=
  isKernel i || (0x11 ≤ i && i ≤ 0x18) || i == 0x20 || i == 0x30 || (0x40 ≤ i && i ≤ 0x43) || i == 0x7F

def Dev.mbxOn (d : Dev) (n : Nat) : Bool := d.flag (R.MBX_CFG n) F.MBX_CFG_ENABLE
def Dev.mbxId (d : Dev) (n : Nat) : Side → Nat
  | .a => d.getF (R.MBX_CFG n) F.MBX_CFG_A
  | .b => d.getF (R.MBX_CFG n) F.MBX_CFG_B

/-- The side of an identity on an enabled mailbox (R407). -/
def Dev.mbxSide (d : Dev) (n id : Nat) : Option Side :=
  if !(d.mbxOn n) then none
  else if d.mbxId n .a = id then some .a
  else if d.mbxId n .b = id then some .b
  else none

/-- The epoch of an endpoint (R410). -/
def Dev.epochOf (d : Dev) (id : Nat) : Nat :=
  let core := fun c => if c < 4 then d.getF R.MBX_EPOCH_CORE_LO ⟨8 * c, 8⟩ else d.getF R.MBX_EPOCH_CORE_HI ⟨8 * (c - 4), 8⟩
  if isKernel id then core (id - 1)
  else if 0x11 ≤ id ∧ id ≤ 0x18 then core (id - 0x11)
  else if id = 0x20 then d.getF R.MBX_EPOCH_OTHER F.MBX_EPOCH_OTHER_SUPERVISOR
  else if id = 0x30 then d.getF R.MBX_EPOCH_OTHER F.MBX_EPOCH_OTHER_AGENT
  else if 0x40 ≤ id ∧ id ≤ 0x43 then d.getF R.MBX_EPOCH_FLUE ⟨8 * (id - 0x40), 8⟩
  else 0

/-- Set an endpoint's EVENT bit (R415). -/
def Dev.mbxEvent (d : Dev) (n : Nat) (s : Side) : Dev := d.setBit (R.MBX_STATUS n) (if s = .a then 0 else 1) true

/-- A pending wait ends with a result; every result but ABORTED sets EVENT (R415). -/
def Dev.mbxEndWait (d : Dev) (n : Nat) (s : Side) (result : Nat) : Dev :=
  let d := d.modMbx n (fun m => m.setWait s { m.wait s with result := result })
  if result = wrAborted then d else d.mbxEvent n s

/-- Whether a side's pending wait has what it waits for (R412). -/
def Mbx.waitMet (m : Mbx) (s : Side) : Bool :=
  let w := m.wait s
  w.result == wrPending && ((w.mode == wmReceipt && (m.outQ s).isEmpty) || (w.mode == wmMessage && !(m.inQ s).isEmpty))

/-- Waits that are met end DONE; then a crossing ends both CROSSED (R413, R414). -/
def Dev.mbxWaits (d : Dev) (n : Nat) : Dev :=
  let d := if (d.mbxBox n).waitMet .a then d.mbxEndWait n .a wrDone else d
  let d := if (d.mbxBox n).waitMet .b then d.mbxEndWait n .b wrDone else d
  let m := d.mbxBox n
  let receipt := fun (s : Side) => (m.wait s).result == wrPending && (m.wait s).mode == wmReceipt
  if receipt .a && receipt .b && !m.ab.isEmpty && !m.ba.isEmpty then (d.mbxEndWait n .a wrCrossed).mbxEndWait n .b wrCrossed
  else d

/-- An arrival of the kind a timed-out wait waited for is counted late (R412). -/
def Dev.mbxLate (d : Dev) (n : Nat) (s : Side) (mode : Nat) : Dev :=
  d.modMbx n (fun m => if (m.wait s).result = wrTimeout ∧ (m.wait s).mode = mode then
    m.setWait s { m.wait s with late := capAt ((m.wait s).late + 1) 65535 } else m)

/-- A word enters the queue of side `s` (R406): stamped, EVENT of the receiver when its inbox was empty. -/
def Dev.mbxPost (d : Dev) (n : Nat) (s : Side) (word : Nat) : Dev :=
  let e : MbxMsg := ⟨word, d.mbxId n s, d.epochOf (d.mbxId n s), d.epochOf (d.mbxId n s.other)⟩
  let was := ((d.mbxBox n).outQ s).isEmpty
  let d := d.modMbx n (fun m => m.setOut s (m.outQ s ++ [e]))
  let d := if was then d.mbxEvent n s.other else d
  (d.mbxLate n s.other wmMessage).mbxWaits n

/-- OVERFLOW of side `s`'s outbound queue (R408). -/
def Dev.mbxOverflow (d : Dev) (n : Nat) (s : Side) : Dev := d.setBit (R.MBX_STATUS n) (if s = .a then 30 else 31) true

/-- Whether side `s` has its outbound queue full. -/
def Dev.mbxFull (d : Dev) (n : Nat) (s : Side) : Bool := ((d.mbxBox n).outQ s).length ≥ 8

/-- A read of MBX_n_RX_DATA by an endpoint: the oldest word leaves its inbox (R409). -/
def Dev.mbxTake (d : Dev) (n : Nat) (s : Side) : Word × Dev :=
  match (d.mbxBox n).inQ s with
  | [] => (0, d)
  | e :: t => (BitVec.ofNat 32 e.word, ((d.modMbx n (fun m => m.setOut s.other t)).mbxLate n s.other wmReceipt).mbxWaits n)

/-- MBX_n_RX_HEAD as an endpoint reads it (R409, R411). -/
def Dev.mbxHead (d : Dev) (n : Nat) (s : Side) : Word :=
  let q := (d.mbxBox n).inQ s
  match q with
  | [] => 0
  | e :: _ => BitVec.ofNat 32 (2 ^ 31 + 2 ^ 30 * bit (e.recvEpoch != d.epochOf (d.mbxId n s)) + 2 ^ 29 * bit (e.senderEpoch != d.epochOf e.sender) +
      2 ^ 16 * q.length + 2 ^ 8 * e.senderEpoch + e.sender)

/-- MBX_n_WAIT_STATUS as an endpoint reads it. -/
def Dev.mbxWaitStatus (d : Dev) (n : Nat) (s : Side) : Word :=
  let w := (d.mbxBox n).wait s
  BitVec.ofNat 32 (2 ^ 16 * w.late + 16 * w.mode + w.result)

/-- MBX_n_STATUS. -/
def Dev.mbxStatus (d : Dev) (n : Nat) : Word :=
  let m := d.mbxBox n
  let w := (d.reg (R.MBX_STATUS n)).toNat
  BitVec.ofNat 32 (w + 2 ^ 20 * m.waitB.result + 2 ^ 16 * m.waitA.result + 2 ^ 12 * m.ba.length + 2 ^ 8 * m.ab.length)

/-- A wait is armed (R412). -/
def Dev.mbxArm (d : Dev) (n : Nat) (s : Side) (mode : Nat) : Dev :=
  (d.modMbx n (fun m => m.setWait s { m.wait s with mode := mode, result := wrPending })).mbxWaits n

/-- MBX_WAIT_TIMEOUT: a pending wait reaches its limit (R412). -/
def Dev.mbxTimeout (d : Dev) (n : Nat) (s : Side) : Dev :=
  if ((d.mbxBox n).wait s).result = wrPending ∧ d.getF (R.MBX_WAIT n) ⟨if s = .a then 0 else 1, 1⟩ = 1 then d.mbxEndWait n s wrTimeout else d

/-- A write of MBX_n_CFG takes effect (R407; log entry 129): ENABLE 0 empties both queues and aborts pending waits. -/
def Dev.mbxCfg (d : Dev) (n : Nat) (w : Word) : Dev :=
  if getBits w F.MBX_CFG_ENABLE = 1 then d
  else
    let abort := fun (x : MbxWait) => if x.result = wrPending then { x with result := wrAborted } else x
    d.modMbx n (fun m => { ab := [], ba := [], waitA := abort m.waitA, waitB := abort m.waitB })

/-- A MESSAGE packet from port `p` (R408): discarded and counted, or posted; the port's epoch follows every accepted one (R410). -/
def Dev.mbxMessage (d : Dev) (p n data epoch : Nat) : Dev :=
  match d.mbxSide n (0x40 + p) with
  | none => d.bump R.MBX_FLUE_DROPS F.MBX_FLUE_DROPS_WRONG
  | some s =>
    if d.mbxFull n s then (d.bump R.MBX_FLUE_DROPS F.MBX_FLUE_DROPS_FULL).mbxOverflow n s
    else (d.setF R.MBX_EPOCH_FLUE ⟨8 * p, 8⟩ epoch).mbxPost n s data

/-! ### Endpoint resets (R410) -/

/-- Identities of an endpoint that resets. -/
def ResetEnd.ids : ResetEnd → List Nat
  | .core c => [1 + c, 0x11 + c]
  | .supervisor => [0x20]
  | .agent => [0x30]

/-- ENDPOINT_RESET: the epoch advances and the endpoint's pending waits end ABORTED (R410, R414). -/
def Dev.endpointReset (d : Dev) (e : ResetEnd) : Dev :=
  let bumpByte := fun (d : Dev) (off i : Nat) => d.setF off ⟨8 * i, 8⟩ ((d.getF off ⟨8 * i, 8⟩ + 1) % 256)
  let d := match e with
    | .core c => if c < 4 then bumpByte d R.MBX_EPOCH_CORE_LO c else bumpByte d R.MBX_EPOCH_CORE_HI (c - 4)
    | .supervisor => bumpByte d R.MBX_EPOCH_OTHER 0
    | .agent => bumpByte d R.MBX_EPOCH_OTHER 1
  (List.range 16).foldl (fun d n => [Side.a, Side.b].foldl (fun d s =>
    if d.mbxOn n && e.ids.contains (d.mbxId n s) && ((d.mbxBox n).wait s).result == wrPending then d.mbxEndWait n s wrAborted else d) d) d

/-! ### Locks (R416, R417) -/

/-- A read of MBX_LOCKk. -/
def Dev.lockRead (d : Dev) (k origin : Nat) : Word × Dev :=
  match mapFind d.mbx.locks k with
  | some (owner, epoch) => (BitVec.ofNat 32 (owner + 256 * epoch), d)
  | none => (0, { d with mbx := { d.mbx with locks := mapSet d.mbx.locks k (origin, d.epochOf origin) } })

/-- A write of MBX_LOCKk: a release by the owner, else nothing. -/
def Dev.lockWrite (d : Dev) (k origin : Nat) (w : Word) : Dev :=
  match mapFind d.mbx.locks k with
  | some (owner, _) => if owner = origin ∧ getBits w ⟨0, 8⟩ = owner then { d with mbx := { d.mbx with locks := mapErase d.mbx.locks k } } else d
  | none => d

/-- A write of MBX_LOCK_FREE: the held locks it names are freed and the release is noticed (R417, NOTICE 4 of R521). -/
def Dev.lockFree (d : Dev) (w : Word) : Dev :=
  let freed := (mapKeys d.mbx.locks).filter (fun k => tbit w.toNat k)
  if freed.isEmpty then d
  else ({ d with mbx := { d.mbx with locks := d.mbx.locks.filter (fun x => !(freed.contains x.1)) } }).notice 4 (maskOf freed) 0

/-! ### Registers (R407, R408, R412, R417, R418) -/

/-- Mailbox of an offset, its register within the mailbox. -/
def mbxOf (off : Nat) : Option (Nat × Nat) := if 0x50100 ≤ off ∧ off < 0x50500 then some ((off - 0x50100) / 64, (off - 0x50100) % 64) else none

/-- Registers of a mailbox that act for the endpoint that accesses them. -/
def mbxOwn (o : Nat) : Bool := o == 0x08 || o == 0x0C || o == 0x10 || o == 0x14 || o == 0x18

/-- Fixed-origin rule of a read (R407). -/
def Dev.mbxReadRule (d : Dev) (origin off : Nat) : Option Nat :=
  match mbxOf off with
  | some (n, o) => failWhen (mbxOwn o && (d.mbxSide n origin).isNone) vkFixed
  | none => none

/-- Rules of a write. -/
def Dev.mbxRule (d : Dev) (origin off : Nat) (w : Word) : Option Nat :=
  if off = R.MBX_LOCK_FREE then failWhen (origin != 0x20 && origin != 0x7F) vkFixed
  else match mbxOf off with
  | none => none
  | some (n, o) =>
    if o = 0 then
      let a := getBits w F.MBX_CFG_A
      let b := getBits w F.MBX_CFG_B
      failWhen (getBits w F.MBX_CFG_ENABLE == 1 && (d.mbxOn n || a == b || !(idListed a) || !(idListed b))) vkValue
    else if !(mbxOwn o) then none
    else match d.mbxSide n origin with
      | none => some vkFixed
      | some s =>
        if o = 0x08 then
          if 0x40 ≤ origin ∧ origin ≤ 0x43 then some vkFixed else failWhen (d.mbxFull n s) vkValue
        else if o = 0x14 then
          let m := getBits w F.MBX_WAIT_MODE
          failWhen (m == 0 || m == 3 || ((d.mbxBox n).wait s).result == wrPending) vkValue
        else none

/-- A refused post to a full queue sets OVERFLOW (R408). -/
def Dev.mbxRefused (d : Dev) (origin off : Nat) : Dev :=
  match mbxOf off with
  | some (n, 0x08) => match d.mbxSide n origin with
    | some s => if d.mbxFull n s ∧ ¬(0x40 ≤ origin ∧ origin ≤ 0x43) then d.mbxOverflow n s else d
    | none => d
  | _ => d

/-- Effects of an accepted write; `old` is the register before it. Of the W1C bits of MBX_n_STATUS, an EVENT bit clears only for its own
endpoint (R415). Bit 0 or 1 of the stored MBX_n_WAIT, which reads 0, says whether the wait of A or B has a limit. -/
def Dev.mbxEffect (d : Dev) (origin off : Nat) (old w : Word) : Dev :=
  if off = R.MBX_LOCK_FREE then d.lockFree w
  else if 0x50800 ≤ off ∧ off < 0x50880 then d.lockWrite ((off - 0x50800) / 4) origin w
  else match mbxOf off with
  | none => d
  | some (n, o) =>
    if o = 0 then d.mbxCfg n w
    else if o = 4 then
      let keep := fun (d : Dev) (s : Side) (b : Nat) => if d.mbxSide n origin = some s then d else d.setBit (R.MBX_STATUS n) b (getBits old ⟨b, 1⟩ == 1)
      keep (keep d .a 0) .b 1
    else match d.mbxSide n origin with
      | none => d
      | some s =>
        if o = 0x08 then d.mbxPost n s w.toNat
        else if o = 0x14 then
          let d := d.setReg (R.MBX_WAIT n) (setBits old ⟨if s = .a then 0 else 1, 1⟩ (bit (getBits w F.MBX_WAIT_TIMEOUT_US != 0)))
          d.mbxArm n s (getBits w F.MBX_WAIT_MODE)
        else if o = 0x18 then d.modMbx n (fun m => m.setWait s { m.wait s with late := getBits w F.MBX_WAIT_STATUS_LATE })
        else d

end Sys2Proof.Machine
end

