-- ==== Sys2Proof/Machine/Security.lean ====
section
/-! DEFINITION. Security operations and the supervisor watchdog (spec/21 R539–R545, R548). -/

namespace Sys2Proof.Machine

/-- Results of SEC_STATUS. -/
def srOk : Nat := 1
def srRefused : Nat := 2

def Dev.secEnd (d : Dev) (op result : Nat) : Dev := (d.setF R.SEC_STATUS F.SEC_STATUS_RESULT result).setF R.SEC_STATUS F.SEC_STATUS_LAST_OP op

/-- SEC_ADDR. -/
def Dev.secAddr (d : Dev) : Nat := (d.reg R.SEC_ADDR_LO).toNat / 64 * 64 + 2 ^ 32 * d.getF R.SEC_ADDR_HI F.SEC_ADDR_HI_ADDR

/-- SEC_FLASH_OFF. -/
def Dev.secOff (d : Dev) : Nat := (d.reg R.SEC_FLASH_OFF).toNat

/-- Bytes 0–31 of SEC_DATA. -/
def Dev.secData (d : Dev) : List Byte := (List.range 8).flatMap (fun w => bytesOf 4 (d.reg (R.SEC_DATA w)).toNat)

/-- Whether an identity may start an operation (R543). -/
def secAllowed (op origin : Nat) : Bool :=
  match op with
  | 1 => true
  | 4 | 5 => origin == 0x20 || origin == 0x7F
  | 6 => isTrusted origin
  | 9 => isKernel origin || origin == 0x20 || origin == idAgent
  | _ => isKernel origin || origin == 0x20

/-- Rules of the SEC registers (R543, R548). -/
def Dev.secRule (d : Dev) (origin off : Nat) (w : Word) : Option Nat :=
  if off = R.SEC_CTRL ∧ getBits w F.SEC_CTRL_GO = 1 then
    if d.flag R.SEC_STATUS F.SEC_STATUS_BUSY then some vkValue
    else failWhen (!(secAllowed (getBits w F.SEC_CTRL_OP) origin)) vkFixed
  else if off = R.SEC_WDOG then failWhen (origin != 0x20) vkFixed
  else none

/-- ATTEST (R541). -/
def Dev.attest (d : Dev) : Dev :=
  if d.inHost d.secAddr 544 then (d.write d.secAddr d.attestation).secEnd 1 srOk else d.secEnd 1 srRefused

/-- CONFIRM: the running slots of the masked stages, where they are the preferred ones, are confirmed (R536, R543). -/
def Dev.confirm (d : Dev) (mask : Nat) : Dev :=
  let d := (bitList mask 5).foldl (fun (d : Dev) s =>
    match d.runOf s with
    | some r => if nth d.bootRecord.prefer s 0 = r.slot then d.bootUpdate s r.slot 0xFF else d
    | none => d) d
  (d.secView).secEnd 2 srOk

/-- RAISE: rollback counters rise to the running VERSION, at most 128; a FIRMWARE entry per stage (R534). -/
def Dev.raiseCounters (d : Dev) (origin mask : Nat) : Dev :=
  let d := (bitList mask 5).foldl (fun (d : Dev) s =>
    match d.runOf s with
    | some r =>
      let v := max (d.board.otp.counter s) (capAt r.version 128)
      ({ d with board := { d.board with otp := { d.board.otp with counters := d.board.otp.counters.setIfInBounds s v } } } : Dev).logFirmware origin r r.measurement
    | none => d) d
  (d.secView).secEnd 3 srOk

/-- A KEY entry (R521): key slot 4 × signer + index, digest of the old key; NEW is not stated and free (log entry 7). -/
def Dev.logKey (d : Dev) (origin slot : Nat) (old : List Byte) : Dev :=
  let (n, d) := d.drawNat
  d.log origin 0x05 slot old n

/-- KEY_PROGRAM (R533, R543). -/
def Dev.keyProgram (d : Dev) (origin index : Nat) : Dev :=
  let i := index % 4
  if (d.board.otp.customerKey i).isSome then d.secEnd 4 srRefused
  else
    let d : Dev := { d with board := { d.board with otp := { d.board.otp with customer := d.board.otp.customer.setIfInBounds i (some d.secData) } } }
    (d.logKey origin (4 + i) []).secView.secEnd 4 srOk

/-- KEY_REVOKE (R533, R543): ARG bit 2 the signer, bits 1:0 the index. -/
def Dev.keyRevoke (d : Dev) (origin arg : Nat) : Dev :=
  let slot := arg % 8
  if d.board.running.any (fun r => 4 * r.signer + r.key == slot) then d.secEnd 5 srRefused
  else
    let old := nth (d.board.otp.rhokemund ++ d.board.otp.customer).toList slot none
    let d : Dev := { d with board := { d.board with otp := { d.board.otp with revoked := setTbit d.board.otp.revoked slot true } } }
    (d.logKey origin slot (old.getD [])).secView.secEnd 5 srOk

/-- Whether a range may be erased or programmed (R544): region 15, or the slot of regions 1–10 from which its stage is not running. -/
def Dev.flashFree (d : Dev) (a n : Nat) : Option Nat :=
  match d.regionOf a n with
  | none => none
  | some r =>
    if r = 15 then some r
    else if 1 ≤ r ∧ r ≤ 10 then
      let (stage, slot) := regionSlot r
      match d.runOf stage with
      | some x => if x.slot = slot then none else some r
      | none => some r
    else none

/-- FLASH_ERASE. -/
def Dev.secErase (d : Dev) : Dev :=
  if d.secOff % sectorBytes ≠ 0 then d.secEnd 7 srRefused
  else match d.flashFree d.secOff sectorBytes with
    | none => d.secEnd 7 srRefused
    | some r => (d.flashErase d.secOff r).secEnd 7 srOk

/-- FLASH_PROGRAM. -/
def Dev.secProgram (d : Dev) (n : Nat) : Dev :=
  if d.secOff % 256 ≠ 0 ∨ n = 0 ∨ n > 4096 ∨ d.inHost d.secAddr n = false then d.secEnd 8 srRefused
  else match d.flashFree d.secOff n with
    | none => d.secEnd 8 srRefused
    | some _ => (d.flashProgram d.secOff (d.read d.secAddr n)).secEnd 8 srOk

/-- Free bytes, for regions whose byte image the model does not keep (log entry 52). -/
def Dev.freeBytes (d : Dev) : Nat → List Byte × Dev
  | 0 => ([], d)
  | n + 1 => let (x, d) := d.drawNat; let (t, d) := d.freeBytes n; (BitVec.ofNat 8 x :: t, d)

/-- FLASH_READ: of any region. -/
def Dev.secRead (d : Dev) (n : Nat) : Dev :=
  if n = 0 ∨ n > 4096 ∨ d.inHost d.secAddr n = false then d.secEnd 9 srRefused
  else match d.regionOf d.secOff n with
    | none => d.secEnd 9 srRefused
    | some r =>
      let (bs, d) := if 11 ≤ r ∧ r ≤ 14 then d.freeBytes n else (d.flashRead d.secOff n, d)
      (d.write d.secAddr bs).secEnd 9 srOk

/-- SEC_CTRL with GO = 1 (R543). Operations are done at once; OP codes that the table does not list start nothing. -/
def Dev.secGo (d : Dev) (origin : Nat) (w : Word) : Dev :=
  let arg := getBits w F.SEC_CTRL_ARG
  match getBits w F.SEC_CTRL_OP with
  | 1 => d.attest
  | 2 => d.confirm arg
  | 3 => d.raiseCounters origin arg
  | 4 => d.keyProgram origin arg
  | 5 => d.keyRevoke origin arg
  | 6 => (d.secEnd 6 srOk).resetDouse
  | 7 => d.secErase
  | 8 => d.secProgram (arg % 8192)
  | 9 => d.secRead (arg % 8192)
  | _ => d

/-- Effects of a write to a SEC register. A KICK restarts a timer that the model does not run: WATCHDOG_EXPIRY is a command (log entry 1). -/
def Dev.secEffect (d : Dev) (origin off : Nat) (w : Word) : Dev :=
  if off = R.SEC_CTRL ∧ getBits w F.SEC_CTRL_GO = 1 then d.secGo origin w else d

/-- WATCHDOG_EXPIRY (R539, R545): the WATCHDOG fault, the supervisor's mailbox epoch, a warm start. With TIMEOUT_MS 0 there is no watchdog. -/
def Dev.watchdogExpiry (d : Dev) : Dev :=
  if d.getF R.SEC_WDOG F.SEC_WDOG_TIMEOUT_MS = 0 ∨ d.banked = true then d
  else ((d.raise 17 0).endpointReset .supervisor).warmStart

end Sys2Proof.Machine
end

