-- ==== Sys2Proof/Machine/Power.lean ====
section
/-! DEFINITION. Device power states, domains, descents and ascents (spec/17 R445–R456). -/

namespace Sys2Proof.Machine

/-! ### Domains (R445–R447) -/

/-- The state whose domains have power: in a descent that which it leaves, until its last step, in an ascent that which it began from
(R448, R450, R452). -/
def Dev.powered (d : Dev) : Nat :=
  let s := d.pstate
  if s = devDescending then (match d.power.descent with | some (_, _, old) => old | none => devSmoulder)
  else if s = devAscending then (d.power.ascent).getD devSmoulder
  else s

/-- The state of a domain (R446). Cores go off with the grates at the beginning of a descent (R450 step 2). -/
def Dev.domain (d : Dev) (i : Nat) : Nat :=
  let glow := devGlow ≤ d.powered
  let up := bit glow * 3
  let smoulder := if d.powered = devBanked then 0 else 3
  if i < 128 then (d.grate i).dom.code
  else if i < 144 ∨ i = 152 ∨ (153 ≤ i ∧ i ≤ 160) ∨ i = 182 then up
  else if i < 152 then (if d.running && d.bitOf R.PWR_DOMAIN_CTRL (i - 144) then 3 else 0)
  else if i < 169 then (if glow then 3 else if d.powered = devBanked ∧ d.flag R.EMB_PSTATE F.EMB_PSTATE_COLD = true then 0 else 4)
  else if i < 173 then (if glow && d.flag (R.FLU_PORT_CTRL (i - 169)) F.FLU_PORT_CTRL_ENABLE && d.role != 0 then 3 else 0)
  else if i = 173 ∨ i = 183 ∨ i = 184 then smoulder
  else if i < 176 then (mapGet d.tmu.groups (i - 174) Dom.off).code
  else if i < 182 then (if d.pllState (i - 176) = plOff then 0 else 3)
  else if i = 185 then
    (if (List.range 128).any (fun g => (d.ppmuNow g).isSome) || d.cal.proc.isSome then 3 else 0)
  else 0

/-- PWR_DOMAIN_STATEi. -/
def Dev.domainWord (d : Dev) (i : Nat) : Word :=
  BitVec.ofNat 32 ((List.range 8).foldl (fun w j => w + 16 ^ j * d.domain (8 * i + j)) 0)

/-- Rules of the power registers: PWR_DOMAIN_CTRL may not power off every core (R447); EMB_PSTATE_REQ for a descent takes the identities of
R450. -/
def Dev.powerRule (origin off : Nat) (w : Word) : Option Nat :=
  if off = R.PWR_DOMAIN_CTRL then failWhen (getBits w F.PWR_DOMAIN_CTRL_CORE_ON == 0) vkValue
  else if off = R.EMB_PSTATE_REQ then failWhen (getBits w F.EMB_PSTATE_REQ_TARGET ≤ 1 && !(isTrusted origin)) vkFixed
  else none

/-- PWR_DOMAIN_CTRL acts: a core powered on again is reset (R447, R410). -/
def Dev.domainCtrl (d : Dev) (old w : Word) : Dev :=
  (List.range 8).foldl (fun (d : Dev) c => if tbit w.toNat c && !(tbit old.toNat c) then d.endpointReset (.core c) else d) d

/-! ### Wake causes (R455) -/

def wkWakeN : Nat := 0
def wkAlarm : Nat := 1
def wkLeloisk : Nat := 2
def wkRequest : Nat := 3

/-- Change STATE with its audit entry (R449, R521). -/
def Dev.toState (d : Dev) (st : Nat) : Dev :=
  let old := d.getF R.EMB_PSTATE F.EMB_PSTATE_STATE
  (d.setF R.EMB_PSTATE F.EMB_PSTATE_STATE st).log 0 0x07 0 [] (old + 256 * st)

/-- An ascent begins (R452). From BANKED its audit entry waits until the log's buffer is powered (log entry 53). -/
def Dev.ascentBegin (d : Dev) : Dev :=
  let from_ := d.getF R.EMB_PSTATE F.EMB_PSTATE_STATE
  let d : Dev := { d with power := { d.power with ascent := some from_, wakePending := false } }
  let d := d.setF R.EMB_PSTATE F.EMB_PSTATE_TARGET devGlow
  if from_ = devBanked then d.setF R.EMB_PSTATE F.EMB_PSTATE_STATE devAscending else d.toState devAscending

/-- A wake cause is recognised. -/
def Dev.wake (d : Dev) (c : Nat) : Dev :=
  let st := d.getF R.EMB_PSTATE F.EMB_PSTATE_STATE
  let there := st = devSmoulder ∨ (st = devBanked ∧ c ≤ 1) ∨ (st = devDescending ∧ c ≤ 1)
  if ¬there ∨ d.board.stopped = true then d
  else
    let d := d.setBit R.EMB_WAKE_CAUSE c true
    if !(d.bitOf R.EMB_WAKE_CFG c) then d
    else if st = devDescending then { d with power := { d.power with wakePending := true } }
    else d.ascentBegin

/-- EMB_WAKE_ALARM is armed and lies in the past. -/
def Dev.alarmDue (d : Dev) : Bool :=
  d.flag R.EMB_WAKE_ALARM_HI F.EMB_WAKE_ALARM_HI_ALARM_EN &&
  (d.reg R.EMB_WAKE_ALARM_LO).toNat + 2 ^ 32 * d.getF R.EMB_WAKE_ALARM_HI F.EMB_WAKE_ALARM_HI_SECONDS ≤ d.time.rtcSecs

/-- ALARM. -/
def Dev.alarm (d : Dev) : Dev := if d.alarmDue then d.wake wkAlarm else d

/-! ### Descent (R450) -/

/-- The lowest code of R450 that applies, 0 for none. -/
def Dev.descentRefusal (d : Dev) : Nat :=
  if (List.range 64).any (fun n => d.ringState n != rsDisabled) then 1
  else if d.anyBusy || !d.rings.plans.isEmpty || (List.range 128).any (fun g => (d.ppmuNow g).isSome) || d.cal.proc.isSome ||
      d.tmu.chs.any (fun c => c.2.st == tmCalibrating || c.2.calWant) || d.clk.measuring.isSome then 2
  else if d.drt.entries.isEmpty = false ∨ d.reg R.DRT_RES_PI ≠ d.reg R.DRT_RES_CI then 3
  else if d.power.seq.isSome then 4
  else 0

/-- A descent request (R450): refused, without effect, or begun with steps 1 and 2. -/
def Dev.descend (d : Dev) (target : Nat) (cold : Bool) : Dev :=
  let st := d.pstate
  if st ≥ devDescending ∨ target ≥ st then d
  else
    let code := d.descentRefusal
    if code ≠ 0 then d.setF R.EMB_PSTATE F.EMB_PSTATE_REFUSE code
    else
      let d := (d.setF R.EMB_PSTATE F.EMB_PSTATE_TARGET target).toState devDescending
      let d : Dev := { d with power := { d.power with descent := some (target, cold, st), wakePending := false, belowSecs := 0 } }
      let d := (d.downOrder ((List.range 32).filter d.supOn)).foldl (fun (d : Dev) n => d.supDisable n) d
      let d := (mapKeys d.seq.grates).foldl (fun (d : Dev) g => d.grateOff g) d
      { d with tmu := { d.tmu with chs := [], groups := [], fineRefs := [] } }

/-- What leaving GLOW takes away (R450 steps 4 to 6): DRAM in self-refresh, PLLs off and TB with them (R262), Flue ports DOWN without ERROR, hearth
run state, LEVEL 2 rails. -/
def Dev.leaveGlow (d : Dev) : Dev :=
  let d := d.dramSleep
  let d := ((List.range 6).foldl (fun (d : Dev) p => d.setPllState p plOff) d).tbLost
  let d := (List.range 4).foldl (fun (d : Dev) p => if d.portState p = psDown then d else d.portDown p psDown) d
  let d := d.setF R.CLK_SYNC_STATUS F.CLK_SYNC_STATUS_GEN 0
  let d := d.setF R.EMB_PSTATE F.EMB_PSTATE_RESTORED 0
  let d : Dev := { d with
    power := { d.power with lastEpoch := d.flue.epoch }
    flue := { Flue.reset with epoch := d.flue.epoch, everKnown := d.flue.everKnown, nextTag := d.flue.nextTag, joined := d.flue.joined, kids := d.flue.kids }
    seq := { d.seq with sites := [], groups := [], engines := [], starts := [], chans := [], settles := [], dds := [], reports := [], meets := [], met := [] }
    rings := ⟨[], [], []⟩, drt := Draught.reset }
  d.railsOff [2]

/-- Live level entries with their relay bits 0 (R83, R453). -/
def Dev.openLiveRelays (d : Dev) : Dev :=
  let open_ := d.seq.live.levels.map (fun (x : Nat × LevelEntry) => (x.1, { x.2 with relay := false, spare := false }))
  { d with seq := { d.seq with live := { d.seq.live with levels := open_ }
                               grates := d.seq.grates.map (fun (x : Nat × Grate) => (x.1, { x.2 with relay := false }))
                               hearths := d.seq.hearths.map (fun (x : Nat × Hearth) => (x.1, { x.2 with spare := false })) } }

/-- Entry to BANKED sets FORMAT of every clock output to 0 (R57, R319). -/
def Dev.outsOff (d : Dev) : Dev := (List.range 4).foldl (fun (d : Dev) n => d.setF (R.CLK_OUT_CFG n) F.CLK_OUT_CFG_FORMAT 0) d

/-- What entering BANKED does (R450 step 7). -/
def Dev.bank (d : Dev) (cold ckptFails : Bool) : Dev :=
  let d := d.closeFolds
  let d := ((d.auditFlush auditBufferSize).checkpoint ckptFails).openLiveRelays
  let d : Dev := { d with mbx := { boxes := d.mbx.boxes.map (fun (x : Nat × Mbx) => (x.1, { x.2 with ab := [], ba := [] })), locks := [] } }
  let d := (d.railsOff [1]).outsOff
  let d := d.setF R.EMB_PSTATE F.EMB_PSTATE_COLD (bit cold)
  if cold then ({ d with mem := [], poison := [] } : Dev).railsOff [3] else d

/-- DESCENT_DONE: the device rests; a wake cause that came meanwhile, or an alarm in the past, starts the ascent at once (R453). The entry of
the move to BANKED is made before the flush, which holds it. -/
def Dev.descentDone (d : Dev) (ckptFails : Bool) : Dev :=
  match d.power.descent with
  | none => d
  | some (target, cold, old) =>
    let d := if old ≥ devGlow then d.leaveGlow else d
    let d := d.toState target
    let d := if target = devBanked then
        ((d.setF R.EMB_PSTATE F.EMB_PSTATE_STATE devSmoulder).bank cold ckptFails).setF R.EMB_PSTATE F.EMB_PSTATE_STATE devBanked
      else d
    let pend := d.power.wakePending
    let d : Dev := { d with power := { d.power with descent := none, wakePending := false } }
    if pend then d.ascentBegin else d.alarm

/-! ### Ascent (R452, R453) -/

/-- Register blocks that keep their content in the state an ascent began from: ember, faults, identity, security, ledger and audit always; what
is powered in SMOULDER after SMOULDER. -/
def keptBlock (from_ off : Nat) : Bool :=
  let b := off / 65536
  b == 0 || b == 1 || b == 4 || b == 14 || b == 15 || (from_ == devSmoulder && (b == 2 || b == 5 || b == 6 || b == 11))

/-- Registers that count, or report a refusal, and so hold reset values after an ascent (R453). -/
def countBases : List Nat :=
  [R.HRT_HOLD_STATUS, R.HRT_STR_COUNTS 0, R.HRT_TIM_REFUSE 0, R.HRT_STR_REFUSE 0, R.HRT_SEQ_REFUSE 0, R.HRT_CAP_REFUSE 0, R.HRT_DDS_REFUSE 0,
   R.TMU_CH_MISSED 0, R.TMU_CH_LOST 0, R.FLU_LATE, R.FLU_PORT_ERRORS 0, R.RING_ERRORS 0, R.DRT_COUNTS, R.MBX_FLUE_DROPS, R.DMC_PORT_MISSED 0,
   R.DMC_CH_ECC 0, R.DMC_CH_REFSTAT 0, R.DMC_CH_HOT 0]

/-- A register after an ascent: counters and W1C fields at reset, everything else restored. -/
def ascentWord (off : Nat) (w : Word) : Word :=
  match regRow off with
  | none => w
  | some r =>
    if countBases.contains r.base then regResetWord off
    else r.fields.foldl (fun w f => if f.ty = .w1c then setBits w ⟨f.lsb, f.width⟩ f.reset else w) w

/-- ASCENT: steps 1 to 6, after which the device is in GLOW and hearth state is still to be restored. `sub` is the RTC's sub-second count.
From the cold variant a device reset falls due; a stage that fails its verification starts one (R539). -/
def Dev.ascend (d : Dev) (sub : Nat) (bands : List (Nat × Word)) (ckptFails : Bool) : Dev :=
  match d.power.ascent with
  | none => d
  | some from_ =>
    let d := if from_ = devBanked then d.railsOn [1] else d
    let d : Dev := { d with power := { d.power with ascent := none } }
    if from_ = devBanked ∧ d.flag R.EMB_PSTATE F.EMB_PSTATE_COLD = true then { d with board := { d.board with resetDue := true } }
    else if !d.warmOk then (d.setF R.EMB_PSTATE F.EMB_PSTATE_STATE devSmoulder).warmStart
    else
      let d := if from_ = devBanked then
          let d := ({ d with time := { d.time with rtcSub := sub % 32768 } } : Dev)
          ((d.timeFromRtc).auditTail).log 0 0x07 0 [] (devBanked + 256 * devAscending)
        else d
      let d := (d.toState devSmoulder).checkpointDue ckptFails
      let d := d.setF R.EMB_PSTATE F.EMB_PSTATE_ERR 0
      let d := d.railsOn [2]
      let d : Dev := { d with regs := d.regs.map (fun (r : Nat × Word) => if keptBlock from_ r.1 then r else (r.1, ascentWord r.1 r.2))
                              clk := { d.clk with bands := if d.board.refPresent then bands else [], measuring := none, cut := [] } }
      let d := (List.range 6).foldl (fun (d : Dev) p => if d.flag (R.CLK_PLL_CTRL p) F.CLK_PLL_CTRL_ENABLE then d.kindlePll p else d) d
      let d := d.dramWake
      let d := d.toState devGlow
      let count := if d.flue.everKnown ∧ d.role ≠ 2 then d.power.lastEpoch + 1 + 100000 * d.power.belowSecs else 0
      let d : Dev := { d with flue := { d.flue with genCount := count }, power := { d.power with restoring := true } }
      d.flueUp

/-- ASCENT_RESTORED: step 7; sites with a live binding are ARMED (R453). -/
def Dev.ascentRestored (d : Dev) : Dev :=
  if !d.power.restoring then d
  else
    let d := (d.setF R.EMB_PSTATE F.EMB_PSTATE_RESTORED 1)
    let d : Dev := { d with power := { d.power with restoring := false } }
    let d := d.seq.live.binds.foldl (fun (d : Dev) (b : Nat × Binding) => d.modSite b.1 (fun s => if s.st = .idle then { s with st := .armed } else s)) d
    d.tmuClaims.tmuPower.policyKick

/-- RAIL_PG_TIMEOUT: the ascent is abandoned and the device returns to BANKED (R453). Both state changes are recorded (R41, R449; log entry 67). -/
def Dev.railTimeout (d : Dev) (rail : Nat) : Dev :=
  match d.power.ascent with
  | none => d
  | some from_ =>
    let d : Dev := { d with power := { d.power with ascent := none } }
    let d := d.railsOff [2]
    let d := if from_ = devBanked then (d.log 0 0x07 0 [] (devBanked + 256 * devAscending)).railsOff [1] else d
    let d := d.toState devBanked
    let d := if from_ = devBanked then d
      else ((d.setF R.EMB_PSTATE F.EMB_PSTATE_STATE devSmoulder).bank false false).setF R.EMB_PSTATE F.EMB_PSTATE_STATE devBanked
    (d.setF R.EMB_PSTATE F.EMB_PSTATE_ERR 1).setF R.EMB_PSTATE F.EMB_PSTATE_RAIL rail

/-- EMB_PSTATE_REQ is written (R450, R452). -/
def Dev.pstateReq (d : Dev) (origin : Nat) (w : Word) : Dev :=
  let t := getBits w F.EMB_PSTATE_REQ_TARGET
  if t ≤ 1 then d.descend t (getBits w F.EMB_PSTATE_REQ_COLD == 1 && t == 0)
  else if t = 2 ∧ origin = 0x20 then d.wake wkRequest
  else d

end Sys2Proof.Machine
end

