-- ==== Sys2Proof/Machine/Service.lean ====
section
/-! DEFINITION. The douse and reset pins, error lines, fault registers, driver overloads (spec/02 R59–R61, spec/03 R89, spec/18 R464–R474), the
Leloisk service (R475–R477) and the test access port (R474, spec/21 R547). -/

namespace Sys2Proof.Machine

/-! ### Pins -/

/-- DOUSE_N is recognised: a douse over all channels, unless one that RESET_N began runs already (R59, R61). A pin already low adds
nothing (R471). -/
def Dev.douseNow (d : Dev) : Dev :=
  if d.board.douseLow then d
  else
    let d : Dev := { d with board := { d.board with douseLow := true } }
    let d := d.setF R.FLT_DOUSE_STATUS F.FLT_DOUSE_STATUS_DOUSE_N 1
    if d.faults.douses.any (fun x => x.resetAfter && x.scope == allChannels) then d.joinCause dcPin else d.douse dcPin allChannels

/-- DOUSE_N low for `ns` nanoseconds (R59): below 5 ignored, from 20 on recognised, between them either. -/
def Dev.douseN (d : Dev) (ns : Nat) : Dev :=
  if ns < 5 then d
  else if ns ≥ 20 then d.douseNow
  else let (b, d) := d.drawBool; if b then d.douseNow else d

/-- DOUSE_N_HIGH. -/
def Dev.douseHigh (d : Dev) : Dev :=
  ({ d with board := { d.board with douseLow := false } }).setF R.FLT_DOUSE_STATUS F.FLT_DOUSE_STATUS_DOUSE_N 0

/-- RESET_N low for `ns` nanoseconds (R60, R61): below 100 ns ignored, from 1 µs on recognised, between them either. -/
def Dev.resetN (d : Dev) (ns : Nat) : Dev :=
  if ns < 100 then d
  else if ns ≥ 1000 then d.resetDouse
  else let (b, d) := d.drawBool; if b then d.resetDouse else d

/-! ### Faults -/

/-- Bits whose lines assert in one cycle: each is latched and the first is noted, one douse runs over the union of the scopes, and the sites
of safety units are smothered (R464, R465, R471). -/
def Dev.raiseAll (d : Dev) (l : List (Nat × Nat)) : Dev :=
  match l with
  | [] => d
  | [x] => d.raise x.1 x.2
  | l =>
    let lines := l.filter (fun x => x.1 < faultBits)
    let new := lines.filter (fun x => !(d.bitOf R.FLT_WORD_LO x.1))
    let d := new.foldl (fun (d : Dev) (x : Nat × Nat) => d.latchFault x.1 x.2) d
    let dousing := new.filter (fun x => d.faultReact x.1 ≥ 2)
    let scope := dousing.foldl (fun m (x : Nat × Nat) => m ||| (if d.faultReact x.1 = 2 then (d.unitScope x.1 x.2).getD allChannels else allChannels)) 0
    let d := if dousing.isEmpty then d else d.douse dcFault scope ((listMin? (dousing.map (·.1))).getD 0xFF)
    lines.foldl (fun (d : Dev) (x : Nat × Nat) => d.faultSmother x.1 x.2) d

/-- FLT_WORD written with 1s: the bits clear whose lines `held` does not name (R464, R11). `base` is 0 for LO, 32 for HI. -/
def Dev.faultClear (d : Dev) (base : Nat) (w : Word) (held : Nat) : Dev :=
  (bitList w.toNat 32).foldl (fun (d : Dev) i =>
    if tbit held (base + i) then d
    else
      let d := d.setBit (if base = 0 then R.FLT_WORD_LO else R.FLT_WORD_HI) i false
      { d with faults := { d.faults with units := mapErase d.faults.units (base + i), held := mapErase d.faults.held (base + i) } }) d

/-- Rules of the fault registers (R465, R473, R478). -/
def Dev.faultRule (d : Dev) (origin off : Nat) (w : Word) : Option Nat :=
  match fltCfgOf off with
  | some k => failWhen (d.faultCfgBad k w) vkValue
  | none =>
    if off = R.FLT_DOUSE then failWhen (!(isTrusted origin)) vkFixed
    else if off = R.FLT_INJECT_LO ∨ off = R.FLT_INJECT_HI then failWhen (origin != 0x7F || d.board.otp.field || !d.board.factory) vkFixed
    else none

/-- FLT_DOUSE with GO (R473, R479). -/
def Dev.fltDouse (d : Dev) (w : Word) : Dev :=
  if getBits w F.FLT_DOUSE_GO = 0 then d
  else if getBits w F.FLT_DOUSE_ALL = 1 then d.douse dcRegister allChannels
  else if getBits w F.FLT_DOUSE_HEARTHS = 0 then d
  else d.douse dcRegister (hearthsMask (getBits w F.FLT_DOUSE_HEARTHS))

/-- Error lines with a unit that is not stated: free units (log entry 7). -/
def Dev.drawUnits (d : Dev) : List Nat → List (Nat × Nat) × Dev
  | [] => ([], d)
  | b :: t => let (u, d) := d.drawNat; let (l, d) := d.drawUnits t; ((b, u % 65536) :: l, d)

/-- FLT_INJECT (R478). Bits 22–63 have no line. -/
def Dev.fltInject (d : Dev) (base : Nat) (w : Word) : Dev :=
  let (l, d) := d.drawUnits (((bitList w.toNat 32).map (base + ·)).filter (· < faultBits))
  d.raiseAll l

/-- Effects of a write to a fault register. A plain write of FLT_WORD meets lines that are no longer asserted; FLT_WORD_CLEAR says which
are. -/
def Dev.faultEffect (d : Dev) (off : Nat) (w : Word) : Dev :=
  if off = R.FLT_DOUSE then d.fltDouse w
  else if off = R.FLT_INJECT_LO then d.fltInject 0 w
  else if off = R.FLT_INJECT_HI then d.fltInject 32 w
  else if off = R.FLT_WORD_LO then d.faultClear 0 w 0
  else if off = R.FLT_WORD_HI then d.faultClear 32 w 0
  else if off = R.FLT_FIRST ∧ getBits w F.FLT_FIRST_VALID = 1 then d.setReg R.FLT_FIRST 0
  else d

/-- Channels of a grate go to high-impedance by overload (R89). -/
def Dev.overload (d : Dev) (chs : List Nat) : Dev :=
  chs.foldl (fun (d : Dev) ch =>
    let d := if (d.chan ch).drv = .z then d else d.toggle ch
    d.modChan ch (fun c => { c with drv := .z, overload := true })) d

/-- A run on an overloaded pin is never reported valid (R89, condition (c) of R32): what the fault's reaction leaves active of the sites that hold
such a pin is smothered. -/
def Dev.overloadSmother (d : Dev) (chs : List Nat) : Dev :=
  d.smotherAll (d.activeSites.filter (fun s => (d.binding s).any (fun b => b.channels.any chs.contains))) 3

/-- DRV_OVL: a driver of a grate above 90 mA, or (no pin) its VTT buffer above 400 mA, for more than 1 µs (R89). A driver that drives nothing
and a buffer without connected terminations carry no current. -/
def Dev.drvOvl (d : Dev) (g : Nat) (pin : Option Nat) : Dev :=
  match pin with
  | some k =>
    let ch := 8 * g + k
    if (d.chan ch).drv = .z then d
    else
      let d := d.overload [ch]
      let d := if d.flag (R.HRT_GRT_STATUS g) F.HRT_GRT_STATUS_DRV_OVL then d else d.setF (R.HRT_GRT_STATUS g) F.HRT_GRT_STATUS_OVL_PIN k
      ((d.latch (R.HRT_GRT_STATUS g) F.HRT_GRT_STATUS_DRV_OVL).raise 0 g).overloadSmother [ch]
  | none =>
    let chs := ((List.range 8).map (8 * g + ·)).filter (fun ch => (d.chan ch).term)
    if chs.isEmpty then d
    else (((d.overload chs).latch (R.HRT_GRT_STATUS g) F.HRT_GRT_STATUS_VTT_OVL).raise 0 g).overloadSmother chs

/-! ### Leloisk (R475–R477) -/

def llkWake : Nat := 1
def llkDouse : Nat := 2
def llkFault : Nat := 3
def llkLedger : Nat := 4

/-- The recovery defaults of R477. -/
def Dev.llkDefault (d : Dev) (off : Nat) : Word :=
  if off = R.FLT_LLK_CFG then 0xB0000000
  else if off = R.MGT_PORT_CTRL 0 ∨ off = R.MGT_PORT_CTRL 1 then 0xC0000000
  else if off = R.MGT_PORT_MAC_LO 0 ∨ off = R.MGT_PORT_MAC_LO 1 then BitVec.ofNat 32 d.serial
  else if off = R.MGT_PORT_MAC_HI 0 ∨ off = R.MGT_PORT_MAC_HI 1 then BitVec.ofNat 32 (0x0200 + d.serial / 2 ^ 32 % 256)
  else 0

/-- A value that the MAC uses: the register, the recovery copy, or the recovery default. -/
def Dev.llkReg (d : Dev) (off : Nat) : Word :=
  if d.board.profileLoaded then d.reg off
  else match d.board.recovery with
    | some c => (mapFind c.regs off).getD 0
    | none => d.llkDefault off

/-- Whether every source is accepted. -/
def Dev.llkAnySource (d : Dev) : Bool := !d.board.profileLoaded && d.board.recovery.isNone

/-- Whether the MAC serves frames on a port now. -/
def Dev.llkServes (d : Dev) (p : Nat) : Bool :=
  (d.board.stopped || d.pstate == devSmoulder || d.running) && getBits (d.llkReg (R.MGT_PORT_CTRL p)) F.MGT_PORT_CTRL_ENABLE == 1

/-- The conditions of R475, and room in the queue of one request in progress and three more. -/
def Dev.llkAccepts (d : Dev) (f : LlkFrame) : Bool :=
  let mac := (d.llkReg (R.MGT_PORT_MAC_LO f.port)).toNat + 2 ^ 32 * ((d.llkReg (R.MGT_PORT_MAC_HI f.port)).toNat % 65536)
  let source := (List.range 4).any (fun i =>
    let hi := d.llkReg (R.FLT_LLK_SRC_HI i)
    tbit hi.toNat 31 && (d.llkReg (R.FLT_LLK_SRC_LO i)).toNat + 2 ^ 32 * (hi.toNat % 65536) == f.src)
  (f.dest == mac || f.dest == 2 ^ 48 - 1) && (source || d.llkAnySource) && f.version == 1 && (f.serial == d.serial || f.serial == 2 ^ 64 - 1) &&
  getBits (d.llkReg R.FLT_LLK_CFG) F.FLT_LLK_CFG_ENABLE == 1 && d.llk.length < 4

/-- Requests that the MAC has finished leave it. -/
def Dev.llkDone (d : Dev) (f : LlkFrame) : Dev := { d with llk := d.llk.drop f.done }

/-- The enable bit of an op (R479). -/
def llkEnable (op : Nat) : Fld :=
  if op = llkWake then F.FLT_LLK_CFG_WAKE_EN else if op = llkDouse then F.FLT_LLK_CFG_DOUSE_EN else F.FLT_LLK_CFG_READ_EN

/-- The status of an accepted request: 1 REFUSED, 2 BAD_ARG, 0 OK (R476). -/
def Dev.llkStatus (d : Dev) (op arg : Nat) : Nat :=
  if getBits (d.llkReg R.FLT_LLK_CFG) (llkEnable op) = 0 then 1
  else if (if op = llkDouse then arg / 65536 else arg) ≠ 0 then 2
  else 0

/-- The response header (R476). -/
def Dev.llkHeader (d : Dev) (op seq status : Nat) : List Byte :=
  bytesOf 1 1 ++ bytesOf 1 (op + 0x80) ++ bytesOf 2 seq ++ bytesOf 1 status ++ bytesOf 1 d.pstate ++ bytesOf 2 0 ++ bytesOf 8 d.serial ++ bytesOf 4 d.devEpoch ++
  bytesOf 6 d.time.secs ++ bytesOf 2 0 ++ bytesOf 4 d.time.ns

/-- The data of a response. -/
def Dev.llkData (d : Dev) (op status : Nat) : List Byte :=
  if status ≠ 0 then []
  else if op = llkFault then bytesOf 8 d.faultWord ++ bytesOf 4 (d.reg R.FLT_DOUSE_STATUS).toNat ++ bytesOf 4 (d.reg R.FLT_FIRST).toNat
  else if op = llkDouse then bytesOf 4 (d.reg R.FLT_DOUSE_STATUS).toNat
  else if op = llkLedger then d.ledgerSummary
  else []

/-- What an op does. -/
def Dev.llkAct (d : Dev) (op arg : Nat) : Dev :=
  if op = llkWake then d.wake wkLeloisk
  else if op = llkDouse then d.douse dcLeloisk (if arg % 65536 = 0 then allChannels else hearthsMask (arg % 65536))
  else d

/-- The audit entry of a frame (R521); STATUS 0xFF when discarded. -/
def Dev.llkAudit (d : Dev) (f : LlkFrame) (op status : Nat) : Dev := d.log 0 0x0A f.src [] (op + 256 * status + 65536 * (f.port % 2))

/-- A discarded frame: counted and audited. -/
def Dev.llkDiscard (d : Dev) (f : LlkFrame) (op : Nat) : Dev := (d.bump R.FLT_LLK_COUNTS F.FLT_LLK_COUNTS_DISCARDED).llkAudit f op 0xFF

/-- A frame with a listed op: discarded, or accepted, carried out and answered (R475, R476). -/
def Dev.llkFrame (d : Dev) (f : LlkFrame) (op : Nat) : Dev :=
  if !(d.llkServes f.port) then d
  else
    let d := d.llkDone f
    if !(d.llkAccepts f) then d.llkDiscard f op
    else
      let d : Dev := { d with llk := d.llk ++ [⟨f.port, f.src, op, f.seq, f.arg⟩] }
      let status := d.llkStatus op f.arg
      let d := if status = 0 then d.llkAct op f.arg else d
      let body := d.llkHeader op f.seq status ++ d.llkData op status
      let d := d.out (.leloisk f.port f.src (body ++ List.replicate (46 - body.length) 0))
      (d.bump R.FLT_LLK_COUNTS F.FLT_LLK_COUNTS_ANSWERED).llkAudit f op status

/-- LELOISK_DISCARD: a frame that fails acceptance or finds the queue full. One that would be accepted is none of these. -/
def Dev.llkReject (d : Dev) (f : LlkFrame) (op : Nat) : Dev :=
  if !(d.llkServes f.port) then d
  else
    let d := d.llkDone f
    if d.llkAccepts f then d else d.llkDiscard f op

/-! ### Test access port (R547) -/

/-- The TAP selects an instruction and a data register, whose content shifts out. -/
def Dev.tap (d : Dev) (ir bits value : Nat) : Dev := ({ d with jtag := { d.jtag with ir := ir, dr := value, drBits := bits } }).out (.tdo bits value)

/-- BYPASS: one bit, 0. -/
def Dev.tapBypass (d : Dev) (ir : Nat) : Dev := d.tap ir 1 0

/-- IDCODE. -/
def Dev.tapIdcode (d : Dev) : Dev :=
  d.tap 0x01 32 (d.board.otp.stepping / 256 % 16 * 2 ^ 28 + 0x4610 * 2 ^ 12 + d.board.otp.maker % 2048 * 2 + 1)

/-- FAULT_READ (R474). -/
def Dev.tapFault (d : Dev) : Dev :=
  d.tap 0x3C 128 (d.faultWord + 2 ^ 64 * (d.reg R.FLT_DOUSE_STATUS).toNat + 2 ^ 96 * (d.reg R.FLT_FIRST).toNat)

/-- SAMPLE/PRELOAD: the boundary register shifts out what it sampled and takes what is shifted in. `n` is its length. -/
def Dev.tapSample (d : Dev) (n sample preload : Nat) : Dev :=
  let d := d.tap 0x02 n (sample % 2 ^ n)
  { d with jtag := { d.jtag with boundary := preload % 2 ^ n } }

/-- Whether EXTEST, CLAMP and HIGHZ act (R547): RESET_N is low, or factory test mode. -/
def Dev.tapDrives (d : Dev) (resetLow : Bool) : Bool := resetLow || d.board.factory

/-- EXTEST, CLAMP and HIGHZ: the boundary register drives the balls, or they go to high-impedance; else BYPASS. EXTEST selects the boundary
register of length `n`, sampled as `sample`. -/
def Dev.tapExtest (d : Dev) (resetLow : Bool) (n sample : Nat) : Dev :=
  let d : Dev := { d with board := { d.board with resetLow := resetLow } }
  if d.tapDrives resetLow then (d.tap 0x00 n (sample % 2 ^ n)).out (.boundary true) else d.tapBypass 0x00

def Dev.tapClamp (d : Dev) (resetLow : Bool) : Dev :=
  let d : Dev := { d with board := { d.board with resetLow := resetLow } }
  if d.tapDrives resetLow then (d.tapBypass 0x04).out (.boundary true) else d.tapBypass 0x04

def Dev.tapHighz (d : Dev) (resetLow : Bool) : Dev :=
  let d : Dev := { d with board := { d.board with resetLow := resetLow } }
  if d.tapDrives resetLow then (d.tapBypass 0x05).out (.boundary false) else d.tapBypass 0x05

/-- UNLOCK: refused once the field fuse is set, which sets SECURITY; an attempt that fails sets it too (R464, R547). -/
def Dev.tapUnlock (d : Dev) (ok : Bool) : Dev :=
  let d := d.tapBypass 0xA5
  if d.board.otp.field || !ok then d.raise 21 0
  else { d with board := { d.board with factory := true } }

end Sys2Proof.Machine
end

