-- ==== Sys2Proof/Machine/Views.lean ====
section
/-! DEFINITION. What registers read that is not simply what they hold: the views of the register tables of spec/03 R101, spec/04 R128, spec/06
R204, spec/07 R225, spec/08 R257, spec/09 R281, spec/10 R298, spec/11 R322, spec/12 R351, spec/13 R384, spec/14 R405, spec/15 R418,
spec/17 R463, spec/18 R479, spec/20 R526. -/

namespace Sys2Proof.Machine

/-- A number as a register's content. -/
def wd (n : Nat) : Word := BitVec.ofNat 32 n

/-- A count as a field of 32 bits that saturates. -/
def wdSat (n : Nat) : Word := wd (capAt n (2 ^ 32 - 1))

/-! ### Sites (R204) -/

/-- The ganged site homed elsewhere that occupies slot j of hearth h (R172). -/
def Dev.gangMember (d : Dev) (h j : Nat) : Option Nat :=
  (d.seq.live.binds.find? (fun b => b.2.gang && b.1 % 16 == j && b.1 / 16 != h && tbit b.2.hearths h)).map (·.1)

/-- The engine of a hearth that serves a site's group. -/
def Dev.siteEngine (d : Dev) (h s : Nat) : Option Nat :=
  match d.groupOf s with
  | some (k, _) => (d.enginesOf k).find? (fun e => e / 4 == h)
  | none => none

/-- HRT_SITE_STATUSj of slot 16h + j. -/
def Dev.siteStatusWord (d : Dev) (slot : Nat) : Word :=
  let h := slot / 16
  let engine (s : Nat) := match d.siteEngine h s with | some e => 2 ^ 18 + 2 ^ 16 * (e % 4) | none => 0
  match d.gangMember h (slot % 16) with
  | some s => wd (2 ^ 24 * s + 2 ^ 22 + engine s)
  | none =>
    let x := d.site slot
    let wait (rdv : Bool) := match x.run.wait with | some w => bit (w.rdv == rdv && x.st.busy) | none => 0
    let pending := match d.groupOf slot with | some (_, g) => bit (!g.hasEngine) | none => 0
    wd (2 ^ 24 * x.group + 2 ^ 21 * wait true + 2 ^ 20 * wait false + 2 ^ 19 * pending + engine slot + 2 ^ 8 * x.reason + 2 ^ 7 * bit x.invalid +
      2 ^ 4 * x.endCause.code + x.st.code)

/-- The registers of a site slot; `o` is the offset within the slot. -/
def Dev.siteView (d : Dev) (slot o : Nat) : Option Word :=
  let x := d.site slot
  let member := (d.gangMember (slot / 16) (slot % 16)).isSome
  let own (w : Word) : Option Word := some (if member then 0 else w)
  match o with
  | 0x00 => some (d.siteStatusWord slot)
  | 0x04 => own (wd (if x.st = .running then x.run.flow.pc else x.lastPc))
  | 0x08 => own (wd x.run.vc)
  | 0x10 => own (wd (capAt x.holds 65535))
  | 0x14 => own (wdSat (x.holdTicks / 4000))
  | 0x18 => some (match (if member then none else d.binding slot) with
      | some b => wd (2 ^ 18 * bit b.multi + 2 ^ 17 * bit b.gang + 2 ^ 16 + b.image)
      | none => 0xFFFF)
  | 0x1C => own (match d.binding slot with | some b => wd b.hearths | none => 0)
  | _ => none

/-- The capture registers of a slot (R257). -/
def Dev.capView (d : Dev) (slot o : Nat) : Option Word :=
  let c := (d.site slot).cap
  if (d.gangMember (slot / 16) (slot % 16)).isSome then some 0
  else match o with
    | 0x0 => some (wd (2 ^ 16 * bit (d.plan slot).isSome + 2 ^ 12 * c.k + 2 ^ 8 * bit c.resultsFull + 2 ^ 7 * bit c.bufferFull + 2 ^ 6 * bit c.stopped))
    | 0x4 => some (wdSat c.records)
    | 0x8 => some (wdSat c.dropped)
    | 0xC => some (wdSat (ceilDiv c.o capUnit))
    | _ => none

/-- The registers of a DDS unit (R298). -/
def Dev.ddsView (d : Dev) (u o : Nat) : Option Word :=
  let x := d.ddsUnit u
  match o with
  | 0x00 =>
    some (match d.seq.claims.find? (fun c => c.kind == 1 && c.unit == u) with
      | none => 0
      | some c =>
        let amp := match d.ddsList c with | some l => bit (l.amp.length != 0) | none => 0
        wd (2 ^ 24 * c.site + 2 ^ 16 * x.i + 2 ^ 10 * x.a + 2 ^ 4 * (c.ch % 64) + 8 * amp + 4 * bit ((d.site c.site).st == .running) + 2 * bit x.connected + 1))
  | 0x04 => some (wd x.ftw)
  | 0x0C => some (wdSat x.steps)
  | 0x10 => some (wdSat x.aligns)
  | 0x14 => some (wdSat x.delayed)
  | _ => none

/-! ### Grates (R101) -/

/-- HRT_GRT_PIN_STATEk but for LEVEL, which is the comparator's at the instant of a read (`Dev.readLevel`). -/
def Dev.pinState (d : Dev) (ch : Nat) : Word :=
  let g := chGrate ch
  let site := d.siteOfChannel ch
  let dds := d.seq.claims.any (fun c => c.kind == 1 && c.ch == ch)
  let ppmu := match d.ppmuNow g with | some (c, _, _) => c % 8 == ch % 8 | none => false
  let safe := (mapFind d.seq.chans ch).isNone && !ppmu
  wd (2 ^ 16 * bit site.isSome + 2 ^ 8 * site.getD 0 + 2 ^ 5 * bit dds + 2 ^ 4 * bit ppmu + 2 ^ 3 * bit safe + 2 ^ 2 * bit (!(d.absent ch)) +
    ((d.liveLevel g).pin (ch % 8)).term)

/-- The registers of a grate; `o` is the offset from its base. -/
def Dev.grateView (d : Dev) (g o : Nat) : Option Word :=
  let e := d.liveLevel g
  if o = 0x000 then some (d.gratePwr g)
  else if o = 0x004 then some (wd (2 ^ 16 * e.vil + (d.gratePath g).1))
  else if o = 0x008 then some (wd e.vtt)
  else if o = 0x00C then some (d.relayReg (R.HRT_GRT_RELAY g) g (d.grate g).relay (d.settling (.relay g)))
  else if o = 0x010 then some (d.grateStatus g)
  else if o = 0x018 then some (d.ppmuStatus g)
  else if 0x020 ≤ o ∧ o < 0x040 then let p := e.pin ((o - 0x020) / 4); some (wd (2 ^ 16 * p.vol + p.voh))
  else if 0x040 ≤ o ∧ o < 0x060 then some (d.pinState (8 * g + (o - 0x040) / 4))
  else if o = 0x060 ∧ g % 8 = 0 then
    let h := g / 8
    some (d.relayReg (R.HRT_GRT_SPARE_RELAY h) (128 + h) (d.hearth h).spare (d.settling (.spare h)))
  else none

/-- HRT_INT_STATUS.GRATE (R204). -/
def Dev.grateEvents (d : Dev) (h : Nat) : Nat :=
  maskOf ((List.range 8).filter (fun k => let g := 8 * h + k; (d.grateStatus g).toNat &&& (d.reg (R.HRT_GRT_INT_EN g)).toNat &&& 0x107 != 0))

/-! ### Timing read-back (R128) -/

/-- The registers from HRT_TIM_LIVE_VALID on. An absent pin reads as unused. -/
def Dev.timView (d : Dev) (h o : Nat) : Option Word :=
  let sel := R.HRT_TIM_RB_SEL h
  let set := mapFind (d.timing h) (d.getF sel F.HRT_TIM_RB_SEL_SET)
  let p := d.getF sel F.HRT_TIM_RB_SEL_PIN
  let pin := match set with | some t => if d.absent (64 * h + p) then none else some (t.pin p) | none => none
  if o = 0x400 then some (validMask (d.timing h))
  else if o = 0x404 then some (validMask (mapGet d.seq.shadow.timing h []))
  else if o = 0x410 then some (match set with | some t => wd (2 ^ 8 * (t.pq / 256) + t.pq % 256) | none => 0)
  else if o = 0x414 then some (wd (2 ^ 15 * bit set.isSome + (match pin with | some e => 8 * e.strobe + e.format | none => 0)))
  else if 0x418 ≤ o ∧ o < 0x430 then
    let i := (o - 0x418) / 4
    some (match pin with
      | some e => if (usedDrive e.format ++ usedStrobe e.strobe).contains i then wd (e.ecode i) else 0xFFFFFFFF
      | none => 0xFFFFFFFF)
  else none

/-! ### Hearths -/

/-- The registers of hearth h below its grates; `o` is the offset in its window. -/
def Dev.hearthView (d : Dev) (h o : Nat) : Option Word :=
  let x := d.hearth h
  if o = 0x004 then
    let busy := maskOf ((List.range 4).filter (fun i => (d.engine (4 * h + i)).group.isSome))
    let pending := (d.seq.groups.filter (fun g => !g.2.hasEngine && g.2.hearths.contains h)).length
    some (wd (2 ^ 16 * pending + busy))
  else if o = 0x008 then
    some (wd ((List.range 4).foldl (fun w i => w + 256 ^ i * (match (d.engine (4 * h + i)).group with
      | some k => (match d.group k with | some g => g.identity | none => 0)
      | none => 0)) 0))
  else if o = 0x010 then some (setBits (d.reg (R.HRT_INT_STATUS h)) ⟨0, 8⟩ (d.grateEvents h))
  else if 0x100 ≤ o ∧ o < 0x300 then d.siteView (16 * h + (o - 0x100) / 32) ((o - 0x100) % 32)
  else if 0x400 ≤ o ∧ o < 0x430 then d.timView h o
  else if o = 0x604 then some (wd (2 ^ 16 * x.poolKib + x.ringKib))
  else if o = 0x608 then some (wd x.chargeMbps)
  else if 0x610 ≤ o ∧ o < 0x620 then some (wdSat (d.marginReg (4 * h + (o - 0x610) / 4)))
  else if o = 0x804 then
    let kib := ((d.seq.claims.filter (fun c => c.kind == 4 && homeHearth c.site == h)).map (·.amount)).sum
    some (wd (2 ^ 16 * kib + maskOf ((List.range 16).filter (fun j => (d.plan (16 * h + j)).isSome))))
  else if o = 0x808 then some (wd ((d.seq.live.plans.filter (fun p => homeHearth p.1 == h)).map (fun p => p.2.drain)).sum)
  else if 0x900 ≤ o ∧ o < 0xA00 then d.capView (16 * h + (o - 0x900) / 16) ((o - 0x900) % 16)
  else if 0xA40 ≤ o ∧ o < 0xAC0 then d.ddsView (4 * h + (o - 0xA40) / 32) ((o - 0xA40) % 32)
  else none

/-- The device-wide registers in the hearth windows (R191, R203, R225). -/
def Dev.seqView (d : Dev) (off : Nat) : Option Word :=
  if off = R.HRT_HOLD_STATUS then some (setBits (d.reg off) F.HRT_HOLD_STATUS_QUEUED d.seq.reports.length)
  else if off = R.HRT_STR_ADM_LIMIT then some (wd (d.streamLimit.num / (d.streamLimit.den * 10 ^ 6)))
  else if off = R.HRT_STR_ADM_STATUS then some (setBits (d.reg off) F.HRT_STR_ADM_STATUS_T_GAP_NS (if d.flag R.SEC_KINDLE F.SEC_KINDLE_READY then d.tGap else 0))
  else none

/-! ### The rest -/

/-- CMP_INT or ERR_INT of a ring (R384). -/
def Dev.ringInt (d : Dev) (n : Nat) : Bool :=
  d.flag (R.RING_STATUS n) F.RING_STATUS_CMP_INT || d.flag (R.RING_STATUS n) F.RING_STATUS_ERR_INT

/-- What a register shows beside what it holds; none where it simply holds its content. Before kindling ends, fields that mirror the clock trees and
admission show their reset values (log entry 114). -/
def Dev.view (d : Dev) (off : Nat) : Option Word :=
  if off ≥ 0x100000 then
    match d.seqView off with
    | some w => some w
    | none =>
      let h := (off - 0x100000) / 65536
      let o := off % 65536
      if o ≥ 0x8000 then d.grateView (8 * h + (o - 0x8000) / 4096) (o % 4096) else d.hearthView h o
  else if off = R.EMB_PSTATE then some (setBits (d.reg off) F.EMB_PSTATE_STATE d.pstate)
  else if off = R.CLK_STATUS then some d.clkStatus
  else if off = R.CLK_SYNC_STATUS then
    some (setBits (d.reg off) F.CLK_SYNC_STATUS_UNREF (bit (d.flag off F.CLK_SYNC_STATUS_GEN && !(d.pllLocked pllGrid))))
  else if off = R.CLK_EMBER_STATUS then some (setBits (d.reg off) F.CLK_EMBER_STATUS_FAIL_COUNT (capAt (d.ledger liEmberFails) 65535))
  else if off = R.CLK_BAND_SEL then some (setBits (d.reg off) F.CLK_BAND_SEL_BUSY (bit d.clk.measuring.isSome))
  else if off = R.CLK_BAND_DATA then some (mapGet d.clk.bands d.bandSel 0)
  else if off = R.FLT_DOUSE_COUNT then some (wd (d.ledger liDouses))
  else if R.PWR_DOMAIN_STATE 0 ≤ off ∧ off ≤ R.PWR_DOMAIN_STATE 23 then some (d.domainWord ((off - R.PWR_DOMAIN_STATE 0) / 4))
  else if off = R.RING_PENDING_LO then some (wd (maskOf ((List.range 32).filter d.ringInt)))
  else if off = R.RING_PENDING_HI then some (wd (maskOf ((List.range 32).filter (fun b => d.ringInt (32 + b)))))
  else if off = R.DRT_STATUS then
    some (wd (2 ^ 31 * bit d.drtFull + 2 ^ 16 * (d.drt.entries.filter (fun e => e.st == .complete)).length + d.drt.entries.length))
  else if off = R.DRT_RECIPE_STATUS then some (wd d.recipeInvalid)
  else if 0x70100 ≤ off ∧ off < 0x70200 ∧ (off - 0x70100) % 0x20 = 0x10 then
    some (setBits (d.reg off) ⟨0, 16⟩ (d.queueOcc (drtQueue off)))
  else if off = R.TMU_REF_STATUS then
    let w := setBits (d.reg off) F.TMU_REF_STATUS_EPOCH_KNOWN (bit d.flue.known)
    let w := setBits w F.TMU_REF_STATUS_GRID_LOCK (bit (d.pllLocked pllGrid))
    some (setBits w F.TMU_REF_STATUS_PRESENT (bit d.board.refPresent))
  else if off = R.FLU_STATUS then some (setBits (d.reg off) F.FLU_STATUS_EPOCH_KNOWN (bit d.flue.known))
  else if off = R.MGT_TIME_STATUS then some d.timeStatus
  else if off = R.AUD_STATUS then some d.audStatus
  else match d.calView off with
    | some w => some w
    | none =>
      match pllOf off with
      | some (p, 8) =>
        some (if d.flag R.SEC_KINDLE F.SEC_KINDLE_READY then setBits (d.reg off) F.CLK_PLL_STATUS_BYPASS_SRC (d.bypassSrc p) else d.reg off)
      | _ =>
        match clkOutOf off with
        | some (n, 4) => some (d.outStatus n)
        | _ =>
          match tmuOf off with
          | some (n, 8) =>
            let w := setBits (d.reg off) F.TMU_CH_STATUS_STATE (d.tmuCh n).st
            some (match d.tmuClaim n with
              | some c => setBits (setBits w F.TMU_CH_STATUS_CLAIM 1) F.TMU_CH_STATUS_SITE c.site
              | none => w)
          | _ =>
            match mbxOf off with
            | some (n, 4) => some (d.mbxStatus n)
            | _ => none

end Sys2Proof.Machine
end

