-- ==== Sys2Proof/Machine/RegAccess.lean ====
section
/-! DEFINITION. Register reads and writes (spec/00 R7–R12, spec/01 R17, R43, R46, spec/20 R516–R521): how an access is judged, what a write
stores, what is logged, and what it starts. -/

namespace Sys2Proof.Machine

/-! ### Reads -/

/-- The bits of a register that read: every field but the WO ones (R9, R10). -/
def RDesc.readMask (r : RDesc) : Nat :=
  r.fields.foldl (fun m f => if f.ty = RTy.wo then m else natSetField m ⟨f.lsb, f.width⟩ (2 ^ f.width - 1)) 0

/-- What a register reads, without the side effects of a read; 0 where an offset names none (R8). -/
def Dev.shows (d : Dev) (off : Nat) : Word :=
  match regRow off with
  | none => 0
  | some r => (d.view off).getD (d.reg off) &&& BitVec.ofNat 32 r.readMask

/-- A register that latches the upper part of a count into the register above it: the count. TB runs on between the commands, so how far it
has come at a read is free (log entry 7). -/
def Dev.latchedCount (d : Dev) (off : Nat) : Option (Nat × Nat × Dev) :=
  if off = R.TMU_TB_LO then let d := d.tbNow; some (d.tmu.tb % 2 ^ 64, R.TMU_TB_HI, d)
  else if off = R.FLU_EPOCH_LO then some (if d.flue.known then d.flue.epoch else 0, R.FLU_EPOCH_HI, d)
  else if off < 0x100000 then none
  else
    let h := (off - 0x100000) / 65536
    let o := off % 65536
    if 0x100 ≤ o ∧ o < 0x300 ∧ o % 32 = 8 then
      some (if (d.gangMember h ((o - 0x100) / 32)).isSome then 0 else (d.site (16 * h + (o - 0x100) / 32)).run.vc, off + 4, d)
    else if 0xA40 ≤ o ∧ o < 0xAC0 ∧ (o - 0xA40) % 32 = 4 then some ((d.ddsUnit (4 * h + (o - 0xA40) / 32)).ftw, off + 4, d)
    else none

/-- A mailbox register as the endpoint that reads it sees it (R409, R411, R412). -/
def Dev.mbxRead (d : Dev) (origin off : Nat) : Option (Word × Dev) :=
  if 0x50800 ≤ off ∧ off < 0x50880 then some (d.lockRead ((off - 0x50800) / 4) origin)
  else match mbxOf off with
  | none => none
  | some (n, o) =>
    match d.mbxSide n origin with
    | none => none
    | some s =>
      if o = 0x0C then some (d.mbxTake n s)
      else if o = 0x10 then some (d.mbxHead n s, d)
      else if o = 0x18 then some (d.mbxWaitStatus n s, d)
      else none

/-- The port of a lane register whose equaliser adapts while it is read (R326). -/
def Dev.adaptingLane (d : Dev) (off : Nat) : Option Nat :=
  match fluePort off with
  | some (p, o) => if 0x40 ≤ o ∧ o < 0x50 ∧ d.adapting p = true then some p else none
  | none => none

/-- PIN_STATEk of a channel as it is read: LEVEL is the comparator's level state at that instant, MID, LOW or HIGH as the ball stands (R77,
R101). What stands at the ball is the DUT's: free (log entry 119). A grate that is not ON shows MID. -/
def Dev.readLevel (d : Dev) (off : Nat) : Word × Dev :=
  let g := ((grateOf off).getD (0, 0)).1
  if (d.grate g).dom = .on then
    let (n, d) := d.drawNat
    (setBits (d.shows off) F.HRT_GRT_PIN_STATE_LEVEL (n % 3), d)
  else (d.shows off, d)

/-- A static force may reach a limit at any instant (R91, R92, R101): whether it has by the time PPMU_CLAMP is looked at is free (log entry
119). -/
def Dev.staticLimit (d : Dev) (g : Nat) : Dev :=
  if (d.ppmuNow g).isSome && (d.stepOn g).isNone then
    let (hit, d) := d.drawBool
    if hit then d.latch (R.HRT_GRT_STATUS g) F.HRT_GRT_STATUS_PPMU_CLAMP else d
  else d

/-- The grates whose PPMU_CLAMP a register shows: HRT_GRT_STATUS, and HRT_INT_STATUS for its hearth. -/
def clampSeen (off : Nat) : List Nat :=
  match grateOf off with
  | some (g, 0x010) => [g]
  | some _ => []
  | none => if 0x100000 ≤ off ∧ off % 65536 = 0x010 then (List.range 8).map (8 * ((off - 0x100000) / 65536) + ·) else []

/-- Whether an offset is a PIN_STATE register. -/
def isPinState (off : Nat) : Bool :=
  match grateOf off with
  | some (_, o) => decide (0x040 ≤ o ∧ o < 0x060)
  | none => false

/-- A read of a register: its value, and what the read does. The equalisers of a lane have adapted since it was last read (R326). -/
def Dev.regRead (d : Dev) (origin off : Nat) : Word × Dev :=
  match d.latchedCount off with
  | some (v, hi, d) => (wd v, d.setReg hi (wd (v / 2 ^ 32)))
  | none =>
    match d.mbxRead origin off with
    | some x => x
    | none =>
      if off = R.MGT_TIME_NS then d.readTimeNs
      else if off = R.MGT_TS_INFO 0 then d.readTsInfo 0
      else if off = R.MGT_TS_INFO 1 then d.readTsInfo 1
      else if off = R.EMB_RTC_SEC_LO then d.readRtc
      else if off = R.LDG_DATA_LO then d.readLedger
      else if off = R.AUD_COUNT_LO then d.readAudCount
      else if off ≥ 0x100000 ∧ off % 65536 = R.HRT_CAP_PEAK 0 % 65536 then let d := d.peakLook ((off - 0x100000) / 65536); (d.shows off, d)
      else if isPinState off then d.readLevel off
      else
        let d := (clampSeen off).foldl (fun d g => d.staticLimit g) d
        let d := match d.adaptingLane off with | some p => d.adaptLanes p | none => d
        (d.shows off, d)

/-- How a read of a register is judged (R7, R407, R516). -/
def Dev.judgeRead (d : Dev) (origin off : Nat) : Option Nat :=
  if off % 4 ≠ 0 then some vkAlignment
  else if !(d.permReg origin off false) then some vkPermission
  else d.mbxReadRule origin (regCanon off)

/-- A core reads a register: the value, or a bus error. A device whose kindling has stopped answers only JTAG and Leloisk (R29, R538): the access
is not answered. -/
def Dev.readReg (d : Dev) (origin off : Nat) : Dev :=
  if d.board.stopped then d
  else match d.judgeRead origin off with
  | some k => d.refuse origin (regBase + off) k
  | none => let (w, d) := d.regRead origin (regCanon off); d.out (.readData origin (regBase + off) w)

/-! ### What a write stores -/

/-- Writes of other chapters that set another value than written (spec/06 R204, spec/07 R225, spec/14 R405). -/
def seqNorm (off : Nat) (w : Word) : Word :=
  if off = R.HRT_SEQ_CFG then
    (if getBits w F.HRT_SEQ_CFG_RDV_LEAD < 2 then setBits w F.HRT_SEQ_CFG_RDV_LEAD 2 else w)
  else if off ≥ 0x100000 ∧ off % 65536 = 0x600 then
    let n := getBits w F.HRT_STR_CFG_ENGINES
    if n = 0 ∨ 5 ≤ n then setBits w F.HRT_STR_CFG_ENGINES 4 else w
  else if off = R.DRT_CFG then (if getBits w F.DRT_CFG_HASH_SHIFT > 10 then setBits w F.DRT_CFG_HASH_SHIFT 10 else w)
  else if 0x70100 ≤ off ∧ off < 0x70200 ∧ (off - 0x70100) % 0x20 = 4 then
    (if getBits w F.DRT_Q_CTRL_SPILL_THRESH = 0 then setBits w F.DRT_Q_CTRL_SPILL_THRESH 1 else w)
  else w

/-- The word that a written word stands for. -/
def regNorm (off : Nat) (w : Word) : Word :=
  if off ≥ 0x100000 then grateNorm off (seqNorm off w)
  else match off / 65536 with
  | 3 => clkNorm off w
  | 4 => faultNorm off w
  | 7 => seqNorm off w
  | 8 | 9 => dramNorm off w
  | 10 => flueNorm off w
  | 11 => mgtNorm off w
  | 12 => tmuNorm off w
  | _ => w

/-- One field after a write (R10): `acc` is the word so far. -/
def RField.store (f : RField) (old w acc : Nat) : Nat :=
  let l : Fld := ⟨f.lsb, f.width⟩
  match f.ty with
  | .rw => natSetField acc l (natField w l)
  | .w1c => natSetField acc l (natField old l &&& ((2 ^ f.width - 1) ^^^ natField w l))
  | .w1s => natSetField acc l (natField old l ||| natField w l)
  | .ro | .wo | .rl => acc

/-- A register after a write. -/
def RDesc.store (r : RDesc) (old w : Word) : Word :=
  BitVec.ofNat 32 (r.fields.foldl (fun acc f => f.store old.toNat w.toNat acc) old.toNat)

/-! ### How a write is judged -/

/-- Whether a write meets the run-locked fields of a register (R17): a value would change, or a WO field is written 1. -/
def RDesc.meetsLock (r : RDesc) (all : Bool) (old w : Word) : Bool :=
  r.fields.any (fun f => (f.lock || all) &&
    (match f.ty with
     | .wo => getBits w ⟨f.lsb, f.width⟩ != 0
     | .rw => getBits old ⟨f.lsb, f.width⟩ != getBits w ⟨f.lsb, f.width⟩
     | _ => false))

/-- Whether the lock of a register's run-locked fields holds (R17 and the owning chapters). -/
def Dev.lockHolds (d : Dev) (off : Nat) : Bool :=
  if off ≥ 0x100000 then (if off = R.HRT_SEQ_CFG then d.anyBusy else d.hearthBusy ((off - 0x100000) / 65536))
  else match pllOf off with
  | some _ => d.pllLockedBy off
  | none => if off / 65536 = 10 then d.multiBusy else d.anyBusy

/-- Registers all of whose fields are run-locked though their tables mark one field or none (R405, R479). -/
def lockedWhole (off : Nat) : Bool := (fltCfgOf off).isSome || (R.DRT_RECIPE 0 ≤ off && off < R.DRT_RECIPE 16)

/-- Whether a run lock refuses a write. -/
def Dev.runLocked (d : Dev) (off : Nat) (old w : Word) : Bool :=
  d.tmuLocked off old w ||
  (match regRow off with
   | some r => r.meetsLock (lockedWhole off) old w && d.lockHolds off
   | none => false)

/-- Field-value, state and fixed-origin rules of the owning chapters. -/
def Dev.chapterRule (d : Dev) (origin off : Nat) (w : Word) : Option Nat :=
  if off ≥ 0x100000 then
    match d.holdRule off w, grateOf off with
    | some k, _ => some k
    | none, some (g, 0) => failWhen (getBits w F.HRT_GRT_PWR_POLICY == polOff && (d.staticPin g).isSome) vkValue
    | none, _ => none
  else match off / 65536 with
  | 1 => powerRule origin off w
  | 2 =>
    match d.supRule off w with
    | some k =>
      let old := d.reg off
      if k = vkRunLock ∧ (regRow off).elim old (fun r => r.store old w) = old then none else some k
    | none => powerRule origin off w
  | 3 => d.clkRule off w
  | 4 => d.faultRule origin off w
  | 5 => d.mbxRule origin off w
  | 6 => d.ringRule off w
  | 7 => d.drtRule off w
  | 10 => d.flueRule off w
  | 11 => d.mgtRule off w
  | 13 => d.calRule off
  | 14 => d.ledgerRule origin off w
  | 15 => d.secRule origin off w
  | _ => none

/-- How a write of a 32-bit word at an offset of register space is judged; the first rule that refuses gives the kind (R518). -/
def Dev.judgeWrite (d : Dev) (origin off : Nat) (w : Word) : Option Nat :=
  if off % 4 ≠ 0 then some vkAlignment
  else if !(d.permReg origin off true) then some vkPermission
  else
    let c := regCanon off
    let v := regNorm c w
    match d.chapterRule origin c v with
    | some k => some k
    | none => failWhen (d.runLocked c (d.reg c) v) vkRunLock

/-! ### What a write logs -/

/-- Registers whose writes are not logged (R519). -/
def unloggedReg (off : Nat) : Bool :=
  if off ≥ 0x100000 then off == R.HRT_HOLD_CI || off % 65536 == 0x40C
  else if off / 65536 = 5 then (match mbxOf off with | some (_, o) => mbxOwn o | none => 0x50800 ≤ off && off < 0x50880)
  else if off / 65536 = 7 then off == R.DRT_RES_CI || (0x70100 ≤ off && off < 0x70200 && (off - 0x70100) % 0x20 == 0xC)
  else match tmuOf off with
  | some (n, o) => R.TMU_CH_RD n == R.TMU_CH_CFG n + o
  | none => false

/-- Whether a write only acknowledges W1C fields, or has no field to act on. -/
def RDesc.onlyAck (r : RDesc) (old w : Word) : Bool :=
  let acts := r.fields.any (fun f => f.ty == RTy.rw || f.ty == RTy.wo || f.ty == RTy.w1s)
  let acks := r.fields.any (fun f => f.ty == RTy.w1c && getBits w ⟨f.lsb, f.width⟩ != 0)
  let moves := r.fields.any (fun f => match f.ty with
    | .rw => getBits old ⟨f.lsb, f.width⟩ != getBits w ⟨f.lsb, f.width⟩
    | .wo | .w1s => getBits w ⟨f.lsb, f.width⟩ != 0
    | _ => false)
  !acts || (acks && !moves)

/-- The audit entry of a device-time register, or of none (R519, R521). -/
def Dev.logTime (d : Dev) (origin off : Nat) (w : Word) : Option Dev :=
  let old := bytesOf 6 d.time.secs
  if off = R.MGT_TIME_ADJ then
    some (if (sgn w.toNat 32).natAbs < 1000 then d else d.log origin 0x0C (regBase + off) old w.toNat)
  else if off = R.MGT_TIME_SET_SEC_HI then some (d.log origin 0x0C (regBase + off) old w.toNat)
  else if off = R.MGT_TIME_INC_HI ∨ off = R.MGT_TIME_INC_LO then
    let v := if off = R.MGT_TIME_INC_HI then d.incOf w else d.time.inc / 2 ^ 32 * 2 ^ 32 + w.toNat
    let last := d.time.lastIncLogged
    let near := ((v : Int) - last).natAbs * 10000 ≤ last
    if near && d.time.secs < d.time.lastIncSecs + 3600 then some d
    else
      let d := d.log origin 0x01 (regBase + off) (bytesOf 4 (d.shows off).toNat) w.toNat
      some (if off = R.MGT_TIME_INC_HI then { d with time := { d.time with lastIncLogged := v, lastIncSecs := d.time.secs } } else d)
  else none

/-- The audit entry of an accepted write (R41, R519–R521). -/
def Dev.logWrite (d : Dev) (origin off : Nat) (w : Word) : Dev :=
  match regRow off with
  | none => d
  | some r =>
    if unloggedReg off || r.onlyAck (d.reg off) w then d
    else match d.logTime origin off w with
    | some d => d
    | none => d.log origin 0x01 (regBase + off) (bytesOf 4 (d.shows off).toNat) w.toNat

/-! ### What a write starts -/

/-- HRT_*_REFUSE registers of a hearth: writing 1 to VALID clears the report. -/
def isRefuse (off : Nat) : Bool := off ≥ 0x100000 && [0x408, 0x018, 0x60C, 0x800, 0xA00].contains (off % 65536)

/-- UP and DOWN of PWR_SUP_CTRL; `pmbFail` says that the first step's PMB1 transaction fails. -/
def Dev.supCtrl (d : Dev) (w : Word) (pmbFail : Bool) : Dev :=
  if getBits w F.PWR_SUP_CTRL_UP = 1 then d.supStart true pmbFail
  else if getBits w F.PWR_SUP_CTRL_DOWN = 1 then d.supStart false pmbFail
  else d

/-- The effects of an accepted write. `old` is the register before it; what only the outside knows is drawn free (log entry 7). -/
def Dev.regEffect (d : Dev) (origin off : Nat) (old w : Word) : Dev :=
  if off ≥ 0x100000 then
    if isRefuse off then (if tbit w.toNat 0 then d.setReg off 0 else d)
    else if off = R.HRT_HOLD_CTRL then d.holdCtrl old w
    else d.grateEffect off
  else match off / 65536 with
  | 1 => if off = R.EMB_PSTATE_REQ then d.pstateReq origin w else d
  | 2 =>
    if off = R.PWR_DOMAIN_CTRL then d.domainCtrl old w
    else if off = R.PWR_SUP_CTRL then let (b, d) := d.drawBool; d.supCtrl w b
    else if off = R.PWR_SUP_READ ∧ getBits w F.PWR_SUP_READ_GO = 1 then d.supReadFree
    else d
  | 3 => d.clkEffect off old w
  | 4 => d.faultEffect off w
  | 5 => d.mbxEffect origin off old w
  | 6 => d.ringEffect origin off w
  | 7 => d.drtEffect off old w
  | 8 | 9 => d.dramEffect off w
  | 10 => d.flueEffect off w
  | 11 => d.mgtEffect off w
  | 12 => d.tmuEffect off w
  | 13 => if off = R.CAL_PROC ∧ getBits w F.CAL_PROC_GO = 1 then d.calGo else d
  | 14 => d.ledgerEffect origin off w
  | 15 => d.secEffect origin off w
  | _ => d

/-! ### Writes -/

/-- FLT_WORD clears by its lines, not by its bits alone (R464). -/
def isFaultWord (off : Nat) : Bool := off == R.FLT_WORD_LO || off == R.FLT_WORD_HI

/-- An accepted write: logged, stored, and acted on by `eff`, which is told the register, its content before and the word (R8, R10). -/
def Dev.doWriteVia (d : Dev) (origin off : Nat) (w : Word) (eff : Dev → Nat → Word → Word → Dev) : Dev :=
  let c := regCanon off
  match regRow c with
  | none => d
  | some r =>
    let v := regNorm c w
    let old := d.reg c
    let d := d.logWrite origin c w
    let d := if isFaultWord c then d else d.setReg c (r.store old v)
    eff d c old v

/-- An accepted write with the effects of its register. -/
def Dev.doWrite (d : Dev) (origin off : Nat) (w : Word) : Dev :=
  d.doWriteVia origin off w (fun d c old v => d.regEffect origin c old v)

/-- What a refused write still does to a mailbox (R408). -/
def Dev.refusedWrite (d : Dev) (origin off kind : Nat) : Dev :=
  if kind = vkValue then d.mbxRefused origin (regCanon off) else d

/-- A core writes a register: refused with a bus error, or done with `eff`; after a stopped kindling not answered (R29, R538). -/
def Dev.writeVia (d : Dev) (origin off : Nat) (w : Word) (eff : Dev → Nat → Word → Word → Dev) : Dev :=
  if d.board.stopped then d
  else match d.judgeWrite origin off w with
  | some k => (d.refusedWrite origin off k).refuse origin (regBase + off) k
  | none => d.doWriteVia origin off w eff

/-- A core writes a register. -/
def Dev.writeReg (d : Dev) (origin off : Nat) (w : Word) : Dev :=
  d.writeVia origin off w (fun d c old v => d.regEffect origin c old v)

end Sys2Proof.Machine
end

