-- ==== Sys2Proof/Machine/Operands.lean ====
section
/-! DEFINITION. Words that commands make of their operands: the own EVENT bit of a mailbox endpoint (R415), SEC_CTRL with GO (R543). -/

namespace Sys2Proof.Machine

/-- The word with which an endpoint clears its own EVENT bit of MBX_n_STATUS (R415, R418). -/
def ownEvent : Option Side → Word
  | some .a => 1
  | some .b => 2
  | none => 0

/-- SEC_CTRL that starts operation `op` with ARG (R543). -/
def secWord (op arg : Nat) : Word :=
  setBits (setBits (setBits 0#32 F.SEC_CTRL_ARG arg) F.SEC_CTRL_OP op) F.SEC_CTRL_GO 1

end Sys2Proof.Machine
end

