-- ==== Sys2Proof/Machine/MeaningsBoard.lean ====
section
/-! DEFINITION. Meanings of the commands of the family Board. -/

namespace Sys2Proof.Machine

/-- POWER_ON (R545). -/
def execPowerOn (e : KindleEnv) (s : State) : Host.Outcome State Fault Refusal :=
  s.act (fun d => d.powerOn e)

/-- VDD_EMBER_LOSS (R552). -/
def execVddEmberLoss (s : State) : Host.Outcome State Fault Refusal :=
  s.act (fun d => d.emberLoss)

/-- RESET_N (R60). -/
def execResetN (ns : Nat) (s : State) : Host.Outcome State Fault Refusal :=
  s.act (fun d => d.resetN ns)

/-- DEVICE_RESET_AFTER_DOUSE (R60). -/
def execDeviceResetAfterDouse (e : KindleEnv) (s : State) : Host.Outcome State Fault Refusal :=
  s.act (fun d => d.deviceReset e)

/-- DOUSE_N (R59). -/
def execDouseN (ns : Nat) (s : State) : Host.Outcome State Fault Refusal :=
  s.act (fun d => (d.douseN ns).procKick)

/-- DOUSE_N_HIGH (R59). -/
def execDouseNHigh (s : State) : Host.Outcome State Fault Refusal :=
  s.act (fun d => d.douseHigh.procKick)

end Sys2Proof.Machine
end

