-- ==== Sys2Proof/Machine/MeaningsCalibrate.lean ====
section
/-! DEFINITION. Meanings of the commands of the family Calibrate. -/

namespace Sys2Proof.Machine

/-- LINEARITY (R486). -/
def execLinearity (o : Origin) (hearths : Nat) (s : State) : Host.Outcome State Fault Refusal :=
  s.act (fun d => d.writeReg o.id R.CAL_PROC (setBits (setBits (setBits 0#32 F.CAL_PROC_PROC 1) F.CAL_PROC_HEARTHS hearths) F.CAL_PROC_GO 1))

/-- LEVELS (R486). -/
def execLevels (o : Origin) (hearths : Nat) (s : State) : Host.Outcome State Fault Refusal :=
  s.act (fun d => d.writeReg o.id R.CAL_PROC (setBits (setBits (setBits 0#32 F.CAL_PROC_PROC 2) F.CAL_PROC_HEARTHS hearths) F.CAL_PROC_GO 1))

/-- DESKEW (R486). -/
def execDeskew (o : Origin) (hearths : Nat) (s : State) : Host.Outcome State Fault Refusal :=
  s.act (fun d => d.writeReg o.id R.CAL_PROC (setBits (setBits (setBits 0#32 F.CAL_PROC_PROC 3) F.CAL_PROC_HEARTHS hearths) F.CAL_PROC_GO 1))

/-- CAL_PROC_DONE (R487). -/
def execCalProcDone (h : Fin 16) (fail : Option (Nat × Nat)) (measured : List Byte) (s : State) : Host.Outcome State Fault Refusal :=
  s.act (fun d => d.calProcDone h fail measured)

end Sys2Proof.Machine
end

