-- ==== Sys2Proof/Machine/MeaningsClock.lean ====
section
/-! DEFINITION. Meanings of the commands of the family Clock. -/

namespace Sys2Proof.Machine

/-- CLK_PLL_CTRL_WRITE (R310). -/
def execClkPllCtrlWrite (o : Origin) (p : Fin 6) (w : Word) (s : State) : Host.Outcome State Fault Refusal :=
  s.act (fun d => d.writeReg o.id (R.CLK_PLL_CTRL p) w)

/-- PLL_IN_LOCK_WINDOW (R307). -/
def execPllInLockWindow (p : Fin 6) (s : State) : Host.Outcome State Fault Refusal :=
  s.act (fun d => d.inLockWindow p)

/-- ACQ_TIMEOUT (R307). -/
def execAcqTimeout (p : Fin 6) (s : State) : Host.Outcome State Fault Refusal :=
  s.act (fun d => d.acqTimeout p)

/-- SETTLE_END (R307). -/
def execSettleEnd (p : Fin 6) (s : State) : Host.Outcome State Fault Refusal :=
  s.act (fun d => d.settleEnd p)

/-- LOCK_LOSS (R308). -/
def execLockLoss (p : Fin 6) (s : State) : Host.Outcome State Fault Refusal :=
  s.act (fun d => d.lockLoss p)

/-- NEAR_RAIL (R314). -/
def execNearRail (p : Fin 6) (s : State) : Host.Outcome State Fault Refusal :=
  s.act (fun d => d.nearRail p)

/-- REFCLK_ABSENT (R263). -/
def execRefclkAbsent (lastTick : Nat) (s : State) : Host.Outcome State Fault Refusal :=
  s.act (fun d => (d.refAbsent lastTick).procKick)

/-- REFCLK_PRESENT (R312). -/
def execRefclkPresent (s : State) : Host.Outcome State Fault Refusal :=
  s.act (fun d => d.refPresentAgain)

/-- MEASURE (R305). -/
def execMeasure (o : Origin) (w : Word) (s : State) : Host.Outcome State Fault Refusal :=
  s.act (fun d => d.writeReg o.id (R.CLK_BAND_SEL) (setBits w F.CLK_BAND_SEL_MEASURE 1))

/-- BAND_MEASURE_DONE (R305). -/
def execBandMeasureDone (low high : Nat) (s : State) : Host.Outcome State Fault Refusal :=
  s.act (fun d => d.measureDone low high)

/-- GRID_PHASE_STEP (R315). -/
def execGridPhaseStep (s : State) : Host.Outcome State Fault Refusal :=
  s.act (fun d => d.gridPhaseStep)

/-- CLK_OUT_CFG_WRITE (R319). -/
def execClkOutCfgWrite (o : Origin) (p : Fin 4) (w : Word) (s : State) : Host.Outcome State Fault Refusal :=
  s.act (fun d => d.writeReg o.id (R.CLK_OUT_CFG p) w)

/-- EMBER_CLK_FAIL (R302). -/
def execEmberClkFail (s : State) : Host.Outcome State Fault Refusal :=
  s.act (fun d => d.emberFail)

/-- EMBER_CLK_RETURN (R302). -/
def execEmberClkReturn (s : State) : Host.Outcome State Fault Refusal :=
  s.act (fun d => d.emberReturn)

end Sys2Proof.Machine
end

