-- ==== Sys2Proof/Machine/MeaningsCommit.lean ====
section
/-! DEFINITION. Meanings of the commands of the family Commit. -/

namespace Sys2Proof.Machine

/-- COMMIT (R561). -/
def execCommit (n : Fin 64) (s : State) : Host.Outcome State Fault Refusal :=
  s.act (fun d => d.commitTake n)

/-- RUN_BOUNDARY_APPLY (R20). -/
def execRunBoundaryApply (h : Fin 16) (s : State) : Host.Outcome State Fault Refusal :=
  s.act (fun d => d.runBoundaryApply h)

/-- POOL_LOAD_DONE (R209). -/
def execPoolLoadDone (h : Fin 16) (s : State) : Host.Outcome State Fault Refusal :=
  s.act (fun d => d.poolDone h)

/-- SETTLE_TIME_END (R82). -/
def execSettleTimeEnd (x : Settle) (s : State) : Host.Outcome State Fault Refusal :=
  s.act (fun d => d.settleEndAll x)

/-- CAL_COMMIT (R490). -/
def execCalCommit (n : Fin 64) (fails : List Nat) (s : State) : Host.Outcome State Fault Refusal :=
  s.act (fun d => d.calCommit n fails)

/-- CAL_TABLE_APPLY (R490). -/
def execCalTableApply (k : Fin 19) (fails : Bool) (s : State) : Host.Outcome State Fault Refusal :=
  s.act (fun d => d.calTableApply k fails)

end Sys2Proof.Machine
end

