-- ==== Sys2Proof/Machine/MeaningsDeviceTime.lean ====
section
/-! DEFINITION. Meanings of the commands of the family DeviceTime. -/

namespace Sys2Proof.Machine

/-- DEVICE_TIME_TICK (R501). -/
def execDeviceTimeTick (s : State) : Host.Outcome State Fault Refusal :=
  s.act (fun d => (d.timeTick).calDates)

/-- MGT_TIME_INC_WRITE (R503). -/
def execMgtTimeIncWrite (o : Origin) (w : Word) (s : State) : Host.Outcome State Fault Refusal :=
  s.act (fun d => d.writeReg o.id (R.MGT_TIME_INC_HI) w)

/-- MGT_TIME_ADJ_WRITE (R503). -/
def execMgtTimeAdjWrite (o : Origin) (w : Word) (s : State) : Host.Outcome State Fault Refusal :=
  s.act (fun d => d.writeReg o.id (R.MGT_TIME_ADJ) w)

/-- MGT_TIME_SET_SEC_WRITE (R503). -/
def execMgtTimeSetSecWrite (o : Origin) (w : Word) (s : State) : Host.Outcome State Fault Refusal :=
  s.act (fun d => d.writeReg o.id (R.MGT_TIME_SET_SEC_HI) w)

/-- MGT_PTP_MASTER_WRITE (R508). -/
def execMgtPtpMasterWrite (o : Origin) (w : Word) (s : State) : Host.Outcome State Fault Refusal :=
  s.act (fun d => d.writeReg o.id (R.MGT_PTP_MASTER 2) w)

/-- PTP_TIMESTAMP (R506). -/
def execPtpTimestamp (p : Fin 2) (tx : Bool) (type seqId : Nat) (sender : PtpSender) (delta : Int) (s : State) : Host.Outcome State Fault Refusal :=
  s.act (fun d => d.ptpStamp p tx ⟨sender.domain, type, seqId, sender.source⟩ delta)

/-- SYNC_TIMEOUT (R508). -/
def execSyncTimeout (s : State) : Host.Outcome State Fault Refusal :=
  s.act (fun d => d.ptpTimeout)

/-- MGT_FRAME_RECEIVE (R499). -/
def execMgtFrameReceive (p : Fin 2) (bytes : List Byte) (fcsOk : Bool) (residence : Int) (s : State) : Host.Outcome State Fault Refusal :=
  s.act (fun d => d.frameReceive p bytes fcsOk residence)

/-- MGT_TSP_INFO_READ (R506). -/
def execMgtTspInfoRead (o : Origin) (p : Fin 2) (s : State) : Host.Outcome State Fault Refusal :=
  s.act (fun d => d.readReg o.id (R.MGT_TS_INFO p))

/-- MGT_LINK_CHANGE (R498). -/
def execMgtLinkChange (p : Fin 2) (up anDone speedBad : Bool) (s : State) : Host.Outcome State Fault Refusal :=
  s.act (fun d => d.mgtLink p up anDone speedBad)

end Sys2Proof.Machine
end

