-- ==== Sys2Proof/Machine/MeaningsDram.lean ====
section
/-! DEFINITION. Meanings of the commands of the family Dram. -/

namespace Sys2Proof.Machine

/-- REFRESH_DUE (R431). -/
def execRefreshDue (c : Fin 8) (realTime : Bool) (s : State) : Host.Outcome State Fault Refusal :=
  s.act (fun d => d.refreshDue c realTime)

/-- MAKEUP_BURST (R432). -/
def execMakeupBurst (c : Fin 8) (s : State) : Host.Outcome State Fault Refusal :=
  s.act (fun d => d.makeupBurst c)

/-- MR4_POLL (R434). -/
def execMr4Poll (c : Fin 8) (mr4 : Nat) (twice hot : Bool) (s : State) : Host.Outcome State Fault Refusal :=
  s.act (fun d => d.mr4Poll c mr4 twice hot)

/-- RETRAIN_PAUSE (R429). -/
def execRetrainPause (c : Fin 8) (gap expired : Bool) (ns : Nat) (fails : Bool) (s : State) : Host.Outcome State Fault Refusal :=
  s.act (fun d => d.retrainPause c gap expired ns fails)

/-- SCRUB_READ (R427). -/
def execScrubRead (c : Fin 8) (e : Ecc) (s : State) : Host.Outcome State Fault Refusal :=
  s.act (fun d => d.scrubRead c e)

/-- DRAM_READ_COMPLETE (R424, R439, R441). -/
def execDramReadComplete (c : Fin 8) (arrivals : List DramReq) (now : Nat) (e : Ecc) (s : State) : Host.Outcome State Fault Refusal :=
  s.act (fun d => d.dramComplete c arrivals now e)

/-- ALERT_N_PARITY (R443). -/
def execAlertNParity (c : Fin 8) (rings : List Nat) (s : State) : Host.Outcome State Fault Refusal :=
  s.act (fun d => d.alertParity c rings)

/-- HOT_WINDOW_END (R442). -/
def execHotWindowEnd (bytes busy : List Nat) (s : State) : Host.Outcome State Fault Refusal :=
  s.act (fun d => d.hotWindow bytes busy)

end Sys2Proof.Machine
end

