-- ==== Sys2Proof/Machine/MeaningsDraught.lean ====
section
/-! DEFINITION. Meanings of the commands of the family Draught. -/

namespace Sys2Proof.Machine

/-- SUMMARY_POST (R387). -/
def execSummaryPost (site : Fin 256) (s : State) : Host.Outcome State Fault Refusal :=
  s.act (fun d => d.summaryPost site)

/-- WINDOW_OPERAND_POST (R253). -/
def execWindowOperandPost (site : Fin 256) (s : State) : Host.Outcome State Fault Refusal :=
  s.act (fun d => d.windowPost site)

/-- OPERAND_ACCEPT (R390). -/
def execOperandAccept (site : Fin 256) (s : State) : Host.Outcome State Fault Refusal :=
  s.act (fun d => d.operandAccept site)

/-- AGE_OUT (R394). -/
def execAgeOut (flow : Fin 1024) (eseq : Nat) (s : State) : Host.Outcome State Fault Refusal :=
  s.act (fun d => d.ageOut flow eseq)

/-- DISPATCH (R398). -/
def execDispatch (s : State) : Host.Outcome State Fault Refusal :=
  s.act (fun d => d.dispatch)

/-- DRT_QC_CI_WRITE (R400). -/
def execDrtQcCiWrite (o : Origin) (c : Fin 8) (w : Word) (s : State) : Host.Outcome State Fault Refusal :=
  s.act (fun d => d.writeReg o.id (R.DRT_Q_CI c) w)

/-- RELEASE (R401). -/
def execRelease (s : State) : Host.Outcome State Fault Refusal :=
  s.act (fun d => d.release)

/-- DRT_RES_CI_WRITE (R401). -/
def execDrtResCiWrite (o : Origin) (w : Word) (s : State) : Host.Outcome State Fault Refusal :=
  s.act (fun d => d.writeReg o.id (R.DRT_RES_CI) w)

/-- DRT_CFG_WRITE (R402). -/
def execDrtCfgWrite (o : Origin) (w : Word) (s : State) : Host.Outcome State Fault Refusal :=
  s.act (fun d => d.writeReg o.id (R.DRT_CFG) w)

end Sys2Proof.Machine
end

