-- ==== Sys2Proof/Machine/Epoch.lean ====
section
/-! DEFINITION. SYNC edges and the epoch number (spec/11 R316, spec/12 R340–R342, R345, R347, spec/06 R192, R202, spec/09 R261–R264). -/

namespace Sys2Proof.Machine

/-- The number of the epoch that the present SYNC edge opens (R340–R342): the manager's or a standalone device's generator count, the number
of an accepted marker, or one more than the present number. -/
def Dev.edgeEpoch (d : Dev) : Option Nat :=
  match d.flue.assign with
  | some e => some e
  | none =>
    if d.role ≠ 2 ∧ d.flag R.CLK_SYNC_STATUS F.CLK_SYNC_STATUS_GEN = true then (if d.flue.genCount = 0 then none else some (d.flue.genCount - 1))
    else if d.flue.known then some (d.flue.epoch + 1) else none

/-- A generator's edge needs a new pulse (R340). -/
def Dev.edgeNew (d : Dev) : Bool :=
  match d.edgeEpoch with
  | some e => !(d.flue.known && e == d.flue.epoch)
  | none => true

/-- STOPs whose epoch has come, for the starts that they name (R347). -/
def Dev.stopsDue (d : Dev) : Dev :=
  let due := d.flue.stops.filter (fun x => x.1 ≤ d.flue.epoch)
  let d := { d with flue := { d.flue with stops := d.flue.stops.filter (fun x => d.flue.epoch < x.1) } }
  (due.flatMap (·.2)).foldl (fun (d : Dev) x => if (d.site x.1).start = x.2 then d.stopSite x.1 else d) d

/-- FAIL events received since the last edge act, for the starts that they name (R345). -/
def Dev.failsDue (d : Dev) : Dev :=
  let l := d.flue.fails
  l.foldl (fun (d : Dev) x => if (d.site x.1).start = x.2 then d.smother x.1 9 true else d) { d with flue := { d.flue with fails := [] } }

/-- TB at the skew-corrected SYNC edge: DELAY_TICKS grid ticks after the first tick in which SYNC is sampled high (R316). -/
def Dev.corrected (d : Dev) (tick : Nat) : Nat := tick + d.getF R.CLK_SYNC_CFG F.CLK_SYNC_CFG_DELAY_TICKS

/-- SYNC_EDGE: SYNC is first sampled high in the tick in which TB reads `tick`, and the skew-corrected edge follows. -/
def Dev.syncEdge (d : Dev) (tick : Nat) : Dev :=
  if !d.running || !d.edgeNew then d
  else
    let e? := d.edgeEpoch
    let d := { d with flue := { d.flue with known := e?.isSome, epoch := e?.getD d.flue.epoch, everKnown := d.flue.everKnown || e?.isSome, assign := none } }
    let d := d.tmuSync (d.corrected tick)
    if !d.flue.known then d.failsDue
    else
      let d := ((d.stopsDue).failsDue).windowGuards
      d.seq.starts.foldl (fun (d : Dev) (r : Start) => d.rdvCheck r.id) d

/-- SYNC_MISSING: no edge within 40,008 ticks of the last one (R316, R342). The epoch number is lost, TB is not valid, and the sites in a run
are smothered (R32 (b)). A number accepted for the missing edge is of no other edge. -/
def Dev.syncMissing (d : Dev) : Dev :=
  if !d.running then d
  else
    let d := (d.bump R.CLK_SYNC_STATUS F.CLK_SYNC_STATUS_MISSED).latch R.CLK_INT_STATUS F.CLK_INT_STATUS_SYNC_MISSING
    let d := { d with flue := { d.flue with known := false, assign := none } }
    ((d.skewAbort).tbLost).smotherAll d.activeSites 2

end Sys2Proof.Machine
end

