-- ==== Sys2Proof/Machine/MeaningsEpoch.lean ====
section
/-! DEFINITION. Meanings of the commands of the family Epoch. -/

namespace Sys2Proof.Machine

/-- SYNC_EDGE (R316). -/
def execSyncEdge (tick : Nat) (s : State) : Host.Outcome State Fault Refusal :=
  s.act (fun d => d.syncEdge tick)

/-- SYNC_MISSING (R316). -/
def execSyncMissing (s : State) : Host.Outcome State Fault Refusal :=
  s.act (fun d => d.syncMissing)

/-- SYNC_PULSE_GEN (R317). -/
def execSyncPulseGen (s : State) : Host.Outcome State Fault Refusal :=
  s.act (fun d => d.syncPulse)

end Sys2Proof.Machine
end

