-- ==== Sys2Proof/Machine/MeaningsFault.lean ====
section
/-! DEFINITION. Meanings of the commands of the family Fault. -/

namespace Sys2Proof.Machine

/-- FAULT_LINE_ASSERT (R464). -/
def execFaultLineAssert (lines : List (Nat × Nat)) (s : State) : Host.Outcome State Fault Refusal :=
  s.act (fun d => (d.raiseAll lines).procKick)

/-- DOUSE_SUPPLY_STEP (R460). -/
def execDouseSupplyStep (pmbFail : List Nat) (s : State) : Host.Outcome State Fault Refusal :=
  s.act (fun d => d.douseSupplyStep pmbFail)

/-- DOUSE_RELAY_STEP (R469). -/
def execDouseRelayStep (s : State) : Host.Outcome State Fault Refusal :=
  s.act (fun d => d.douseRelayStep)

/-- FLT_DOUSE (R473). -/
def execFltDouse (o : Origin) (w : Word) (s : State) : Host.Outcome State Fault Refusal :=
  s.act (fun d => (d.writeReg o.id (R.FLT_DOUSE) w).procKick)

/-- FLT_WORD_CLEAR (R464). -/
def execFltWordClear (o : Origin) (hi : Bool) (w : Word) (held : Nat) (s : State) : Host.Outcome State Fault Refusal :=
  s.act (fun d => d.writeVia o.id (if hi then R.FLT_WORD_HI else R.FLT_WORD_LO) w (fun d _ _ v => d.faultClear (if hi then 32 else 0) v held))

/-- FLT_CFG_WRITE (R465). -/
def execFltCfgWrite (o : Origin) (k : Fin 8) (w : Word) (s : State) : Host.Outcome State Fault Refusal :=
  s.act (fun d => d.writeReg o.id (R.FLT_CFG k) w)

/-- FLT_INJECT (R478). -/
def execFltInject (o : Origin) (hi : Bool) (w : Word) (s : State) : Host.Outcome State Fault Refusal :=
  s.act (fun d => (d.writeReg o.id (if hi then R.FLT_INJECT_HI else R.FLT_INJECT_LO) w).procKick)

/-- DRV_OVL (R89). -/
def execDrvOvl (g : Fin 128) (pin : Option (Fin 8)) (s : State) : Host.Outcome State Fault Refusal :=
  s.act (fun d => (d.drvOvl g (pin.map Fin.val)).procKick)

end Sys2Proof.Machine
end

