-- ==== Sys2Proof/Machine/MeaningsFlueLink.lean ====
section
/-! DEFINITION. Meanings of the commands of the family FlueLink. -/

namespace Sys2Proof.Machine

/-- FLUE_PORT_ENABLE (R327). -/
def execFluePortEnable (o : Origin) (p : Fin 4) (on : Bool) (w : Word) (s : State) : Host.Outcome State Fault Refusal :=
  s.act (fun d => d.writeReg o.id (R.FLU_PORT_CTRL p) (setBits w F.FLU_PORT_CTRL_ENABLE (bit on)))

/-- RETRAIN (R327). -/
def execRetrain (o : Origin) (p : Fin 4) (w : Word) (s : State) : Host.Outcome State Fault Refusal :=
  s.act (fun d => d.writeReg o.id (R.FLU_PORT_CTRL p) (setBits w F.FLU_PORT_CTRL_RETRAIN 1))

/-- IDENT (R336). -/
def execIdent (p : Fin 4) (device role port polarity : Nat) (trained : Trained) (s : State) : Host.Outcome State Fault Refusal :=
  s.act (fun d => d.ident p device role port polarity trained.lanes trained.both)

/-- TRAIN_TIMEOUT (R327). -/
def execTrainTimeout (p : Fin 4) (s : State) : Host.Outcome State Fault Refusal :=
  s.act (fun d => d.trainTimeout p)

/-- PORT_IDLE_ENTRY (R328). -/
def execPortIdleEntry (p : Fin 4) (s : State) : Host.Outcome State Fault Refusal :=
  s.act (fun d => d.portIdle p)

/-- PORT_WAKE (R327). -/
def execPortWake (p : Fin 4) (s : State) : Host.Outcome State Fault Refusal :=
  s.act (fun d => d.portWake p)

/-- WAKE_BURST_ALIGNED (R327). -/
def execWakeBurstAligned (p : Fin 4) (s : State) : Host.Outcome State Fault Refusal :=
  s.act (fun d => d.wakeAligned p)

/-- WAKE_TIMEOUT (R327). -/
def execWakeTimeout (p : Fin 4) (s : State) : Host.Outcome State Fault Refusal :=
  s.act (fun d => d.wakeTimeout p)

/-- LINK (R332). -/
def execLink (p : Fin 4) (ack : Nat) (nak valid : Bool) (ev rsp req : Nat) (s : State) : Host.Outcome State Fault Refusal :=
  s.act (fun d => d.link p ack nak valid ev rsp req)

/-- REPLAY_TIMEOUT (R332). -/
def execReplayTimeout (p : Fin 4) (s : State) : Host.Outcome State Fault Refusal :=
  s.act (fun d => d.replayTimeout p)

/-- PROBE (R348). -/
def execProbe (p : Fin 4) (stamp : Int) (s : State) : Host.Outcome State Fault Refusal :=
  s.act (fun d => d.probe p stamp)

/-- JOIN_TIMEOUT (R336). -/
def execJoinTimeout (reach : List Nat) (s : State) : Host.Outcome State Fault Refusal :=
  s.act (fun d => d.joinTimeout reach)

/-- SKEW_START (R348). -/
def execSkewStart (o : Origin) (w : Word) (s : State) : Host.Outcome State Fault Refusal :=
  s.act (fun d => d.writeReg o.id (R.FLU_SKEW_CTRL) (setBits w F.FLU_SKEW_CTRL_START 1))

/-- SKEW_DONE (R349). -/
def execSkewDone (s : State) : Host.Outcome State Fault Refusal :=
  s.act (fun d => d.skewFill)

/-- FLUE_PACKET_DISCARD (R332). -/
def execFluePacketDiscard (p : Fin 4) (blocks : List FlueBlock) (s : State) : Host.Outcome State Fault Refusal :=
  s.act (fun d => d.packetDiscard p blocks)

/-- PROBE_SEND (R348). -/
def execProbeSend (p : Fin 4) (s : State) : Host.Outcome State Fault Refusal :=
  s.act (fun d => d.probeSend p)

end Sys2Proof.Machine
end

