-- ==== Sys2Proof/Machine/FluePackets.lean ====
section
/-! DEFINITION. Flue packets as they arrive (spec/12 R329, R330, R335, R337, R338, R341, R343–R347, spec/06 R197–R199, spec/13 R355, R361,
R381, spec/15 R408). -/

namespace Sys2Proof.Machine

/-! ### Arrival (R330, R332, R335) -/

/-- The packet is for this device, alone or with others below the sender. -/
def Dev.ours (d : Dev) (k : Packet) : Bool := k.dest == d.deviceNum || k.dest == destAll

/-- A broadcast goes on by every downstream port whose neighbour is present (R335). -/
def Dev.spread (d : Dev) (k : Packet) : Dev := if k.dest = destAll then d.downPorts.foldl (fun d p => d.enqueue p k) d else d

/-- A packet of the type that a command names arrives on a port at this device: it is acknowledged; one with fields outside R330 is counted and
goes no further, any other goes on as R335 sets and does `f`. Nothing happens when it cannot arrive so (log entry 2), and on a device whose kindling
has stopped, which answers nothing here (R29, R538). -/
def Dev.onArrival (d : Dev) (p type : Nat) (k : Packet) (f : Dev → Dev) : Dev :=
  if k.type ≠ type ∨ d.ours k = false ∨ d.board.stopped = true then d
  else match d.linkTake p k with
    | none => d
    | some d => if k.fieldsOk then f (d.spread k) else d.flueBad p

/-! ### Requests (R337) -/

/-- The response to a READ (R330). -/
def Dev.respond (d : Dev) (k : Packet) (status : Nat) (payload : List Nat) : Dev :=
  d.sendPacket { type := ptResponse, dest := k.src, src := d.deviceNum, tag := k.tag, be := 0, arg := status, addr := 0, payload := payload }

/-- STATUS of a refused READ: ACCESS_DENIED for want of permission, else REFUSED (DEDUCED, log entry 54). -/
def refusedStatus (kind : Nat) : Nat := if kind = vkPermission ∨ kind = vkRegion ∨ kind = vkFixed then 1 else 3

/-- The offset of the register that a single-block access names, by its byte enables; none for any other access (R7). -/
def Packet.regOff (k : Packet) (blocks : Nat) : Option Nat :=
  if blocks ≠ 1 ∨ k.addr % 8 ≠ 0 then none
  else if k.be = 0x0F then some (k.addr - regBase)
  else if k.be = 0xF0 then some (k.addr - regBase + 4)
  else none

/-- Whether an address lies in register space. -/
def inRegs (a : Nat) : Bool := regBase ≤ a && a < regBase + regSize

/-- READ. -/
def Dev.fluRead (d : Dev) (p : Nat) (k : Packet) : Dev :=
  d.onArrival p ptRead k (fun d =>
    let origin := 0x40 + p
    let deny := fun (d : Dev) kind => (d.violation origin k.addr kind).respond k (refusedStatus kind) []
    if inRegs k.addr then
      match k.regOff k.arg with
      | none => deny d vkAlignment
      | some off =>
        match d.judgeRead origin off with
        | some kind => (d.violation origin (regBase + off) kind).respond k (refusedStatus kind) []
        | none =>
          let (w, d) := d.regRead origin (regCanon off)
          d.respond k 0 [w.toNat * 2 ^ (32 * (off / 4 % 2))]
    else match d.memRefusal origin k.addr (8 * k.arg) false with
      | some kind => deny d kind
      | none =>
        if d.poisoned k.addr (8 * k.arg) then d.respond k 3 []
        else d.respond k 0 ((List.range k.arg).map (fun i => d.readN (k.addr + 8 * i) 8)))

/-- A core writes `size` bytes anywhere (R7, R43, R44, R355, R423). -/
def Dev.coreWrite (d : Dev) (origin addr size value : Nat) : Dev :=
  if d.board.stopped then d
  else if inRegs addr then
    if size ≠ 4 then d.refuse origin addr vkAlignment else d.writeReg origin (addr - regBase) (BitVec.ofNat 32 value)
  else match d.memRefusal origin addr size true with
    | some k => d.refuse origin addr k
    | none => d.writeMem addr (bytesOf size value)

/-- Payload blocks as bytes. -/
def Packet.bytes (k : Packet) : List Byte := k.payload.flatMap (fun b => bytesOf 8 b)

/-- Memory takes the payload of a packet, of one block only the enabled bytes, in ascending address order; the rings that watch its lines then see
all of it (R329, R355, R380). -/
def Dev.takePayload (d : Dev) (k : Packet) : Dev :=
  if k.be = 0xFF then d.writeMem k.addr k.bytes
  else
    let on := bitList k.be 8
    let d := on.foldl (fun (d : Dev) i => d.write (k.addr + i) (slice k.bytes i 1)) d
    match on.head?, on.getLast? with
    | some lo, some hi => d.watchLines (k.addr + lo) (hi + 1 - lo)
    | _, _ => d

/-- WRITE. It receives no response. -/
def Dev.fluWrite (d : Dev) (p : Nat) (k : Packet) : Dev :=
  d.onArrival p ptWrite k (fun d =>
    let origin := 0x40 + p
    if inRegs k.addr then
      match k.regOff k.payload.length with
      | none => d.violation origin k.addr vkAlignment
      | some off =>
        let w : Word := BitVec.ofNat 32 (nth k.payload 0 0 / 2 ^ (32 * (off / 4 % 2)))
        match d.judgeWrite origin off w with
        | some kind => (d.refusedWrite origin off kind).violation origin (regBase + off) kind
        | none => d.doWrite origin off w
    else match d.memRefusal origin k.addr (8 * k.payload.length) true with
      | some kind => d.violation origin k.addr kind
      | none => d.takePayload k)

/-- DOORBELL: the payload goes into the doorbell line at ADDR (R337, R355). An address that is no line of a ring is a field outside R330. -/
def Dev.fluDoorbell (d : Dev) (p : Nat) (k : Packet) : Dev :=
  d.onArrival p ptDoorbell k (fun d =>
    if !((List.range 64).any (fun n => d.dbAddr n == k.addr)) then d.flueBad p
    else match d.memRefusal (0x40 + p) k.addr 8 true with
      | some kind => d.violation (0x40 + p) k.addr kind
      | none => d.takePayload k)

/-- MESSAGE (R337, R408): the identity of the port needs its write permission for the mailbox block. -/
def Dev.fluMessage (d : Dev) (p : Nat) (k : Packet) : Dev :=
  d.onArrival p ptMessage k (fun d =>
    let b := nth k.payload 0 0
    if b ≥ 2 ^ 40 then d.flueBad p
    else if !(d.permReg (0x40 + p) (R.MBX_TX k.arg) true) then d.violation (0x40 + p) (regBase + R.MBX_TX k.arg) vkPermission
    else d.mbxMessage p k.arg (b % 2 ^ 32) (b / 2 ^ 32))

/-- Blocks that a READ asks for. -/
def ReadFor.blocks : ReadFor → Nat
  | .racc _ _ => 1
  | .fetch _ | .dma _ _ => 8

/-- RESPONSE (R330, R338): it ends the READ of its tag, or is late; an OK one with another number of blocks than asked for is counted as bad. TAG 0
brings the parent's stamp of a skew measurement (log entry 40). -/
def Dev.fluResponse (d : Dev) (p : Nat) (k : Packet) : Dev :=
  d.onArrival p ptResponse k (fun d =>
    if k.tag = 0 ∧ p = 0 ∧ d.flue.skew.isSome then d.skewResponse (nth k.payload 0 0)
    else match mapFind d.flue.reads k.tag with
      | none => d.flueLate F.FLU_LATE_RESPONSES
      | some f =>
        if k.arg = 0 ∧ k.payload.length ≠ f.blocks then d.flueBad p
        else
          let d := { d with flue := { d.flue with reads := d.flue.reads.filter (fun x => x.1 != k.tag) } }
          match f with
          | .racc _ high => d.raccResponse high k.arg k.payload
          | .fetch n => d.fetchDone n (if k.arg = 0 then .arrived k.bytes else .denied)
          | .dma n _ => d.dmaTake n k.arg k.bytes)

/-- PACKET_FORWARD (R335): a packet for another device is routed, or refused as unroutable. -/
def Dev.fluForward (d : Dev) (p : Nat) (k : Packet) : Dev :=
  if d.ours k then d
  else match d.linkTake p k with
    | none => d
    | some d =>
      if !k.fieldsOk then d.flueBad p
      else match d.route k.dest with
        | .port q => d.enqueue q k
        | .here => d
        | .none_ => if k.type = ptRead then d.respond k 2 [] else d.unroutable p k

/-! ### Events (R343–R347) -/

def Packet.evEpoch (k : Packet) : Nat := nth k.payload 0 0
def Packet.evWord (k : Packet) : Nat := nth k.payload 1 0
def Packet.evKind (k : Packet) : Nat := natField k.evWord ⟨0, 4⟩
def Packet.evSite (k : Packet) : Nat := natField k.evWord ⟨4, 8⟩
def Packet.evRdv (k : Packet) : Nat := natField k.evWord ⟨12, 16⟩
def Packet.evWithdrawn (k : Packet) : Bool := tbit k.evWord 28
def Packet.evSeq (k : Packet) : Nat := natField k.evWord ⟨32, 32⟩

/-- Blocks 2 onward as bytes. -/
def Packet.evBody (k : Packet) : List Byte := (k.payload.drop 2).flatMap (fun b => bytesOf 8 b)

/-- The sites of a 256-bit mask (R343). -/
def Packet.evMask (k : Packet) : List Nat := bitList (natOf (slice k.evBody 0 32)) 256

/-- What reaches the manager with DEST 0 is broadcast by it (R344). -/
def Dev.relay (d : Dev) (k : Packet) : Dev :=
  if k.dest ≠ destAll ∧ d.isManager = true ∧ (k.evKind = evStart ∨ k.evKind = evStop ∨ k.evKind = evFail) then d.spread { k with dest := destAll } else d

/-- An event of a kind arrives: it is relayed, and acted on unless this device sent it (R344). -/
def Dev.onEvent (d : Dev) (p kind : Nat) (k : Packet) (f : Dev → Dev) : Dev :=
  if k.evKind ≠ kind then d
  else d.onArrival p ptEvent k (fun d => let d := d.relay k; if k.src = d.deviceNum then d else f d)

/-- Starts that an event's ring and START_SEQ name (R343). -/
def Dev.eventStarts (d : Dev) (k : Packet) : List Start := d.seq.starts.filter (fun r => r.ring == k.arg && r.hostSeq == k.evSeq && r.multi)

/-- Multi-device sites of the starts that an event names. -/
def Dev.eventSites (d : Dev) (k : Packet) (sites : List Nat) : List Nat :=
  sites.filter (fun s => d.isMulti s && ((d.site s).st == .starting || (d.site s).st == .running) &&
    (d.eventStarts k).any (fun r => (d.site s).start == r.id && r.sites.contains s))

/-- START_EVENT (R344, R346, R381, R454): the start is judged as if it had been posted on ring ARG, and waits there while it is held. Outside GLOW
and BLAZE it is only counted as late (log entry 55). -/
def Dev.startEvent (d : Dev) (p : Nat) (k : Packet) : Dev :=
  d.onEvent p evStart k (fun d =>
    let n := k.arg
    let q : Desc := ⟨slice k.evBody 0 64, d.ringOrigin n, 0⟩
    let r := d.startOfDesc n q true
    if !d.running then d.flueLate F.FLU_LATE_EVENTS
    else match (if q.opcode = opStart then d.judgeDesc n q else some (.refused 0x80)) with
      | some (.denied kind) => ((d.violation q.origin 0 kind).declineStart r).postStart r stAccessDenied 0 0 false
      | some (.refused c) => (d.declineStart r).postStart r stRefused (refuseArg c) 0 false
      | none => (d.modRing n (fun x => { x with events := x.events ++ [q] })).startEvents n)

/-- STOP_EVENT (R347, R381). -/
def Dev.stopEvent (d : Dev) (p : Nat) (k : Packet) : Dev :=
  d.onEvent p evStop k (fun d =>
    let hit := d.eventSites k k.evMask
    let d := d.stopAt k.evEpoch hit
    d.post k.arg { hostSeq := k.evSeq, opcode := opStop, status := stOk, flags := 2, arg0 := hit.length, arg1 := 0, counted := false })

/-- FAIL_EVENT (R345): the site is smothered with reason 0x09 after the next SYNC edge. -/
def Dev.failEvent (d : Dev) (p : Nat) (k : Packet) : Dev :=
  d.onEvent p evFail k (fun d => { d with flue := { d.flue with fails := d.flue.fails ++ d.withStart (d.eventSites k [k.evSite]) } })

/-- RDV_REPORT (R197, R198): only the manager gathers, also for a start whose part here is over. -/
def Dev.rdvReport (d : Dev) (p : Nat) (k : Packet) : Dev :=
  d.onEvent p evReport k (fun d =>
    match d.isManager, d.eventStarts k ++ d.seq.met.filter (fun r => r.ring == k.arg && r.hostSeq == k.evSeq) with
    | true, r :: _ => d.gather r ⟨k.src, k.evWithdrawn, k.evRdv, k.evEpoch, k.evMask⟩
    | _, _ => d)

/-- RDV_RELEASE (R199). -/
def Dev.rdvReleaseEvent (d : Dev) (p : Nat) (k : Packet) : Dev :=
  d.onEvent p evRelease k (fun d =>
    match d.eventStarts k with
    | r :: _ => d.takeRelease r k.evRdv k.evEpoch k.evMask
    | [] => d)

/-- EPOCH_MARKER (R341). -/
def Dev.markerPacket (d : Dev) (p : Nat) (k : Packet) : Dev :=
  d.onArrival p ptMarker k (fun d => d.marker (nth k.payload 0 0))

/-! ### FLUE_DMA (R361) -/

/-- A FLUE_DMA whose DEST is this device itself (R335): both areas are in its own memory; REMOTE is checked for the identity of the ring (DEDUCED, log
entry 56). -/
def Dev.dmaHere (d : Dev) (n : Nat) (q : Desc) (remote : RemoteRead) : Dev :=
  let len := q.get 32 4
  let out := q.get 37 1 = 0
  match d.memRefusal q.origin (q.get 24 8) len out with
  | some kind => (d.violation q.origin (q.get 24 8) kind).complete n q stAccessDenied 0
  | none =>
    if out then (d.writeMem (q.get 24 8) (d.ownerRead n (q.get 16 8) len remote)).complete n q stOk len
    else if d.ringRemote n then
      ((List.range (len / 64)).foldl (fun (d : Dev) i => d.ownerWrite n (q.get 16 8 + 64 * i) (d.read (q.get 24 8 + 64 * i) 64)) d).complete n q stOk len
    else (d.writeMem (q.get 16 8) (d.read (q.get 24 8) len)).complete n q stOk len

/-- FLUE_DMA (R361). To another device its WRITEs of 64 bytes leave in ascending order, and the descriptor completes; a WRITE that cannot be routed
moves nothing. From another device the descriptor stays in progress while its READs go out one after another. -/
def Dev.flueDma (d : Dev) (n : Nat) (remote : RemoteRead) : Dev :=
  match d.nextDesc n opFlueDma with
  | none => d
  | some q =>
    let len := q.get 32 4
    let dest := q.get 36 1
    match d.route dest, (if q.get 37 1 = 0 then d.ownerFails n remote else none) with
    | _, some st => (d.beginDesc n q).complete n q st 0
    | .none_, none => (d.beginDesc n q).complete n q stAccessDenied 0
    | .here, none => (d.beginDesc n q).dmaHere n q remote
    | .port _, none =>
      if q.get 37 1 = 0 then
        let d := d.beginDesc n q
        let bs := d.ownerRead n (q.get 16 8) len remote
        let d := (List.range (len / 64)).foldl (fun (d : Dev) i =>
          d.sendPacket { type := ptWrite, dest := dest, src := d.deviceNum, tag := 0, be := 0xFF, arg := 0, addr := q.get 24 8 + 64 * i
                         payload := (List.range 8).map (fun j => fieldAt bs (64 * i + 8 * j) 8) }) d
        d.complete n q stOk len
      else ((d.beginDesc n q true).modRing n (fun r => { r with dmaMoved := 0 })).dmaNext n q

end Sys2Proof.Machine
end

