-- ==== Sys2Proof/Machine/MeaningsFluePacket.lean ====
section
/-! DEFINITION. Meanings of the commands of the family FluePacket. -/

namespace Sys2Proof.Machine

/-- READ (R337). -/
def execRead (p : Fin 4) (k : Packet) (s : State) : Host.Outcome State Fault Refusal :=
  s.act (fun d => d.fluRead p k)

/-- WRITE (R337). -/
def execWrite (p : Fin 4) (k : Packet) (s : State) : Host.Outcome State Fault Refusal :=
  s.act (fun d => d.fluWrite p k)

/-- DOORBELL (R337). -/
def execDoorbell (p : Fin 4) (k : Packet) (s : State) : Host.Outcome State Fault Refusal :=
  s.act (fun d => d.fluDoorbell p k)

/-- RESPONSE (R338). -/
def execResponse (p : Fin 4) (k : Packet) (s : State) : Host.Outcome State Fault Refusal :=
  s.act (fun d => d.fluResponse p k)

/-- MESSAGE (R408). -/
def execMessage (p : Fin 4) (k : Packet) (s : State) : Host.Outcome State Fault Refusal :=
  s.act (fun d => d.fluMessage p k)

/-- PACKET_FORWARD (R335). -/
def execPacketForward (p : Fin 4) (k : Packet) (s : State) : Host.Outcome State Fault Refusal :=
  s.act (fun d => d.fluForward p k)

/-- RSP_TIMEOUT (R338). -/
def execRspTimeout (tag : Fin 1024) (s : State) : Host.Outcome State Fault Refusal :=
  s.act (fun d => d.rspTimeout tag)

/-- FLU_RACC_GO (R338). -/
def execFluRaccGo (o : Origin) (w : Word) (s : State) : Host.Outcome State Fault Refusal :=
  s.act (fun d => d.writeReg o.id (R.FLU_RACC_CTRL) (setBits w F.FLU_RACC_CTRL_GO 1))

/-- EPOCH_MARKER_SEND (R341). -/
def execEpochMarkerSend (s : State) : Host.Outcome State Fault Refusal :=
  s.act (fun d => d.markerSend)

/-- EPOCH_MARKER (R341). -/
def execEpochMarker (p : Fin 4) (k : Packet) (s : State) : Host.Outcome State Fault Refusal :=
  s.act (fun d => d.markerPacket p k)

/-- START_EVENT (R344). -/
def execStartEvent (p : Fin 4) (k : Packet) (s : State) : Host.Outcome State Fault Refusal :=
  s.act (fun d => d.startEvent p k)

/-- STOP_EVENT (R347). -/
def execStopEvent (p : Fin 4) (k : Packet) (s : State) : Host.Outcome State Fault Refusal :=
  s.act (fun d => d.stopEvent p k)

/-- FAIL_EVENT (R345). -/
def execFailEvent (p : Fin 4) (k : Packet) (s : State) : Host.Outcome State Fault Refusal :=
  s.act (fun d => d.failEvent p k)

/-- RDV_REPORT (R198). -/
def execRdvReport (p : Fin 4) (k : Packet) (s : State) : Host.Outcome State Fault Refusal :=
  s.act (fun d => d.rdvReport p k)

/-- RDV_RELEASE (R199). -/
def execRdvRelease (p : Fin 4) (k : Packet) (s : State) : Host.Outcome State Fault Refusal :=
  s.act (fun d => d.rdvReleaseEvent p k)

end Sys2Proof.Machine
end

