-- ==== Sys2Proof/Machine/MeaningsGrate.lean ====
section
/-! DEFINITION. Meanings of the commands of the family Grate. -/

namespace Sys2Proof.Machine

/-- HRT_GRT_PWR_WRITE (R99). -/
def execHrtGrtPwrWrite (o : Origin) (g : Fin 128) (w : Word) (s : State) : Host.Outcome State Fault Refusal :=
  s.act (fun d => (d.writeReg o.id (R.HRT_GRT_PWR g) w).procKick)

/-- GRATE_WAKE_DONE (R98). -/
def execGrateWakeDone (g : Fin 128) (s : State) : Host.Outcome State Fault Refusal :=
  s.act (fun d => d.grateWakeDone g)

/-- GRATE_SETTLE_DONE (R98). -/
def execGrateSettleDone (g : Fin 128) (s : State) : Host.Outcome State Fault Refusal :=
  s.act (fun d => d.grateSettleDone g)

/-- GRATE_IDLE_OFF (R99). -/
def execGrateIdleOff (g : Fin 128) (s : State) : Host.Outcome State Fault Refusal :=
  s.act (fun d => d.grateIdleOff g)

end Sys2Proof.Machine
end

