-- ==== Sys2Proof/Machine/MeaningsLoad.lean ====
section
/-! DEFINITION. Meanings of the commands of the family Load. -/

namespace Sys2Proof.Machine

/-- IMAGE_LOAD (R165). -/
def execImageLoad (n : Fin 64) (remote : RemoteRead) (s : State) : Host.Outcome State Fault Refusal :=
  s.act (fun d => d.imageLoad n remote)

/-- IMAGE_UNLOAD (R168). -/
def execImageUnload (n : Fin 64) (s : State) : Host.Outcome State Fault Refusal :=
  s.act (fun d => d.imageUnload n)

/-- TIMING_LOAD (R114). -/
def execTimingLoad (n : Fin 64) (remote : RemoteRead) (s : State) : Host.Outcome State Fault Refusal :=
  s.act (fun d => d.timingLoad n remote)

/-- LEVELS_LOAD (R81). -/
def execLevelsLoad (n : Fin 64) (remote : RemoteRead) (s : State) : Host.Outcome State Fault Refusal :=
  s.act (fun d => d.levelsLoad n remote)

/-- BIND_LOAD (R170). -/
def execBindLoad (n : Fin 64) (remote : RemoteRead) (s : State) : Host.Outcome State Fault Refusal :=
  s.act (fun d => d.bindLoad n remote)

/-- CAPTURE_LOAD (R227). -/
def execCaptureLoad (n : Fin 64) (remote : RemoteRead) (s : State) : Host.Outcome State Fault Refusal :=
  s.act (fun d => d.captureLoad n remote)

/-- DDS_LOAD (R287). -/
def execDdsLoad (n : Fin 64) (remote : RemoteRead) (s : State) : Host.Outcome State Fault Refusal :=
  s.act (fun d => d.ddsLoad n remote)

/-- CAL_LOAD (R485). -/
def execCalLoad (n : Fin 64) (remote : RemoteRead) (s : State) : Host.Outcome State Fault Refusal :=
  s.act (fun d => d.calLoad n remote)

/-- PPMU_MEASURE (R94). -/
def execPpmuMeasure (n : Fin 64) (remote : RemoteRead) (s : State) : Host.Outcome State Fault Refusal :=
  s.act (fun d => d.ppmuMeasure n remote)

/-- PPMU_STEP_DONE (R95). -/
def execPpmuStepDone (g : Fin 128) (total : Int) (limit : Bool) (s : State) : Host.Outcome State Fault Refusal :=
  s.act (fun d => (d.ppmuStepDone g total limit).procKick)

end Sys2Proof.Machine
end

