-- ==== Sys2Proof/Machine/MeaningsMailbox.lean ====
section
/-! DEFINITION. Meanings of the commands of the family Mailbox. -/

namespace Sys2Proof.Machine

/-- MBX_TX (R408). -/
def execMbxTx (o : Origin) (n : Fin 16) (w : Word) (s : State) : Host.Outcome State Fault Refusal :=
  s.act (fun d => d.writeReg o.id (R.MBX_TX n) w)

/-- MBX_RX_DATA (R409). -/
def execMbxRxData (o : Origin) (n : Fin 16) (s : State) : Host.Outcome State Fault Refusal :=
  s.act (fun d => d.readReg o.id (R.MBX_RX_DATA n))

/-- MBX_WAIT (R412). -/
def execMbxWait (o : Origin) (n : Fin 16) (w : Word) (s : State) : Host.Outcome State Fault Refusal :=
  s.act (fun d => d.writeReg o.id (R.MBX_WAIT n) w)

/-- MBX_WAIT_TIMEOUT (R412). -/
def execMbxWaitTimeout (n : Fin 16) (side : Side) (s : State) : Host.Outcome State Fault Refusal :=
  s.act (fun d => d.mbxTimeout n side)

/-- MBX_CFG_WRITE (R407). -/
def execMbxCfgWrite (o : Origin) (n : Fin 16) (w : Word) (s : State) : Host.Outcome State Fault Refusal :=
  s.act (fun d => d.writeReg o.id (R.MBX_CFG n) w)

/-- MBX_EVENT_CLEAR (R415). -/
def execMbxEventClear (o : Origin) (n : Fin 16) (s : State) : Host.Outcome State Fault Refusal :=
  s.act (fun d => d.writeReg o.id (R.MBX_STATUS n) (ownEvent (d.mbxSide n o.id)))

/-- LOCK_READ (R416). -/
def execLockRead (o : Origin) (k : Fin 32) (s : State) : Host.Outcome State Fault Refusal :=
  s.act (fun d => d.readReg o.id (R.MBX_LOCK k))

/-- LOCK_RELEASE (R416). -/
def execLockRelease (o : Origin) (k : Fin 32) (s : State) : Host.Outcome State Fault Refusal :=
  s.act (fun d => d.writeReg o.id (R.MBX_LOCK k) (BitVec.ofNat 32 o.id))

/-- MBX_LOCK_FREE (R417). -/
def execMbxLockFree (o : Origin) (w : Word) (s : State) : Host.Outcome State Fault Refusal :=
  s.act (fun d => d.writeReg o.id (R.MBX_LOCK_FREE) w)

/-- ENDPOINT_RESET (R410). -/
def execEndpointReset (e : ResetEnd) (s : State) : Host.Outcome State Fault Refusal :=
  s.act (fun d => d.endpointReset e)

end Sys2Proof.Machine
end

