-- ==== Sys2Proof/Machine/MeaningsPower.lean ====
section
/-! DEFINITION. Meanings of the commands of the family Power. -/

namespace Sys2Proof.Machine

/-- DESCEND_SMOULDER (R450). -/
def execDescendSmoulder (o : Origin) (s : State) : Host.Outcome State Fault Refusal :=
  s.act (fun d => d.writeReg o.id (R.EMB_PSTATE_REQ) (setBits 0#32 F.EMB_PSTATE_REQ_TARGET 1))

/-- DESCEND_BANKED (R450). -/
def execDescendBanked (o : Origin) (cold : Bool) (s : State) : Host.Outcome State Fault Refusal :=
  s.act (fun d => d.writeReg o.id (R.EMB_PSTATE_REQ) (setBits 0#32 F.EMB_PSTATE_REQ_COLD (bit cold)))

/-- REQUEST (R452). -/
def execRequest (o : Origin) (s : State) : Host.Outcome State Fault Refusal :=
  s.act (fun d => d.writeReg o.id (R.EMB_PSTATE_REQ) (setBits 0#32 F.EMB_PSTATE_REQ_TARGET 2))

/-- DESCENT_DONE (R450). -/
def execDescentDone (ckptFails : Bool) (s : State) : Host.Outcome State Fault Refusal :=
  s.act (fun d => d.descentDone ckptFails)

/-- WAKE_N (R455). -/
def execWakeN (s : State) : Host.Outcome State Fault Refusal :=
  s.act (fun d => d.wake wkWakeN)

/-- ALARM (R455). -/
def execAlarm (s : State) : Host.Outcome State Fault Refusal :=
  s.act (fun d => d.alarm)

/-- ASCENT (R452). -/
def execAscent (sub : Nat) (bands : List (Nat × Word)) (ckptFails : Bool) (s : State) : Host.Outcome State Fault Refusal :=
  s.act (fun d => d.ascend sub bands ckptFails)

/-- ASCENT_RESTORED (R452). -/
def execAscentRestored (s : State) : Host.Outcome State Fault Refusal :=
  s.act (fun d => d.ascentRestored)

/-- RAIL_PG_TIMEOUT (R453). -/
def execRailPgTimeout (rail : Nat) (s : State) : Host.Outcome State Fault Refusal :=
  s.act (fun d => d.railTimeout rail)

/-- PWR_DOMAIN_CTRL_WRITE (R447). -/
def execPwrDomainCtrlWrite (o : Origin) (w : Word) (s : State) : Host.Outcome State Fault Refusal :=
  s.act (fun d => d.writeReg o.id (R.PWR_DOMAIN_CTRL) w)

end Sys2Proof.Machine
end

