-- ==== Sys2Proof/Machine/MeaningsRecord.lean ====
section
/-! DEFINITION. Meanings of the commands of the family Record. -/

namespace Sys2Proof.Machine

/-- LDG_SERVICE (R512). -/
def execLdgService (o : Origin) (w : Word) (s : State) : Host.Outcome State Fault Refusal :=
  s.act (fun d => d.writeReg o.id (R.LDG_SERVICE) (setBits w F.LDG_SERVICE_GO 1))

/-- LEDGER_CHECKPOINT (R513). -/
def execLedgerCheckpoint (fails : Bool) (s : State) : Host.Outcome State Fault Refusal :=
  s.act (fun d => d.checkpointDue fails)

/-- AUDIT_FLUSH (R523). -/
def execAuditFlush (entries : Nat) (s : State) : Host.Outcome State Fault Refusal :=
  s.act (fun d => d.auditFlush entries)

/-- AUDIT_CHECKPOINT (R524). -/
def execAuditCheckpoint (s : State) : Host.Outcome State Fault Refusal :=
  s.act (fun d => d.auditCheckpoint)

/-- AUD_RD_GO (R525). -/
def execAudRdGo (o : Origin) (w : Word) (s : State) : Host.Outcome State Fault Refusal :=
  s.act (fun d => d.writeReg o.id (R.AUD_RD_CTRL) (setBits w F.AUD_RD_CTRL_GO 1))

/-- AUD_PERM_WRITE (R517). -/
def execAudPermWrite (o : Origin) (b : Option (Fin 32)) (w : Word) (s : State) : Host.Outcome State Fault Refusal :=
  s.act (fun d => d.writeReg o.id (match b with | some i => R.AUD_PERM_REG i | none => R.AUD_PERM_DESC) w)

/-- RTC_SECOND (R510). -/
def execRtcSecond (s : State) : Host.Outcome State Fault Refusal :=
  s.act (fun d => d.rtcSecond)

end Sys2Proof.Machine
end

