-- ==== Sys2Proof/Machine/MeaningsRing.lean ====
section
/-! DEFINITION. Meanings of the commands of the family Ring. -/

namespace Sys2Proof.Machine

/-- DOORBELL_WRITE (R355). -/
def execDoorbellWrite (n : Fin 64) (pi ci : Word) (s : State) : Host.Outcome State Fault Refusal :=
  s.act (fun d => d.doorbell n pi.toNat ci.toNat)

/-- CONSUME_DESCRIPTOR (R362). -/
def execConsumeDescriptor (n : Fin 64) (s : State) : Host.Outcome State Fault Refusal :=
  s.act (fun d => d.consume n)

/-- NOP (R358). -/
def execNop (n : Fin 64) (s : State) : Host.Outcome State Fault Refusal :=
  s.act (fun d => d.execNop n)

/-- FLUE_DMA (R361). -/
def execFlueDma (n : Fin 64) (bytes : List Byte) (denied late : Bool) (s : State) : Host.Outcome State Fault Refusal :=
  s.act (fun d => d.flueDma n ⟨bytes, readEnd denied late⟩)

/-- COMPLETION_WRITE (R370). -/
def execCompletionWrite (n : Fin 64) (refused : Bool) (s : State) : Host.Outcome State Fault Refusal :=
  s.act (fun d => d.completionWrite n refused)

/-- RING_ENABLE (R374). -/
def execRingEnable (o : Origin) (n : Fin 64) (w : Word) (s : State) : Host.Outcome State Fault Refusal :=
  s.act (fun d => d.writeReg o.id (R.RING_CTRL n) (setBits w F.RING_CTRL_ENABLE 1))

/-- RING_DISABLE (R374). -/
def execRingDisable (o : Origin) (n : Fin 64) (w : Word) (s : State) : Host.Outcome State Fault Refusal :=
  s.act (fun d => d.writeReg o.id (R.RING_CTRL n) (setBits w F.RING_CTRL_ENABLE 0))

/-- RING_DRAINED (R374). -/
def execRingDrained (n : Fin 64) (s : State) : Host.Outcome State Fault Refusal :=
  s.act (fun d => d.ringDrained n)

/-- HALT_RING (R375). -/
def execHaltRing (o : Origin) (n : Fin 64) (w : Word) (s : State) : Host.Outcome State Fault Refusal :=
  s.act (fun d => d.writeReg o.id (R.RING_CTRL n) (setBits w F.RING_CTRL_HALT 1))

/-- RESUME (R377). -/
def execResume (o : Origin) (n : Fin 64) (w : Word) (s : State) : Host.Outcome State Fault Refusal :=
  s.act (fun d => d.writeReg o.id (R.RING_CTRL n) (setBits w F.RING_CTRL_RESUME 1))

/-- RING_SEQ_WRITE (R377). -/
def execRingSeqWrite (o : Origin) (n : Fin 64) (w : Word) (s : State) : Host.Outcome State Fault Refusal :=
  s.act (fun d => d.writeReg o.id (R.RING_SEQ n) w)

/-- DESCRIPTOR_FETCH (R382). -/
def execDescriptorFetch (n : Fin 64) (e : FetchEnd) (s : State) : Host.Outcome State Fault Refusal :=
  s.act (fun d => d.fetchDone n e)

/-- REMOTE_WRITE_RETRY (R383). -/
def execRemoteWriteRetry (n : Fin 64) (refused : Bool) (s : State) : Host.Outcome State Fault Refusal :=
  s.act (fun d => d.remoteRetry n refused)

end Sys2Proof.Machine
end

