-- ==== Sys2Proof/Machine/MeaningsRun.lean ====
section
/-! DEFINITION. Meanings of the commands of the family Run. -/

namespace Sys2Proof.Machine

/-- START (R24). -/
def execStart (n : Fin 64) (s : State) : Host.Outcome State Fault Refusal :=
  s.act (fun d => d.startTake n)

/-- STOP (R193). -/
def execStop (n : Fin 64) (s : State) : Host.Outcome State Fault Refusal :=
  s.act (fun d => d.stopTake n)

/-- VECTOR_ZERO (R25). -/
def execVectorZero (s : State) : Host.Outcome State Fault Refusal :=
  s.act (fun d => d.vectorZero)

/-- VECTOR (R106). -/
def execVector (site : Fin 256) (obs : List PinObs) (s : State) : Host.Outcome State Fault Refusal :=
  s.act (fun d => d.vector site obs)

/-- GRANULE_FETCH (R212). -/
def execGranuleFetch (e : Fin 64) (poisoned : Bool) (s : State) : Host.Outcome State Fault Refusal :=
  s.act (fun d => d.granuleFetch e poisoned)

/-- SITE_COMPLETE (R27). -/
def execSiteComplete (site : Fin 256) (s : State) : Host.Outcome State Fault Refusal :=
  s.act (fun d => (d.siteComplete site).procKick)

/-- HOLD_REPORT_WRITE (R191). -/
def execHoldReportWrite (s : State) : Host.Outcome State Fault Refusal :=
  s.act (fun d => d.holdReportWrite)

/-- HRT_HOLD_CTRL_WRITE (R191). -/
def execHrtHoldCtrlWrite (o : Origin) (w : Word) (s : State) : Host.Outcome State Fault Refusal :=
  s.act (fun d => d.writeReg o.id (R.HRT_HOLD_CTRL) w)

/-- HRT_HOLD_CI_WRITE (R191). -/
def execHrtHoldCiWrite (o : Origin) (w : Word) (s : State) : Host.Outcome State Fault Refusal :=
  s.act (fun d => d.writeReg o.id (R.HRT_HOLD_CI) w)

/-- DDS_TRANSITION (R284). -/
def execDdsTransition (u : Fin 64) (s : State) : Host.Outcome State Fault Refusal :=
  s.act (fun d => d.ddsTransition u)

/-- DDS_AMP_SETTLE_END (R291). -/
def execDdsAmpSettleEnd (site : Fin 256) (s : State) : Host.Outcome State Fault Refusal :=
  s.act (fun d => d.ampSettleEnd site)

end Sys2Proof.Machine
end

