-- ==== Sys2Proof/Machine/MeaningsSecure.lean ====
section
/-! DEFINITION. Meanings of the commands of the family Secure. -/

namespace Sys2Proof.Machine

/-- ATTEST (R541). -/
def execAttest (o : Origin) (arg : Nat) (s : State) : Host.Outcome State Fault Refusal :=
  s.act (fun d => d.writeReg o.id R.SEC_CTRL (secWord 1 arg))

/-- CONFIRM (R543). -/
def execConfirm (o : Origin) (arg : Nat) (s : State) : Host.Outcome State Fault Refusal :=
  s.act (fun d => d.writeReg o.id R.SEC_CTRL (secWord 2 arg))

/-- RAISE (R534). -/
def execRaise (o : Origin) (arg : Nat) (s : State) : Host.Outcome State Fault Refusal :=
  s.act (fun d => d.writeReg o.id R.SEC_CTRL (secWord 3 arg))

/-- KEY_PROGRAM (R543). -/
def execKeyProgram (o : Origin) (arg : Nat) (s : State) : Host.Outcome State Fault Refusal :=
  s.act (fun d => d.writeReg o.id R.SEC_CTRL (secWord 4 arg))

/-- KEY_REVOKE (R543). -/
def execKeyRevoke (o : Origin) (arg : Nat) (s : State) : Host.Outcome State Fault Refusal :=
  s.act (fun d => d.writeReg o.id R.SEC_CTRL (secWord 5 arg))

/-- DEVICE_RESET (R543). -/
def execDeviceReset (o : Origin) (arg : Nat) (s : State) : Host.Outcome State Fault Refusal :=
  s.act (fun d => d.writeReg o.id R.SEC_CTRL (secWord 6 arg))

/-- FLASH_ERASE (R544). -/
def execFlashErase (o : Origin) (arg : Nat) (s : State) : Host.Outcome State Fault Refusal :=
  s.act (fun d => d.writeReg o.id R.SEC_CTRL (secWord 7 arg))

/-- FLASH_PROGRAM (R544). -/
def execFlashProgram (o : Origin) (arg : Nat) (s : State) : Host.Outcome State Fault Refusal :=
  s.act (fun d => d.writeReg o.id R.SEC_CTRL (secWord 8 arg))

/-- FLASH_READ (R543). -/
def execFlashRead (o : Origin) (arg : Nat) (s : State) : Host.Outcome State Fault Refusal :=
  s.act (fun d => d.writeReg o.id R.SEC_CTRL (secWord 9 arg))

/-- KICK (R545). -/
def execKick (o : Origin) (w : Word) (s : State) : Host.Outcome State Fault Refusal :=
  s.act (fun d => d.writeReg o.id (R.SEC_WDOG) (setBits w F.SEC_WDOG_KICK 1))

/-- WATCHDOG_EXPIRY (R539). -/
def execWatchdogExpiry (s : State) : Host.Outcome State Fault Refusal :=
  s.act (fun d => d.watchdogExpiry)

/-- REGISTER_WRITE (R10). -/
def execRegisterWrite (o : Origin) (addr size value : Nat) (s : State) : Host.Outcome State Fault Refusal :=
  s.act (fun d => d.coreWrite o.id addr size value)

end Sys2Proof.Machine
end

