-- ==== Sys2Proof/Machine/MeaningsSequence.lean ====
section
/-! DEFINITION. Meanings of the commands of the family Sequence. -/

namespace Sys2Proof.Machine

/-- NOP_INSTR (R147). -/
def execNopInstr (site : Fin 256) (s : State) : Host.Outcome State Fault Refusal :=
  s.act (fun d => d.nopInstr site)

/-- REPEAT (R147). -/
def execRepeat (site : Fin 256) (s : State) : Host.Outcome State Fault Refusal :=
  s.act (fun d => d.repeatInstr site)

/-- LOOP_BEGIN (R147). -/
def execLoopBegin (site : Fin 256) (s : State) : Host.Outcome State Fault Refusal :=
  s.act (fun d => d.loopBegin site)

/-- LOOP_END (R147). -/
def execLoopEnd (site : Fin 256) (s : State) : Host.Outcome State Fault Refusal :=
  s.act (fun d => d.loopEnd site)

/-- CALL (R147). -/
def execCall (site : Fin 256) (s : State) : Host.Outcome State Fault Refusal :=
  s.act (fun d => d.callInstr site)

/-- RETURN (R147). -/
def execReturn (site : Fin 256) (s : State) : Host.Outcome State Fault Refusal :=
  s.act (fun d => d.returnInstr site)

/-- JUMP (R147). -/
def execJump (site : Fin 256) (s : State) : Host.Outcome State Fault Refusal :=
  s.act (fun d => d.jumpInstr site)

/-- JUMP_IF (R151). -/
def execJumpIf (site : Fin 256) (s : State) : Host.Outcome State Fault Refusal :=
  s.act (fun d => d.jumpIf site)

/-- LATE_JUMP (R151). -/
def execLateJump (site : Fin 256) (s : State) : Host.Outcome State Fault Refusal :=
  s.act (fun d => d.lateJumpEnd site)

/-- WAIT (R154). -/
def execWait (site : Fin 256) (s : State) : Host.Outcome State Fault Refusal :=
  s.act (fun d => d.waitInstr site)

/-- HOLD_POINT (R182). -/
def execHoldPoint (site : Fin 256) (s : State) : Host.Outcome State Fault Refusal :=
  s.act (fun d => d.holdPoint site)

/-- HOLD_RESUME (R182). -/
def execHoldResume (site : Fin 256) (s : State) : Host.Outcome State Fault Refusal :=
  s.act (fun d => d.holdResume site)

/-- RENDEZVOUS (R196). -/
def execRendezvous (site : Fin 256) (s : State) : Host.Outcome State Fault Refusal :=
  s.act (fun d => d.rendezvous site)

/-- RDV_RESUME (R200). -/
def execRdvResume (site : Fin 256) (s : State) : Host.Outcome State Fault Refusal :=
  s.act (fun d => d.rdvResume site)

/-- RDV_WAIT_LIMIT (R202). -/
def execRdvWaitLimit (site : Fin 256) (s : State) : Host.Outcome State Fault Refusal :=
  s.act (fun d => d.rdvLimit site)

/-- HALT (R147). -/
def execHalt (site : Fin 256) (s : State) : Host.Outcome State Fault Refusal :=
  s.act (fun d => d.haltInstr site)

/-- SETREG (R153). -/
def execSetreg (site : Fin 256) (s : State) : Host.Outcome State Fault Refusal :=
  s.act (fun d => d.setRegInstr site)

end Sys2Proof.Machine
end

