-- ==== Sys2Proof/Machine/MeaningsService.lean ====
section
/-! DEFINITION. Meanings of the commands of the family Service. -/

namespace Sys2Proof.Machine

/-- LELOISK_WAKE (R476). -/
def execLeloiskWake (f : LlkFrame) (s : State) : Host.Outcome State Fault Refusal :=
  s.act (fun d => d.llkFrame f llkWake)

/-- LELOISK_DOUSE (R476). -/
def execLeloiskDouse (f : LlkFrame) (s : State) : Host.Outcome State Fault Refusal :=
  s.act (fun d => (d.llkFrame f llkDouse).procKick)

/-- READ_FAULT (R476). -/
def execReadFault (f : LlkFrame) (s : State) : Host.Outcome State Fault Refusal :=
  s.act (fun d => d.llkFrame f llkFault)

/-- READ_LEDGER (R476). -/
def execReadLedger (f : LlkFrame) (s : State) : Host.Outcome State Fault Refusal :=
  s.act (fun d => d.llkFrame f llkLedger)

/-- LELOISK_DISCARD (R475). -/
def execLeloiskDiscard (f : LlkFrame) (op : Nat) (s : State) : Host.Outcome State Fault Refusal :=
  s.act (fun d => d.llkReject f op)

/-- FAULT_READ (R474). -/
def execFaultRead (s : State) : Host.Outcome State Fault Refusal :=
  s.act (fun d => d.tapFault)

/-- IDCODE (R547). -/
def execIdcode (s : State) : Host.Outcome State Fault Refusal :=
  s.act (fun d => d.tapIdcode)

/-- EXTEST (R547). -/
def execExtest (resetLow : Bool) (len sample : Nat) (s : State) : Host.Outcome State Fault Refusal :=
  s.act (fun d => d.tapExtest resetLow len sample)

/-- SAMPLE_PRELOAD (R547). -/
def execSamplePreload (len sample preload : Nat) (s : State) : Host.Outcome State Fault Refusal :=
  s.act (fun d => d.tapSample len sample preload)

/-- CLAMP (R547). -/
def execClamp (resetLow : Bool) (s : State) : Host.Outcome State Fault Refusal :=
  s.act (fun d => d.tapClamp resetLow)

/-- HIGHZ (R547). -/
def execHighz (resetLow : Bool) (s : State) : Host.Outcome State Fault Refusal :=
  s.act (fun d => d.tapHighz resetLow)

/-- UNLOCK (R547). -/
def execUnlock (ok : Bool) (s : State) : Host.Outcome State Fault Refusal :=
  s.act (fun d => d.tapUnlock ok)

/-- BYPASS (R547). -/
def execBypass (ir : Nat) (s : State) : Host.Outcome State Fault Refusal :=
  s.act (fun d => d.tapBypass ir)

end Sys2Proof.Machine
end

