-- ==== Sys2Proof/Machine/MeaningsSupply.lean ====
section
/-! DEFINITION. Meanings of the commands of the family Supply. -/

namespace Sys2Proof.Machine

/-- UP (R459). -/
def execUp (o : Origin) (w : Word) (pmbFail : Bool) (s : State) : Host.Outcome State Fault Refusal :=
  s.act (fun d => d.writeVia o.id R.PWR_SUP_CTRL (setBits w F.PWR_SUP_CTRL_UP 1) (fun d _ _ v => d.supCtrl v pmbFail))

/-- DOWN (R459). -/
def execDown (o : Origin) (w : Word) (pmbFail : Bool) (s : State) : Host.Outcome State Fault Refusal :=
  s.act (fun d => d.writeVia o.id R.PWR_SUP_CTRL (setBits (setBits w F.PWR_SUP_CTRL_UP 0) F.PWR_SUP_CTRL_DOWN 1) (fun d _ _ v => d.supCtrl v pmbFail))

/-- SUP_STEP_ADVANCE (R458). -/
def execSupStepAdvance (pmbFail : Bool) (powerGood : Word) (s : State) : Host.Outcome State Fault Refusal :=
  s.act (fun d => d.supAdvance pmbFail powerGood.toNat)

/-- PG_TIMEOUT (R459). -/
def execPgTimeout (s : State) : Host.Outcome State Fault Refusal :=
  s.act (fun d => d.pgTimeout)

/-- SUP_PG_FALL (R459). -/
def execSupPgFall (n : Fin 32) (s : State) : Host.Outcome State Fault Refusal :=
  s.act (fun d => d.pgFall n)

/-- PWR_SUP_READ_GO (R462). -/
def execPwrSupReadGo (o : Origin) (w : Word) (r : SupReading) (s : State) : Host.Outcome State Fault Refusal :=
  s.act (fun d => d.writeVia o.id R.PWR_SUP_READ (setBits w F.PWR_SUP_READ_GO 1) (fun d _ _ _ => d.supRead r))

/-- PMB_ALERT (R461). -/
def execPmbAlert (answer : Option Nat) (s : State) : Host.Outcome State Fault Refusal :=
  s.act (fun d => d.pmbAlert answer)

/-- TEMP_SAMPLE (R558). -/
def execTempSample (temps : List Int) (s : State) : Host.Outcome State Fault Refusal :=
  s.act (fun d => (d.tempSample temps).procKick)

end Sys2Proof.Machine
end

