-- ==== Sys2Proof/Machine/MeaningsTimeMeasure.lean ====
section
/-! DEFINITION. Meanings of the commands of the family TimeMeasure. -/

namespace Sys2Proof.Machine

/-- TMU_EDGE (R266). -/
def execTmuEdge (n : Fin 32) (tick code : Nat) (rise : Bool) (s : State) : Host.Outcome State Fault Refusal :=
  s.act (fun d => d.tmuEdge n tick code rise)

/-- TMU_STAMP_COMMIT (R265). -/
def execTmuStampCommit (n : Fin 32) (s : State) : Host.Outcome State Fault Refusal :=
  s.act (fun d => d.tmuCommit n)

/-- TMU_RECORD_DRAIN (R269). -/
def execTmuRecordDrain (n : Fin 32) (s : State) : Host.Outcome State Fault Refusal :=
  s.act (fun d => d.tmuDrain n)

/-- ARM (R271). -/
def execArm (o : Origin) (n : Fin 32) (w : Word) (s : State) : Host.Outcome State Fault Refusal :=
  s.act (fun d => d.writeReg o.id (R.TMU_CH_CTRL n) (setBits w F.TMU_CH_CTRL_ARM 1))

/-- DISARM (R271). -/
def execDisarm (o : Origin) (n : Fin 32) (w : Word) (s : State) : Host.Outcome State Fault Refusal :=
  s.act (fun d => d.writeReg o.id (R.TMU_CH_CTRL n) (setBits w F.TMU_CH_CTRL_DISARM 1))

/-- TMU_DIFF_TIMEOUT (R277). -/
def execTmuDiffTimeout (n : Fin 32) (s : State) : Host.Outcome State Fault Refusal :=
  s.act (fun d => d.diffTimeout n)

/-- TMU_TEST_PULSE (R260). -/
def execTmuTestPulse (tick : Nat) (s : State) : Host.Outcome State Fault Refusal :=
  s.act (fun d => d.testPulse tick)

/-- TMU_CAL_START (R279). -/
def execTmuCalStart (o : Origin) (w : Word) (s : State) : Host.Outcome State Fault Refusal :=
  s.act (fun d => d.writeReg o.id (R.TMU_CAL_CTRL) (setBits w F.TMU_CAL_CTRL_START 1))

/-- TMU_CAL_DONE (R279). -/
def execTmuCalDone (n : Fin 32) (counts : List Nat) (s : State) : Host.Outcome State Fault Refusal :=
  s.act (fun d => d.tmuCalDone n counts)

/-- TMU_GROUP_ON (R275). -/
def execTmuGroupOn (g : Fin 2) (s : State) : Host.Outcome State Fault Refusal :=
  s.act (fun d => d.tmuGroupOn g)

end Sys2Proof.Machine
end

