-- ==== Sys2Proof/Machine/Dispatch.lean ====
section
/-! DEFINITION. One arm per command. -/

namespace Sys2Proof.Machine

/-- The effect of a command on everything but the queue. -/
def exec (i : Instr) (s : State) : Host.Outcome State Fault Refusal :=
  match i with
  | .powerOn e => Sys2Proof.Machine.execPowerOn e s
  | .vddEmberLoss => Sys2Proof.Machine.execVddEmberLoss s
  | .resetN ns => Sys2Proof.Machine.execResetN ns s
  | .deviceResetAfterDouse e => Sys2Proof.Machine.execDeviceResetAfterDouse e s
  | .douseN ns => Sys2Proof.Machine.execDouseN ns s
  | .faultLineAssert lines => Sys2Proof.Machine.execFaultLineAssert lines s
  | .douseSupplyStep pmbFail => Sys2Proof.Machine.execDouseSupplyStep pmbFail s
  | .douseRelayStep => Sys2Proof.Machine.execDouseRelayStep s
  | .fltDouse o w => Sys2Proof.Machine.execFltDouse o w s
  | .fltWordClear o hi w held => Sys2Proof.Machine.execFltWordClear o hi w held s
  | .fltCfgWrite o k w => Sys2Proof.Machine.execFltCfgWrite o k w s
  | .fltInject o hi w => Sys2Proof.Machine.execFltInject o hi w s
  | .drvOvl g pin => Sys2Proof.Machine.execDrvOvl g pin s
  | .leloiskWake f => Sys2Proof.Machine.execLeloiskWake f s
  | .leloiskDouse f => Sys2Proof.Machine.execLeloiskDouse f s
  | .readFault f => Sys2Proof.Machine.execReadFault f s
  | .readLedger f => Sys2Proof.Machine.execReadLedger f s
  | .leloiskDiscard f op => Sys2Proof.Machine.execLeloiskDiscard f op s
  | .faultRead => Sys2Proof.Machine.execFaultRead s
  | .idcode => Sys2Proof.Machine.execIdcode s
  | .extest resetLow len sample => Sys2Proof.Machine.execExtest resetLow len sample s
  | .samplePreload len sample preload => Sys2Proof.Machine.execSamplePreload len sample preload s
  | .clamp resetLow => Sys2Proof.Machine.execClamp resetLow s
  | .highz resetLow => Sys2Proof.Machine.execHighz resetLow s
  | .unlock ok => Sys2Proof.Machine.execUnlock ok s
  | .bypass ir => Sys2Proof.Machine.execBypass ir s
  | .doorbellWrite n pi ci => Sys2Proof.Machine.execDoorbellWrite n pi ci s
  | .consumeDescriptor n => Sys2Proof.Machine.execConsumeDescriptor n s
  | .nop n => Sys2Proof.Machine.execNop n s
  | .imageLoad n remote => Sys2Proof.Machine.execImageLoad n remote s
  | .imageUnload n => Sys2Proof.Machine.execImageUnload n s
  | .timingLoad n remote => Sys2Proof.Machine.execTimingLoad n remote s
  | .levelsLoad n remote => Sys2Proof.Machine.execLevelsLoad n remote s
  | .bindLoad n remote => Sys2Proof.Machine.execBindLoad n remote s
  | .captureLoad n remote => Sys2Proof.Machine.execCaptureLoad n remote s
  | .ddsLoad n remote => Sys2Proof.Machine.execDdsLoad n remote s
  | .calLoad n remote => Sys2Proof.Machine.execCalLoad n remote s
  | .ppmuMeasure n remote => Sys2Proof.Machine.execPpmuMeasure n remote s
  | .ppmuStepDone g total limit => Sys2Proof.Machine.execPpmuStepDone g total limit s
  | .commit n => Sys2Proof.Machine.execCommit n s
  | .runBoundaryApply h => Sys2Proof.Machine.execRunBoundaryApply h s
  | .poolLoadDone h => Sys2Proof.Machine.execPoolLoadDone h s
  | .settleTimeEnd x => Sys2Proof.Machine.execSettleTimeEnd x s
  | .calCommit n fails => Sys2Proof.Machine.execCalCommit n fails s
  | .calTableApply k fails => Sys2Proof.Machine.execCalTableApply k fails s
  | .start n => Sys2Proof.Machine.execStart n s
  | .stop n => Sys2Proof.Machine.execStop n s
  | .flueDma n bytes denied late => Sys2Proof.Machine.execFlueDma n bytes denied late s
  | .completionWrite n refused => Sys2Proof.Machine.execCompletionWrite n refused s
  | .ringEnable o n w => Sys2Proof.Machine.execRingEnable o n w s
  | .ringDisable o n w => Sys2Proof.Machine.execRingDisable o n w s
  | .ringDrained n => Sys2Proof.Machine.execRingDrained n s
  | .haltRing o n w => Sys2Proof.Machine.execHaltRing o n w s
  | .resume o n w => Sys2Proof.Machine.execResume o n w s
  | .ringSeqWrite o n w => Sys2Proof.Machine.execRingSeqWrite o n w s
  | .descriptorFetch n e => Sys2Proof.Machine.execDescriptorFetch n e s
  | .remoteWriteRetry n refused => Sys2Proof.Machine.execRemoteWriteRetry n refused s
  | .syncEdge tick => Sys2Proof.Machine.execSyncEdge tick s
  | .syncMissing => Sys2Proof.Machine.execSyncMissing s
  | .syncPulseGen => Sys2Proof.Machine.execSyncPulseGen s
  | .vectorZero => Sys2Proof.Machine.execVectorZero s
  | .vector site obs => Sys2Proof.Machine.execVector site obs s
  | .nopInstr site => Sys2Proof.Machine.execNopInstr site s
  | .repeat_ site => Sys2Proof.Machine.execRepeat site s
  | .loopBegin site => Sys2Proof.Machine.execLoopBegin site s
  | .loopEnd site => Sys2Proof.Machine.execLoopEnd site s
  | .call site => Sys2Proof.Machine.execCall site s
  | .return_ site => Sys2Proof.Machine.execReturn site s
  | .jump site => Sys2Proof.Machine.execJump site s
  | .jumpIf site => Sys2Proof.Machine.execJumpIf site s
  | .lateJump site => Sys2Proof.Machine.execLateJump site s
  | .wait site => Sys2Proof.Machine.execWait site s
  | .holdPoint site => Sys2Proof.Machine.execHoldPoint site s
  | .holdResume site => Sys2Proof.Machine.execHoldResume site s
  | .rendezvous site => Sys2Proof.Machine.execRendezvous site s
  | .rdvResume site => Sys2Proof.Machine.execRdvResume site s
  | .rdvWaitLimit site => Sys2Proof.Machine.execRdvWaitLimit site s
  | .halt site => Sys2Proof.Machine.execHalt site s
  | .setreg site => Sys2Proof.Machine.execSetreg site s
  | .granuleFetch e poisoned => Sys2Proof.Machine.execGranuleFetch e poisoned s
  | .siteComplete site => Sys2Proof.Machine.execSiteComplete site s
  | .holdReportWrite => Sys2Proof.Machine.execHoldReportWrite s
  | .hrtHoldCtrlWrite o w => Sys2Proof.Machine.execHrtHoldCtrlWrite o w s
  | .hrtHoldCiWrite o w => Sys2Proof.Machine.execHrtHoldCiWrite o w s
  | .summaryPost site => Sys2Proof.Machine.execSummaryPost site s
  | .windowOperandPost site => Sys2Proof.Machine.execWindowOperandPost site s
  | .operandAccept site => Sys2Proof.Machine.execOperandAccept site s
  | .ageOut flow eseq => Sys2Proof.Machine.execAgeOut flow eseq s
  | .dispatch => Sys2Proof.Machine.execDispatch s
  | .drtQcCiWrite o c w => Sys2Proof.Machine.execDrtQcCiWrite o c w s
  | .release => Sys2Proof.Machine.execRelease s
  | .drtResCiWrite o w => Sys2Proof.Machine.execDrtResCiWrite o w s
  | .drtCfgWrite o w => Sys2Proof.Machine.execDrtCfgWrite o w s
  | .mbxTx o n w => Sys2Proof.Machine.execMbxTx o n w s
  | .mbxRxData o n => Sys2Proof.Machine.execMbxRxData o n s
  | .mbxWait o n w => Sys2Proof.Machine.execMbxWait o n w s
  | .mbxWaitTimeout n side => Sys2Proof.Machine.execMbxWaitTimeout n side s
  | .mbxCfgWrite o n w => Sys2Proof.Machine.execMbxCfgWrite o n w s
  | .mbxEventClear o n => Sys2Proof.Machine.execMbxEventClear o n s
  | .lockRead o k => Sys2Proof.Machine.execLockRead o k s
  | .lockRelease o k => Sys2Proof.Machine.execLockRelease o k s
  | .mbxLockFree o w => Sys2Proof.Machine.execMbxLockFree o w s
  | .endpointReset e => Sys2Proof.Machine.execEndpointReset e s
  | .fluePortEnable o p on w => Sys2Proof.Machine.execFluePortEnable o p on w s
  | .retrain o p w => Sys2Proof.Machine.execRetrain o p w s
  | .ident p device role port polarity trained => Sys2Proof.Machine.execIdent p device role port polarity trained s
  | .trainTimeout p => Sys2Proof.Machine.execTrainTimeout p s
  | .portIdleEntry p => Sys2Proof.Machine.execPortIdleEntry p s
  | .portWake p => Sys2Proof.Machine.execPortWake p s
  | .wakeBurstAligned p => Sys2Proof.Machine.execWakeBurstAligned p s
  | .wakeTimeout p => Sys2Proof.Machine.execWakeTimeout p s
  | .link p ack nak valid ev rsp req => Sys2Proof.Machine.execLink p ack nak valid ev rsp req s
  | .replayTimeout p => Sys2Proof.Machine.execReplayTimeout p s
  | .probe p stamp => Sys2Proof.Machine.execProbe p stamp s
  | .read p k => Sys2Proof.Machine.execRead p k s
  | .write p k => Sys2Proof.Machine.execWrite p k s
  | .doorbell p k => Sys2Proof.Machine.execDoorbell p k s
  | .response p k => Sys2Proof.Machine.execResponse p k s
  | .message p k => Sys2Proof.Machine.execMessage p k s
  | .packetForward p k => Sys2Proof.Machine.execPacketForward p k s
  | .rspTimeout tag => Sys2Proof.Machine.execRspTimeout tag s
  | .fluRaccGo o w => Sys2Proof.Machine.execFluRaccGo o w s
  | .joinTimeout reach => Sys2Proof.Machine.execJoinTimeout reach s
  | .epochMarkerSend => Sys2Proof.Machine.execEpochMarkerSend s
  | .epochMarker p k => Sys2Proof.Machine.execEpochMarker p k s
  | .startEvent p k => Sys2Proof.Machine.execStartEvent p k s
  | .stopEvent p k => Sys2Proof.Machine.execStopEvent p k s
  | .failEvent p k => Sys2Proof.Machine.execFailEvent p k s
  | .rdvReport p k => Sys2Proof.Machine.execRdvReport p k s
  | .rdvRelease p k => Sys2Proof.Machine.execRdvRelease p k s
  | .skewStart o w => Sys2Proof.Machine.execSkewStart o w s
  | .skewDone => Sys2Proof.Machine.execSkewDone s
  | .clkPllCtrlWrite o p w => Sys2Proof.Machine.execClkPllCtrlWrite o p w s
  | .pllInLockWindow p => Sys2Proof.Machine.execPllInLockWindow p s
  | .acqTimeout p => Sys2Proof.Machine.execAcqTimeout p s
  | .settleEnd p => Sys2Proof.Machine.execSettleEnd p s
  | .lockLoss p => Sys2Proof.Machine.execLockLoss p s
  | .nearRail p => Sys2Proof.Machine.execNearRail p s
  | .refclkAbsent lastTick => Sys2Proof.Machine.execRefclkAbsent lastTick s
  | .refclkPresent => Sys2Proof.Machine.execRefclkPresent s
  | .measure o w => Sys2Proof.Machine.execMeasure o w s
  | .bandMeasureDone low high => Sys2Proof.Machine.execBandMeasureDone low high s
  | .gridPhaseStep => Sys2Proof.Machine.execGridPhaseStep s
  | .clkOutCfgWrite o p w => Sys2Proof.Machine.execClkOutCfgWrite o p w s
  | .emberClkFail => Sys2Proof.Machine.execEmberClkFail s
  | .emberClkReturn => Sys2Proof.Machine.execEmberClkReturn s
  | .tmuEdge n tick code rise => Sys2Proof.Machine.execTmuEdge n tick code rise s
  | .tmuStampCommit n => Sys2Proof.Machine.execTmuStampCommit n s
  | .tmuRecordDrain n => Sys2Proof.Machine.execTmuRecordDrain n s
  | .arm o n w => Sys2Proof.Machine.execArm o n w s
  | .disarm o n w => Sys2Proof.Machine.execDisarm o n w s
  | .tmuDiffTimeout n => Sys2Proof.Machine.execTmuDiffTimeout n s
  | .tmuTestPulse tick => Sys2Proof.Machine.execTmuTestPulse tick s
  | .tmuCalStart o w => Sys2Proof.Machine.execTmuCalStart o w s
  | .tmuCalDone n counts => Sys2Proof.Machine.execTmuCalDone n counts s
  | .ddsTransition u => Sys2Proof.Machine.execDdsTransition u s
  | .hrtGrtPwrWrite o g w => Sys2Proof.Machine.execHrtGrtPwrWrite o g w s
  | .grateWakeDone g => Sys2Proof.Machine.execGrateWakeDone g s
  | .grateSettleDone g => Sys2Proof.Machine.execGrateSettleDone g s
  | .grateIdleOff g => Sys2Proof.Machine.execGrateIdleOff g s
  | .descendSmoulder o => Sys2Proof.Machine.execDescendSmoulder o s
  | .descendBanked o cold => Sys2Proof.Machine.execDescendBanked o cold s
  | .request o => Sys2Proof.Machine.execRequest o s
  | .descentDone ckptFails => Sys2Proof.Machine.execDescentDone ckptFails s
  | .wakeN => Sys2Proof.Machine.execWakeN s
  | .alarm => Sys2Proof.Machine.execAlarm s
  | .ascent sub bands ckptFails => Sys2Proof.Machine.execAscent sub bands ckptFails s
  | .ascentRestored => Sys2Proof.Machine.execAscentRestored s
  | .railPgTimeout rail => Sys2Proof.Machine.execRailPgTimeout rail s
  | .pwrDomainCtrlWrite o w => Sys2Proof.Machine.execPwrDomainCtrlWrite o w s
  | .up o w pmbFail => Sys2Proof.Machine.execUp o w pmbFail s
  | .down o w pmbFail => Sys2Proof.Machine.execDown o w pmbFail s
  | .supStepAdvance pmbFail powerGood => Sys2Proof.Machine.execSupStepAdvance pmbFail powerGood s
  | .pgTimeout => Sys2Proof.Machine.execPgTimeout s
  | .supPgFall n => Sys2Proof.Machine.execSupPgFall n s
  | .pwrSupReadGo o w r => Sys2Proof.Machine.execPwrSupReadGo o w r s
  | .pmbAlert answer => Sys2Proof.Machine.execPmbAlert answer s
  | .tempSample temps => Sys2Proof.Machine.execTempSample temps s
  | .refreshDue c realTime => Sys2Proof.Machine.execRefreshDue c realTime s
  | .makeupBurst c => Sys2Proof.Machine.execMakeupBurst c s
  | .mr4Poll c mr4 twice hot => Sys2Proof.Machine.execMr4Poll c mr4 twice hot s
  | .retrainPause c gap expired ns fails => Sys2Proof.Machine.execRetrainPause c gap expired ns fails s
  | .scrubRead c e => Sys2Proof.Machine.execScrubRead c e s
  | .dramReadComplete c arrivals now e => Sys2Proof.Machine.execDramReadComplete c arrivals now e s
  | .alertNParity c rings => Sys2Proof.Machine.execAlertNParity c rings s
  | .hotWindowEnd bytes busy => Sys2Proof.Machine.execHotWindowEnd bytes busy s
  | .linearity o hearths => Sys2Proof.Machine.execLinearity o hearths s
  | .levels o hearths => Sys2Proof.Machine.execLevels o hearths s
  | .deskew o hearths => Sys2Proof.Machine.execDeskew o hearths s
  | .calProcDone h fail measured => Sys2Proof.Machine.execCalProcDone h fail measured s
  | .deviceTimeTick => Sys2Proof.Machine.execDeviceTimeTick s
  | .mgtTimeIncWrite o w => Sys2Proof.Machine.execMgtTimeIncWrite o w s
  | .mgtTimeAdjWrite o w => Sys2Proof.Machine.execMgtTimeAdjWrite o w s
  | .mgtTimeSetSecWrite o w => Sys2Proof.Machine.execMgtTimeSetSecWrite o w s
  | .mgtPtpMasterWrite o w => Sys2Proof.Machine.execMgtPtpMasterWrite o w s
  | .ptpTimestamp p tx type seqId sender delta => Sys2Proof.Machine.execPtpTimestamp p tx type seqId sender delta s
  | .syncTimeout => Sys2Proof.Machine.execSyncTimeout s
  | .mgtFrameReceive p bytes fcsOk residence => Sys2Proof.Machine.execMgtFrameReceive p bytes fcsOk residence s
  | .mgtTspInfoRead o p => Sys2Proof.Machine.execMgtTspInfoRead o p s
  | .ldgService o w => Sys2Proof.Machine.execLdgService o w s
  | .ledgerCheckpoint fails => Sys2Proof.Machine.execLedgerCheckpoint fails s
  | .auditFlush entries => Sys2Proof.Machine.execAuditFlush entries s
  | .auditCheckpoint => Sys2Proof.Machine.execAuditCheckpoint s
  | .audRdGo o w => Sys2Proof.Machine.execAudRdGo o w s
  | .audPermWrite o b w => Sys2Proof.Machine.execAudPermWrite o b w s
  | .attest o arg => Sys2Proof.Machine.execAttest o arg s
  | .confirm o arg => Sys2Proof.Machine.execConfirm o arg s
  | .raise o arg => Sys2Proof.Machine.execRaise o arg s
  | .keyProgram o arg => Sys2Proof.Machine.execKeyProgram o arg s
  | .keyRevoke o arg => Sys2Proof.Machine.execKeyRevoke o arg s
  | .deviceReset o arg => Sys2Proof.Machine.execDeviceReset o arg s
  | .flashErase o arg => Sys2Proof.Machine.execFlashErase o arg s
  | .flashProgram o arg => Sys2Proof.Machine.execFlashProgram o arg s
  | .flashRead o arg => Sys2Proof.Machine.execFlashRead o arg s
  | .kick o w => Sys2Proof.Machine.execKick o w s
  | .watchdogExpiry => Sys2Proof.Machine.execWatchdogExpiry s
  | .registerWrite o addr size value => Sys2Proof.Machine.execRegisterWrite o addr size value s
  | .douseNHigh => Sys2Proof.Machine.execDouseNHigh s
  | .mgtLinkChange p up anDone speedBad => Sys2Proof.Machine.execMgtLinkChange p up anDone speedBad s
  | .rtcSecond => Sys2Proof.Machine.execRtcSecond s
  | .tmuGroupOn g => Sys2Proof.Machine.execTmuGroupOn g s
  | .fluePacketDiscard p blocks => Sys2Proof.Machine.execFluePacketDiscard p blocks s
  | .probeSend p => Sys2Proof.Machine.execProbeSend p s
  | .ddsAmpSettleEnd site => Sys2Proof.Machine.execDdsAmpSettleEnd site s

end Sys2Proof.Machine
end

