-- ==== Sys2Proof/Safety.lean ====
section
/-! DEFINITION. What claims are stated in: the invariant of the state, a command that completes, and frames: what a command leaves as it
was. -/

namespace Sys2Proof.Machine

/-- The invariant: memory stands in its canonical form. -/
def State.Inv (s : State) : Prop := Memory.wf s.dev.mem = true

/-- The command answers a next state, leaves the queue alone, and `P` holds of the device it leaves. -/
def Completes (c : Instr) (s : State) (P : Dev → Prop) : Prop :=
  ∃ t, exec c s = .next t ∧ t.pending = s.pending ∧ P t.dev

/-- Registers outside a list hold what they held. -/
def RegsBut (l : List Nat) (d e : Dev) : Prop := ∀ off, off ∉ l → e.reg off = d.reg off

/-- Every byte of DRAM reads as it read. -/
def SameBytes (d e : Dev) : Prop := ∀ a, memByte e.mem a = memByte d.mem a

/-- Everything but registers is as it was. -/
def OnlyRegs (d e : Dev) : Prop := e = { d with regs := e.regs }

/-- Everything but registers and the audit log is as it was. -/
def OnlyRegsAudit (d e : Dev) : Prop := e = { d with regs := e.regs, audit := e.audit }

/-- Everything but the outbox is as it was. -/
def OnlyOut (d e : Dev) : Prop := e = { d with outbox := e.outbox }

/-- The device with which a command leaves a state, if it answers one. -/
def devAfter (c : Instr) (s : State) : Option Dev :=
  match exec c s with
  | .next t => some t.dev
  | _ => none

/-- A core's register write is answered (R29) and let through: aligned, permitted, and refused by no rule of a chapter and by no run lock (R516–R518). -/
def Accepts (d : Dev) (o : Origin) (off : Nat) (w : Word) : Prop := d.board.stopped = false ∧ d.judgeWrite o.id off w = none

/-- A douse runs with a cause over a closed scope that holds every channel of a source, and FLT_DOUSE_STATUS tells of it (R467, R473, R479). -/
def Doused (cause source : Nat) (e : Dev) : Prop :=
  ∃ x ∈ e.faults.douses, x.cause = cause ∧ (∀ ch, tbit source ch = true → tbit x.scope ch = true) ∧
    e.getF R.FLT_DOUSE_STATUS F.FLT_DOUSE_STATUS_CAUSE = cause ∧
    e.getF R.FLT_DOUSE_STATUS F.FLT_DOUSE_STATUS_HEARTHS = scopeHearths x.scope ∧
    e.getF R.FLT_DOUSE_STATUS F.FLT_DOUSE_STATUS_ACTIVE = 1

/-- The device after step 4 of kindling: straps read, board profile taken (R528). -/
def Dev.profiled (d : Dev) (e : KindleEnv) (lost : Bool) : Dev := ((d.kindle12 lost).kindle3 e).kindle4 e

/-- The slot that the boot control record prefers for a stage (R536). -/
def Dev.preferred (d : Dev) (stage : Nat) : Nat := nth d.bootRecord.prefer stage 0 % 2

/-- Nothing stops kindling before its step 5: role straps other than 0b11, a directory, for every stage a confirmed preferred slot that qualifies, and
a DRAM configuration, of `gib` GiB a channel (R29, R419, R528, R535, R537). -/
def KindlesReady (d : Dev) (e : KindleEnv) (lost : Bool) (gib : Nat) : Prop :=
  e.strap % 4 ≠ 3 ∧ d.directory.isSome = true ∧
  (∀ st, st < 5 → nth d.bootRecord.tries st 0xFF = 0xFF ∧ (d.slotOk st (d.preferred st)).isSome = true) ∧
  configGib (d.profiled e lost).dramConfig = some gib

/-- Kindling that nothing stops ends with READY in GLOW, eight channels' DRAM, and every stage running from its preferred slot. -/
def ReadyWith (d : Dev) (gib : Nat) (e : Dev) : Prop :=
  e.board.stopped = false ∧ e.getF R.SEC_KINDLE F.SEC_KINDLE_READY = 1 ∧ e.getF R.EMB_PSTATE F.EMB_PSTATE_STATE = devGlow ∧
  e.getF R.GLB_CAPACITY F.GLB_CAPACITY_DRAM_GIB = 8 * gib ∧ ∀ st, st < 5 → e.runOf st = (d.slotOk st (d.preferred st)).map (·.run)

/-- Kindling has stopped in SMOULDER with a STOP code (R29, R538). -/
def StoppedWith (code : Nat) (e : Dev) : Prop :=
  e.board.stopped = true ∧ e.getF R.SEC_KINDLE F.SEC_KINDLE_STOP = code ∧ e.getF R.EMB_PSTATE F.EMB_PSTATE_STATE = devSmoulder

/-- Kindling has ended: in GLOW with READY, or stopped in SMOULDER (R29, R528, R538). -/
def Kindled (e : Dev) : Prop :=
  (e.board.stopped = false ∧ e.getF R.SEC_KINDLE F.SEC_KINDLE_READY = 1 ∧ e.getF R.EMB_PSTATE F.EMB_PSTATE_STATE = devGlow) ∨
  (e.board.stopped = true ∧ e.getF R.EMB_PSTATE F.EMB_PSTATE_STATE = devSmoulder)

/-- The MAC serves the port, and accepts the frame once the requests that it has finished have left its queue (R475). -/
def LlkReady (d : Dev) (f : LlkFrame) : Prop := d.llkServes f.port = true ∧ (d.llkDone f).llkAccepts f = true

/-- The response of R476: 46 bytes or more, sent to the source on the port, with version 1, OP + 0x80, the request's SEQ and the status. -/
def LlkAnswered (f : LlkFrame) (op status : Nat) (d e : Dev) : Prop :=
  (∃ body, Output.leloisk f.port f.src body ∈ e.outbox ∧ 46 ≤ body.length ∧ body.take 5 = bytesOf 1 1 ++ bytesOf 1 (op + 0x80) ++ bytesOf 2 f.seq ++ bytesOf 1 status) ∧
  e.getF R.FLT_LLK_COUNTS F.FLT_LLK_COUNTS_ANSWERED = capAt (d.getF R.FLT_LLK_COUNTS F.FLT_LLK_COUNTS_ANSWERED + 1) 65535

/-! ### Rings -/

/-- The ordered descriptor `q` at the head of ring `n` has left it with a completion of status, ARG0 and ARG1 (R367, R369). -/
def Ended (n : Nat) (q : Desc) (status arg0 arg1 : Nat) (d e : Dev) : Prop :=
  (e.ring n).held = (d.ring n).held ++ [⟨q.hostSeq, q.opcode, status, 8 * bit q.irq, arg0, arg1, true⟩] ∧
  (e.ring n).waiting = (d.ring n).waiting.tail ∧ (e.ring n).current = none

/-- The same, with arguments that the statement leaves. -/
def EndedWith (n : Nat) (q : Desc) (status : Nat) (d e : Dev) : Prop := ∃ arg0 arg1, Ended n q status arg0 arg1 d e

/-- The source of a load can be read: its lines of DRAM are good, or another device holds it and all READs of it are answered (R361, R380, R425). -/
def Readable (d : Dev) (n a len : Nat) (remote : RemoteRead) : Prop :=
  (d.ringRemote n = true ∧ remote.stop = .done) ∨ (d.ringRemote n = false ∧ d.poisoned a len = false)

/-- Everything but the rings is as it was. -/
def OnlyRings (d e : Dev) : Prop := e = { d with rings := e.rings }

/-- The slot that ring `n` consumes next, as the descriptor it holds: in local DRAM, or as a remote pair has fetched it. -/
def Dev.slotDesc (d : Dev) (n : Nat) : Desc :=
  let a := d.cmdBase n + 64 * (d.ringCi n % 2 ^ d.cmdLog2 n)
  ⟨slice (if d.ringRemote n then (d.ring n).slotBytes.getD [] else d.read a 64) 0 64, d.ringOrigin n, a⟩

/-- Ring `n` may take its next slot (R362). -/
def MayTake (d : Dev) (n : Nat) : Prop :=
  d.ringState n = rsRunning ∧ (d.ring n).cmdPi ≠ d.ringCi n ∧ (d.ring n).waiting.length + bit (d.ring n).current.isSome < 64

/-- Ring `n` may consume a slot: one of good lines of local DRAM, or the one that a remote pair has fetched (R362, R380, R425). -/
def CanConsume (d : Dev) (n : Nat) : Prop :=
  MayTake d n ∧ ((d.ringRemote n = false ∧ d.poisoned (d.slotDesc n).slot 64 = false) ∨ (d.ringRemote n = true ∧ (d.ring n).slotBytes.isSome = true))

/-! ### Runs -/

/-- Site `x` and its lockstep group `g` under key `k` stand at the end of a granule execution with instruction `ins`, and nothing else is due for
the site there: no late jump, STOP, smother, hold or wait (R35, R147, R151, R193). -/
def AtEnd (d : Dev) (x k : Nat) (g : Group) (i : Image) (ins : ZIns) : Prop :=
  d.atBoundary x = some (k, g, i) ∧ g.members.Nodup ∧ d.groupIns g i = ins ∧ d.lateDue g = false ∧ (d.site x).run.stop = false ∧
  (d.site x).run.smother = [] ∧ (d.site x).run.wait = none

/-- The site stands at the first vector of its next granule, with this flow. -/
def GoesTo (x : Nat) (f : Flow) (e : Dev) : Prop := (e.site x).run.flow = f ∧ (e.site x).run.vec = 0 ∧ (e.site x).run.rep = 0

/-- The site stands at the first vector of one more execution of its granule, the `rep`-th repetition. -/
def Repeats (x : Nat) (f : Flow) (rep : Nat) (e : Dev) : Prop := (e.site x).run.flow = f ∧ (e.site x).run.vec = 0 ∧ (e.site x).run.rep = rep

/-- The run of the site has ended with this cause (R26, R194). -/
def RunEnds (x : Nat) (cause : EndCause) (e : Dev) : Prop := (e.site x).st = .stopping ∧ (e.site x).endCause = cause

/-! ### Reads, mailboxes, packets -/

/-- A core's register read is answered (R29) and let through: aligned, permitted, and of an endpoint's own (R407, R516). -/
def Grants (d : Dev) (o : Origin) (off : Nat) : Prop := d.board.stopped = false ∧ d.judgeRead o.id off = none

/-- Bit of MBX_n_STATUS that is the EVENT of a side (R415). -/
def Side.eventBit : Side → Nat
  | .a => 0
  | .b => 1

/-- A packet of a type arrives on an ACTIVE port for this device, alone or with others, with fields as R330 has them, and is answered (R29). -/
def Arrives (d : Dev) (p type : Nat) (k : Packet) : Prop :=
  k.type = type ∧ d.ours k = true ∧ d.portState p = psActive ∧ k.fieldsOk = true ∧ d.board.stopped = false

/-- The FLUE_DMA in progress on ring `n` ends with a status and the bytes moved (R361). -/
def DmaEnds (n : Nat) (q : Desc) (status moved : Nat) (d e : Dev) : Prop :=
  (e.ring n).held = (d.ring n).held ++ [⟨q.hostSeq, q.opcode, status, 8 * bit q.irq, moved, 0, true⟩] ∧ (e.ring n).current = none

/-- How a start that came as a Flue event is judged before it is a start: its opcode, then as a descriptor (R344, R363). -/
def Dev.judgeEvent (d : Dev) (n : Nat) (q : Desc) : Option DescEnd := if q.opcode = opStart then d.judgeDesc n q else some (.refused 0x80)

/-- A port's count of bad packets and blocks is one higher, or full (R332). -/
def CountsBad (p : Nat) (d e : Dev) : Prop :=
  e.getF (R.FLU_PORT_ERRORS p) F.FLU_PORT_ERRORS_CRC_ERRORS = capAt (d.getF (R.FLU_PORT_ERRORS p) F.FLU_PORT_ERRORS_CRC_ERRORS + 1) (2 ^ F.FLU_PORT_ERRORS_CRC_ERRORS.width - 1) ∧
  RegsBut [R.FLU_PORT_ERRORS p] d e

/-- A packet has left by a port, or waits in its queue for credits (R331). -/
def Sent (q : Nat) (k : Packet) (e : Dev) : Prop := (∃ seq, Output.packet q seq k ∈ e.outbox) ∨ k ∈ (e.port q).queue

/-- Ports by which an event of this device leaves: the manager's broadcast leaves by every downstream port, a worker's goes to DEST 0 (R335, R344). -/
def Dev.eventPorts (d : Dev) : List Nat :=
  if d.isManager then d.downPorts else match d.route 0 with
    | .port p => [p]
    | _ => []

/-- The EVENT packet with which this device tells the tree of a start's event (R343, R344). -/
def Dev.tells (d : Dev) (r : Start) (epoch kind : Nat) (more : List Nat) : Packet :=
  eventPacket d.deviceNum (if d.isManager then destAll else 0) r.ring epoch kind 0 0 false r.hostSeq more

/-- No enabled ring has its doorbell line among `n` bytes of memory (R355). -/
def Unwatched (d : Dev) (a n : Nat) : Prop := ∀ i, i < 64 → d.ringState i = rsDisabled ∨ a + n ≤ d.dbAddr i ∨ d.dbAddr i + 8 ≤ a

/-! ### Device time, security -/

/-- Device time in units of 2^-32 ns (R501). -/
def TimeState.units (t : TimeState) : Nat := (10 ^ 9 * t.secs + t.ns) * 2 ^ 32 + t.frac

/-- A site that was active is so no more, or ends at the granule end with smother reason `r` among its reasons (R35). -/
def Smothered (r x : Nat) (e : Dev) : Prop :=
  (e.site x).st = .stopping ∨ ((e.site x).st = .running ∧ (e.site x).run.smother.contains r = true)

/-- SEC_STATUS tells of an operation with a result (R543). -/
def EndsOp (op result : Nat) (e : Dev) : Prop :=
  e.getF R.SEC_STATUS F.SEC_STATUS_LAST_OP = op ∧ e.getF R.SEC_STATUS F.SEC_STATUS_RESULT = result

end Sys2Proof.Machine
end

