-- ==== Sys2Proof/Certificates/Slice0/Obligations.lean ====
section
/-! DEFINITION. The statements for the provers, one per rule or group of rules. -/

section

open Sys2Proof Sys2Proof.Machine

/-! ### Every command -/

/-- A step runs the command at the front of the queue on the state with the rest of the queue. -/
def Obligations.StepRunsTheFrontCommand : Prop :=
  ∀ (s : State) (c : Instr) (rest : List Instr), s.pending = c :: rest → step s = exec c { s with pending := rest }

/-- On an empty queue the block idles: the model's choice, log entry 5. -/
def Obligations.EmptyQueueIdles : Prop :=
  ∀ s : State, s.pending = [] → step s = .next s

/-- Every command answers a next state and leaves the queue as it found it; none faults, none is refused. -/
def Obligations.EveryCommandAnswers : Prop :=
  ∀ (c : Instr) (s : State), ∃ t, exec c s = .next t ∧ t.pending = s.pending

/-- DRAM keeps its canonical form through every step: equal contents are equal data. -/
def Obligations.StepKeepsTheInvariant : Prop :=
  ∀ s t : State, s.Inv → step s = .next t → t.Inv

/-- The state after reset meets the invariant, with an empty queue. -/
def Obligations.ResetMeetsTheInvariant : Prop := State.reset.Inv ∧ State.reset.pending = []

/-- Registers after reset hold the numbers of the Reset column: a sample over the windows of R46. The values of OTP fields are the model's (log
entry 3) and are not among them. -/
def Obligations.ResetValues : Prop :=
  ∀ x ∈ [(R.EMB_PSTATE, (0x25 : Nat)), (R.CLK_PLL_CTRL 0, 0x40000028), (R.CLK_PLL_CTRL 5, 0x4000007D), (R.FLT_CFG 0, 0x55EEAAAA), (R.FLT_CFG 1, 0x50155005),
    (R.FLT_CFG 2, 0x00505555), (R.FLT_WORD_LO, 0), (R.FLT_DOUSE_STATUS, 0), (R.RING_STATUS 63, 0), (R.DMC_PORT_CFG 36, 4000), (R.TMU_REF_STATUS, 0),
    (R.CLK_STATUS, 0x3F0002), (R.CLK_PLL_STATUS 0, 0x40), (R.MGT_TIME_STATUS, 1), (R.HRT_STR_ADM_STATUS, 0), (R.HRT_GRT_LIVE_DRV 0, 0x2EE02EE0)],
    State.reset.dev.shows x.1 = BitVec.ofNat 32 x.2

/-! ### Board: pins, kindling, loss of VDD_EMBER -/

/-- POWER_ON, of a flash and OTP as its operands leave them, and a device reset that has fallen due: with role straps, directory, stages and a DRAM
configuration in order, and every channel trained, kindling ends READY in GLOW with the stages running; a channel that fails its training stops it in SMOULDER
with STOP 4, and role straps 0b11 with STRAP_BAD and STOP 1. In every state kindling ends in one of the two. A device reset that has not fallen due
changes nothing (log entry 2). -/
def Obligations.KindlingEndsReadyOrStopped : Prop :=
  (∀ (s : State) (e : KindleEnv) (gib : Nat), KindlesReady (s.dev.factoryFill e) e true gib →
    (e.dramFail % 256 = 0 → Completes (.powerOn e) s (ReadyWith (s.dev.factoryFill e) gib)) ∧
    (e.dramFail % 256 ≠ 0 → Completes (.powerOn e) s (StoppedWith 4))) ∧
  (∀ (s : State) (e : KindleEnv) (gib : Nat), s.dev.board.resetDue = true → KindlesReady s.dev e false gib →
    (e.dramFail % 256 = 0 → Completes (.deviceResetAfterDouse e) s (ReadyWith s.dev gib)) ∧
    (e.dramFail % 256 ≠ 0 → Completes (.deviceResetAfterDouse e) s (StoppedWith 4))) ∧
  (∀ (s : State) (e : KindleEnv), Completes (.powerOn e) s (fun d => Kindled d ∧ d.board.resetDue = false ∧
      (e.strap % 4 = 3 → StoppedWith 1 d ∧ d.getF R.GLB_ROLE F.GLB_ROLE_STRAP_BAD = 1)) ∧
    (s.dev.board.resetDue = true → Completes (.deviceResetAfterDouse e) s (fun d => Kindled d ∧ d.board.resetDue = false ∧
      (e.strap % 4 = 3 → StoppedWith 1 d ∧ d.getF R.GLB_ROLE F.GLB_ROLE_STRAP_BAD = 1))) ∧
    (s.Inv → s.dev.board.resetDue = false → exec (.deviceResetAfterDouse e) s = .next s))

/-- VDD_EMBER_LOSS leaves flash, OTP and what was already sent; every other state is gone and the outputs are in the pin safe state. That DRAM
reads zero from then on is the model's choice (log entry 6). -/
def Obligations.EmberLossLeavesFlashAndOtp : Prop :=
  ∀ s : State, Completes .vddEmberLoss s (fun e =>
    e.getF R.EMB_PSTATE F.EMB_PSTATE_STATE = devBanked ∧ e.devEpoch = s.dev.devEpoch ∧ e.board.flash = s.dev.board.flash ∧ e.board.otp = s.dev.board.otp ∧
    e.cal.stored = s.dev.cal.stored ∧ e.time.slots = s.dev.time.slots ∧ e.time.ledger = [] ∧ e.time.rtcSecs = 0 ∧ e.audit.tail = [] ∧ e.audit.buffer = [] ∧
    e.audit.flash = s.dev.audit.flash ∧ (∀ ch, e.chan ch = Chan.safe) ∧ (∀ n, e.site n = Site.reset) ∧ e.faults = ⟨[], [], []⟩ ∧
    (∀ a, memByte e.mem a = memDefault) ∧ (∀ off, 0x20000 ≤ off → off < 0x40000 → e.reg off = regResetWord off) ∧ e.outbox = s.dev.outbox)

/-- DOUSE_N low for 20 ns or longer douses every channel, or adds its cause to a reset's douse that already does; for less than 5 ns it does nothing;
between them it does either, and never a part; a pin already low adds nothing. DOUSE_N rises: the pin reads high in FLT_DOUSE_STATUS and nothing else changes
but what a calibration procedure waited for; a running douse goes on. RESET_N low for 1 µs or longer starts a douse with cause reset, and the device
reset follows the relay steps of all douses under way (log entry 70); where one of them already holds every channel none is started and CAUSE gains reset; in
BANKED the reset falls due at once. Below 100 ns it does nothing. -/
def Obligations.Pins : Prop :=
  ((∀ (s : State) (ns : Nat), 20 ≤ ns → s.dev.board.douseLow = false → s.dev.banked = false →
    (s.dev.faults.douses.any (fun x => x.resetAfter && x.scope == allChannels) = false →
      Completes (.douseN ns) s (fun e => Doused dcPin allChannels e ∧ e.board.douseLow = true)) ∧
    (s.dev.faults.douses.any (fun x => x.resetAfter && x.scope == allChannels) = true →
      Completes (.douseN ns) s (fun e => e.faults = s.dev.faults ∧ e.board.douseLow = true ∧ RegsBut [R.FLT_DOUSE_STATUS] s.dev e ∧
        e.getF R.FLT_DOUSE_STATUS F.FLT_DOUSE_STATUS_CAUSE = s.dev.getF R.FLT_DOUSE_STATUS F.FLT_DOUSE_STATUS_CAUSE ||| dcPin))) ∧
  (∀ (s : State) (ns : Nat), ns < 5 ∨ s.dev.board.douseLow = true →
    Completes (.douseN ns) s (fun e => e.regs = s.dev.regs ∧ e.faults = s.dev.faults ∧ e.board = s.dev.board)) ∧
  (∀ (s : State) (ns : Nat), 5 ≤ ns → ns < 20 → s.dev.board.douseLow = false → s.dev.banked = false →
    s.dev.faults.douses.any (fun x => x.resetAfter && x.scope == allChannels) = false →
    Completes (.douseN ns) s (fun e => (Doused dcPin allChannels e ∧ e.board.douseLow = true) ∨
      (e.regs = s.dev.regs ∧ e.faults = s.dev.faults ∧ e.board = s.dev.board)))) ∧
  (∀ s : State, s.Inv → Completes .douseNHigh s (fun e =>
    e.getF R.FLT_DOUSE_STATUS F.FLT_DOUSE_STATUS_DOUSE_N = 0 ∧ e.board = { s.dev.board with douseLow := false } ∧ e.faults = s.dev.faults ∧
    RegsBut [R.FLT_DOUSE_STATUS] s.dev e ∧
    e.getF R.FLT_DOUSE_STATUS F.FLT_DOUSE_STATUS_CAUSE = s.dev.getF R.FLT_DOUSE_STATUS F.FLT_DOUSE_STATUS_CAUSE ∧
    (s.dev.cal.proc = none → e = { s.dev with regs := e.regs, board := { s.dev.board with douseLow := false } }))) ∧
  ((∀ (s : State) (ns : Nat), 1000 ≤ ns → s.dev.banked = false →
    (s.dev.faults.douses.any (fun x => x.scope == allChannels) = false →
      Completes (.resetN ns) s (fun e => Doused dcReset allChannels e ∧ e.faults.douses.length = s.dev.faults.douses.length + 1 ∧
        ∀ x ∈ e.faults.douses, x.resetAfter = true)) ∧
    (s.dev.faults.douses.any (fun x => x.scope == allChannels) = true →
      Completes (.resetN ns) s (fun e => e.faults.douses = s.dev.faults.douses.map (fun x => { x with resetAfter := true }) ∧
        RegsBut [R.FLT_DOUSE_STATUS] s.dev e ∧
        e.getF R.FLT_DOUSE_STATUS F.FLT_DOUSE_STATUS_CAUSE = s.dev.getF R.FLT_DOUSE_STATUS F.FLT_DOUSE_STATUS_CAUSE ||| dcReset))) ∧
  (∀ (s : State) (ns : Nat), 1000 ≤ ns → s.dev.banked = true →
    Completes (.resetN ns) s (fun e => e.board.resetDue = true ∧ e.faults = s.dev.faults ∧ e.regs = s.dev.regs)) ∧
  (∀ (s : State) (ns : Nat), s.Inv → ns < 100 → exec (.resetN ns) s = .next s))

/-! ### Faults and douses -/

/-- Lines that assert, one or several in one cycle, are latched in the fault word, whatever reaction they have; a bit already set stays. A line newly set
with the reaction DOUSE_ALL douses every channel, with DOUSE the channels of its unit; in BANKED none does. A line of the safety class smothers the active sites of
its unit's hearth with reason 0x03. One line without a douse and outside the safety class changes the fault word and FLT_FIRST, in which the first is
noted, and nothing else in the register space. -/
def Obligations.FaultLines : Prop :=
  (∀ (s : State) (lines : List (Nat × Nat)), Completes (.faultLineAssert lines) s (fun e =>
    (∀ b, b < faultBits → e.bitOf R.FLT_WORD_LO b = (s.dev.bitOf R.FLT_WORD_LO b || lines.any (fun x => x.1 == b))) ∧
    (s.dev.banked = true → e.faults.douses = s.dev.faults.douses) ∧
    (s.dev.banked = false → ∀ x ∈ lines, x.1 < faultBits → s.dev.bitOf R.FLT_WORD_LO x.1 = false →
      (s.dev.faultReact x.1 = 3 → Doused dcFault allChannels e) ∧
      (s.dev.faultReact x.1 = 2 → Doused dcFault ((s.dev.unitScope x.1 x.2).getD allChannels) e)) ∧
    (∀ x ∈ lines, x.1 < faultBits → s.dev.faultClass x.1 = 2 → ∀ h, unitHearth x.1 x.2 = some h → ∀ y, homeHearth y = h →
      ((s.dev.site y).st = .starting → (e.site y).st = .stopping) ∧ ((s.dev.site y).st = .running → Smothered 3 y e)))) ∧
  (∀ (s : State) (b u : Nat), b < faultBits → s.dev.bitOf R.FLT_WORD_LO b = false → s.dev.faultReact b ≤ 1 → s.dev.faultClass b ≠ 2 →
    Completes (.faultLineAssert [(b, u)]) s (fun e => mapGet e.faults.units b 0 = u ∧ e.faults.douses = s.dev.faults.douses ∧
      RegsBut [R.FLT_WORD_LO, R.FLT_FIRST] s.dev e ∧
      (s.dev.flag R.FLT_FIRST F.FLT_FIRST_VALID = false → e.reg R.FLT_FIRST = BitVec.ofNat 32 (2 ^ 31 + 2 ^ 24 * b + u % 2 ^ 16)) ∧
      (s.dev.flag R.FLT_FIRST F.FLT_FIRST_VALID = true → e.reg R.FLT_FIRST = s.dev.reg R.FLT_FIRST)))

/-- FLT_DOUSE with GO douses every channel with ALL, else the hearths named. Writing 1s to FLT_WORD clears the bits written whose lines are not held, and
no other bit of any register. FLT_CFG takes the word written for the fault bits that exist, and nothing else changes but the audit log. FLT_INJECT
latches the fault bits written; in its upper word no bit has a line. -/
def Obligations.FaultRegisters : Prop :=
  (∀ (s : State) (o : Origin) (w : Word), s.dev.banked = false → Accepts s.dev o R.FLT_DOUSE w → getBits w F.FLT_DOUSE_GO = 1 →
    (getBits w F.FLT_DOUSE_ALL = 1 → Completes (.fltDouse o w) s (Doused dcRegister allChannels)) ∧
    (getBits w F.FLT_DOUSE_ALL = 0 → getBits w F.FLT_DOUSE_HEARTHS ≠ 0 →
      Completes (.fltDouse o w) s (Doused dcRegister (hearthsMask (getBits w F.FLT_DOUSE_HEARTHS))))) ∧
  (∀ (s : State) (o : Origin) (hi : Bool) (w : Word) (held : Nat), s.Inv → Accepts s.dev o (if hi then R.FLT_WORD_HI else R.FLT_WORD_LO) w →
    Completes (.fltWordClear o hi w held) s (fun e =>
      (∀ i, i < 32 → e.bitOf (if hi then R.FLT_WORD_HI else R.FLT_WORD_LO) i =
        (s.dev.bitOf (if hi then R.FLT_WORD_HI else R.FLT_WORD_LO) i && !(tbit w.toNat i && !(tbit held ((if hi then 32 else 0) + i))))) ∧
      RegsBut [if hi then R.FLT_WORD_HI else R.FLT_WORD_LO] s.dev e ∧ e.faults.douses = s.dev.faults.douses ∧ e.mem = s.dev.mem ∧ e.seq = s.dev.seq)) ∧
  (∀ (s : State) (o : Origin) (k : Fin 8) (w : Word), s.Inv → Accepts s.dev o (R.FLT_CFG k) w →
    Completes (.fltCfgWrite o k w) s (fun e => RegsBut [R.FLT_CFG k] s.dev e ∧ OnlyRegsAudit s.dev e ∧
      (k.val < 2 → e.reg (R.FLT_CFG k) = w) ∧ (k.val = 2 → e.reg (R.FLT_CFG k) = BitVec.ofNat 32 (w.toNat % 2 ^ 24)))) ∧
  (∀ (s : State) (o : Origin) (hi : Bool) (w : Word), Accepts s.dev o (if hi then R.FLT_INJECT_HI else R.FLT_INJECT_LO) w →
    Completes (.fltInject o hi w) s (fun e => ∀ b, b < faultBits →
      e.bitOf R.FLT_WORD_LO b = (s.dev.bitOf R.FLT_WORD_LO b || (!hi && tbit w.toNat b))))

/-- The supply step of the douses that wait for it switches every supply that they reach off, and leaves them waiting for their relay step. The relay step
ends the douse that has waited longest: its relay drives are released, and the reset that it carries falls due unless another douse under way carries it
too (log entry 70). -/
def Obligations.DouseSteps : Prop :=
  (∀ (s : State) (fails : List Nat), s.dev.faults.douses.any (fun x => x.step == .supply) = true →
    Completes (.douseSupplyStep fails) s (fun e =>
      (∀ x ∈ s.dev.faults.douses, x.step = .supply → ∀ n ∈ s.dev.supReached x.scope, e.supOn n = false) ∧
      (∀ x ∈ e.faults.douses, x.step = .relay) ∧ e.faults.douses.map (·.scope) = s.dev.faults.douses.map (·.scope) ∧
      e.getF R.FLT_DOUSE_STATUS F.FLT_DOUSE_STATUS_STEP = 2 ∧ e.mem = (memCanon s.dev.mem) ∧ e.seq = s.dev.seq ∧
      RegsBut [R.PWR_SUP_EN, R.FLT_DOUSE_STATUS] s.dev e)) ∧
  (∀ (s : State) (x : Douse), s.dev.faults.douses.find? (fun y => y.step == .relay) = some x →
    Completes .douseRelayStep s (fun e =>
      e.faults.douses = s.dev.faults.douses.erase x ∧ (∀ g, g < 128 → x.scope / 2 ^ (8 * g) % 256 ≠ 0 → (e.grate g).relay = false) ∧
      e.board.resetDue = (s.dev.board.resetDue || (x.resetAfter && !((s.dev.faults.douses.erase x).any (·.resetAfter)))) ∧ RegsBut [R.FLT_DOUSE_STATUS] s.dev e ∧
      e.getF R.FLT_DOUSE_STATUS F.FLT_DOUSE_STATUS_ACTIVE = bit (!(s.dev.faults.douses.erase x).isEmpty)))

/-- A driver in overload, or a VTT buffer in overload with the channels that it terminates, goes to high-impedance and stays so, is named in the grate's
status, the GRATE fault bit is set, and no active site that holds such a pin goes on: it is stopped, or smothered with reason 0x03. A driver that drives
nothing, and a buffer that terminates nothing, is in no overload: nothing changes. -/
def Obligations.DriverOverload : Prop :=
  (∀ (s : State) (g : Fin 128) (k : Fin 8), ∀ ch, ch = 8 * g.val + k.val →
    ((s.dev.chan ch).drv ≠ .z → Completes (.drvOvl g (some k)) s (fun e => e.bitOf R.FLT_WORD_LO 0 = true ∧ (e.chan ch).drv = .z ∧
      ((e.chan ch).overload = true ∨ e.chan ch = Chan.safe) ∧ e.getF (R.HRT_GRT_STATUS g.val) F.HRT_GRT_STATUS_DRV_OVL = 1 ∧
      (s.dev.getF (R.HRT_GRT_STATUS g.val) F.HRT_GRT_STATUS_DRV_OVL = 0 → e.getF (R.HRT_GRT_STATUS g.val) F.HRT_GRT_STATUS_OVL_PIN = k.val) ∧
      (∀ x b, s.dev.binding x = some b → ch ∈ b.channels → (s.dev.site x).st = .starting ∨ (s.dev.site x).st = .running → Smothered 3 x e) ∧
      (s.dev.faultReact 0 < 2 → s.dev.activeSites = [] → (∀ c, c ≠ ch → e.chan c = s.dev.chan c) ∧
        RegsBut [R.HRT_GRT_STATUS g.val, R.FLT_WORD_LO, R.FLT_FIRST] s.dev e))) ∧
    ((s.dev.chan ch).drv = .z → Completes (.drvOvl g (some k)) s (fun e => e.regs = s.dev.regs ∧ e.seq.chans = s.dev.seq.chans ∧ e.seq.sites = s.dev.seq.sites))) ∧
  (∀ (s : State) (g : Fin 128),
    ((∃ k, k < 8 ∧ (s.dev.chan (8 * g.val + k)).term = true) → Completes (.drvOvl g none) s (fun e => e.bitOf R.FLT_WORD_LO 0 = true ∧
      e.getF (R.HRT_GRT_STATUS g.val) F.HRT_GRT_STATUS_VTT_OVL = 1 ∧
      (∀ k, k < 8 → (s.dev.chan (8 * g.val + k)).term = true → (e.chan (8 * g.val + k)).drv = .z ∧
        ∀ x b, s.dev.binding x = some b → 8 * g.val + k ∈ b.channels → (s.dev.site x).st = .starting ∨ (s.dev.site x).st = .running → Smothered 3 x e))) ∧
    ((∀ k, k < 8 → (s.dev.chan (8 * g.val + k)).term = false) → Completes (.drvOvl g none) s (fun e => e.regs = s.dev.regs ∧
      e.seq.chans = s.dev.seq.chans ∧ e.seq.sites = s.dev.seq.sites)))

/-! ### Leloisk and the test access port -/

/-- A frame that the MAC serves and accepts is answered: REFUSED when its operation is not enabled, BAD_ARG for an argument that it does not define, else
OK. An accepted WAKE in SMOULDER with its cause enabled begins an ascent to GLOW; an accepted DOUSE douses the hearths it names, or all. A frame that
the MAC serves and does not accept is discarded: counted, not answered, and without effect. -/
def Obligations.LeloiskFrames : Prop :=
  (∀ (s : State) (f : LlkFrame), LlkReady s.dev f →
    Completes (.leloiskWake f) s (LlkAnswered f llkWake ((s.dev.llkDone f).llkStatus llkWake f.arg) s.dev) ∧
    Completes (.leloiskDouse f) s (LlkAnswered f llkDouse ((s.dev.llkDone f).llkStatus llkDouse f.arg) s.dev) ∧
    Completes (.readFault f) s (LlkAnswered f llkFault ((s.dev.llkDone f).llkStatus llkFault f.arg) s.dev) ∧
    Completes (.readLedger f) s (LlkAnswered f llkLedger ((s.dev.llkDone f).llkStatus llkLedger f.arg) s.dev)) ∧
  ((∀ (s : State) (f : LlkFrame), LlkReady s.dev f → (s.dev.llkDone f).llkStatus llkWake f.arg = 0 →
    s.dev.getF R.EMB_PSTATE F.EMB_PSTATE_STATE = devSmoulder → s.dev.board.stopped = false → s.dev.bitOf R.EMB_WAKE_CFG wkLeloisk = true →
    Completes (.leloiskWake f) s (fun e => e.power.ascent = some devSmoulder ∧ e.bitOf R.EMB_WAKE_CAUSE wkLeloisk = true ∧
      e.getF R.EMB_PSTATE F.EMB_PSTATE_STATE = devAscending ∧ e.getF R.EMB_PSTATE F.EMB_PSTATE_TARGET = devGlow)) ∧
  (∀ (s : State) (f : LlkFrame), LlkReady s.dev f → (s.dev.llkDone f).llkStatus llkDouse f.arg = 0 → s.dev.banked = false →
    Completes (.leloiskDouse f) s (Doused dcLeloisk (if f.arg % 65536 = 0 then allChannels else hearthsMask (f.arg % 65536))))) ∧
  (∀ (s : State) (f : LlkFrame) (op : Nat), s.Inv → s.dev.llkServes f.port = true → (s.dev.llkDone f).llkAccepts f = false →
    Completes (.leloiskDiscard f op) s (fun e =>
      e.getF R.FLT_LLK_COUNTS F.FLT_LLK_COUNTS_DISCARDED = capAt (s.dev.getF R.FLT_LLK_COUNTS F.FLT_LLK_COUNTS_DISCARDED + 1) 65535 ∧
      RegsBut [R.FLT_LLK_COUNTS] s.dev e ∧ e = { s.dev with regs := e.regs, llk := s.dev.llk.drop f.done, audit := e.audit }))

/-- The test access port: each instruction selects its data register and shifts its content out; EXTEST and CLAMP drive the balls, HIGHZ floats them, only
with RESET_N low or in factory test mode, else they act as BYPASS; nothing else of the device changes. UNLOCK enters factory test mode while the field
fuse is clear; once it is set, or when the unlock fails, it sets SECURITY and the mode stays. -/
def Obligations.TestAccessPort : Prop :=
  (∀ s : State, s.Inv →
    (Completes .idcode s (fun e => e.jtag = { s.dev.jtag with ir := 1, drBits := 32, dr := s.dev.board.otp.stepping / 256 % 16 * 2 ^ 28 + 0x4610 * 2 ^ 12 + s.dev.board.otp.maker % 2048 * 2 + 1 } ∧
      e.outbox = s.dev.outbox ++ [.tdo 32 e.jtag.dr] ∧ e = { s.dev with jtag := e.jtag, outbox := e.outbox })) ∧
    (Completes .faultRead s (fun e => e.jtag = { s.dev.jtag with ir := 0x3C, drBits := 128, dr := s.dev.faultWord + 2 ^ 64 * (s.dev.reg R.FLT_DOUSE_STATUS).toNat + 2 ^ 96 * (s.dev.reg R.FLT_FIRST).toNat } ∧
      e.outbox = s.dev.outbox ++ [.tdo 128 e.jtag.dr] ∧ e = { s.dev with jtag := e.jtag, outbox := e.outbox })) ∧
    (∀ ir, Completes (.bypass ir) s (fun e => e.jtag = { s.dev.jtag with ir := ir, drBits := 1, dr := 0 } ∧ e.outbox = s.dev.outbox ++ [.tdo 1 0] ∧
      e = { s.dev with jtag := e.jtag, outbox := e.outbox })) ∧
    (∀ n sample pre, Completes (.samplePreload n sample pre) s (fun e => e.jtag = ⟨2, pre % 2 ^ n, sample % 2 ^ n, n⟩ ∧
      e.outbox = s.dev.outbox ++ [.tdo n (sample % 2 ^ n)] ∧ e = { s.dev with jtag := e.jtag, outbox := e.outbox })) ∧
    (∀ low n sample, Completes (.extest low n sample) s (fun e => e.regs = s.dev.regs ∧ e.seq = s.dev.seq ∧ e.jtag.ir = 0 ∧
      e.outbox = s.dev.outbox ++ (if (low || s.dev.board.factory) = true then [.tdo n (sample % 2 ^ n), .boundary true] else [.tdo 1 0]))) ∧
    (∀ low, Completes (.clamp low) s (fun e => e.regs = s.dev.regs ∧ e.seq = s.dev.seq ∧ e.jtag.ir = 4 ∧
      e.outbox = s.dev.outbox ++ (if (low || s.dev.board.factory) = true then [.tdo 1 0, .boundary true] else [.tdo 1 0]))) ∧
    (∀ low, Completes (.highz low) s (fun e => e.regs = s.dev.regs ∧ e.seq = s.dev.seq ∧ e.jtag.ir = 5 ∧
      e.outbox = s.dev.outbox ++ (if (low || s.dev.board.factory) = true then [.tdo 1 0, .boundary false] else [.tdo 1 0])))) ∧
  (∀ (s : State) (ok : Bool),
    (s.dev.board.otp.field = false → ok = true → Completes (.unlock ok) s (fun e => e.board.factory = true ∧ e.regs = s.dev.regs)) ∧
    (s.dev.board.otp.field = true ∨ ok = false → Completes (.unlock ok) s (fun e => e.bitOf R.FLT_WORD_LO 21 = true ∧ e.board = s.dev.board)))

/-! ### Rings -/

/-- A doorbell write leaves its counts in the doorbell line; an enabled ring takes them, and a RUNNING ring that finds a count beyond its ring's size
faults with PI_INVALID. A remote pair fetches its next slot by a READ of 64 bytes; a fetch that arrives gives it the slot; one that times out goes out again, up
to three times; one that is denied, or that has timed out four times, faults the ring without consuming anything. -/
def Obligations.DoorbellsAndFetches : Prop :=
  (∀ (s : State) (n : Fin 64) (pi ci : Word), s.Inv →
    (s.dev.inHost (s.dev.dbAddr n) 64 = true → s.dev.ringState n = rsDisabled →
      Completes (.doorbellWrite n pi ci) s (fun e => e.readN (e.dbAddr n) 4 = pi.toNat ∧ e.readN (e.dbAddr n + 4) 4 = ci.toNat ∧ e.rings = s.dev.rings ∧
        e.regs = s.dev.regs ∧ ∀ a, a < s.dev.dbAddr n ∨ s.dev.dbAddr n + 8 ≤ a → memByte e.mem a = memByte s.dev.mem a)) ∧
    (s.dev.ringState n ≠ rsDisabled →
      (s.dev.ringState n = rsRunning → sub32 pi.toNat (s.dev.ringCi n) ≤ 2 ^ s.dev.cmdLog2 n ∧ sub32 (s.dev.devSeq n) ci.toNat ≤ 2 ^ s.dev.cmpLog2 n) →
      Completes (.doorbellWrite n pi ci) s (fun e => e.ring n = { s.dev.ring n with cmdPi := pi.toNat, cmpCi := ci.toNat } ∧ e.regs = s.dev.regs ∧
        (∀ m, m ≠ n.val → e.ring m = s.dev.ring m))) ∧
    (s.dev.ringState n = rsRunning → (2 ^ s.dev.cmdLog2 n < sub32 pi.toNat (s.dev.ringCi n) ∨ 2 ^ s.dev.cmpLog2 n < sub32 (s.dev.devSeq n) ci.toNat) →
      s.dev.ownerCut n = false →
      Completes (.doorbellWrite n pi ci) s (fun e => e.ringState n = rsFault ∧ e.getF (R.RING_STATUS n) F.RING_STATUS_ERR = rePiInvalid ∧
        e.getF (R.RING_STATUS n) F.RING_STATUS_ERR_INT = 1 ∧ e.ringCi n = s.dev.ringCi n ∧ e.bitOf R.FLT_WORD_LO 16 = true))) ∧
  (∀ (s : State) (n : Fin 64), MayTake s.dev n → s.dev.ringRemote n = true → (s.dev.ring n).slotBytes = none → (s.dev.ring n).fetching = false →
    ∀ p, s.dev.route 0 = .port p → Completes (.consumeDescriptor n) s (fun e => (e.ring n).fetching = true ∧ (e.ring n).fetchTries = (s.dev.ring n).fetchTries + 1 ∧
      e.ringCi n = s.dev.ringCi n ∧ e.ringState n = rsRunning ∧ (s.dev.flue.nextTag, ReadFor.fetch n) ∈ e.flue.reads ∧
      Sent p ⟨ptRead, 0, s.dev.deviceNum, s.dev.flue.nextTag, 0xFF, 8, s.dev.cmdBase n + 64 * (s.dev.ringCi n % 2 ^ s.dev.cmdLog2 n), []⟩ e)) ∧
  (∀ (s : State) (n : Fin 64), (s.dev.ring n).fetching = true →
    (∀ bs, Completes (.descriptorFetch n (.arrived bs)) s (fun e => e.ring n = { s.dev.ring n with fetching := false, fetchTries := 0, slotBytes := some (slice bs 0 64) } ∧
      e.regs = s.dev.regs)) ∧
    (s.dev.ownerCut n = false → Completes (.descriptorFetch n .denied) s (fun e => e.ringState n = rsFault ∧ e.getF (R.RING_STATUS n) F.RING_STATUS_ERR = reFetchDenied ∧
      e.ringCi n = s.dev.ringCi n ∧ (e.ring n).fetching = false)) ∧
    ((s.dev.ring n).fetchTries < 4 → s.dev.route 0 ≠ .none_ → Completes (.descriptorFetch n .timeout) s (fun e => (e.ring n).fetching = true ∧
      (e.ring n).fetchTries = (s.dev.ring n).fetchTries + 1 ∧ e.ringState n = s.dev.ringState n ∧ e.ringCi n = s.dev.ringCi n ∧
      e.getF (R.RING_ERRORS n) F.RING_ERRORS_FETCH_TIMEOUTS =
        capAt (s.dev.getF (R.RING_ERRORS n) F.RING_ERRORS_FETCH_TIMEOUTS + 1) (2 ^ F.RING_ERRORS_FETCH_TIMEOUTS.width - 1))) ∧
    ((s.dev.ring n).fetchTries ≥ 4 → s.dev.ownerCut n = false → Completes (.descriptorFetch n .timeout) s (fun e => e.ringState n = rsFault ∧
      e.getF (R.RING_STATUS n) F.RING_STATUS_ERR = reFetchTimeout ∧ e.ringCi n = s.dev.ringCi n ∧ (e.ring n).fetching = false ∧
      e.getF (R.RING_ERRORS n) F.RING_ERRORS_FETCH_TIMEOUTS =
        capAt (s.dev.getF (R.RING_ERRORS n) F.RING_ERRORS_FETCH_TIMEOUTS + 1) (2 ^ F.RING_ERRORS_FETCH_TIMEOUTS.width - 1))))

/-- A slot whose HOST_SEQ is expected, of local DRAM or fetched, is consumed: CI, SEQ and IN_PROGRESS advance by one, and a descriptor that its origin may
post with its options and that R363 lets through waits in order, a STOP for the engine at once; one that its origin may not post completes with
ACCESS_DENIED, one that fails a check with ADMISSION_REFUSED and the check. -/
def Obligations.DescriptorIsConsumed : Prop :=
  ∀ (s : State) (n : Fin 64), CanConsume s.dev n → (s.dev.slotDesc n).hostSeq = s.dev.expect n →
    Completes (.consumeDescriptor n) s (fun e => e.ringCi n = (s.dev.ringCi n + 1) % 2 ^ 32 ∧ e.expect n = (s.dev.expect n + 1) % 2 ^ 32 ∧
      e.inProgress n = (s.dev.inProgress n + 1) % 2 ^ F.RING_STATUS_IN_PROGRESS.width) ∧
    (s.dev.judgeDesc n (s.dev.slotDesc n) = none →
      Completes (.consumeDescriptor n) s (fun e => (e.ring n).held = (s.dev.ring n).held ∧
        (if (s.dev.slotDesc n).opcode = opStop then (e.ring n).immediate = (s.dev.ring n).immediate ++ [s.dev.slotDesc n] ∧ (e.ring n).waiting = (s.dev.ring n).waiting
          else (e.ring n).waiting = (s.dev.ring n).waiting ++ [s.dev.slotDesc n] ∧ (e.ring n).immediate = (s.dev.ring n).immediate) ∧
        RegsBut [R.RING_CI n, R.RING_SEQ n, R.RING_STATUS n] s.dev e ∧ e.seq = s.dev.seq)) ∧
    (∀ kind, s.dev.judgeDesc n (s.dev.slotDesc n) = some (.denied kind) →
      Completes (.consumeDescriptor n) s (fun e => e.bitOf R.FLT_WORD_LO 20 = true ∧
        (e.ring n).held.getLast? = some ⟨(s.dev.slotDesc n).hostSeq, (s.dev.slotDesc n).opcode, stAccessDenied, 8 * bit (s.dev.slotDesc n).irq, 0, 0, true⟩)) ∧
    (∀ check, s.dev.judgeDesc n (s.dev.slotDesc n) = some (.refused check) →
      Completes (.consumeDescriptor n) s (fun e => (e.ring n).held = (s.dev.ring n).held ++
          [⟨(s.dev.slotDesc n).hostSeq, (s.dev.slotDesc n).opcode, stRefused, 8 * bit (s.dev.slotDesc n).irq, refuseArg check, 0, true⟩] ∧
        (e.ring n).waiting = (s.dev.ring n).waiting ∧ (e.ring n).immediate = (s.dev.ring n).immediate ∧
        RegsBut [R.RING_CI n, R.RING_SEQ n, R.RING_STATUS n] s.dev e ∧ e.seq = s.dev.seq))

/-- A slot with another HOST_SEQ is not consumed: the ring stops with SEQ_GAP, and a SEQ_GAP completion says which was expected; a ring that is STOPPED consumes nothing. -/
def Obligations.SequenceGapStopsTheRing : Prop :=
  (∀ (s : State) (n : Fin 64), s.Inv → s.dev.ringState n = rsStopped → exec (.consumeDescriptor n) s = .next s) ∧
  ∀ (s : State) (n : Fin 64), CanConsume s.dev n → s.dev.ownerCut n = false → (s.dev.slotDesc n).hostSeq ≠ s.dev.expect n →
    Completes (.consumeDescriptor n) s (fun e => e.ringState n = rsStopped ∧ e.getF (R.RING_STATUS n) F.RING_STATUS_ERR = reSeqGap ∧
      e.ringCi n = s.dev.ringCi n ∧ e.expect n = s.dev.expect n ∧ e.inProgress n = s.dev.inProgress n ∧
      e.getF (R.RING_ERRORS n) F.RING_ERRORS_SEQ_GAPS = capAt (s.dev.getF (R.RING_ERRORS n) F.RING_ERRORS_SEQ_GAPS + 1) (2 ^ F.RING_ERRORS_SEQ_GAPS.width - 1) ∧
      (e.ring n).waiting = (s.dev.ring n).waiting ∧
      (e.ring n).held = (s.dev.ring n).held ++ [⟨(s.dev.slotDesc n).hostSeq, (s.dev.slotDesc n).opcode, stSeqGap, 8 * bit (s.dev.slotDesc n).irq, s.dev.expect n, 0, false⟩])

/-- NOP completes OK and touches nothing but its ring. FLUE_DMA towards another device sends its length in WRITE packets of 64 bytes and completes OK with the
bytes moved; from another device it stays in progress, with the READ of its first 64 bytes sent; between two areas of this device it copies them, or is
denied; without a route it moves nothing and completes with ACCESS_DENIED, and so, with the status of its READs, when the area of a remote pair cannot be
read. -/
def Obligations.NopAndFlueDma : Prop :=
  (∀ (s : State) (n : Fin 64) (q : Desc), s.Inv → s.dev.nextDesc n opNop = some q →
    Completes (.nop n) s (fun e => Ended n q stOk 0 0 s.dev e ∧ OnlyRings s.dev e ∧ ∀ m, m ≠ n.val → e.ring m = s.dev.ring m)) ∧
  (∀ (s : State) (n : Fin 64) (bytes : List Byte) (denied late : Bool) (remote : RemoteRead) (q : Desc), remote = ⟨bytes, readEnd denied late⟩ → s.Inv → s.dev.nextDesc n opFlueDma = some q → ∀ len dest, len = q.get 32 4 → dest = q.get 36 1 →
    (∀ st, q.get 37 1 = 0 → s.dev.ownerFails n remote = some st →
      Completes (.flueDma n bytes denied late) s (fun e => Ended n q st 0 0 s.dev e ∧ OnlyRings s.dev e)) ∧
    ((q.get 37 1 = 0 → s.dev.ownerFails n remote = none) →
      (s.dev.route dest = .none_ → Completes (.flueDma n bytes denied late) s (fun e => Ended n q stAccessDenied 0 0 s.dev e ∧ OnlyRings s.dev e)) ∧
      (∀ p, s.dev.route dest = .port p → q.get 37 1 = 0 → ∀ bs, bs = s.dev.ownerRead n (q.get 16 8) len remote →
        Completes (.flueDma n bytes denied late) s (fun e => Ended n q stOk len 0 s.dev e ∧ e.seq = s.dev.seq ∧ e.mem = s.dev.mem ∧
          ∀ i, i < len / 64 → Sent p ⟨ptWrite, dest, s.dev.deviceNum, 0, 0xFF, 0, q.get 24 8 + 64 * i, (List.range 8).map (fun j => fieldAt bs (64 * i + 8 * j) 8)⟩ e)) ∧
      (∀ p, s.dev.route dest = .port p → q.get 37 1 ≠ 0 → 0 < len →
        Completes (.flueDma n bytes denied late) s (fun e => (e.ring n).current = some q ∧ (e.ring n).waiting = (s.dev.ring n).waiting.tail ∧ (e.ring n).held = (s.dev.ring n).held ∧
          (e.ring n).dmaMoved = 0 ∧ (s.dev.flue.nextTag, ReadFor.dma n dest) ∈ e.flue.reads ∧ e.seq = s.dev.seq ∧ e.mem = s.dev.mem ∧
          Sent p ⟨ptRead, dest, s.dev.deviceNum, s.dev.flue.nextTag, 0xFF, 8, q.get 24 8, []⟩ e)) ∧
      (∀ kind, s.dev.route dest = .here → s.dev.memRefusal q.origin (q.get 24 8) len (q.get 37 1 = 0) = some kind →
        Completes (.flueDma n bytes denied late) s (fun e => e.bitOf R.FLT_WORD_LO 20 = true ∧
          (e.ring n).held.getLast? = some ⟨q.hostSeq, q.opcode, stAccessDenied, 8 * bit q.irq, 0, 0, true⟩)) ∧
      (s.dev.route dest = .here → s.dev.memRefusal q.origin (q.get 24 8) len (q.get 37 1 = 0) = none →
        (q.get 37 1 = 0 → Unwatched s.dev (q.get 24 8) len → Completes (.flueDma n bytes denied late) s (fun e => Ended n q stOk len 0 s.dev e ∧
          e.read (q.get 24 8) len = slice (s.dev.ownerRead n (q.get 16 8) len remote) 0 len ∧ e.regs = s.dev.regs ∧
          ∀ a, a < q.get 24 8 ∨ q.get 24 8 + len ≤ a → memByte e.mem a = memByte s.dev.mem a)) ∧
        (q.get 37 1 ≠ 0 → s.dev.ringRemote n = true → Completes (.flueDma n bytes denied late) s (fun e => Ended n q stOk len 0 s.dev e ∧ e.mem = s.dev.mem)) ∧
        (q.get 37 1 ≠ 0 → s.dev.ringRemote n = false → Unwatched s.dev (q.get 16 8) len → Completes (.flueDma n bytes denied late) s (fun e => Ended n q stOk len 0 s.dev e ∧
          e.read (q.get 16 8) len = s.dev.read (q.get 24 8) len ∧ e.regs = s.dev.regs ∧
          ∀ a, a < q.get 16 8 ∨ q.get 16 8 + len ≤ a → memByte e.mem a = memByte s.dev.mem a)))))

/-- Completions of a local ring are written to their slots: the completion ring takes as many as it has room for, DEV_SEQ counts them, and the one written
reads from DRAM as R367 lays it out when the state block lies elsewhere. Those of a remote pair leave while its upstream port is up; a refused write puts the pair in FAULT
with WRITE_DENIED, unless it drains, and is tried again: a state block that is due, and its completions, leave. -/
def Obligations.CompletionsAreWritten : Prop :=
  (∀ (s : State) (n : Fin 64) (refused : Bool), s.Inv → s.dev.ringState n ≠ rsDisabled → s.dev.ringRemote n = false → s.dev.batch n ≠ [] →
    Completes (.completionWrite n refused) s (fun e => (e.ring n).held = (s.dev.ring n).held.drop (s.dev.batch n).length ∧
      e.devSeq n = (s.dev.devSeq n + (s.dev.batch n).length) % 2 ^ 32) ∧
    (∀ c, s.dev.batch n = [c] → (s.dev.sbAddr n + 256 ≤ s.dev.cmpBase n + 32 * (s.dev.devSeq n % 2 ^ s.dev.cmpLog2 n) ∨
        s.dev.cmpBase n + 32 * (s.dev.devSeq n % 2 ^ s.dev.cmpLog2 n) + 32 ≤ s.dev.sbAddr n) →
      Completes (.completionWrite n refused) s (fun e =>
        e.read (s.dev.cmpBase n + 32 * (s.dev.devSeq n % 2 ^ s.dev.cmpLog2 n)) 32 = s.dev.completionBytes n c ∧
        (∀ a, ¬(s.dev.cmpBase n + 32 * (s.dev.devSeq n % 2 ^ s.dev.cmpLog2 n) ≤ a ∧ a < s.dev.cmpBase n + 32 * (s.dev.devSeq n % 2 ^ s.dev.cmpLog2 n) + 32) →
          ¬(s.dev.sbAddr n ≤ a ∧ a < s.dev.sbAddr n + 256) → memByte e.mem a = memByte s.dev.mem a) ∧
        RegsBut [R.RING_DEV_SEQ n, R.RING_STATUS n] s.dev e))) ∧
  (∀ (s : State) (n : Fin 64), s.dev.ringRemote n = true → s.dev.ringState n ≠ rsDisabled → s.dev.portUp 0 = true →
    (s.dev.batch n ≠ [] → Completes (.completionWrite n false) s (fun e => (e.ring n).held = (s.dev.ring n).held.drop (s.dev.batch n).length ∧
      e.devSeq n = (s.dev.devSeq n + (s.dev.batch n).length) % 2 ^ 32 ∧ e.mem = memCanon s.dev.mem)) ∧
    (s.dev.batch n ≠ [] → Completes (.completionWrite n true) s (fun e => e.devSeq n = s.dev.devSeq n ∧
      e.ringState n = (if s.dev.ringState n = rsDraining then rsDraining else rsFault) ∧ e.getF (R.RING_STATUS n) F.RING_STATUS_ERR = reWriteDenied ∧ (e.ring n).faultErr = reWriteDenied)) ∧
    ((s.dev.ring n).faultErr = reWriteDenied → s.dev.ownerCut n = false → s.dev.batch n ≠ [] →
      Completes (.remoteWriteRetry n false) s (fun e => (e.ring n).held = (s.dev.ring n).held.drop (s.dev.batch n).length ∧
        e.devSeq n = (s.dev.devSeq n + (s.dev.batch n).length) % 2 ^ 32 ∧ (e.ring n).faultErr = 0 ∧ e.mem = memCanon s.dev.mem)) ∧
    ((s.dev.ring n).faultErr = reWriteDenied → s.dev.ownerCut n = false → (s.dev.ring n).blockDue = true → s.dev.batch n = [] →
      Completes (.remoteWriteRetry n false) s (fun e => (e.ring n).faultErr = 0 ∧ (e.ring n).blockDue = false ∧ (e.ring n).gen = ((s.dev.ring n).gen + 2) % 2 ^ 32 ∧
        (e.ring n).held = (s.dev.ring n).held ∧ e.devSeq n = s.dev.devSeq n)))

/-- Writes of RING_n_CTRL that are let through: ENABLE takes a DISABLED ring to RUNNING with its counts at 0 and the doorbell read; clearing it takes an
enabled ring to DRAINING; HALT takes a RUNNING ring to STOPPED with HALTED; RESUME takes a STOPPED or FAULT ring back to RUNNING when its counts are
valid. A DRAINING ring with nothing in progress is DISABLED, and only then. -/
def Obligations.RingControl : Prop :=
  (∀ (s : State) (o : Origin) (n : Fin 64) (w : Word),
    (Accepts s.dev o (R.RING_CTRL n) (setBits w F.RING_CTRL_ENABLE 1) → s.dev.ringState n = rsDisabled → getBits w F.RING_CTRL_HALT = 0 →
      s.dev.ownerCut n = false → s.dev.readN (s.dev.dbAddr n) 4 ≤ 2 ^ s.dev.cmdLog2 n → sub32 0 (s.dev.readN (s.dev.dbAddr n + 4) 4) ≤ 2 ^ s.dev.cmpLog2 n →
      Completes (.ringEnable o n w) s (fun e => e.ringState n = rsRunning ∧ e.getF (R.RING_CTRL n) F.RING_CTRL_ENABLE = 1 ∧ e.ringCi n = 0 ∧ e.devSeq n = 0 ∧
        e.inProgress n = 0 ∧ (e.ring n).cmdPi = s.dev.readN (s.dev.dbAddr n) 4 ∧ (e.ring n).cmpCi = s.dev.readN (s.dev.dbAddr n + 4) 4 ∧ (e.ring n).held = [])) ∧
    (Accepts s.dev o (R.RING_CTRL n) (setBits w F.RING_CTRL_ENABLE 0) → (s.dev.ringState n = rsRunning ∨ s.dev.ringState n = rsStopped ∨ s.dev.ringState n = rsFault) →
      Completes (.ringDisable o n w) s (fun e => e.ringState n = rsDraining ∧ e.getF (R.RING_CTRL n) F.RING_CTRL_ENABLE = 0 ∧ (e.ring n).held = (s.dev.ring n).held ∧
        (e.ring n).waiting = (s.dev.ring n).waiting)) ∧
    (Accepts s.dev o (R.RING_CTRL n) (setBits w F.RING_CTRL_HALT 1) → getBits w F.RING_CTRL_ENABLE = 1 → s.dev.ringState n = rsRunning → s.dev.ownerCut n = false →
      Completes (.haltRing o n w) s (fun e => e.ringState n = rsStopped ∧ e.getF (R.RING_STATUS n) F.RING_STATUS_ERR = reHalted ∧ e.ringCi n = s.dev.ringCi n ∧
        (e.ring n).waiting = (s.dev.ring n).waiting)) ∧
    (Accepts s.dev o (R.RING_CTRL n) (setBits w F.RING_CTRL_RESUME 1) → getBits w F.RING_CTRL_ENABLE = 1 → (s.dev.ringState n = rsStopped ∨ s.dev.ringState n = rsFault) →
      s.dev.ownerCut n = false → sub32 (s.dev.readN (s.dev.dbAddr n) 4) (s.dev.ringCi n) ≤ 2 ^ s.dev.cmdLog2 n → sub32 (s.dev.devSeq n) (s.dev.readN (s.dev.dbAddr n + 4) 4) ≤ 2 ^ s.dev.cmpLog2 n →
      Completes (.resume o n w) s (fun e => e.ringState n = rsRunning ∧ e.getF (R.RING_STATUS n) F.RING_STATUS_ERR = 0 ∧ e.ringCi n = s.dev.ringCi n ∧
        (e.ring n).cmdPi = s.dev.readN (s.dev.dbAddr n) 4)) ∧
    (s.Inv → Accepts s.dev o (R.RING_SEQ n) w → Completes (.ringSeqWrite o n w) s (fun e => e.reg (R.RING_SEQ n) = w ∧ RegsBut [R.RING_SEQ n] s.dev e ∧ OnlyRegsAudit s.dev e)) ∧
    (s.dev.board.stopped = false → (s.dev.ringState n = rsRunning ∨ s.dev.ringState n = rsDraining) → Completes (.ringSeqWrite o n w) s (fun e => e.reg (R.RING_SEQ n) = s.dev.reg (R.RING_SEQ n) ∧
      e.bitOf R.FLT_WORD_LO 20 = true ∧ Output.busError o.id (regBase + R.RING_SEQ n) ∈ e.outbox))) ∧
  (∀ (s : State) (n : Fin 64), s.dev.ringState n = rsDraining →
    (s.dev.inProgress n = 0 → (s.dev.ring n).held = [] → (s.dev.ring n).waiting = [] → (s.dev.ring n).current = none → (s.dev.ring n).immediate = [] →
      Completes (.ringDrained n) s (fun e => e.ringState n = rsDisabled ∧ e.getF (R.RING_STATUS n) F.RING_STATUS_ERR = 0 ∧
        (s.dev.ringRemote n = false → RegsBut [R.RING_STATUS n] s.dev e ∧ e.seq = s.dev.seq))) ∧
    (s.Inv → s.dev.inProgress n ≠ 0 → exec (.ringDrained n) s = .next s))

/-! ### Loads -/

/-- IMAGE_LOAD: an image that fails a check of R166 is refused with the check and nothing is stored; one that passes is placed, stored and given a number
that no image has, with which it completes. The number itself is free (log entry 8). IMAGE_UNLOAD: an image that a live binding names is in conflict
and stays; one that none names goes. An unknown number is refused (the model's reading, log entry 57). -/
def Obligations.ImageLoads : Prop :=
  (∀ (s : State) (n : Fin 64) (remote : RemoteRead) (q : Desc), s.dev.nextDesc n opImageLoad = some q → Readable s.dev n (q.get 16 8) (q.get 24 8) remote →
    (∀ f, loadImage (s.dev.ownerRead n (q.get 16 8) (q.get 24 8) remote) (q.get 24 8) = .inl f →
      Completes (.imageLoad n remote) s (fun e => Ended n q stRefused (refuseArg f.check 0xFF 0xFFFF f.index) f.arg1 s.dev e ∧ e.seq = s.dev.seq ∧ e.mem = memCanon s.dev.mem)) ∧
    (∀ z, loadImage (s.dev.ownerRead n (q.get 16 8) (q.get 24 8) remote) (q.get 24 8) = .inr z → s.dev.placeImage z.bytes = none →
      Completes (.imageLoad n remote) s (fun e => Ended n q stRefused (refuseArg 0x50) 0 s.dev e ∧ e.seq = s.dev.seq)) ∧
    (∀ z base, s.Inv → s.dev.seq.images.length < 65535 → loadImage (s.dev.ownerRead n (q.get 16 8) (q.get 24 8) remote) (q.get 24 8) = .inr z →
      s.dev.placeImage z.bytes = some base →
      Completes (.imageLoad n remote) s (fun e => ∃ num, num < 65535 ∧ s.dev.image num = none ∧ (∃ im, e.image num = some im ∧ im.z = z ∧ im.base = base) ∧
        (∀ m, m ≠ num → e.image m = s.dev.image m) ∧ Ended n q stOk num base s.dev e ∧
        e.read base z.bytes = slice (s.dev.ownerRead n (q.get 16 8) (q.get 24 8) remote) 0 z.bytes ∧
        (∀ a, a < base ∨ base + z.bytes ≤ a → memByte e.mem a = memByte s.dev.mem a) ∧ e.regs = s.dev.regs))) ∧
  (∀ (s : State) (n : Fin 64) (q : Desc), s.dev.nextDesc n opImageUnload = some q →
    s.dev.seq.commits.any (fun c => c.setUp.binds.any (fun b => b.2.image == q.get 16 2)) = false →
    (s.dev.image (q.get 16 2) = none → Completes (.imageUnload n) s (fun e => EndedWith n q stRefused s.dev e ∧ e.seq = s.dev.seq)) ∧
    (∀ x, s.dev.image (q.get 16 2) ≠ none → listMin? (s.dev.imageSites (q.get 16 2)) = some x →
      Completes (.imageUnload n) s (fun e => Ended n q stConflict (claimant 6 (q.get 16 2)) (claimant 1 x x) s.dev e ∧ e.seq = s.dev.seq)) ∧
    (s.Inv → s.dev.image (q.get 16 2) ≠ none → listMin? (s.dev.imageSites (q.get 16 2)) = none →
      Completes (.imageUnload n) s (fun e => Ended n q stOk 0 0 s.dev e ∧ e.image (q.get 16 2) = none ∧
        (∀ m, m ≠ q.get 16 2 → e.image m = s.dev.image m) ∧ e.mem = s.dev.mem ∧ e.regs = s.dev.regs)))

/-- TIMING_LOAD and LEVELS_LOAD: all entries are checked before any is stored; on success the shadow takes them and nothing live changes; on a failure
the shadow stays, and for timing the failure is latched for every named hearth. -/
def Obligations.TimingAndLevelLoads : Prop :=
  ∀ (s : State) (n : Fin 64) (remote : RemoteRead) (q : Desc),
    (s.dev.nextDesc n opTimingLoad = some q → (q.mask 26 2).any s.dev.commitPending = false → Readable s.dev n (q.get 16 8) (2064 * q.get 24 2) remote →
      ∀ imgs, imgs = (List.range (q.get 24 2)).map (fun i => parseTimSet (slice (s.dev.ownerRead n (q.get 16 8) (2064 * q.get 24 2) remote) (timImageSize * i) timImageSize)) →
      (s.dev.timingFail (q.mask 26 2) imgs = none → Completes (.timingLoad n remote) s (fun e => Ended n q stOk 0 0 s.dev e ∧ e.seq.live = s.dev.seq.live ∧
        (∀ h ∈ q.mask 26 2, mapGet e.seq.shadow.timing h [] = applyTimImages (mapGet s.dev.seq.shadow.timing h []) imgs) ∧
        (∀ h, h ∉ q.mask 26 2 → mapGet e.seq.shadow.timing h [] = mapGet s.dev.seq.shadow.timing h []) ∧ e.regs = s.dev.regs)) ∧
      (∀ h f, s.dev.timingFail (q.mask 26 2) imgs = some (h, f) → Completes (.timingLoad n remote) s (fun e =>
        Ended n q stRefused (refuseArg f.check h 0xFFFF f.setA) 0 s.dev e ∧ e.seq = s.dev.seq ∧ ∀ g ∈ q.mask 26 2, e.reg (R.HRT_TIM_REFUSE g) = timRefuseWord f))) ∧
    (s.dev.nextDesc n opLevelsLoad = some q → Readable s.dev n (q.get 16 8) (64 * (q.mask 24 16).length) remote →
      ∀ bs, bs = s.dev.ownerRead n (q.get 16 8) (64 * (q.mask 24 16).length) remote →
      ((q.mask 24 16).zipIdx.findSome? (fun (x : Nat × Nat) => levelChecks s.dev.absent bs x.1 (64 * x.2)) = none → Completes (.levelsLoad n remote) s (fun e =>
        Ended n q stOk 0 0 s.dev e ∧ e.seq.live = s.dev.seq.live ∧ (∀ g i, (g, i) ∈ (q.mask 24 16).zipIdx → mapFind e.seq.shadow.levels g = some (parseLevel s.dev.absent bs g (64 * i))) ∧
        (∀ g, g ∉ q.mask 24 16 → mapFind e.seq.shadow.levels g = mapFind s.dev.seq.shadow.levels g) ∧ e.regs = s.dev.regs)) ∧
      (∀ f, (q.mask 24 16).zipIdx.findSome? (fun (x : Nat × Nat) => levelChecks s.dev.absent bs x.1 (64 * x.2)) = some f → Completes (.levelsLoad n remote) s (fun e =>
        Ended n q stRefused (refuseArg f.check (f.grate / 8) 0xFFFF f.grate) f.off s.dev e ∧ e.seq = s.dev.seq)))

/-- BIND_LOAD, CAPTURE_LOAD and DDS_LOAD: entries without a fault go into the shadow and nothing live changes; a faulty list, or one by which more than 64 DDS
list sets would stand, is refused and leaves the shadow as it was. A load of whose area a local line is poisoned faults its ring; one of whose area a READ is
answered with another status, or not at all, completes with that status and loads nothing. -/
def Obligations.EntryLoads : Prop :=
  (∀ (s : State) (n : Fin 64) (remote : RemoteRead) (q : Desc), Readable s.dev n (q.get 16 8) (q.get 24 8) remote →
    ∀ bs, bs = s.dev.ownerRead n (q.get 16 8) (q.get 24 8) remote →
    (∀ offs, s.dev.nextDesc n opBindLoad = some q → entryOffsets bs (q.get 24 8) bindLen (q.get 32 2) 0 0 = .inl offs →
      (offs.zipIdx.all (fun x => (bindChecks s.dev.absent bs x.1 x.2).isNone) = true → Completes (.bindLoad n remote) s (fun e => Ended n q stOk 0 0 s.dev e ∧
        e.seq.live = s.dev.seq.live ∧ e.seq.shadow.binds = applyEntries s.dev.seq.shadow.binds (offs.map (parseBind bs)) ∧ e.regs = s.dev.regs)) ∧
      (offs.zipIdx.all (fun x => (bindChecks s.dev.absent bs x.1 x.2).isNone) = false → Completes (.bindLoad n remote) s (fun e => EndedWith n q stRefused s.dev e ∧
        e.seq = s.dev.seq))) ∧
    (∀ offs, s.dev.nextDesc n opCaptureLoad = some q → entryOffsets bs (q.get 24 8) capLen (q.get 32 2) 0 0 = .inl offs → ∀ good : Bool,
      good = offs.zipIdx.all (fun x => (capFieldCheck bs x.1 x.2).isNone && (capWindowCheck bs x.1 x.2).isNone) →
      (good = true → Completes (.captureLoad n remote) s (fun e => Ended n q stOk 0 0 s.dev e ∧
        e.seq.live = s.dev.seq.live ∧ e.seq.shadow.plans = applyEntries s.dev.seq.shadow.plans (offs.map (parseCap bs)) ∧ e.regs = s.dev.regs)) ∧
      (good = false → Completes (.captureLoad n remote) s (fun e => EndedWith n q stRefused s.dev e ∧ e.seq = s.dev.seq))) ∧
    (∀ offs, s.dev.nextDesc n opDdsLoad = some q → entryOffsets bs (q.get 24 8) ddsLen (q.get 32 2) 0 0 = .inl offs → ∀ count,
      count = (applyEntries s.dev.seq.shadow.dds (((byKey (fun o => 65536 * fieldAt bs o 2 + fieldAt bs (o + 2) 2) offs).map (·.2.1)).map (parseDds bs))).length →
      (offs.any (ddsFieldBad bs) = false → count ≤ 64 → Completes (.ddsLoad n remote) s (fun e =>
        Ended n q stOk 0 0 s.dev e ∧ e.seq.live = s.dev.seq.live ∧ e.seq.shadow.dds = applyEntries s.dev.seq.shadow.dds (offs.map (parseDds bs)) ∧ e.regs = s.dev.regs)) ∧
      (offs.any (ddsFieldBad bs) = true ∨ (64 < count ∧ s.dev.seq.shadow.dds.length ≤ 64) →
        Completes (.ddsLoad n remote) s (fun e => EndedWith n q stRefused s.dev e ∧ e.seq = s.dev.seq)))) ∧
  (∀ (s : State) (n : Fin 64) (remote : RemoteRead) (q : Desc) (c : Instr) (op a len al : Nat) (t : List (Nat × Nat × Nat)),
    (c, op) ∈ [(Instr.imageLoad n remote, opImageLoad), (.timingLoad n remote, opTimingLoad), (.levelsLoad n remote, opLevelsLoad), (.bindLoad n remote, opBindLoad),
      (.captureLoad n remote, opCaptureLoad), (.ddsLoad n remote, opDdsLoad), (.calLoad n remote, opCalLoad), (.ppmuMeasure n remote, opPpmu)] →
    s.dev.nextDesc n op = some q → q.areas s.dev.deviceNum = (a, len, al) :: t → (op = opTimingLoad → (q.mask 26 2).any s.dev.commitPending = false) →
    (op = opCalLoad → s.dev.calPending (q.get 32 2) = false ∧ s.dev.calFilling (q.get 32 2) = false) →
    (s.dev.ringRemote n = false → s.dev.poisoned a len = true → Completes c s (fun e => e.ringState n = rsFault ∧
      e.getF (R.RING_STATUS n) F.RING_STATUS_ERR = reFetchDenied ∧ e.bitOf R.FLT_WORD_LO 16 = true)) ∧
    (∀ st, s.dev.ownerFails n remote = some st → Completes c s (fun e => Ended n q st 0 0 s.dev e ∧ e.seq = s.dev.seq ∧ e.regs = s.dev.regs ∧ e.mem = memCanon s.dev.mem)))

/-- CAL_LOAD: a table that passes R485 replaces its shadow copy, marks it written and leaves the live table; one that fails is refused with the check
and changes no table. -/
def Obligations.CalibrationLoad : Prop :=
  ∀ (s : State) (n : Fin 64) (remote : RemoteRead) (q : Desc), s.dev.nextDesc n opCalLoad = some q → s.dev.calPending (q.get 32 2) = false →
    s.dev.calFilling (q.get 32 2) = false → Readable s.dev n (q.get 16 8) (q.get 24 8) remote →
    ∀ bs, bs = s.dev.ownerRead n (q.get 16 8) (q.get 24 8) remote →
    (∀ f, calChecks (q.get 32 2) (q.get 24 8) bs = some f → Completes (.calLoad n remote) s (fun e =>
      Ended n q stRefused (refuseArg f.check 0xFF 0xFFFF f.index) f.off s.dev e ∧ e.cal = s.dev.cal ∧ e.regs = s.dev.regs)) ∧
    (calChecks (q.get 32 2) (q.get 24 8) bs = none → Completes (.calLoad n remote) s (fun e => Ended n q stOk 0 0 s.dev e ∧ e.cal.live = s.dev.cal.live ∧
      (e.calShadow (q.get 32 2)).body = slice bs 64 (calBody (q.get 32 2)) ∧ (e.calShadow (q.get 32 2)).secs = fieldAt bs 16 6 ∧
      (∀ k, k ≠ q.get 32 2 → e.calShadow k = s.dev.calShadow k) ∧ e.getF (R.CAL_TAB_STATUS (q.get 32 2)) F.CAL_TAB_STATUS_SHADOW_DIRTY = 1 ∧
      RegsBut [R.CAL_TAB_STATUS (q.get 32 2)] s.dev e))

/-! ### PPMU and grates -/

/-- PPMU_MEASURE: a plan whose steps are well formed, stand on present channels of grates that are not OFF by policy and meet no other user of a PPMU
waits for its boundary and stays in progress; a bad step is refused. A PPMU step ends: its result entry is written, with the CLAMP bit
when a force mode met its limit, the last reading shows it, and the step leaves its plan. -/
def Obligations.PpmuPlans : Prop :=
  (∀ (s : State) (n : Fin 64) (remote : RemoteRead) (q : Desc), s.dev.nextDesc n opPpmu = some q → Readable s.dev n (q.get 16 8) (16 * q.get 24 2) remote →
    ∀ bs, bs = s.dev.ownerRead n (q.get 16 8) (16 * q.get 24 2) remote →
    ∀ bad : Nat → Bool, (∀ i, bad i = (stepFieldBad bs i || s.dev.absent (fieldAt bs (16 * i) 2) || s.dev.policy (chGrate (fieldAt bs (16 * i) 2)) == polOff)) →
    ((List.range (q.get 24 2)).any bad = true → Completes (.ppmuMeasure n remote) s (fun e => EndedWith n q stRefused s.dev e ∧ e.rings.plans = s.dev.rings.plans ∧ e.seq = s.dev.seq)) ∧
    ((List.range (q.get 24 2)).any bad = false → ((List.range (q.get 24 2)).map (parseStep bs)).findSome? s.dev.stepConflict = none →
      Completes (.ppmuMeasure n remote) s (fun e => (e.ring n).current = some q ∧ (e.ring n).held = (s.dev.ring n).held ∧
        e.rings.plans.map (fun p => (p.ring, p.hostSeq, p.steps)) = s.dev.rings.plans.map (fun p => (p.ring, p.hostSeq, p.steps)) ++
          [(n.val, q.hostSeq, (List.range (q.get 24 2)).map (parseStep bs))] ∧ e.regs = s.dev.regs))) ∧
  (∀ (s : State) (g : Fin 128) (total : Int) (limit : Bool) (p : PpmuPlan) (x : PpmuStep), s.Inv → s.dev.stepOn g = some (p, x) → (s.dev.grate g).dom = .on →
    s.dev.board.douseLow = false →
    Completes (.ppmuStepDone g total limit) s (fun e => (∃ code flags, (s.dev.ringRemote p.ring = false → e.read (p.result + 8 * x.n) 8 = ppmuResult code flags x.n x.ch) ∧
        tbit flags 0 = (limit && (x.mode == 1 || x.mode == 2)) ∧ tbit flags 2 = false ∧ tbit flags 3 = false ∧
        (x.mode ≠ 0 → (code, tbit flags 1) = s.dev.ppmuReading g x total) ∧
        e.reg (R.HRT_GRT_PPMU_LAST g) = BitVec.ofNat 32 (code + 2 ^ 16 * bit (tbit flags 0) + 2 ^ 17 * bit (tbit flags 1))) ∧
      (∀ a, s.dev.ringRemote p.ring = true ∨ a < p.result + 8 * x.n ∨ p.result + 8 * x.n + 8 ≤ a → memByte e.mem a = memByte s.dev.mem a) ∧
      (∀ r ∈ e.rings.plans, r.ring = p.ring → r.hostSeq = p.hostSeq → ∀ y ∈ r.steps, y.n ≠ x.n)))

/-- Grate domains: WAKING ends in SETTLING and SETTLING in ON; a grate under AUTO that nothing uses goes OFF after its idle time with its pins in the pin
safe state; nothing else changes. A write of HRT_GRTg_PWR that is let through: its policy and idle time read as written, the code 0b11 as AUTO; with
OFF the grate goes OFF, with its pins in the pin safe state. -/
def Obligations.Grates : Prop :=
  (∀ (s : State) (g : Fin 128), s.Inv →
    ((s.dev.grate g).dom = .waking → Completes (.grateWakeDone g) s (fun e => e.grate g = { s.dev.grate g with dom := .settling } ∧
      (∀ k, k ≠ g.val → e.grate k = s.dev.grate k) ∧ e = { s.dev with seq := { s.dev.seq with grates := e.seq.grates } })) ∧
    ((s.dev.grate g).dom = .settling → Completes (.grateSettleDone g) s (fun e => e.grate g = { s.dev.grate g with dom := .on } ∧
      (∀ k, k ≠ g.val → e.grate k = s.dev.grate k) ∧ e = { s.dev with seq := { s.dev.seq with grates := e.seq.grates } })) ∧
    (s.dev.policy g ≠ polOn → s.dev.policy g ≠ polOff → s.dev.getF (R.HRT_GRT_PWR g) F.HRT_GRT_PWR_IDLE_MS ≠ 0 → (s.dev.grate g).dom ≠ .off → s.dev.grateInUse g = false →
      Completes (.grateIdleOff g) s (fun e => (e.grate g).dom = .off ∧ (∀ k, k < 8 → e.chan (8 * g.val + k) = Chan.safe) ∧
        (∀ ch, chGrate ch ≠ g.val → e.chan ch = s.dev.chan ch) ∧ (∀ k, k ≠ g.val → e.grate k = s.dev.grate k) ∧ e.regs = s.dev.regs ∧ e.mem = s.dev.mem))) ∧
  (∀ (s : State) (o : Origin) (g : Fin 128) (w : Word), Accepts s.dev o (R.HRT_GRT_PWR g) w →
    Completes (.hrtGrtPwrWrite o g w) s (fun e => e.policy g = (if getBits w F.HRT_GRT_PWR_POLICY = 3 then 0 else getBits w F.HRT_GRT_PWR_POLICY) ∧
      e.getF (R.HRT_GRT_PWR g) F.HRT_GRT_PWR_IDLE_MS = getBits w F.HRT_GRT_PWR_IDLE_MS ∧ RegsBut [R.HRT_GRT_PWR g] s.dev e) ∧
    (getBits w F.HRT_GRT_PWR_POLICY = polOff → s.dev.cal.proc = none → Completes (.hrtGrtPwrWrite o g w) s (fun e => (e.grate g).dom = .off ∧
      ∀ k, k < 8 → e.chan (8 * g.val + k) = Chan.safe)))

/-! ### Commits -/

/-- COMMIT: refused with the first failing check, changing nothing live; else it pends with the shadow state of its take-up, and nothing is live
yet. -/
def Obligations.CommitPends : Prop :=
  ∀ (s : State) (n : Fin 64) (q : Desc) (d : Dev), s.dev.nextDesc n opCommit = some q →
    (∀ f, (s.dev.beginDesc n q true).judgeCommit (q.mask 16 2) = (d, .inr f) →
      Completes (.commit n) s (fun e => Ended n q f.status f.arg0 f.arg1 s.dev e ∧ e.seq = s.dev.seq)) ∧
    (∀ claims, (s.dev.beginDesc n q true).judgeCommit (q.mask 16 2) = (d, .inl claims) →
      Completes (.commit n) s (fun e => (e.ring n).current = some q ∧ (e.ring n).held = (s.dev.ring n).held ∧
        e.seq = { s.dev.seq with commits := s.dev.seq.commits ++ [⟨n, q.hostSeq, q.origin, q.irq, q.mask 16 2, [], s.dev.seq.shadow, claims,
          (q.mask 16 2).map (fun h => (h, s.dev.enginesCfg h))⟩] }))

/-- A run boundary applies the first commit that pends for the hearth: its timing sets and levels, and the bindings of the sites that are due, are then
those of the commit's take-up; other hearths' stay. Without a boundary, or without such a commit, no set-up changes. The last settle time or pool load
that an applied commit waits for ends it: COMMIT completes OK with its hearths in ARG0. -/
def Obligations.CommitApplies : Prop :=
  (∀ (s : State) (h : Fin 16), s.dev.rings.calCommits.any (fun c => c.tables.contains h.val && !(c.applied.contains h.val)) = false →
    (∀ c, s.dev.noBoundary h = false → s.dev.seq.commits.find? (fun c => c.hearths.contains h.val && !(c.applied.contains h.val)) = some c →
      Completes (.runBoundaryApply h) s (fun e => mapFind e.seq.live.timing h = mapFind c.setUp.timing h ∧
        (∀ g, g / 8 = h.val → mapFind e.seq.live.levels g = mapFind c.setUp.levels g) ∧
        (∀ k, k ≠ h.val → mapFind e.seq.live.timing k = mapFind s.dev.seq.live.timing k) ∧
        (∀ g, g / 8 ≠ h.val → mapFind e.seq.live.levels g = mapFind s.dev.seq.live.levels g) ∧
        (∀ x ∈ s.dev.sitesDue c h, mapFind e.seq.live.binds x = mapFind c.setUp.binds x) ∧
        (∀ x, x ∉ s.dev.sitesDue c h → mapFind e.seq.live.binds x = mapFind s.dev.seq.live.binds x))) ∧
    (s.dev.noBoundary h = true ∨ s.dev.seq.commits.any (fun c => c.hearths.contains h.val && !(c.applied.contains h.val)) = false →
      Completes (.runBoundaryApply h) s (fun e => e.seq.live = s.dev.seq.live ∧ e.seq.commits = s.dev.seq.commits ∧ e.seq.sites = s.dev.seq.sites))) ∧
  (∀ (s : State) (c : PendCommit), s.dev.seq.commits = [c] → c.hearths.all c.applied.contains = true →
    (∀ x : Settle, s.dev.seq.settles = [x] → c.hearths.any (fun h => (s.dev.hearth h).loading) = false →
      Completes (.settleTimeEnd x) s (fun e => e.seq.settles = [] ∧ e.seq.commits = [] ∧
        ⟨c.hostSeq, opCommit, stOk, 8 * bit c.irq, maskOf c.hearths, 0, true⟩ ∈ (e.ring c.ring).held ∧ e.seq.live = s.dev.seq.live)) ∧
    (∀ h : Fin 16, s.dev.seq.settles = [] → (s.dev.hearth h).loading = true → c.hearths.all (fun k => k == h.val || !(s.dev.hearth k).loading) = true →
      Completes (.poolLoadDone h) s (fun e => (e.hearth h).loading = false ∧ e.seq.commits = [] ∧
        ⟨c.hostSeq, opCommit, stOk, 8 * bit c.irq, maskOf c.hearths, 0, true⟩ ∈ (e.ring c.ring).held ∧ e.seq.live = s.dev.seq.live)))

/-- CAL_COMMIT without FORCE pends for the named tables whose shadow copies were written, and at a table's boundary its shadow copy goes live with a
COUNT one higher. -/
def Obligations.CalibrationGoesLive : Prop :=
  (∀ (s : State) (n : Fin 64) (fails : List Nat) (q : Desc) (k : Nat), s.dev.nextDesc n opCalCommit = some q → tbit q.flags 2 = false →
    k ∈ q.mask 16 8 → k < 16 → s.dev.flag (R.CAL_TAB_STATUS k) F.CAL_TAB_STATUS_SHADOW_DIRTY = true → s.dev.calPending k = false → (∀ c ∈ s.dev.rings.calCommits, c.ring ≠ n.val) →
    Completes (.calCommit n fails) s (fun e => e.calPending k = true ∧ (e.ring n).current = some q ∧ e.cal = s.dev.cal ∧ e.regs = s.dev.regs)) ∧
  (∀ (s : State) (k : Fin 19) (c : CalCommit), s.dev.rings.calCommits.find? (fun c => c.tables.contains k.val && !(c.applied.contains k.val)) = some c →
    s.dev.calBoundary k = true → s.dev.cal.proc = none →
    Completes (.calTableApply k false) s (fun e => e.calLive k = { s.dev.calShadow k with count := (s.dev.calLive k).count + 1 } ∧
      e.calShadow k = e.calLive k ∧ (∀ j, j ≠ k.val → e.calLive j = s.dev.calLive j) ∧ e.getF (R.CAL_TAB_STATUS k) F.CAL_TAB_STATUS_SHADOW_DIRTY = 0 ∧
      e.getF (R.CAL_TAB_STATUS k) F.CAL_TAB_STATUS_DEFAULT = 0 ∧ e.bitOf R.CAL_DUE k = false))

/-! ### Runs -/

/-- START, with no start waiting that came as a Flue event: accepted, its sites enter STARTING (with reason 0x01 when it is unadmitted), or STOPPING for
clock loss when the clocks of R32 do not hold, and the start is kept with no completion yet; refused, it completes with the check; late, it completes
LATE with the present epoch and its own, and is counted; held, it waits. A start that spans devices is sent to the tree once, with its descriptor. -/
def Obligations.StartIsJudged : Prop :=
  ∀ (s : State) (n : Fin 64) (q : Desc) (r : Start), s.dev.nextDesc n opStart = some q → (s.dev.ring n).events = [] → r = s.dev.startOfDesc n q false →
    (s.dev.judgeStart r.sites r.epoch r.unadmitted = .accepted → (s.dev.takeGroups (s.dev.formGroups r.sites)).isSome = true →
      Completes (.start n) s (fun e =>
        (s.dev.clocksHold r = true → ∀ x ∈ r.sites, (e.site x).st = .starting ∧ (e.site x).start = r.id ∧ (e.site x).endCause = .none ∧
          (e.site x).reason = if r.unadmitted then 1 else 0) ∧
        (s.dev.clocksHold r = false → ∀ x ∈ r.sites, RunEnds x .smother e ∧ (e.site x).start = r.id ∧ (e.site x).reasons.contains 2 = true) ∧
        (∀ x, x ∉ r.sites → (e.site x).st = (s.dev.site x).st) ∧ e.seq.starts = s.dev.seq.starts ++ [r] ∧ (e.ring n).held = (s.dev.ring n).held ∧
        (e.ring n).waiting = (s.dev.ring n).waiting.tail ∧ e.seq.live = s.dev.seq.live)) ∧
    (s.dev.judgeStart r.sites r.epoch r.unadmitted = .accepted → s.dev.takeGroups (s.dev.formGroups r.sites) = none →
      Completes (.start n) s (fun e => Ended n q stRefused (refuseArg 0x87) 0 s.dev e ∧ e.seq = s.dev.seq)) ∧
    (∀ a, s.dev.judgeStart r.sites r.epoch r.unadmitted = .refused a →
      Completes (.start n) s (fun e => Ended n q stRefused a 0 s.dev e ∧ e.seq = s.dev.seq)) ∧
    (s.dev.judgeStart r.sites r.epoch r.unadmitted = .late →
      Completes (.start n) s (fun e => e.seq.sites = s.dev.seq.sites ∧ e.seq.starts = s.dev.seq.starts ∧
        e.flag R.FLU_INT_STATUS F.FLU_INT_STATUS_LATE = true ∧
        (e.ring n).held.map (fun c => (c.hostSeq, c.opcode, c.status, c.arg0, c.arg1)) =
          (s.dev.ring n).held.map (fun c => (c.hostSeq, c.opcode, c.status, c.arg0, c.arg1)) ++ [(q.hostSeq, opStart, stLate, s.dev.flue.epoch, r.epoch)])) ∧
    (s.Inv → s.dev.judgeStart r.sites r.epoch r.unadmitted = .held → r.multi = false ∨ (s.dev.ring n).startSent = true → exec (.start n) s = .next s) ∧
    (r.multi = true → (s.dev.ring n).startSent = false →
      (s.dev.judgeStart r.sites r.epoch r.unadmitted = .held → Completes (.start n) s (fun e => (e.ring n).startSent = true ∧
        (e.ring n).waiting = (s.dev.ring n).waiting ∧ (e.ring n).held = (s.dev.ring n).held ∧ e.seq = s.dev.seq)) ∧
      ∀ p ∈ s.dev.eventPorts, Completes (.start n) s (Sent p (s.dev.tells r r.epoch evStart ((List.range 8).map (fun i => fieldAt q.bytes (8 * i) 8)))))

/-- STOP: of the sites named that do not span devices, one that is RUNNING stops at its next granule boundary and one that is STARTING enters STOPPING at
once with end cause STOP; sites that span devices stop on every device at one epoch, STOP_LEAD epochs away, and the tree is told; STOP completes OK with
the number of sites that it found STARTING or RUNNING. When every site of a start has drained and its results can reach the ring's owner, the start
ends: its sites are ARMED, it is gone, and its completion carries the status of R27 with its epoch; results that cannot be routed put the ring in FAULT
first. Until its sites have drained nothing happens. -/
def Obligations.RunsEnd : Prop :=
  (∀ (s : State) (n : Fin 64) (q : Desc) (rest : List Desc), (s.dev.ring n).immediate = q :: rest →
    ∀ hit, hit = (q.mask 16 32).filter (fun x => (s.dev.site x).st == .starting || (s.dev.site x).st == .running) →
    Completes (.stop n) s (fun e =>
      (∀ x ∈ q.mask 16 32, s.dev.isMulti x = false → (s.dev.site x).st = .running → (e.site x).st = .running ∧ (e.site x).run.stop = true) ∧
      (∀ x ∈ q.mask 16 32, s.dev.isMulti x = false → (s.dev.site x).st = .starting → (e.site x).st = .stopping ∧ (e.site x).endCause = .stop) ∧
      (∀ x, x ∉ q.mask 16 32 → (e.site x).st = (s.dev.site x).st) ∧ (e.ring n).immediate = rest ∧
      (e.ring n).held = (s.dev.ring n).held ++ [⟨q.hostSeq, q.opcode, stOk, 8 * bit q.irq, hit.length, 0, true⟩] ∧
      (s.dev.flue.known = true → 2 ≤ s.dev.getF R.FLU_CFG F.FLU_CFG_STOP_LEAD → hit.filter s.dev.isMulti ≠ [] →
        e.flue.stops = s.dev.flue.stops ++ [(s.dev.flue.epoch + s.dev.getF R.FLU_CFG F.FLU_CFG_STOP_LEAD, s.dev.withStart (hit.filter s.dev.isMulti))] ∧
        (∀ x ∈ hit, s.dev.isMulti x = true → (e.site x).st = (s.dev.site x).st) ∧
        (s.dev.role ≠ 0 → ∀ r ∈ s.dev.startsOf (hit.filter s.dev.isMulti), ∀ p ∈ s.dev.eventPorts,
          Sent p (s.dev.tells r (s.dev.flue.epoch + s.dev.getF R.FLU_CFG F.FLU_CFG_STOP_LEAD) evStop
            (maskBlocks (maskOf ((hit.filter s.dev.isMulti).filter r.sites.contains)))) e)))) ∧
  (∀ (s : State) (x : Fin 256) (r : Start), s.dev.startOf x = some r →
    (r.sites.all s.dev.drained = true → s.dev.ownerCut r.ring = false ∨ s.dev.ringState r.ring = rsDisabled → Completes (.siteComplete x) s (fun e =>
      (∀ y ∈ r.sites, (e.site y).st = .armed ∧ (e.site y).endCause = (s.dev.site y).endCause) ∧
      e.seq.starts = s.dev.seq.starts.filter (fun z => z.id != r.id) ∧
      ∃ c ∈ (e.ring r.ring).held, c.hostSeq = r.hostSeq ∧ c.opcode = opStart ∧ c.status = s.dev.startStatus r ∧ c.arg0 = s.dev.startArg r ∧ c.arg1 = r.epoch)) ∧
    (r.sites.all s.dev.drained = true → s.dev.ownerCut r.ring = true → s.dev.ringState r.ring ≠ rsDisabled → (s.dev.ring r.ring).faultErr ≠ reWriteDenied →
      r.ring < 64 → Completes (.siteComplete x) s (fun e => e.seq.sites = s.dev.seq.sites ∧ e.seq.starts = s.dev.seq.starts ∧
        (e.ring r.ring).held = (s.dev.ring r.ring).held ∧ e.ringState r.ring = (if s.dev.ringState r.ring = rsDraining then rsDraining else rsFault) ∧
        (e.ring r.ring).faultErr = reWriteDenied)) ∧
    (r.sites.all s.dev.drained = false → Completes (.siteComplete x) s (fun e => e.seq.sites = s.dev.seq.sites ∧ e.seq.starts = s.dev.seq.starts ∧ e.rings = s.dev.rings)))

/-- A vector of a running site: the next vector of the granule is due, the vector clock advances by the period of its timing set, and VC and the counted
time advance only when the execution counts. At the start epoch VECTOR_ZERO makes STARTING sites RUNNING. A granule that the prediction names enters its
engine's ring. -/
def Obligations.VectorsAndGranules : Prop :=
  (∀ (s : State) (x : Fin 256) (obs : List PinObs) (b : Binding) (img : Image), (s.dev.site x).st = .running → (s.dev.site x).run.vec < 64 →
    s.dev.binding x = some b → s.dev.image b.image = some img → ∀ r, r = (s.dev.site x).run → ∀ pq,
    pq = (s.dev.timSet (homeHearth x) ((runAt (img.z.gran r.flow.pc).body r.vec).ctrl % 32)).pq →
    Completes (.vector x obs) s (fun e => (e.site x).st = .running ∧ (e.site x).run.vec = r.vec + 1 ∧ (e.site x).run.t = r.t + pq ∧
      (e.site x).run.vc = (if r.idle then r.vc else r.vc + 1) ∧ (e.site x).run.ct = (if r.idle then r.ct else r.ct + pq) ∧
      (e.site x).run.flow.pc = r.flow.pc ∧ (e.site x).run.flow.loops = r.flow.loops ∧ (∀ y, y ≠ x.val → e.site y = s.dev.site y) ∧ e.seq.live = s.dev.seq.live)) ∧
  (∀ (s : State), s.dev.flue.known = true → Completes .vectorZero s (fun e =>
    (∀ r ∈ s.dev.seq.starts, r.epoch = s.dev.flue.epoch → ∀ x ∈ r.sites, (s.dev.site x).st = .starting → (s.dev.site x).start = r.id → (e.site x).st = .running) ∧
    (∀ x, (s.dev.site x).st ≠ .starting → (e.site x).st = (s.dev.site x).st))) ∧
  (∀ (s : State) (u : Fin 64) (bad : Bool) (k n : Nat) (g : Group) (i : Image), s.Inv → (s.dev.engine u).group = some k → s.dev.group k = some g →
    s.dev.groupImage g = some i → (s.dev.engineWalk u g i ((s.dev.site g.lead).run.flowIn i.z)).next = some n →
    (ringUse i.z (s.dev.engine u).ring + (i.z.gran n).len ≤ s.dev.ringBytes u → Completes (.granuleFetch u bad) s (fun e =>
      e.engine u = ⟨some k, (s.dev.engine u).ring ++ [⟨n, false, bad || s.dev.storedPoison i n || s.dev.bodyPoison i (s.dev.engine u).ring n⟩]⟩ ∧ (∀ j, j ≠ u.val → e.engine j = s.dev.engine j) ∧
      e = { s.dev with seq := { s.dev.seq with engines := e.seq.engines } })) ∧
    (s.dev.ringBytes u < ringUse i.z (s.dev.engine u).ring + (i.z.gran n).len → exec (.granuleFetch u bad) s = .next s))

/-- The hold-report ring: the oldest report is written to its slot of 32 bytes and PI counts it, while the ring has room; CI reads as written; a rise of
ENABLE starts the ring at PI and CI 0. -/
def Obligations.HoldReports : Prop :=
  (∀ (s : State) (x : HoldReport) (rest : List HoldReport) (pi : Nat), s.Inv → s.dev.seq.reports = x :: rest → pi = (s.dev.reg R.HRT_HOLD_PI).toNat →
    ∀ size, size = 2 ^ s.dev.getF R.HRT_HOLD_CTRL F.HRT_HOLD_CTRL_LOG2 → ∀ a, a = 4096 * (s.dev.reg R.HRT_HOLD_BASE).toNat + 32 * (pi % size) →
    (sub32 pi (s.dev.reg R.HRT_HOLD_CI).toNat < size → Completes .holdReportWrite s (fun e => e.read a 32 = slice x.bytes 0 32 ∧
      (∀ b, b < a ∨ a + 32 ≤ b → memByte e.mem b = memByte s.dev.mem b) ∧ e.reg R.HRT_HOLD_PI = BitVec.ofNat 32 (pi + 1) ∧
      RegsBut [R.HRT_HOLD_PI] s.dev e ∧ e.seq.reports = rest ∧ e.rings = s.dev.rings)) ∧
    (size ≤ sub32 pi (s.dev.reg R.HRT_HOLD_CI).toNat → exec .holdReportWrite s = .next s)) ∧
  (∀ (s : State) (o : Origin) (w : Word), s.Inv → Accepts s.dev o R.HRT_HOLD_CI w →
    Completes (.hrtHoldCiWrite o w) s (fun e => e.reg R.HRT_HOLD_CI = w ∧ RegsBut [R.HRT_HOLD_CI] s.dev e ∧ OnlyRegsAudit s.dev e)) ∧
  (∀ (s : State) (o : Origin) (w : Word), Accepts s.dev o R.HRT_HOLD_CTRL w → s.dev.flag R.HRT_HOLD_CTRL F.HRT_HOLD_CTRL_ENABLE = false →
    getBits w F.HRT_HOLD_CTRL_ENABLE = 1 → Completes (.hrtHoldCtrlWrite o w) s (fun e => e.flag R.HRT_HOLD_CTRL F.HRT_HOLD_CTRL_ENABLE = true ∧
      e.getF R.HRT_HOLD_CTRL F.HRT_HOLD_CTRL_LOG2 = getBits w F.HRT_HOLD_CTRL_LOG2 ∧ e.reg R.HRT_HOLD_PI = 0 ∧ e.reg R.HRT_HOLD_CI = 0 ∧ e.seq.reportSeq = 0))

/-- A DDS unit of a running site turns its output at each transition; connected to its pin, and the pin not in overload, it drives the new level. The
settle time of an amplitude ends and holds its site no longer. -/
def Obligations.SynthClocks : Prop :=
  (∀ (s : State) (u : Fin 64) (c : LiveClaim), s.dev.seq.claims.find? (fun c => c.kind == 1 && c.unit == u.val) = some c → (s.dev.site c.site).st = .running →
    (s.dev.ddsUnit u).ftw ≠ 0 → Completes (.ddsTransition u) s (fun e => (e.ddsUnit u).n = (s.dev.ddsUnit u).n + 1 ∧
      (e.ddsUnit u).high = !(s.dev.ddsUnit u).high ∧ (∀ k, k ≠ u.val → e.ddsUnit k = s.dev.ddsUnit k) ∧
      ((s.dev.ddsUnit u).connected = true → (s.dev.chan c.ch).overload = false → (e.chan c.ch).drv = if (e.ddsUnit u).high then .h else .l) ∧
      ((s.dev.ddsUnit u).connected = false → e.seq.chans = s.dev.seq.chans) ∧ (∀ ch, ch ≠ c.ch → e.chan ch = s.dev.chan ch) ∧ e.seq.sites = s.dev.seq.sites)) ∧
  (∀ (s : State) (x : Fin 256), s.Inv → Completes (.ddsAmpSettleEnd x) s (fun e => e.seq.settles = s.dev.seq.settles.filter (· != .ddsAmp x) ∧
    e = { s.dev with seq := { s.dev.seq with settles := e.seq.settles } }))

/-! ### Sequence -/

/-- The sequencer instructions at the end of their granule: where the flow goes, what the stacks, counters and flags become, and the stack faults. -/
def Obligations.SequencerInstructions : Prop :=
  ∀ (s : State) (x : Fin 256) (k : Nat) (g : Group) (i : Image) (r : SiteRun) (f : Flow), r = (s.dev.site x).run → f = r.flow →
    (AtEnd s.dev x k g i .nop → Completes (.nopInstr x) s (GoesTo x { f with pc := f.pc + 1, back := false })) ∧
    (∀ n, AtEnd s.dev x k g i (.rep n) →
      (r.rep + 1 < n → Completes (.repeat_ x) s (Repeats x f (r.rep + 1))) ∧
      (n ≤ r.rep + 1 → Completes (.repeat_ x) s (GoesTo x { f with pc := f.pc + 1, back := false }))) ∧
    (∀ n, AtEnd s.dev x k g i (.loopBegin n) →
      (f.back = true → Completes (.loopBegin x) s (GoesTo x { f with pc := f.pc + 1, back := false })) ∧
      (f.back = false → f.loops.length < 8 → Completes (.loopBegin x) s (GoesTo x { f with pc := f.pc + 1, loops := ⟨f.pc, n⟩ :: f.loops })) ∧
      (f.back = false → 8 ≤ f.loops.length → Completes (.loopBegin x) s (RunEnds x .stackFault))) ∧
    (AtEnd s.dev x k g i .loopEnd →
      (f.loops = [] → Completes (.loopEnd x) s (RunEnds x .stackFault)) ∧
      (∀ l t, f.loops = l :: t → 1 < l.remaining →
        Completes (.loopEnd x) s (GoesTo x { f with pc := l.start, back := true, loops := ⟨l.start, l.remaining - 1⟩ :: t })) ∧
      (∀ l t, f.loops = l :: t → l.remaining ≤ 1 → Completes (.loopEnd x) s (GoesTo x { f with pc := f.pc + 1, back := false, loops := t }))) ∧
    (∀ target below, AtEnd s.dev x k g i (.call target below) →
      (f.calls.length < 16 → Completes (.call x) s (GoesTo x { f with pc := i.z.target target, back := false, calls := (f.pc + 1) :: f.calls })) ∧
      (16 ≤ f.calls.length → Completes (.call x) s (RunEnds x .stackFault))) ∧
    (AtEnd s.dev x k g i .ret →
      (f.calls = [] → Completes (.return_ x) s (RunEnds x .stackFault)) ∧
      (∀ c t, f.calls = c :: t → Completes (.return_ x) s (GoesTo x { f with pc := c, back := false, calls := t }))) ∧
    (∀ target lpop, AtEnd s.dev x k g i (.jump target lpop) →
      (lpop ≤ f.loops.length → Completes (.jump x) s (GoesTo x { f with pc := i.z.target target, back := false, loops := f.loops.drop lpop })) ∧
      (f.loops.length < lpop → Completes (.jump x) s (RunEnds x .stackFault))) ∧
    (∀ target lpop vec cond neg clear pin, AtEnd s.dev x k g i (.jumpIf target lpop vec cond neg clear pin) →
      (r.condTrue = false → Completes (.jumpIf x) s (GoesTo x { f with pc := f.pc + 1, back := false })) ∧
      (r.condTrue = true → vec ≤ 48 → lpop ≤ f.loops.length →
        Completes (.jumpIf x) s (GoesTo x { f with pc := i.z.target target, back := false, loops := f.loops.drop lpop })) ∧
      (r.condTrue = true → 49 ≤ vec → lpop ≤ f.loops.length → Completes (.jumpIf x) s (fun e =>
        GoesTo x { f with pc := f.pc + 1, back := false, loops := f.loops.drop lpop } e ∧ (e.site x).run.late = some ⟨i.z.target target, target⟩)) ∧
      (r.condTrue = true → f.loops.length < lpop → Completes (.jumpIf x) s (RunEnds x .stackFault))) ∧
    (∀ j, s.dev.atBoundary x = some (k, g, i) → g.members.Nodup → s.dev.lateDue g = true → r.stop = false → r.smother = [] → r.wait = none → r.late = some j →
      (∀ v reg, s.dev.groupIns g i ≠ .setreg v reg) →
      Completes (.lateJump x) s (fun e => GoesTo x { f with pc := j.target, back := false } e ∧ (e.site x).run.late = none ∧ (e.site x).lateJump = true)) ∧
    (AtEnd s.dev x k g i .halt → Completes (.halt x) s (RunEnds x .halt)) ∧
    (∀ v reg, AtEnd s.dev x k g i (.setreg v reg) →
      (reg ≤ 3 → Completes (.setreg x) s (GoesTo x { f with pc := f.pc + 1, back := false, cnt := setNth f.cnt reg (v % 2 ^ 32) })) ∧
      (reg = 4 → Completes (.setreg x) s (GoesTo x { f with pc := f.pc + 1, back := false, flags := v % 256 })) ∧
      (reg = 5 → Completes (.setreg x) s (GoesTo x { f with pc := f.pc + 1, back := false, flags := f.flags ||| v % 256 })) ∧
      (reg = 6 → Completes (.setreg x) s (GoesTo x { f with pc := f.pc + 1, back := false, flags := f.flags &&& (255 - v % 256) })) ∧
      (reg = 7 → Completes (.setreg x) s (fun e => GoesTo x { f with pc := f.pc + 1, back := false } e ∧ (e.site x).run.siteFail = false ∧
        (e.site x).run.pinFails = []))) ∧
    (∀ ev pin level m, AtEnd s.dev x k g i (.wait ev pin level m) →
      (r.waitMore = true → Completes (.wait x) s (GoesTo x { f with pc := f.pc + 1, back := false })) ∧
      (∀ v, r.waitMore = false → r.waitHit = some v → v ≤ 48 → Completes (.wait x) s (GoesTo x { f with pc := f.pc + 1, back := false })) ∧
      (∀ v, r.waitMore = false → r.waitHit = some v → 48 < v → Completes (.wait x) s (Repeats x f (r.rep + 1))) ∧
      (r.waitMore = false → r.waitHit = none → r.rep + 1 < maxRep m → Completes (.wait x) s (Repeats x f (r.rep + 1))) ∧
      (r.waitMore = false → r.waitHit = none → maxRep m ≤ r.rep + 1 →
        Completes (.wait x) s (GoesTo x { f with pc := f.pc + 1, back := false, flags := f.flags ||| 128 })))

/-- Holds and rendezvous: a hold point or a rendezvous that stops a site makes its executions idle while it runs on; the site leaves a hold once its group
has an engine and the margin of its window guard, and a rendezvous once released, by its condition; a site that has waited too long is withdrawn and smothered. -/
def Obligations.HoldsAndRendezvous : Prop :=
  ∀ (s : State) (x : Fin 256) (k : Nat) (g : Group) (i : Image) (r : SiteRun) (f : Flow), r = (s.dev.site x).run → f = r.flow →
    (∀ n, AtEnd s.dev x k g i (.holdPoint n) → (s.dev.site g.lead).run.idle = false →
      (g.hasEngine = true → g.refill = false → Completes (.holdPoint x) s (GoesTo x { f with pc := f.pc + 1, back := false })) ∧
      (g.hasEngine = false ∨ g.refill = true → s.dev.isMulti g.lead = false → i.z.noHolds = false → (∃ h, i.z.holds[n]? = some h ∧ h.neutral = true) →
        Completes (.holdPoint x) s (fun e => (e.site x).run.flow = f ∧ (e.site x).run.vec = 0 ∧
          ((e.site x).st = .running → (e.site x).run.idle = true ∧ (e.site x).holds = (s.dev.site x).holds + 1 ∧ ∃ w, (e.site x).run.wait = some w ∧ w.point = n)))) ∧
    (∀ n w, s.dev.atBoundary x = some (k, g, i) → g.members.Nodup → s.dev.groupIns g i = .holdPoint n → (s.dev.site g.lead).run.idle = true → r.wait = some w → w.rdv = false →
      r.stop = false → r.smother = [] →
      (g.hasEngine = true → i.z.windowGuard ≤ s.dev.groupMargin k g i (s.dev.site g.lead).run.flow.succ →
        Completes (.holdResume x) s (fun e => GoesTo x { f with pc := f.pc + 1, back := false } e ∧ (e.site x).run.idle = false ∧
          (e.site x).holdTicks = (s.dev.site x).holdTicks + (r.t - w.t) / 256)) ∧
      (g.hasEngine = false → Completes (.holdResume x) s (fun e => (e.site x).run.flow = f ∧ (e.site x).run.vec = 0))) ∧
    (∀ n, AtEnd s.dev x k g i (.rendezvous n) → (s.dev.site g.lead).run.idle = false →
      Completes (.rendezvous x) s (fun e => (e.site x).run.flow = f ∧ (e.site x).run.vec = 0 ∧
        ((e.site x).st = .running → (e.site x).run.idle = true ∧ ∃ w, (e.site x).run.wait = some w ∧ w.rdv = true ∧ w.point = n))) ∧
    (∀ n p w, s.dev.atBoundary x = some (k, g, i) → g.members.Nodup → s.dev.groupIns g i = .rendezvous n → g.lead = x.val → r.idle = true → i.z.rdvs[n]? = some p →
      r.wait = some w → r.stop = false → r.smother = [] → s.dev.rdvFree x = true →
      Completes (.rdvResume x) s (GoesTo x { f with back := false, pc :=
        if (tbit p.flags 1 && (if p.cond % 16 = 0 then r.siteFail else tbit f.flags (p.cond / 32)) != tbit p.cond 4) = true then i.z.target p.target else f.pc + 1 })) ∧
    (∀ w max_, s.dev.rdvWait x = some w → max_ = s.dev.getF R.HRT_SEQ_CFG F.HRT_SEQ_CFG_RDV_MAX_EPOCHS →
      (max_ ≠ 0 → s.dev.flue.known = true → w.epoch + max_ + 1 ≤ s.dev.flue.epoch →
        Completes (.rdvWaitLimit x) s (fun e => (e.site x).run.smother = insertNat 4 r.smother ∧ (e.site x).run.wait = some { w with limitHit := true } ∧
          (e.site x).st = (s.dev.site x).st)) ∧
      (s.Inv → max_ = 0 ∨ s.dev.flue.epoch < w.epoch + max_ + 1 → exec (.rdvWaitLimit x) s = .next s))

/-! ### Epochs -/

/-- A SYNC edge opens the epoch of an accepted marker, or the next one; a missing edge loses the number and ends every run with a smother for clock
loss; the generator drives a pulse and counts it. -/
def Obligations.EpochsAreCounted : Prop :=
  (∀ (s : State) (tick : Nat), s.dev.running = true →
    (∀ a, s.dev.flue.assign = some a → (s.dev.flue.known = false ∨ a ≠ s.dev.flue.epoch) →
      Completes (.syncEdge tick) s (fun e => e.flue.known = true ∧ e.flue.epoch = a ∧ e.flue.assign = none)) ∧
    (s.dev.flue.assign = none → s.dev.flue.known = true → s.dev.role = 2 →
      Completes (.syncEdge tick) s (fun e => e.flue.known = true ∧ e.flue.epoch = s.dev.flue.epoch + 1 ∧ e.flue.assign = none))) ∧
  (∀ s : State, s.dev.running = true → Completes .syncMissing s (fun e => e.flue.known = false ∧
    e.getF R.CLK_SYNC_STATUS F.CLK_SYNC_STATUS_MISSED = capAt (s.dev.getF R.CLK_SYNC_STATUS F.CLK_SYNC_STATUS_MISSED + 1) (2 ^ F.CLK_SYNC_STATUS_MISSED.width - 1) ∧
    (∀ x, (s.dev.site x).st = .starting ∨ (s.dev.site x).st = .running → RunEnds x .smother e ∧ (e.site x).reasons.contains 2 = true))) ∧
  (∀ s : State, s.Inv → s.dev.flag R.CLK_SYNC_STATUS F.CLK_SYNC_STATUS_GEN = true → s.dev.role ≠ 2 →
    Completes .syncPulseGen s (fun e => e.outbox = s.dev.outbox ++ [.syncPulse] ∧ e.flue.genCount = s.dev.flue.genCount + 1 ∧
      e = { s.dev with flue := { s.dev.flue with genCount := e.flue.genCount }, outbox := e.outbox }))

/-! ### The draught scheduler -/

/-- What is offered to the scheduler, and what it accepts: a SUMMARY and window operands are offered once each; an operand that no recipe names makes an event of
its own with the next sequence number of its flow, or is held while the store is full. -/
def Obligations.OperandsBecomeEvents : Prop :=
  (∀ (s : State) (x : Fin 256), (s.dev.site x).st = .stopping → (s.dev.site x).summary = 0 → (s.dev.site x).cap.results ≤ (s.dev.site x).cap.posted →
    s.dev.drt.offers.any (fun o => o.site == x.val && isRunSource o.source) = false → Completes (.summaryPost x) s (fun e => (e.site x).summary = 1 ∧
      ∃ o, e.drt.offers = s.dev.drt.offers ++ [o] ∧ o.site = x.val ∧ o.source = srcSummary ∧ o.held = false ∧ o.inRun = true)) ∧
  (∀ (s : State) (x : Fin 256) (p : CapPlan), s.dev.plan x = some p → (s.dev.site x).cap.posted < (s.dev.site x).cap.results → (s.dev.site x).st.busy = true →
    ∀ a, a = p.resBase + 64 * (s.dev.site x).cap.posted → Completes (.windowOperandPost x) s (fun e =>
      (e.site x).cap.posted = (s.dev.site x).cap.posted + 1 ∧ ∃ o, e.drt.offers = s.dev.drt.offers ++ [o] ∧ o.site = x.val ∧ o.source = fieldAt (s.dev.read a 1) 0 1 + 1 ∧ o.place = some a)) ∧
  (∀ (s : State) (x : Fin 256) (o : DrtOperand), s.dev.flag R.DRT_CFG F.DRT_CFG_ENABLE = true → s.dev.running = true → s.dev.nextOperand x = some o →
    s.dev.recipeOf o.source = none → o.source ≠ srcSummary → o.source ≠ 0xFF →
    (s.dev.drt.entries.length < 8192 → Completes (.operandAccept x) s (fun e => e.drt.offers = s.dev.drt.offers.erase o ∧
      (∃ y, e.drt.entries = s.dev.drt.entries ++ [y] ∧ y.flow = s.dev.flowOf x o.source ∧ y.eseq = (s.dev.drtFlow (s.dev.flowOf x o.source)).eseq ∧
        y.sources = [o.source, 0xFF, 0xFF, 0xFF] ∧ y.ops.head? = some (some (s.dev.payloadOf o)) ∧ y.st = .complete ∧ y.close = 0) ∧
      (e.drtFlow (s.dev.flowOf x o.source)).eseq = ((s.dev.drtFlow (s.dev.flowOf x o.source)).eseq + 1) % 2 ^ 32)) ∧
    (8192 ≤ s.dev.drt.entries.length → o.held = false → Completes (.operandAccept x) s (fun e => e.drt.entries = s.dev.drt.entries ∧ e.drtFull = true ∧
      e.drt.offers.length = s.dev.drt.offers.length ∧ (s.dev.drtFull = false → e.flag R.DRT_INT_STATUS F.DRT_INT_STATUS_FULL = true)))) ∧
  (∀ (s : State) (f : Fin 1024) (q : Nat) (y : DrtEntry), s.dev.drt.entries.find? (fun e => e.flow == f.val && e.eseq == q && e.st == .opened) = some y →
    s.dev.getF R.DRT_AGE F.DRT_AGE_AGE_US ≠ 0 → y.sources.any isRunSource = false → (s.dev.site (f.val / 4)).st.busy = false →
    Completes (.ageOut f q) s (fun e => (∀ z ∈ e.drt.entries, z.flow = f.val → z.eseq = q → z.st ≠ .opened) ∧
      (∃ z ∈ e.drt.entries, z.flow = f.val ∧ z.eseq = q ∧ z.st = .complete ∧ z.close = clAged ∧ z.ops = y.ops) ∧
      e.getF R.DRT_COUNTS F.DRT_COUNTS_AGED = capAt (s.dev.getF R.DRT_COUNTS F.DRT_COUNTS_AGED + 1) (2 ^ F.DRT_COUNTS_AGED.width - 1)))

/-- Events reach the cores and come back: the event that became complete first goes to its core's queue; a consumption index frees the slots below it with
their results; the event that became releasable first is written to the result ring, which counts it, and leaves the store. -/
def Obligations.EventsAreDispatchedAndReleased : Prop :=
  (∀ (s : State) (e0 : DrtEntry) (t : List DrtEntry), s.Inv → s.dev.running = true → s.dev.dispatchable = e0 :: t → s.dev.flag R.DRT_TRACE_CTRL F.DRT_TRACE_CTRL_ENABLE = false →
    Completes .dispatch s (fun e => ∃ y ∈ e0 :: t, (∀ z ∈ e0 :: t, y.order < z.order ∨ (y.order = z.order ∧ y.flow ≤ z.flow)) ∧
      ∀ c why pi y', s.dev.target y.flow = some (c, why) → c < 8 → y.sources.length = 4 → pi = (s.dev.reg (R.DRT_Q_PI c)).toNat → y' = { y with st := .queued, core := c, reason := why, slot := pi } →
        ∀ a, a = s.dev.queueBase c + 384 * (pi % s.dev.queueSize c) →
        e.drt.entries = s.dev.drt.entries.map (fun z => if z = y then y' else z) ∧ e.reg (R.DRT_Q_PI c) = BitVec.ofNat 32 (pi + 1) ∧
        e.read a 64 = s.dev.slotHeader y' 0 ∧ e.read (a + 64) y'.operands.length = y'.operands ∧
        ∀ b, b < a ∨ a + 64 + y'.operands.length ≤ b → memByte e.mem b = memByte s.dev.mem b)) ∧
  (∀ (s : State) (o : Origin) (c : Fin 8) (w : Word), Accepts s.dev o (R.DRT_Q_CI c) w → Completes (.drtQcCiWrite o c w) s (fun e => e.reg (R.DRT_Q_CI c) = w ∧
    (∀ y ∈ s.dev.drt.entries, y.st = .queued → y.core = c.val → sub32 y.slot (s.dev.reg (R.DRT_Q_CI c)).toNat < sub32 w.toNat (s.dev.reg (R.DRT_Q_CI c)).toNat →
      ∃ z ∈ e.drt.entries, z.flow = y.flow ∧ z.eseq = y.eseq ∧ z.st = .done ∧
        z.result = s.dev.read (s.dev.queueBase c + 384 * (y.slot % s.dev.queueSize c) + 320) 64) ∧ RegsBut [R.DRT_Q_CI c] s.dev e)) ∧
  (∀ (s : State) (size pi : Nat), s.Inv → s.dev.running = true → size = 2 ^ s.dev.getF R.DRT_RES_SIZE F.DRT_RES_SIZE_LOG2 → pi = (s.dev.reg R.DRT_RES_PI).toNat →
    s.dev.drt.entries.any (fun y => y.relOrder != 0) = true → s.dev.flag R.DRT_TRACE_CTRL F.DRT_TRACE_CTRL_ENABLE = false →
    (sub32 pi (s.dev.reg R.DRT_RES_CI).toNat < size → Completes .release s (fun e => ∃ y ∈ s.dev.drt.entries, y.relOrder ≠ 0 ∧
      (∀ z ∈ s.dev.drt.entries, z.relOrder ≠ 0 → y.relOrder ≤ z.relOrder) ∧ e.drt.entries.length + 1 = s.dev.drt.entries.length ∧ e.drt.relSeq = s.dev.drt.relSeq + 1 ∧
      e.reg R.DRT_RES_PI = BitVec.ofNat 32 (pi + 1) ∧ e.flag R.DRT_INT_STATUS F.DRT_INT_STATUS_RELEASE = true ∧
      ∀ a, a = 4096 * (s.dev.reg R.DRT_RES_BASE).toNat + 128 * (pi % size) → y.sources.length = 4 → e.read a 64 = s.dev.slotHeader y s.dev.drt.relSeq ∧ e.read (a + 64) 64 = slice y.result 0 64 ∧
        ∀ b, b < a ∨ a + 128 ≤ b → memByte e.mem b = memByte s.dev.mem b)) ∧
    (size ≤ sub32 pi (s.dev.reg R.DRT_RES_CI).toNat → exec .release s = .next s)) ∧
  (∀ (s : State) (o : Origin) (w : Word), s.Inv → Accepts s.dev o R.DRT_RES_CI w → Completes (.drtResCiWrite o w) s (fun e => e.reg R.DRT_RES_CI = w ∧
    RegsBut [R.DRT_RES_CI] s.dev e ∧ OnlyRegsAudit s.dev e)) ∧
  (∀ (s : State) (o : Origin) (w : Word), s.Inv → Accepts s.dev o R.DRT_CFG w → Completes (.drtCfgWrite o w) s (fun e =>
    e.getF R.DRT_CFG F.DRT_CFG_ENABLE = getBits w F.DRT_CFG_ENABLE ∧ e.getF R.DRT_CFG F.DRT_CFG_CORE_EN = getBits w F.DRT_CFG_CORE_EN ∧
    e.getF R.DRT_CFG F.DRT_CFG_HASH_SHIFT = min 10 (getBits w F.DRT_CFG_HASH_SHIFT) ∧ RegsBut [R.DRT_CFG] s.dev e ∧ OnlyRegsAudit s.dev e))

/-! ### Clocks -/

/-- The lock states of a PLL: enabled it acquires in the lowest band that fits, or errs; it settles, locks, loses lock, and errs when it cannot acquire
twice; a settle count that the loss of REFCLK broke ends, in its cycle, in holdover. -/
def Obligations.PllStates : Prop :=
  ∀ (s : State) (p : Fin 6),
    (∀ (o : Origin) (w : Word), Accepts s.dev o (R.CLK_PLL_CTRL p) w →
      (∀ b, getBits w F.CLK_PLL_CTRL_ENABLE = 1 → s.dev.pllState p = plOff → s.dev.bandFrom p (getBits w F.CLK_PLL_CTRL_N) 0 = some b →
        Completes (.clkPllCtrlWrite o p w) s (fun e => e.pllState p = plAcquire ∧ e.getF (R.CLK_PLL_CTRL p) F.CLK_PLL_CTRL_BAND = b ∧
          e.pll p = ⟨getBits w F.CLK_PLL_CTRL_N, getBits w F.CLK_PLL_CTRL_POST, false⟩ ∧ RegsBut [R.CLK_PLL_CTRL p, R.CLK_PLL_STATUS p] s.dev e)) ∧
      (getBits w F.CLK_PLL_CTRL_ENABLE = 1 → s.dev.pllState p = plOff → s.dev.bandFrom p (getBits w F.CLK_PLL_CTRL_N) 0 = none →
        Completes (.clkPllCtrlWrite o p w) s (fun e => e.pllState p = plError ∧ e.getF (R.CLK_PLL_STATUS p) F.CLK_PLL_STATUS_ERR = 1 ∧ e.bitOf R.FLT_WORD_LO 12 = true)) ∧
      (getBits w F.CLK_PLL_CTRL_ENABLE = 0 → s.dev.pllState p ≠ plOff → Completes (.clkPllCtrlWrite o p w) s (fun e => e.pllState p = plOff))) ∧
    (s.Inv → s.dev.pllState p = plAcquire → s.dev.board.refPresent = true → Completes (.pllInLockWindow p) s (fun e => e.pllState p = plSettle ∧
      OnlyRegs s.dev e ∧ RegsBut [R.CLK_PLL_STATUS p] s.dev e)) ∧
    (s.dev.pllState p = plAcquire → (s.dev.pll p).retried = false →
      ∀ b, s.dev.bandFrom p (s.dev.pll p).n (s.dev.getF (R.CLK_PLL_CTRL p) F.CLK_PLL_CTRL_BAND + 1) = some b →
      Completes (.acqTimeout p) s (fun e => e.pllState p = plAcquire ∧ e.getF (R.CLK_PLL_CTRL p) F.CLK_PLL_CTRL_BAND = b ∧ (e.pll p).retried = true ∧
        RegsBut [R.CLK_PLL_CTRL p] s.dev e)) ∧
    (s.dev.pllState p = plAcquire → (s.dev.pll p).retried = true → Completes (.acqTimeout p) s (fun e => e.pllState p = plError ∧
      e.getF (R.CLK_PLL_STATUS p) F.CLK_PLL_STATUS_ERR = 2 ∧ e.bitOf R.FLT_WORD_LO 12 = true)) ∧
    (s.dev.pllState p = plSettle → s.dev.board.refPresent = true → Completes (.settleEnd p) s (fun e => e.pllState p = plLocked ∧ e.seq = s.dev.seq)) ∧
    (s.dev.pllState p = plAcquire → s.dev.clk.cut.contains p = true → Completes (.settleEnd p) s (fun e => e.pllState p = plHoldover ∧ e.seq = s.dev.seq)) ∧
    (s.Inv → s.dev.pllState p = plSettle → Completes (.lockLoss p) s (fun e => e.pllState p = plAcquire ∧ OnlyRegs s.dev e ∧ RegsBut [R.CLK_PLL_STATUS p] s.dev e)) ∧
    (s.dev.pllState p = plLocked → s.dev.flag (R.CLK_PLL_CTRL p) F.CLK_PLL_CTRL_AUTO_RELOCK = false → Completes (.lockLoss p) s (fun e => e.pllState p = plHoldover ∧
      e.getF (R.CLK_PLL_STATUS p) F.CLK_PLL_STATUS_LOSS_COUNT =
        capAt (s.dev.getF (R.CLK_PLL_STATUS p) F.CLK_PLL_STATUS_LOSS_COUNT + 1) (2 ^ F.CLK_PLL_STATUS_LOSS_COUNT.width - 1) ∧
      e.bitOf R.CLK_INT_STATUS p = true ∧ (p.val = pllGrid ∨ p.val = pllFabric →
        ∀ x, (s.dev.site x).st = .starting ∨ (s.dev.site x).st = .running → RunEnds x .smother e))) ∧
    (s.Inv → s.dev.pllState p = plLocked → Completes (.nearRail p) s (fun e => e.getF (R.CLK_PLL_STATUS p) F.CLK_PLL_STATUS_NEAR_RAIL = 1 ∧
      e.flag R.CLK_INT_STATUS F.CLK_INT_STATUS_NEAR_RAIL = true ∧ e.pllState p = plLocked ∧ OnlyRegs s.dev e ∧ RegsBut [R.CLK_PLL_STATUS p, R.CLK_INT_STATUS] s.dev e))

/-- The reference, its measurements, and what hangs on the clocks: REFCLK lost takes locked PLLs to holdover and ends every run; a band measurement fills its
entry; the grid phase moves one step the shorter way; the clock outputs take their configuration; the ember clock falls back on its oscillator. -/
def Obligations.ReferenceAndClocks : Prop :=
  (∀ (s : State) (last : Nat), s.dev.board.refPresent = true → Completes (.refclkAbsent last) s (fun e => e.board.refPresent = false ∧
    e.bitOf R.FLT_WORD_LO 13 = true ∧ (∀ p, p < 6 → s.dev.pllState p = plLocked → e.pllState p = plHoldover) ∧ (∀ p, p < 6 → s.dev.pllState p = plSettle → e.pllState p = plAcquire ∧ p ∈ e.clk.cut) ∧
    ∀ x, (s.dev.site x).st = .starting ∨ (s.dev.site x).st = .running → (e.site x).st = .stopping)) ∧
  (∀ s : State, s.dev.board.refPresent = false → Completes .refclkPresent s (fun e => e.board.refPresent = true ∧ e.flag R.CLK_INT_STATUS F.CLK_INT_STATUS_REF_RETURN = true ∧
    (∀ p, p < 6 → s.dev.pllState p = plHoldover → s.dev.flag (R.CLK_PLL_CTRL p) F.CLK_PLL_CTRL_AUTO_RELOCK = false → e.pllState p = plHoldover) ∧
    (∀ p b, p < 6 → s.dev.pllState p = plHoldover → s.dev.flag (R.CLK_PLL_CTRL p) F.CLK_PLL_CTRL_AUTO_RELOCK = true →
      s.dev.bandFrom p (s.dev.getF (R.CLK_PLL_CTRL p) F.CLK_PLL_CTRL_N) 0 = some b → e.pllState p = plAcquire ∧ e.getF (R.CLK_PLL_CTRL p) F.CLK_PLL_CTRL_BAND = b))) ∧
  (∀ (s : State) (o : Origin) (w : Word), Accepts s.dev o R.CLK_BAND_SEL (setBits w F.CLK_BAND_SEL_MEASURE 1) → s.dev.clk.measuring = none → s.dev.board.refPresent = true →
    Completes (.measure o w) s (fun e => e.clk.measuring = some (64 * getBits w F.CLK_BAND_SEL_PLL + getBits w F.CLK_BAND_SEL_BAND) ∧ e.getF R.CLK_BAND_SEL F.CLK_BAND_SEL_BUSY = 1 ∧
      RegsBut [R.CLK_BAND_SEL] s.dev e)) ∧
  (∀ (s : State) (low high k : Nat), s.Inv → s.dev.clk.measuring = some k → Completes (.bandMeasureDone low high) s (fun e => e.clk.measuring = none ∧
    e.getF R.CLK_BAND_SEL F.CLK_BAND_SEL_BUSY = 0 ∧ (∀ b, b < 64 → ∀ p, k = 64 * p + b → e.band p b = BitVec.ofNat 32 (2 ^ 31 + (high + 1) % 4096 * 2 ^ 12 + low % 4096)) ∧
    (∀ p b, k ≠ 64 * p + b → e.band p b = s.dev.band p b) ∧ e = { s.dev with regs := e.regs, clk := e.clk } ∧ RegsBut [R.CLK_BAND_SEL] s.dev e)) ∧
  (∀ s : State, s.dev.pllState pllGrid = plLocked → ∀ c t, c = s.dev.getF R.CLK_GRID_PHASE F.CLK_GRID_PHASE_CURRENT → t = s.dev.getF R.CLK_GRID_PHASE F.CLK_GRID_PHASE_TARGET →
    Completes .gridPhaseStep s (fun e => RegsBut [R.CLK_GRID_PHASE] s.dev e ∧ e.getF R.CLK_GRID_PHASE F.CLK_GRID_PHASE_TARGET = t ∧
      e.getF R.CLK_GRID_PHASE F.CLK_GRID_PHASE_CURRENT = if t = c then c else if (t + 256 - c) % 256 ≤ 128 then (c + 1) % 256 else (c + 255) % 256)) ∧
  (∀ (s : State) (o : Origin) (n : Fin 4) (w : Word), s.Inv → Accepts s.dev o (R.CLK_OUT_CFG n) w → Completes (.clkOutCfgWrite o n w) s (fun e =>
    (∀ f ∈ [F.CLK_OUT_CFG_SOURCE, F.CLK_OUT_CFG_DIV, F.CLK_OUT_CFG_FORMAT, F.CLK_OUT_CFG_ENABLE, F.CLK_OUT_CFG_STOP_ON_BYPASS], e.getF (R.CLK_OUT_CFG n) f = getBits w f) ∧
    RegsBut [R.CLK_OUT_CFG n] s.dev e ∧ OnlyRegsAudit s.dev e)) ∧
  (∀ s : State, s.dev.flag R.CLK_EMBER_STATUS F.CLK_EMBER_STATUS_ON_BACKUP = false → Completes .emberClkFail s (fun e =>
    e.flag R.CLK_EMBER_STATUS F.CLK_EMBER_STATUS_ON_BACKUP = true ∧ e.bitOf R.FLT_WORD_LO 14 = true ∧ e.flag R.CLK_INT_STATUS F.CLK_INT_STATUS_EMBER = true ∧
    e.flag R.EMB_RTC_STATUS F.EMB_RTC_STATUS_DEGRADED = true ∧ e.getF R.CLK_EMBER_STATUS F.CLK_EMBER_STATUS_FAIL_COUNT = capAt (e.ledger 3) 65535)) ∧
  (∀ s : State, s.Inv → s.dev.flag R.CLK_EMBER_STATUS F.CLK_EMBER_STATUS_ON_BACKUP = true → Completes .emberClkReturn s (fun e =>
    e.flag R.CLK_EMBER_STATUS F.CLK_EMBER_STATUS_ON_BACKUP = false ∧ e.flag R.CLK_INT_STATUS F.CLK_INT_STATUS_EMBER = true ∧ OnlyRegs s.dev e ∧
    RegsBut [R.CLK_EMBER_STATUS, R.CLK_INT_STATUS] s.dev e))

/-! ### Mailboxes and locks -/

/-- Words and waits of a mailbox: a post enters the poster's queue with the EVENT of a receiver whose inbox was empty, a read takes the oldest word, waits
end DONE, TIMEOUT or ABORTED, and closing a mailbox empties it. Locks: a read of a free lock takes it and reads 0, a read of a held one reads its
owner and changes nothing; only the owner releases it, and MBX_LOCK_FREE frees the locks that it names. -/
def Obligations.MailboxesAndLocks : Prop :=
  ((∀ (s : State) (n : Fin 16) (o : Origin) (x : Side), s.dev.mbxSide n o.id = some x → ∀ m, m = s.dev.mbxBox n →
    (∀ w : Word, Accepts s.dev o (R.MBX_TX n) w → Completes (.mbxTx o n w) s (fun e =>
      (e.mbxBox n).outQ x = m.outQ x ++ [⟨w.toNat, s.dev.mbxId n x, s.dev.epochOf (s.dev.mbxId n x), s.dev.epochOf (s.dev.mbxId n x.other)⟩] ∧
      (e.mbxBox n).outQ x.other = m.outQ x.other ∧ (m.outQ x = [] → e.bitOf (R.MBX_STATUS n) x.other.eventBit = true) ∧
      (∀ k, k ≠ n.val → e.mbxBox k = s.dev.mbxBox k) ∧ RegsBut [R.MBX_STATUS n] s.dev e)) ∧
    (∀ c t, Grants s.dev o (R.MBX_RX_DATA n) → m.inQ x = c :: t → Completes (.mbxRxData o n) s (fun e => (e.mbxBox n).inQ x = t ∧
      (e.mbxBox n).outQ x = m.outQ x ∧ e.outbox = s.dev.outbox ++ [.readData o.id (regBase + R.MBX_RX_DATA n) (BitVec.ofNat 32 c.word)])) ∧
    (∀ w : Word, Accepts s.dev o (R.MBX_WAIT n) w → getBits w F.MBX_WAIT_MODE = wmMessage → Completes (.mbxWait o n w) s (fun e =>
      ((e.mbxBox n).wait x).mode = wmMessage ∧ ((e.mbxBox n).wait x).result = (if (m.inQ x).isEmpty then wrPending else wrDone) ∧
      (e.mbxBox n).ab = m.ab ∧ (e.mbxBox n).ba = m.ba)) ∧
    ((m.wait x).result = wrPending → s.dev.getF (R.MBX_WAIT n) ⟨x.eventBit, 1⟩ = 1 → Completes (.mbxWaitTimeout n x) s (fun e =>
      ((e.mbxBox n).wait x).result = wrTimeout ∧ (e.mbxBox n).wait x.other = m.wait x.other ∧ e.bitOf (R.MBX_STATUS n) x.eventBit = true ∧
      (e.mbxBox n).ab = m.ab ∧ (e.mbxBox n).ba = m.ba ∧ RegsBut [R.MBX_STATUS n] s.dev e)) ∧
    (Accepts s.dev o (R.MBX_STATUS n) (ownEvent (some x)) → Completes (.mbxEventClear o n) s (fun e => e.bitOf (R.MBX_STATUS n) x.eventBit = false ∧
      (∀ b, b ≠ x.eventBit → b < 32 → e.bitOf (R.MBX_STATUS n) b = s.dev.bitOf (R.MBX_STATUS n) b) ∧ RegsBut [R.MBX_STATUS n] s.dev e ∧ e.mbx = s.dev.mbx)) ∧
    (∀ c : ResetEnd, c.ids.contains o.id = true → (m.wait x).result = wrPending → Completes (.endpointReset c) s (fun e =>
      ((e.mbxBox n).wait x).result = wrAborted ∧ (e.mbxBox n).ab = m.ab ∧ (e.mbxBox n).ba = m.ba ∧ e.mbx.locks = s.dev.mbx.locks))) ∧
  (∀ (s : State) (n : Fin 16) (o : Origin) (w : Word), Accepts s.dev o (R.MBX_CFG n) w → Completes (.mbxCfgWrite o n w) s (fun e =>
    e.getF (R.MBX_CFG n) F.MBX_CFG_ENABLE = getBits w F.MBX_CFG_ENABLE ∧ e.mbxId n .a = getBits w F.MBX_CFG_A ∧ e.mbxId n .b = getBits w F.MBX_CFG_B ∧
    (getBits w F.MBX_CFG_ENABLE = 0 → (e.mbxBox n).ab = [] ∧ (e.mbxBox n).ba = [] ∧
      ∀ y, ((s.dev.mbxBox n).wait y).result = wrPending → ((e.mbxBox n).wait y).result = wrAborted) ∧ (∀ k, k ≠ n.val → e.mbxBox k = s.dev.mbxBox k)))) ∧
  (∀ (s : State) (o : Origin) (k : Fin 32), s.Inv →
    (Grants s.dev o (R.MBX_LOCK k) → mapFind s.dev.mbx.locks k = none → Completes (.lockRead o k) s (fun e =>
      mapFind e.mbx.locks k = some (o.id, s.dev.epochOf o.id) ∧ e.outbox = s.dev.outbox ++ [.readData o.id (regBase + R.MBX_LOCK k) 0] ∧
      (∀ j, j ≠ k.val → mapFind e.mbx.locks j = mapFind s.dev.mbx.locks j) ∧ e.regs = s.dev.regs)) ∧
    (∀ owner epoch, Grants s.dev o (R.MBX_LOCK k) → mapFind s.dev.mbx.locks k = some (owner, epoch) → Completes (.lockRead o k) s (fun e => e.mbx = s.dev.mbx ∧
      e.outbox = s.dev.outbox ++ [.readData o.id (regBase + R.MBX_LOCK k) (BitVec.ofNat 32 (owner + 256 * epoch))] ∧ OnlyOut s.dev e)) ∧
    (∀ owner epoch, Accepts s.dev o (R.MBX_LOCK k) (BitVec.ofNat 32 o.id) → mapFind s.dev.mbx.locks k = some (owner, epoch) → Completes (.lockRelease o k) s (fun e =>
      mapFind e.mbx.locks k = (if owner = o.id then none else some (owner, epoch)) ∧ (∀ j, j ≠ k.val → mapFind e.mbx.locks j = mapFind s.dev.mbx.locks j))) ∧
    (∀ w : Word, Accepts s.dev o R.MBX_LOCK_FREE w → Completes (.mbxLockFree o w) s (fun e =>
      (∀ j, tbit w.toNat j = true → mapFind e.mbx.locks j = none) ∧ (∀ j, tbit w.toNat j = false → mapFind e.mbx.locks j = mapFind s.dev.mbx.locks j) ∧ e.mbx.boxes = s.dev.mbx.boxes)))

/-! ### Flue links -/

/-- The states of a Flue port: enabled it trains, disabled it goes down and forgets its packets; IDENT brings it up or stops it in ERROR, a timeout of the
training too; it idles and wakes. Acknowledgement, replay, discards, the outstanding reads, remote register access, the join and the skew measurement. -/
def Obligations.FluePorts : Prop :=
  (∀ (s : State) (p : Fin 4),
    (∀ (o : Origin) (w : Word), Accepts s.dev o (R.FLU_PORT_CTRL p) (setBits w F.FLU_PORT_CTRL_ENABLE 1) → s.dev.portState p = psDown → s.dev.pllLocked pllFlue = true →
      s.dev.role ≠ 0 → Completes (.fluePortEnable o p true w) s (fun e => e.portState p = psTrain ∧ e.getF (R.FLU_PORT_STATUS p) F.FLU_PORT_STATUS_ERR = 0 ∧
        e.outbox = s.dev.outbox ++ [.block p .training, .block p (.ident s.dev.deviceNum s.dev.role p)])) ∧
    (∀ (o : Origin) (w : Word), Accepts s.dev o (R.FLU_PORT_CTRL p) (setBits w F.FLU_PORT_CTRL_ENABLE 0) → s.dev.portState p = psActive →
      Completes (.fluePortEnable o p false w) s (fun e => e.portState p = psDown ∧ e.port p = { FluePort.reset with taps := (s.dev.port p).taps } ∧ e.bitOf R.FLT_WORD_LO 15 = true ∧
        ∀ x, s.dev.isMulti x = true → (s.dev.site x).st = .starting → (e.site x).st = .stopping)) ∧
    (∀ (o : Origin) (w : Word), Accepts s.dev o (R.FLU_PORT_CTRL p) (setBits w F.FLU_PORT_CTRL_RETRAIN 1) → getBits w F.FLU_PORT_CTRL_ENABLE = 1 →
      s.dev.portState p = psActive ∨ s.dev.portState p = psIdle → Completes (.retrain o p w) s (fun e => e.portState p = psTrain ∧ (e.port p).replay = (s.dev.port p).replay)) ∧
    (∀ num role from_ pol lanes both, s.dev.portState p = psTrain →
      (lanes.any (fun w => maxSkewBlocks < getBits w F.FLU_PORT_LANE_SKEW_BLOCKS) = false →
        (s.dev.identErr p num role from_ = none → Completes (.ident p num role from_ pol ⟨lanes, both⟩) s (fun e =>
          e.getF (R.FLU_PORT_STATUS p) F.FLU_PORT_STATUS_NEIGHBOUR = num % 2 ^ F.FLU_PORT_STATUS_NEIGHBOUR.width ∧
          (both = true → e.portState p = psActive ∧ (e.port p).identOk = true ∧ e.flag R.FLU_INT_STATUS F.FLU_INT_STATUS_PORT_UP = true) ∧
          (both = false → e.portState p = psTrain ∧ e.flue = s.dev.flue ∧ e.outbox = s.dev.outbox))) ∧
        (∀ err, s.dev.identErr p num role from_ = some err → Completes (.ident p num role from_ pol ⟨lanes, both⟩) s (fun e => e.portState p = psError ∧
          e.getF (R.FLU_PORT_STATUS p) F.FLU_PORT_STATUS_ERR = err))) ∧
      (s.Inv → lanes.any (fun w => maxSkewBlocks < getBits w F.FLU_PORT_LANE_SKEW_BLOCKS) = true → exec (.ident p num role from_ pol ⟨lanes, both⟩) s = .next s)) ∧
    (s.dev.portState p = psTrain → Completes (.trainTimeout p) s (fun e => e.portState p = psError ∧ e.getF (R.FLU_PORT_STATUS p) F.FLU_PORT_STATUS_ERR = 1)) ∧
    (s.dev.portState p = psActive → s.dev.flag (R.FLU_PORT_CTRL p) F.FLU_PORT_CTRL_IDLE_ALLOWED = true → (s.dev.port p).queue = [] → (s.dev.port p).replay = [] →
      s.dev.multiBusy = false → Completes (.portIdleEntry p) s (fun e => e.portState p = psIdle ∧ e.flue.ports = s.dev.flue.ports ∧ e.seq = s.dev.seq)) ∧
    (s.dev.portState p = psIdle → Completes (.portWake p) s (fun e => e.portState p = psWake ∧ e.outbox = s.dev.outbox ++ [.block p .exitBurst] ∧ e.flue.ports = s.dev.flue.ports)) ∧
    (s.dev.portState p = psWake → Completes (.wakeBurstAligned p) s (fun e => e.portState p = psActive)) ∧
    (s.dev.portState p = psWake → Completes (.wakeTimeout p) s (fun e => e.portState p = psTrain ∧ (e.port p).replay = (s.dev.port p).replay))) ∧
  ((∀ (s : State) (p : Fin 4) (ack : Nat) (valid : Bool) (ev rsp req : Nat), s.dev.portState p = psActive → (s.dev.port p).queue = [] →
    Completes (.link p ack false valid ev rsp req) s (fun e => (e.port p).replay = (if valid then ackDrop (s.dev.port p).replay ack else (s.dev.port p).replay) ∧
      (e.port p).evCr = (s.dev.port p).evCr + ev ∧ (e.port p).rspCr = (s.dev.port p).rspCr + rsp ∧ (e.port p).reqCr = (s.dev.port p).reqCr + req ∧ e.regs = s.dev.regs)) ∧
  (∀ (s : State) (p : Fin 4), s.dev.portState p = psActive → (s.dev.port p).replay ≠ [] →
    ((s.dev.port p).replays < 8 → Completes (.replayTimeout p) s (fun e => e.outbox = s.dev.outbox ++ (s.dev.port p).replay.map (fun x => .packet p x.1 x.2) ∧
      (e.port p).replays = (s.dev.port p).replays + 1 ∧ (e.port p).replay = (s.dev.port p).replay ∧
      e.getF (R.FLU_PORT_ERRORS p) F.FLU_PORT_ERRORS_REPLAYS = capAt (s.dev.getF (R.FLU_PORT_ERRORS p) F.FLU_PORT_ERRORS_REPLAYS + 1) (2 ^ F.FLU_PORT_ERRORS_REPLAYS.width - 1))) ∧
    (8 ≤ (s.dev.port p).replays → Completes (.replayTimeout p) s (fun e => e.portState p = psTrain ∧ e.getF (R.FLU_PORT_STATUS p) F.FLU_PORT_STATUS_ERR = 3))) ∧
  (∀ (s : State) (p : Fin 4) (h : Nat) (bs : List FlueBlock), s.Inv → s.dev.portState p = psActive →
    (∀ t, blockTypes.contains t = false → Completes (.fluePacketDiscard p (.ctl t h :: bs)) s (fun e => CountsBad p s.dev e ∧ OnlyRegs s.dev e)) ∧
    (readWire (.ctl btStart h :: bs) = none ∨
      (∃ k seq crcOk lenOk, readWire (.ctl btStart h :: bs) = some (k, seq, crcOk, lenOk) ∧ (crcOk = false ∨ seq ≠ (s.dev.port p).rxSeq)) →
      Completes (.fluePacketDiscard p (.ctl btStart h :: bs)) s (fun e => CountsBad p s.dev e ∧
        e.outbox = s.dev.outbox ++ [.block p (.link (((s.dev.port p).rxSeq + 4095) % 4096) true false 0 0 0)] ∧ e = { s.dev with regs := e.regs, outbox := e.outbox })) ∧
    (∀ k lenOk, readWire (.ctl btStart h :: bs) = some (k, (s.dev.port p).rxSeq, true, lenOk) → lenOk = false ∨ k.fieldsOk = false →
      Completes (.fluePacketDiscard p (.ctl btStart h :: bs)) s (fun e => CountsBad p s.dev e ∧ (e.port p).rxSeq = ((s.dev.port p).rxSeq + 1) % 4096 ∧
        (∃ ev rsp req, e.outbox = s.dev.outbox ++ [.block p (.link (s.dev.port p).rxSeq false true ev rsp req)] ∧ ev + rsp + req = k.blocks) ∧ e.mem = s.dev.mem ∧ e.seq = s.dev.seq))) ∧
  (∀ (s : State) (tag : Fin 1024), s.Inv →
    (∀ dest high, mapFind s.dev.flue.reads tag = some (.racc dest high) → Completes (.rspTimeout tag) s (fun e =>
      e.getF R.FLU_RACC_CTRL F.FLU_RACC_CTRL_BUSY = 0 ∧ e.getF R.FLU_RACC_CTRL F.FLU_RACC_CTRL_STATUS = 4 ∧ e.flue.reads = s.dev.flue.reads.filter (fun x => x.1 != tag.val) ∧
      e = { s.dev with regs := e.regs, flue := { s.dev.flue with reads := e.flue.reads } } ∧ RegsBut [R.FLU_RACC_CTRL] s.dev e)) ∧
    (∀ n dest q, mapFind s.dev.flue.reads tag = some (.dma n dest) → (s.dev.ring n).current = some q → Completes (.rspTimeout tag) s (fun e =>
      DmaEnds n q stLate (s.dev.ring n).dmaMoved s.dev e ∧ e.flue.reads = s.dev.flue.reads.filter (fun x => x.1 != tag.val) ∧ e.regs = s.dev.regs))) ∧
  (∀ (s : State) (o : Origin) (w : Word), Accepts s.dev o R.FLU_RACC_CTRL (setBits w F.FLU_RACC_CTRL_GO 1) → s.dev.flag R.FLU_RACC_CTRL F.FLU_RACC_CTRL_BUSY = false →
    ((∀ q, s.dev.route (getBits w F.FLU_RACC_CTRL_DEST) ≠ .port q) → Completes (.fluRaccGo o w) s (fun e => e.getF R.FLU_RACC_CTRL F.FLU_RACC_CTRL_BUSY = 0 ∧
      e.getF R.FLU_RACC_CTRL F.FLU_RACC_CTRL_STATUS = 2 ∧ e.flue = s.dev.flue)) ∧
    (∀ q dest high, dest = getBits w F.FLU_RACC_CTRL_DEST → high = s.dev.raccAddr / 4 % 2 → s.dev.route dest = .port q →
      (getBits w F.FLU_RACC_CTRL_WRITE = 0 → Completes (.fluRaccGo o w) s (fun e => e.getF R.FLU_RACC_CTRL F.FLU_RACC_CTRL_BUSY = 1 ∧
        e.flue.reads = s.dev.flue.reads ++ [(s.dev.flue.nextTag, .racc dest high)] ∧
        Sent q ⟨ptRead, dest, s.dev.deviceNum, s.dev.flue.nextTag, (if high = 1 then 0xF0 else 0x0F), 1, s.dev.raccAddr - 4 * high, []⟩ e)) ∧
      (getBits w F.FLU_RACC_CTRL_WRITE = 1 → Completes (.fluRaccGo o w) s (fun e => e.getF R.FLU_RACC_CTRL F.FLU_RACC_CTRL_BUSY = 0 ∧
        e.getF R.FLU_RACC_CTRL F.FLU_RACC_CTRL_STATUS = 0 ∧ e.flue.reads = s.dev.flue.reads ∧
        Sent q ⟨ptWrite, dest, s.dev.deviceNum, 0, (if high = 1 then 0xF0 else 0x0F), 0, s.dev.raccAddr - 4 * high,
          [(s.dev.reg R.FLU_RACC_DATA).toNat * 2 ^ (32 * high)]⟩ e)))) ∧
  (∀ (s : State) (reach : List Nat), s.dev.flue.joined = false →
    (s.dev.role = 1 → Completes (.joinTimeout reach) s (fun e => e.flue.joined = true ∧
      e.bitOf (R.FLU_TREE_PRESENT 0) 0 = true ∧ (∀ k, 1 ≤ k → k ≤ 3 →
        e.bitOf (R.FLU_TREE_PRESENT 0) k = (s.dev.board.profile.tree.contains k && reach.contains k && s.dev.portState k == psActive) ∧
        e.flue.kids.contains k = e.bitOf (R.FLU_TREE_PRESENT 0) k) ∧ e.flag R.FLU_INT_STATUS F.FLU_INT_STATUS_JOIN_DONE = true)) ∧
    (s.Inv → s.dev.role ≠ 0 → s.dev.role ≠ 1 → Completes (.joinTimeout reach) s (fun e => e.flue.joined = true ∧
      (∀ k, 1 ≤ k → k ≤ 3 → e.flue.kids.contains k = (s.dev.portState k == psActive && reach.contains (3 * s.dev.deviceNum + k))) ∧
      e = { s.dev with flue := { s.dev.flue with joined := true, kids := e.flue.kids } }))) ∧
  (∀ (s : State) (o : Origin) (w : Word), Accepts s.dev o R.FLU_SKEW_CTRL (setBits w F.FLU_SKEW_CTRL_START 1) → s.dev.flue.skew = none → s.dev.role = 2 →
    s.dev.portState 0 = psActive → s.dev.flue.known = true → Completes (.skewStart o w) s (fun e => (∃ t, e.flue.skew = some ⟨[], none, false, t⟩) ∧
      e.getF R.FLU_SKEW_CTRL F.FLU_SKEW_CTRL_BUSY = 1 ∧ e.getF R.FLU_SKEW_CTRL F.FLU_SKEW_CTRL_OUTCOME = 0)) ∧
  (∀ (s : State) (k : Skew), s.dev.flue.skew = some k → 64 ≤ k.twice.length → s.dev.calPending 17 = false → Completes .skewDone s (fun e => e.flue.skew = none ∧
    e.getF R.FLU_SKEW_CTRL F.FLU_SKEW_CTRL_BUSY = 0 ∧ e.flag R.FLU_INT_STATUS F.FLU_INT_STATUS_SKEW_DONE = true ∧ e.getF R.FLU_SKEW_CTRL F.FLU_SKEW_CTRL_OUTCOME =
      if (k.twice.foldl max (k.twice.headD 0) - k.twice.foldl min (k.twice.headD 0)).toNat ≤ 640 then skValid else skUnstable)) ∧
  (∀ (s : State) (p : Fin 4), s.Inv → s.dev.portState p = psActive →
    (s.dev.flue.known = true → p.val ≠ 0 → Completes (.probeSend p) s (fun e => e.outbox = s.dev.outbox ++ [.block p .probe] ∧ OnlyOut s.dev e)) ∧
    (∀ stamp q, p.val ≠ 0 → s.dev.route (3 * s.dev.deviceNum + p) = .port q → Completes (.probe p stamp) s (fun e =>
      Sent q { type := ptResponse, dest := 3 * s.dev.deviceNum + p, src := s.dev.deviceNum, tag := 0, be := 0, arg := 0, addr := 0, payload := [unsgn stamp 64] } e ∧ e.regs = s.dev.regs)) ∧
    (∀ stamp k, p.val = 0 → s.dev.flue.skew = some k → k.t1 = none → k.twice.length < skewPairs → Completes (.probe p stamp) s (fun e => e.flue.skew = some { k with t1 := some stamp } ∧
      e = { s.dev with flue := { s.dev.flue with skew := e.flue.skew } }))))

/-! ### Flue packets -/

/-- What arriving packets do: a READ of the host region is answered with its bytes, a WRITE and a DOORBELL reach memory, a RESPONSE ends the read of its
tag (a register access, a fetch of a descriptor, 64 bytes of a FLUE_DMA), a MESSAGE enters its mailbox, and a packet for another device goes on. The byte layout of a single-block register access is not among them (log
entry 54). Markers and events: the manager's marker names the next epoch, a marker in time is taken for the next edge and a late one is counted;
START, STOP, FAIL, and the reports and releases of a rendezvous act on the sites of the start that they name. -/
def Obligations.Packets : Prop :=
  (∀ (s : State) (p : Fin 4) (k : Packet),
    (∀ q, Arrives s.dev p ptRead k → inRegs k.addr = false → s.dev.memRefusal (0x40 + p) k.addr (8 * k.arg) false = none → s.dev.poisoned k.addr (8 * k.arg) = false →
      s.dev.route k.src = .port q → Completes (.read p k) s (fun e => e.regs = s.dev.regs ∧
        Sent q ⟨ptResponse, k.src, s.dev.deviceNum, k.tag, 0, 0, 0, (List.range k.arg).map (fun i => s.dev.readN (k.addr + 8 * i) 8)⟩ e)) ∧
    (s.Inv → Unwatched s.dev k.addr (8 * k.payload.length) → Arrives s.dev p ptWrite k → inRegs k.addr = false → k.be = 0xFF →
      s.dev.memRefusal (0x40 + p) k.addr (8 * k.payload.length) true = none → Completes (.write p k) s (fun e => e.read k.addr (8 * k.payload.length) = k.bytes ∧
        (∀ a, a < k.addr ∨ k.addr + 8 * k.payload.length ≤ a → memByte e.mem a = memByte s.dev.mem a) ∧ e.regs = s.dev.regs ∧ e.rings = s.dev.rings)) ∧
    (∀ n : Fin 64, s.Inv → Unwatched s.dev k.addr 8 → Arrives s.dev p ptDoorbell k → k.addr = s.dev.dbAddr n → k.be = 0xFF →
      s.dev.memRefusal (0x40 + p) k.addr 8 true = none → Completes (.doorbell p k) s (fun e => e.read (s.dev.dbAddr n) 8 = k.bytes ∧
        (∀ a, a < s.dev.dbAddr n ∨ s.dev.dbAddr n + 8 ≤ a → memByte e.mem a = memByte s.dev.mem a) ∧ e.regs = s.dev.regs)) ∧
    (Arrives s.dev p ptResponse k → s.dev.flue.skew = none →
      (∀ dest high, mapFind s.dev.flue.reads k.tag = some (.racc dest high) → (k.arg = 0 → k.payload.length = 1) → Completes (.response p k) s (fun e =>
        e.getF R.FLU_RACC_CTRL F.FLU_RACC_CTRL_BUSY = 0 ∧ e.getF R.FLU_RACC_CTRL F.FLU_RACC_CTRL_STATUS = k.arg ∧ mapFind e.flue.reads k.tag = none ∧
        (k.arg = 0 → e.reg R.FLU_RACC_DATA = BitVec.ofNat 32 (nth k.payload 0 0 / 2 ^ (32 * high))))) ∧
      (∀ n dest q, mapFind s.dev.flue.reads k.tag = some (.dma n dest) → (s.dev.ring n).current = some q →
        (k.arg ≠ 0 → Completes (.response p k) s (fun e => DmaEnds n q stAccessDenied (s.dev.ring n).dmaMoved s.dev e ∧ mapFind e.flue.reads k.tag = none)) ∧
        (∀ a, s.Inv → k.arg = 0 → k.payload.length = 8 → s.dev.ringRemote n = false → q.get 32 4 ≤ (s.dev.ring n).dmaMoved + 64 →
          a = q.get 16 8 + (s.dev.ring n).dmaMoved → Unwatched s.dev a 64 → Completes (.response p k) s (fun e =>
            DmaEnds n q stOk ((s.dev.ring n).dmaMoved + 64) s.dev e ∧ e.read a 64 = k.bytes ∧
            ∀ b, b < a ∨ a + 64 ≤ b → memByte e.mem b = memByte s.dev.mem b))) ∧
      (∀ n, mapFind s.dev.flue.reads k.tag = some (.fetch n) → (s.dev.ring n).fetching = true → k.arg = 0 → k.payload.length = 8 → Completes (.response p k) s (fun e =>
        (e.ring n).slotBytes = some k.bytes ∧ (e.ring n).fetching = false ∧ mapFind e.flue.reads k.tag = none))) ∧
    (Arrives s.dev p ptResponse k → s.dev.flue.skew = none → mapFind s.dev.flue.reads k.tag = none → Completes (.response p k) s (fun e =>
      e.getF R.FLU_LATE F.FLU_LATE_RESPONSES = capAt (s.dev.getF R.FLU_LATE F.FLU_LATE_RESPONSES + 1) (2 ^ F.FLU_LATE_RESPONSES.width - 1) ∧ e.flue.reads = s.dev.flue.reads)) ∧
    (∀ x b, Arrives s.dev p ptMessage k → k.payload = [b] → b < 2 ^ 40 → s.dev.permReg (0x40 + p) (R.MBX_TX k.arg) true = true →
      s.dev.mbxSide k.arg (0x40 + p) = some x → s.dev.mbxFull k.arg x = false → Completes (.message p k) s (fun e =>
        (e.mbxBox k.arg).outQ x = (s.dev.mbxBox k.arg).outQ x ++ [⟨b % 2 ^ 32, 0x40 + p, b / 2 ^ 32, e.epochOf (s.dev.mbxId k.arg x.other)⟩] ∧ e.epochOf (0x40 + p) = b / 2 ^ 32)) ∧
    (∀ q, s.dev.ours k = false → s.dev.portState p = psActive → k.fieldsOk = true → s.dev.route k.dest = .port q → Completes (.packetForward p k) s (fun e => Sent q k e ∧
      e.regs = s.dev.regs ∧ e.mem = memCanon s.dev.mem))) ∧
  ((∀ s : State, ∀ a, a = s.dev.flue.epoch + 1 →
    (s.dev.role = 1 → s.dev.flue.known = true → s.dev.flue.marked ≠ some a → s.dev.flue.joinDue = true ∨ a % s.dev.getF R.FLU_CFG F.FLU_CFG_MARKER_EVERY = 0 →
      Completes .epochMarkerSend s (fun e => (∀ q ∈ s.dev.downPorts, Sent q ⟨ptMarker, destAll, s.dev.deviceNum, 0, 0, 0, 0, [a]⟩ e) ∧ e.regs = s.dev.regs ∧
        e.flue.epoch = s.dev.flue.epoch ∧ e.flue.marked = some a ∧ e.flue.joinDue = false)) ∧
    (s.Inv → s.dev.flue.marked = some a ∨ (s.dev.flue.joinDue = false ∧ a % s.dev.getF R.FLU_CFG F.FLU_CFG_MARKER_EVERY ≠ 0) → exec .epochMarkerSend s = .next s)) ∧
  (∀ (s : State) (p : Fin 4) (k : Packet) (a : Nat), Arrives s.dev p ptMarker k → k.payload = [a] →
    (s.dev.flue.known = false ∨ s.dev.flue.epoch < a → Completes (.epochMarker p k) s (fun e => e.flue.assign = some a ∧ e.flag R.FLU_STATUS F.FLU_STATUS_MARKER_SEEN = true)) ∧
    (s.dev.flue.known = true → a ≤ s.dev.flue.epoch → Completes (.epochMarker p k) s (fun e => e.flue.assign = s.dev.flue.assign ∧ e.seq = s.dev.seq ∧
      e.getF R.FLU_LATE F.FLU_LATE_EVENTS = capAt (s.dev.getF R.FLU_LATE F.FLU_LATE_EVENTS + 1) (2 ^ F.FLU_LATE_EVENTS.width - 1)))) ∧
  (∀ (s : State) (p : Fin 4) (k : Packet) (q : Desc) (r : Start), Arrives s.dev p ptEvent k → k.evKind = evStart → k.src ≠ s.dev.deviceNum →
    q = ⟨slice k.evBody 0 64, s.dev.ringOrigin k.arg, 0⟩ → r = s.dev.startOfDesc k.arg q true →
    (s.dev.running = false → Completes (.startEvent p k) s (fun e => e.seq = s.dev.seq ∧ e.rings = s.dev.rings ∧ e.flag R.FLU_INT_STATUS F.FLU_INT_STATUS_LATE = true)) ∧
    (s.dev.running = true →
      (∀ c, s.dev.judgeEvent k.arg q = some (.refused c) → Completes (.startEvent p k) s (fun e => e.seq = s.dev.seq ∧
        (e.ring k.arg).held = (s.dev.ring k.arg).held ++ [⟨r.hostSeq, opStart, stRefused, 2 + 8 * bit r.irq, refuseArg c, 0, false⟩])) ∧
      (∀ kind, s.dev.judgeEvent k.arg q = some (.denied kind) → Completes (.startEvent p k) s (fun e => e.bitOf R.FLT_WORD_LO 20 = true ∧
        (e.ring k.arg).held.getLast? = some ⟨r.hostSeq, opStart, stAccessDenied, 2 + 8 * bit r.irq, 0, 0, false⟩)) ∧
      (s.dev.judgeEvent k.arg q = none → (s.dev.ring k.arg).events = [] →
        (s.dev.judgeStart r.sites r.epoch r.unadmitted = .held → Completes (.startEvent p k) s (fun e => e.seq = s.dev.seq ∧ (e.ring k.arg).events = [q])) ∧
        (s.dev.judgeStart r.sites r.epoch r.unadmitted = .accepted → (s.dev.takeGroups (s.dev.formGroups r.sites)).isSome = true → s.dev.clocksHold r = true →
          Completes (.startEvent p k) s (fun e => (∀ x ∈ r.sites, (e.site x).st = .starting ∧ (e.site x).start = r.id) ∧ e.seq.starts = s.dev.seq.starts ++ [r]))))) ∧
  (∀ (s : State) (p : Fin 4) (k : Packet), Arrives s.dev p ptEvent k → k.src ≠ s.dev.deviceNum →
    (k.evKind = evStop → Completes (.stopEvent p k) s (fun e =>
      (e.ring k.arg).held = (s.dev.ring k.arg).held ++ [⟨k.evSeq, opStop, stOk, 2, (s.dev.eventSites k k.evMask).length, 0, false⟩] ∧
      (s.dev.flue.known = true → s.dev.flue.epoch + 2 ≤ k.evEpoch → e.flue.stops = s.dev.flue.stops ++ [(k.evEpoch, s.dev.withStart (s.dev.eventSites k k.evMask))] ∧ e.seq = s.dev.seq))) ∧
    (k.evKind = evFail → Completes (.failEvent p k) s (fun e => e.flue.fails = s.dev.flue.fails ++ s.dev.withStart (s.dev.eventSites k [k.evSite]) ∧ e.seq = s.dev.seq)) ∧
    (∀ r t, k.evKind = evReport → s.dev.isManager = true →
      s.dev.eventStarts k ++ s.dev.seq.met.filter (fun r => r.ring == k.arg && r.hostSeq == k.evSeq) = r :: t →
      (s.dev.startDevices r).any (fun v => v != k.src && !((s.dev.meet r.id).reports.any (fun y => y.device == v))) = true → Completes (.rdvReport p k) s (fun e =>
        (e.meet r.id).reports = (s.dev.meet r.id).reports.filter (fun y => y.device != k.src) ++ [⟨k.src, k.evWithdrawn, k.evRdv, k.evEpoch, k.evMask⟩] ∧ e.seq.sites = s.dev.seq.sites)) ∧
    (∀ r t, k.evKind = evRelease → s.dev.eventStarts k = r :: t → (s.dev.flue.known = false ∨ s.dev.flue.epoch + 1 < k.evEpoch) → Completes (.rdvRelease p k) s (fun e =>
      ∀ x ∈ s.dev.participants r, ∀ w, s.dev.rdvWait x = some w → w.rdvId = k.evRdv → (e.site x).run.rdvDone = some k.evEpoch ∧ (e.site x).st = .running))))

/-! ### Time measurement -/

/-- Stamps: an edge on an armed channel takes one, with the next sequence number; a suspended channel stamps raw and unreferenced; one within the dead time
is missed; the edges of a DIFFERENCE pair open and close an interval. Flags are committed in order, and the record enters the FIFO behind those before it or
is lost there; the oldest record drains into the buffer, after a GAP record for what was lost before it, or is lost to a full buffer; an interval times out;
the test source stamps at its pulses. -/
def Obligations.StampsAreTaken : Prop :=
  (∀ (s : State) (n : Fin 32) (tick code tb : Nat) (rise : Bool) (c : TmuCh), c = s.dev.tmuCh n → tb = max tick s.dev.tmu.tb → s.dev.tmuSelected n rise = true →
    s.dev.tmuLive n = true →
    (c.st = tmArmed → s.dev.tbValid = true → s.dev.tmuDiff n = false → (∀ t, c.lastAt = some t → t + 20 * 64000 ≤ 64000 * tb + s.dev.rawFine n code) →
      Completes (.tmuEdge n tick code rise) s (fun e => (e.tmuCh n).seq = (c.seq + 1) % 65536 ∧ (∀ k, k ≠ n.val → e.tmuCh k = s.dev.tmuCh k) ∧ e.regs = s.dev.regs ∧
        ∃ x, (e.tmuCh n).held = c.held ++ [x] ∧ x.seq = c.seq ∧ x.tb = tb ∧ x.code = code ∧ x.rise = rise ∧ x.unref = false ∧ x.closes = none)) ∧
    (c.st = tmSuspended → c.byReg = true ∨ c.claimRun = true → s.dev.tmuDiff n = false → (∀ t, c.lastAt = some t → t + 20 * 64000 ≤ 64000 * tb) →
      Completes (.tmuEdge n tick code rise) s (fun e => (e.tmuCh n).held = c.held ++ [⟨c.seq, tb, 0, tb, 0, rise, true, none, []⟩] ∧ (e.tmuCh n).seq = (c.seq + 1) % 65536)) ∧
    (∀ t, c.st = tmArmed → s.dev.tbValid = true → s.dev.tmuDiff n = false → c.lastAt = some t → 64000 * tb + s.dev.rawFine n code < t + 20 * 64000 →
      Completes (.tmuEdge n tick code rise) s (fun e => e.tmuCh n = c ∧ e.getF (R.TMU_CH_MISSED n) F.TMU_CH_MISSED_MISSED =
        capAt (s.dev.getF (R.TMU_CH_MISSED n) F.TMU_CH_MISSED_MISSED + 1) (2 ^ F.TMU_CH_MISSED_MISSED.width - 1))) ∧
    (c.st = tmArmed → s.dev.tbValid = true → s.dev.tmuDiff n = true → c.interval = none → c.lastAt = none →
      Completes (.tmuEdge n tick code rise) s (fun e => (e.tmuCh n).seq = (c.seq + 1) % 65536 ∧ (e.tmuCh n).held = c.held ∧
        ∃ start, (e.tmuCh n).interval = some ⟨start, code, tb, false⟩)) ∧
    (∀ o m, n.val % 2 = 1 → c.st = tmPaired → (s.dev.tmuCh (n - 1)).st = tmArmed → (s.dev.tmuCh (n - 1)).interval = some o → s.dev.tbValid = true → c.lastAt = none →
      m = (s.dev.reg (R.TMU_CH_DIFF_MAX (n - 1))).toNat → m = 0 ∨ tb ≤ o.tick + m →
      Completes (.tmuEdge n tick code rise) s (fun e => ∃ x : TmuStamp, x.tb = tb ∧ x.seq = c.seq ∧ x.closes = none ∧
        (x.time < o.start → (e.tmuCh n).held = c.held ∧ (e.tmuCh (n - 1)).interval = some o) ∧
        (o.start ≤ x.time → (e.tmuCh n).held = c.held ++ [{ x with closes := some o }] ∧ (e.tmuCh (n - 1)).interval = none)))) ∧
  (∀ (s : State) (n : Fin 32) (x : TmuStamp) (rest : List TmuStamp) (dst : Nat) (item : TmuItem), (s.dev.tmuCh n).held = x :: rest →
    (x.closes = none → dst = n ∧ item = ⟨(s.dev.tmuCh dst).fifoGap, true, x.seq, x.tb, x.record n⟩) →
    (∀ o, x.closes = some o → dst = n - 1 ∧ item = ⟨(s.dev.tmuCh dst).fifoGap, true, x.seq, x.tb,
      differenceRecord dst x.seq (x.time - o.start) o.code x.code false (x.unref || o.unref) x.rise⟩) → s.dev.tmuRecords dst = true →
    ((s.dev.tmuCh dst).fifo.length < 1024 → Completes (.tmuStampCommit n) s (fun e => (e.tmuCh n).held = rest ∧ (s.dev.tmuCh dst).fifo ++ [item] <+: (e.tmuCh dst).fifo ∧
      (x.after = [] → (e.tmuCh dst).fifo = (s.dev.tmuCh dst).fifo ++ [item] ∧ e.regs = s.dev.regs))) ∧
    (1024 ≤ (s.dev.tmuCh dst).fifo.length → Completes (.tmuStampCommit n) s (fun e => (e.tmuCh n).held = rest ∧ (e.tmuCh dst).fifo = (s.dev.tmuCh dst).fifo ∧
      (x.after = [] → e.getF (R.TMU_CH_LOST dst) F.TMU_CH_LOST_LOST = capAt (s.dev.getF (R.TMU_CH_LOST dst) F.TMU_CH_LOST_LOST + 1) (2 ^ F.TMU_CH_LOST_LOST.width - 1))))) ∧
  (∀ (s : State) (n : Fin 32) (x : TmuItem) (rest : List TmuItem) (len wr a : Nat), s.Inv → (s.dev.tmuCh n).fifo = x :: rest →
    len = 4096 * s.dev.getF (R.TMU_CH_BUF_SIZE n) F.TMU_CH_BUF_SIZE_BUF_4K → wr = (s.dev.reg (R.TMU_CH_WR n)).toNat → a = 4096 * (s.dev.reg (R.TMU_CH_BUF_BASE n)).toNat + wr →
    (s.dev.tmuFull n = false → gapJoin (s.dev.tmuCh n).bufGap x.gap = none → Completes (.tmuRecordDrain n) s (fun e => e.read a x.bytes.length = x.bytes ∧
      (∀ b, b < a ∨ a + x.bytes.length ≤ b → memByte e.mem b = memByte s.dev.mem b) ∧ e.reg (R.TMU_CH_WR n) = BitVec.ofNat 32 ((wr + 16) % len) ∧
      (e.tmuCh n).fifo = rest ∧ RegsBut [R.TMU_CH_WR n] s.dev e)) ∧
    (∀ g, s.dev.tmuFull n = false → gapJoin (s.dev.tmuCh n).bufGap x.gap = some g → wr % 16 = 0 → wr < len → x.bytes.length = 16 →
      Completes (.tmuRecordDrain n) s (fun e => (e.tmuCh n).fifo = rest ∧ e.flag R.TMU_INT_STATUS F.TMU_INT_STATUS_GAP = true ∧
        ∃ f, (∀ f0, g.first = some f0 → f = f0) ∧ e.read a 16 = g.record n f)) ∧
    (s.dev.tmuFull n = true → Completes (.tmuRecordDrain n) s (fun e => (e.tmuCh n).fifo = rest ∧ e.mem = s.dev.mem ∧ (e.tmuCh n).bufGap.isSome = true ∧
      e.getF (R.TMU_CH_LOST n) F.TMU_CH_LOST_LOST = if x.stamp then capAt (s.dev.getF (R.TMU_CH_LOST n) F.TMU_CH_LOST_LOST + 1) (2 ^ F.TMU_CH_LOST_LOST.width - 1)
        else s.dev.getF (R.TMU_CH_LOST n) F.TMU_CH_LOST_LOST))) ∧
  (∀ (s : State) (n : Fin 32) (o : TmuOpen), (s.dev.tmuCh n).interval = some o → (s.dev.reg (R.TMU_CH_DIFF_MAX n)).toNat ≠ 0 → s.dev.tmuDiff n = true →
    ((s.dev.tmuCh (n + 1)).held = [] → s.dev.tmuRecords n = true → (s.dev.tmuCh n).fifo.length < 1024 → Completes (.tmuDiffTimeout n) s (fun e =>
      (e.tmuCh n).interval = none ∧ (e.tmuCh n).fifo.length = (s.dev.tmuCh n).fifo.length + 1 ∧ (e.tmuCh n).fifoGap = none ∧ e.regs = s.dev.regs)) ∧
    (∀ front last, (s.dev.tmuCh (n + 1)).held = front ++ [last] → Completes (.tmuDiffTimeout n) s (fun e => (e.tmuCh n).interval = none ∧ e.regs = s.dev.regs ∧
      ∃ item, item.stamp = true ∧ item.tb = o.tick ∧ (e.tmuCh (n + 1)).held = front ++ [{ last with after := last.after ++ [item] }]))) ∧
  (∀ (s : State) (n : Fin 32) (tick : Nat) (c : TmuCh), c = s.dev.tmuCh n → s.dev.tmuSource n = 3 → (∀ k, k < 32 → k ≠ n.val → s.dev.tmuSource k ≠ 3) →
    s.dev.tmuSelected n true = true → s.dev.tmuLive n = true → c.st = tmArmed → s.dev.tbValid = true → s.dev.tmuDiff n = false → c.lastAt = none →
    Completes (.tmuTestPulse tick) s (fun e => (e.tmuCh n).seq = (c.seq + 1) % 65536 ∧ (∀ k, k ≠ n.val → e.tmuCh k = s.dev.tmuCh k) ∧
      e.tmu.pulse = some (s.dev.nextPulse tick) ∧
      ∃ x, (e.tmuCh n).held = c.held ++ [x] ∧ x.seq = c.seq ∧ x.tb = s.dev.nextPulse tick ∧ x.code = 0 ∧ x.rise = true))

/-- Arming, disarming, the code-density test and the power groups of the channels: ARM refuses what R271 refuses, by the lowest code, else the channel arms or
wakes. -/
def Obligations.ChannelsAreArmed : Prop :=
  (∀ (s : State) (o : Origin) (n : Fin 32) (w : Word), Accepts s.dev o (R.TMU_CH_CTRL n) (setBits w F.TMU_CH_CTRL_ARM 1) → getBits w F.TMU_CH_CTRL_DISARM = 0 →
    (s.dev.armErr n = 0 → s.dev.tmuGroup (n / 16) = .on → s.dev.getF (R.TMU_CH_CFG n) F.TMU_CH_CFG_MODE = 0 → Completes (.arm o n w) s (fun e => (e.tmuCh n).st = tmArmed ∧
      (e.tmuCh n).byReg = true ∧ (e.tmuCh n).seq = 0 ∧ e.reg (R.TMU_CH_WR n) = 0 ∧ e.reg (R.TMU_CH_RD n) = 0 ∧
      ((s.dev.tmuCh n).held = [] → s.dev.tmuDiff n = false → ∀ k, k ≠ n.val → e.tmuCh k = s.dev.tmuCh k))) ∧
    (s.dev.armErr n = 0 → s.dev.tmuGroup (n / 16) ≠ .on → s.dev.getF (R.TMU_CH_CFG n) F.TMU_CH_CFG_MODE = 0 → Completes (.arm o n w) s (fun e => (e.tmuCh n).st = tmWaking ∧
      (e.tmuCh n).byReg = true)) ∧
    (s.dev.armErr n ≠ 0 → Completes (.arm o n w) s (fun e => e.getF (R.TMU_CH_STATUS n) F.TMU_CH_STATUS_ARM_ERR = s.dev.armErr n ∧ e.tmu = s.dev.tmu))) ∧
  (∀ (s : State) (o : Origin) (n : Fin 32) (w : Word), Accepts s.dev o (R.TMU_CH_CTRL n) (setBits w F.TMU_CH_CTRL_DISARM 1) → getBits w F.TMU_CH_CTRL_ARM = 0 →
    (s.dev.tmuCh n).byReg = true → (s.dev.tmuCh n).calWant = false → s.dev.tmuClaim n = none ∨ s.dev.tbValid = true → Completes (.disarm o n w) s (fun e => (e.tmuCh n).st = tmIdle ∧ (e.tmuCh n).byReg = false ∧
      (e.tmuCh n).interval = none)) ∧
  (∀ (s : State) (o : Origin) (w : Word) (n : Nat), Accepts s.dev o R.TMU_CAL_CTRL (setBits w F.TMU_CAL_CTRL_START 1) → s.dev.flag R.TMU_CAL_CTRL F.TMU_CAL_CTRL_BUSY = false →
    n < 32 → s.dev.bitOf R.TMU_CAL_MASK n = true → Completes (.tmuCalStart o w) s (fun e => e.flag R.TMU_CAL_CTRL F.TMU_CAL_CTRL_BUSY = true ∧
      ((s.dev.tmuCh n).st = tmIdle → s.dev.tmuClaim n = none → s.dev.calPending 16 = false → (e.tmuCh n).st = tmCalibrating) ∧
      ((s.dev.tmuCh n).st = tmArmed → (e.tmuCh n).st = tmArmed ∧ (e.tmuCh n).calWant = true))) ∧
  (∀ (s : State) (n : Fin 32) (counts : List Nat), (s.dev.tmuCh n).st = tmCalibrating →
    ((List.range 128).any (fun i => nth counts i 0 < 2048 || nth counts i 0 > 16384) = true → Completes (.tmuCalDone n counts) s (fun e => (e.tmuCh n).st = tmIdle ∧
      e.bitOf R.TMU_CAL_FAIL n = true ∧ e.cal = s.dev.cal)) ∧
    ((List.range 128).any (fun i => nth counts i 0 < 2048 || nth counts i 0 > 16384) = false → Completes (.tmuCalDone n counts) s (fun e => (e.tmuCh n).st = tmIdle ∧
      e.bitOf R.TMU_CAL_FAIL n = false ∧ (e.calShadow 16).body = splice (s.dev.calShadow 16).body (288 * n) ((binWidths counts).flatMap (bytesOf 2)) ∧
      (e.calShadow 16).temp = s.dev.tmu.calTemp ∧ e.cal.live = s.dev.cal.live ∧ e.flag R.TMU_INT_STATUS F.TMU_INT_STATUS_CAL_DONE = true))) ∧
  (∀ (s : State) (g : Fin 2), s.dev.tmuGroup g = .waking → Completes (.tmuGroupOn g) s (fun e => e.tmuGroup g = .on ∧
    (∀ n, n / 16 = g.val → (s.dev.tmuCh n).st = tmWaking → (e.tmuCh n).st = if s.dev.tbValid then tmArmed else tmSuspended)))

/-! ### Power -/

/-- Descents: refused with the lowest code, or begun with the supplies and the grates off; when it ends the device rests in its target, having lost what leaving
GLOW and entering BANKED take away. -/
def Obligations.Descents : Prop :=
  (∀ (s : State) (o : Origin), Accepts s.dev o R.EMB_PSTATE_REQ (setBits 0#32 F.EMB_PSTATE_REQ_TARGET 1) → s.dev.pstate = devGlow ∨ s.dev.pstate = devBlaze →
    (s.dev.descentRefusal ≠ 0 → Completes (.descendSmoulder o) s (fun e => e.getF R.EMB_PSTATE F.EMB_PSTATE_REFUSE = s.dev.descentRefusal ∧ RegsBut [R.EMB_PSTATE] s.dev e ∧
      e.seq = s.dev.seq ∧ e.power = s.dev.power)) ∧
    (s.dev.descentRefusal = 0 → Completes (.descendSmoulder o) s (fun e => e.getF R.EMB_PSTATE F.EMB_PSTATE_STATE = devDescending ∧
      e.getF R.EMB_PSTATE F.EMB_PSTATE_TARGET = devSmoulder ∧ e.power.descent = some (devSmoulder, false, s.dev.pstate) ∧ (∀ n, e.supOn n = false) ∧ (∀ g, (e.grate g).dom = .off)))) ∧
  (∀ (s : State) (o : Origin) (cold : Bool), Accepts s.dev o R.EMB_PSTATE_REQ (setBits 0#32 F.EMB_PSTATE_REQ_COLD (bit cold)) →
    s.dev.pstate = devSmoulder ∨ s.dev.pstate = devGlow ∨ s.dev.pstate = devBlaze → s.dev.descentRefusal = 0 →
    Completes (.descendBanked o cold) s (fun e => e.getF R.EMB_PSTATE F.EMB_PSTATE_STATE = devDescending ∧ e.getF R.EMB_PSTATE F.EMB_PSTATE_TARGET = devBanked ∧
      e.power.descent = some (devBanked, cold, s.dev.pstate) ∧ (∀ n, e.supOn n = false) ∧ (∀ g, (e.grate g).dom = .off))) ∧
  (∀ (s : State) (fails cold : Bool) (target old : Nat), s.dev.power.descent = some (target, cold, old) → s.dev.power.wakePending = false → s.dev.alarmDue = false →
    (target = devSmoulder → Completes (.descentDone fails) s (fun e => e.getF R.EMB_PSTATE F.EMB_PSTATE_STATE = devSmoulder ∧ e.power.descent = none ∧
      (s.dev.flue.reads = [] → s.dev.faultReact 15 < 2 → e.mem = memCanon s.dev.mem) ∧
      (devGlow ≤ old → e.seq.sites = [] ∧ e.seq.starts = [] ∧ e.rings = ⟨[], [], []⟩ ∧ e.seq.live = s.dev.seq.live ∧ e.flue.known = false))) ∧
    (target = devBanked → Completes (.descentDone fails) s (fun e => e.getF R.EMB_PSTATE F.EMB_PSTATE_STATE = devBanked ∧ e.power.descent = none ∧ e.mbx.locks = [] ∧
      e.flag R.EMB_PSTATE F.EMB_PSTATE_COLD = cold ∧ (∀ n, (e.mbxBox n).ab = [] ∧ (e.mbxBox n).ba = []) ∧
      (cold = true ∨ (s.dev.flue.reads = [] ∧ s.dev.faultReact 15 < 2) → e.mem = (if cold then [] else memCanon s.dev.mem)) ∧
      (∀ n, n < 4 → e.getF (R.CLK_OUT_CFG n) F.CLK_OUT_CFG_FORMAT = 0) ∧
      (∀ g, (e.grate g).relay = false))))

/-- Wake causes and ascents: an enabled cause of a resting device starts the ascent, one during a descent waits for its end; an ascent ends in GLOW, its hearth state is
restored after it, and a rail that fails takes the device back to BANKED. -/
def Obligations.WakesAndAscents : Prop :=
  (∀ (s : State), s.dev.board.stopped = false → s.dev.bitOf R.EMB_WAKE_CFG wkWakeN = true →
    (s.dev.getF R.EMB_PSTATE F.EMB_PSTATE_STATE = devSmoulder ∨ s.dev.getF R.EMB_PSTATE F.EMB_PSTATE_STATE = devBanked → Completes .wakeN s (fun e =>
      e.power.ascent = some (s.dev.getF R.EMB_PSTATE F.EMB_PSTATE_STATE) ∧ e.getF R.EMB_PSTATE F.EMB_PSTATE_STATE = devAscending ∧ e.bitOf R.EMB_WAKE_CAUSE wkWakeN = true ∧
      RegsBut [R.EMB_PSTATE, R.EMB_WAKE_CAUSE] s.dev e)) ∧
    (s.dev.getF R.EMB_PSTATE F.EMB_PSTATE_STATE = devDescending → Completes .wakeN s (fun e => e.power.wakePending = true ∧ e.power.ascent = s.dev.power.ascent ∧
      e.bitOf R.EMB_WAKE_CAUSE wkWakeN = true ∧ RegsBut [R.EMB_WAKE_CAUSE] s.dev e))) ∧
  (∀ (s : State), s.dev.board.stopped = false → s.dev.bitOf R.EMB_WAKE_CFG wkAlarm = true → s.dev.alarmDue = true →
    s.dev.getF R.EMB_PSTATE F.EMB_PSTATE_STATE = devSmoulder ∨ s.dev.getF R.EMB_PSTATE F.EMB_PSTATE_STATE = devBanked → Completes .alarm s (fun e =>
      e.power.ascent = some (s.dev.getF R.EMB_PSTATE F.EMB_PSTATE_STATE) ∧ e.getF R.EMB_PSTATE F.EMB_PSTATE_STATE = devAscending ∧ e.bitOf R.EMB_WAKE_CAUSE wkAlarm = true)) ∧
  (∀ (s : State), Accepts s.dev .supervisor R.EMB_PSTATE_REQ (setBits 0#32 F.EMB_PSTATE_REQ_TARGET 2) → s.dev.board.stopped = false → s.dev.bitOf R.EMB_WAKE_CFG wkRequest = true →
    s.dev.getF R.EMB_PSTATE F.EMB_PSTATE_STATE = devSmoulder → Completes (.request .supervisor) s (fun e => e.power.ascent = some devSmoulder ∧
      e.getF R.EMB_PSTATE F.EMB_PSTATE_STATE = devAscending ∧ e.bitOf R.EMB_WAKE_CAUSE wkRequest = true)) ∧
  (∀ (s : State) (sub : Nat) (bands : List (Nat × Word)) (fails : Bool),
    (s.dev.power.ascent = some devSmoulder → Completes (.ascent sub bands fails) s (fun e => e.power.ascent = none ∧
      (s.dev.warmOk = true → e.getF R.EMB_PSTATE F.EMB_PSTATE_STATE = devGlow ∧ e.power.restoring = true ∧ e.seq.live = s.dev.seq.live ∧ e.mem = memCanon s.dev.mem) ∧
      (s.dev.warmOk = false → e.bitOf R.FLT_WORD_LO 21 = true))) ∧
    (s.dev.power.ascent = some devBanked → s.dev.flag R.EMB_PSTATE F.EMB_PSTATE_COLD = true → Completes (.ascent sub bands fails) s (fun e => e.board.resetDue = true ∧
      e.power.ascent = none ∧ e.regs = s.dev.regs))) ∧
  (∀ s : State, s.dev.power.restoring = true → Completes .ascentRestored s (fun e => e.power.restoring = false ∧ e.getF R.EMB_PSTATE F.EMB_PSTATE_RESTORED = 1 ∧
    (∀ b ∈ s.dev.seq.live.binds, (s.dev.site b.1).st = .idle → (e.site b.1).st = .armed) ∧ RegsBut [R.EMB_PSTATE] s.dev e)) ∧
  (∀ (s : State) (rail from_ : Nat), s.dev.power.ascent = some from_ → Completes (.railPgTimeout rail) s (fun e => e.getF R.EMB_PSTATE F.EMB_PSTATE_STATE = devBanked ∧
    e.getF R.EMB_PSTATE F.EMB_PSTATE_ERR = 1 ∧ e.getF R.EMB_PSTATE F.EMB_PSTATE_RAIL = rail % 2 ^ F.EMB_PSTATE_RAIL.width ∧ e.power.ascent = none)) ∧
  (∀ (s : State) (o : Origin) (w : Word), Accepts s.dev o R.PWR_DOMAIN_CTRL w → Completes (.pwrDomainCtrlWrite o w) s (fun e =>
    e.getF R.PWR_DOMAIN_CTRL F.PWR_DOMAIN_CTRL_CORE_ON = getBits w F.PWR_DOMAIN_CTRL_CORE_ON ∧
    (∀ c, c < 8 → e.epochOf (1 + c) = if tbit w.toNat c && !(s.dev.bitOf R.PWR_DOMAIN_CTRL c) then (s.dev.epochOf (1 + c) + 1) % 256 else s.dev.epochOf (1 + c))))

/-- The supplies: a sequence takes its steps in order, one that fails or times out takes down what it enabled, a supply that loses power-good raises the fault; readings
and alerts are reported. -/
def Obligations.SupplySequences : Prop :=
  (∀ (s : State) (o : Origin) (w : Word) (bad : Bool) (x : SupStep) (rest : List SupStep), Accepts s.dev o R.PWR_SUP_CTRL (setBits w F.PWR_SUP_CTRL_UP 1) →
    s.dev.supTableBad true = false → s.dev.supTable true = x :: rest → (bad && s.dev.supPmb x.supply) = false → Completes (.up o w bad) s (fun e =>
      e.supOn x.supply = true ∧ (∀ n, n ≠ x.supply → n < 32 → e.supOn n = s.dev.supOn n) ∧ e.power.seq = some ⟨true, 0, x.timeoutMs != 0, [x.supply], none⟩ ∧
      e.flag R.PWR_SUP_CTRL F.PWR_SUP_CTRL_BUSY = true)) ∧
  (∀ (s : State) (o : Origin) (w : Word) (bad : Bool) (x : SupStep) (rest : List SupStep),
    Accepts s.dev o R.PWR_SUP_CTRL (setBits (setBits w F.PWR_SUP_CTRL_UP 0) F.PWR_SUP_CTRL_DOWN 1) → s.dev.supTableBad false = false → s.dev.supTable false = x :: rest →
    Completes (.down o w bad) s (fun e => e.supOn x.supply = false ∧ (∀ n, n ≠ x.supply → n < 32 → e.supOn n = s.dev.supOn n) ∧
      e.power.seq = some ⟨false, 0, false, [], if bad && s.dev.supPmb x.supply then some 0 else none⟩ ∧ e.flag R.PWR_SUP_CTRL F.PWR_SUP_CTRL_BUSY = true)) ∧
  (∀ (s : State) (bad : Bool) (pg : Word) (q : SupSeq) (x : SupStep), s.dev.power.seq = some q → (s.dev.supTable q.up)[q.step]? = some x →
    (q.waitPg = true → tbit pg.toNat x.supply = false → Completes (.supStepAdvance bad pg) s (fun e => e.reg R.PWR_SUP_PG = pg ∧ e.power = s.dev.power ∧
      RegsBut [R.PWR_SUP_PG] s.dev e)) ∧
    (∀ y, q.waitPg = false → q.up = true → (s.dev.supTable true)[q.step + 1]? = some y → (bad && s.dev.supPmb y.supply) = false → Completes (.supStepAdvance bad pg) s (fun e =>
      e.supOn y.supply = true ∧ e.power.seq = some { q with step := q.step + 1, enabled := q.enabled ++ [y.supply], waitPg := y.timeoutMs != 0 })) ∧
    (q.waitPg = false → q.pmbErr = none → (s.dev.supTable q.up)[q.step + 1]? = none → Completes (.supStepAdvance bad pg) s (fun e => e.power.seq = none ∧
      e.flag R.PWR_SUP_CTRL F.PWR_SUP_CTRL_BUSY = false ∧ e.getF R.PWR_SUP_CTRL F.PWR_SUP_CTRL_OUTCOME = 1 ∧ e.flag R.PWR_INT_STATUS F.PWR_INT_STATUS_SEQ_DONE = true))) ∧
  (∀ (s : State) (q : SupSeq), s.dev.power.seq = some q → q.up = true → q.waitPg = true → Completes .pgTimeout s (fun e => (∀ n ∈ q.enabled, e.supOn n = false) ∧
    e.power.seq = none ∧ e.getF R.PWR_SUP_CTRL F.PWR_SUP_CTRL_OUTCOME = 2 ∧ e.getF R.PWR_SUP_CTRL F.PWR_SUP_CTRL_STEP = q.step % 16)) ∧
  (∀ (s : State) (n : Fin 32), s.dev.supOn n = true → s.dev.power.seq = none → Completes (.supPgFall n) s (fun e => e.bitOf R.FLT_WORD_LO 2 = true ∧
    e.bitOf R.PWR_SUP_PG n = false ∧ e.bitOf R.PWR_SUP_FAULT n = true)) ∧
  (∀ (s : State) (o : Origin) (w : Word) (r : SupReading), Accepts s.dev o R.PWR_SUP_READ (setBits w F.PWR_SUP_READ_GO 1) → Completes (.pwrSupReadGo o w r) s (fun e =>
    e.reg R.PWR_SUP_VALUE = BitVec.ofNat 32 (2 ^ 16 * (r.iout % 2 ^ 16) + r.vout % 2 ^ 16) ∧ e.flag R.PWR_INT_STATUS F.PWR_INT_STATUS_READ_DONE = true ∧
    (getBits w F.PWR_SUP_READ_DRAUGHT = 0 → e.drt = s.dev.drt) ∧
    (getBits w F.PWR_SUP_READ_DRAUGHT = 1 → (s.dev.binding (getBits w F.PWR_SUP_READ_SITE)).isSome = true → ∃ x, e.drt.offers = s.dev.drt.offers ++ [x] ∧
      x.site = getBits w F.PWR_SUP_READ_SITE ∧ x.source = srcSupply))) ∧
  (∀ (s : State) (a : Nat), s.Inv → s.dev.banked = false → Completes (.pmbAlert (some a)) s (fun e => e.flag R.PWR_INT_STATUS F.PWR_INT_STATUS_ALERT = true ∧
    e.outbox = s.dev.outbox ++ [.pmbus 1 (a % 128) 0 3 0] ∧ RegsBut [R.PWR_INT_STATUS] s.dev e ∧ e = { s.dev with regs := e.regs, outbox := e.outbox })) ∧
  (∀ (s : State) (temps : List Int), s.dev.banked = false → Completes (.tempSample temps) s (fun e =>
    ((∃ i, i < 16 ∧ 1840 ≤ nth temps i 0) → e.bitOf R.FLT_WORD_LO 5 = true) ∧
    ((∃ i, i < 16 ∧ (nth temps i 0 < 0 ∨ 1680 < nth temps i 0)) → e.bitOf R.FLT_WORD_LO 6 = true ∧
      ∀ x, (s.dev.site x).st = .starting ∨ (s.dev.site x).st = .running → (e.site x).st = .stopping)))

/-! ### DRAM -/

/-- The DRAM controller: a channel takes the request that R439 puts first, the others wait; a request that completes after its deadline is counted and raises
DEADLINE, and is no error; refreshes are postponed up to the allowance and made up, the MR4 poll sets rate and allowance, retraining waits for its gap, ECC
judgements are counted and poison lines, the patrol reads line after line, parity errors and hot windows are counted. -/
def Obligations.DramController : Prop :=
  (∀ (s : State) (c : Fin 8),
    (∀ rt, s.dev.dramState c = dsActive → rt = true ∨ (s.dev.dramCh c).realTime = true → s.dev.postponed c < s.dev.allow c → Completes (.refreshDue c rt) s (fun e =>
      e.postponed c = s.dev.postponed c + 1 ∧ RegsBut [R.DMC_CH_STATUS c] s.dev e)) ∧
    (∀ rt, s.dev.dramState c = dsActive → rt = true ∨ (s.dev.dramCh c).realTime = true → s.dev.allow c ≤ s.dev.postponed c → Completes (.refreshDue c rt) s (fun e =>
      e.postponed c = 0 ∧ (e.dramCh c).rows = [] ∧
      e.getF (R.DMC_CH_REFSTAT c) F.DMC_CH_REFSTAT_MAKEUP = capAt (s.dev.getF (R.DMC_CH_REFSTAT c) F.DMC_CH_REFSTAT_MAKEUP + 1) (2 ^ F.DMC_CH_REFSTAT_MAKEUP.width - 1))) ∧
    (s.dev.dramState c = dsActive → (s.dev.dramCh c).realTime = false → Completes (.refreshDue c false) s (fun e => e.regs = s.dev.regs ∧
      e.dramCh c = { s.dev.dramCh c with rows := [] })) ∧
    (∀ rt, s.dev.dramState c = dsParked → Completes (.refreshDue c rt) s (fun e => (e.dramCh c).parkedDue = (s.dev.dramCh c).parkedDue + 1 ∧ e.regs = s.dev.regs)) ∧
    (s.Inv → (s.dev.dramCh c).realTime = true → exec (.makeupBurst c) s = .next s) ∧
    (s.dev.dramState c = dsActive → 0 < s.dev.postponed c → (s.dev.dramCh c).realTime = false → Completes (.makeupBurst c) s (fun e => e.postponed c = 0 ∧
      e.getF (R.DMC_CH_REFSTAT c) F.DMC_CH_REFSTAT_MAKEUP = capAt (s.dev.getF (R.DMC_CH_REFSTAT c) F.DMC_CH_REFSTAT_MAKEUP + 1) (2 ^ F.DMC_CH_REFSTAT_MAKEUP.width - 1) ∧
      RegsBut [R.DMC_CH_STATUS c, R.DMC_CH_REFSTAT c] s.dev e)) ∧
    (∀ mr4 twice, s.dev.dramState c = dsActive → Completes (.mr4Poll c mr4 twice false) s (fun e => e.reg (R.DMC_CH_MR4 c) = BitVec.ofNat 32 (mr4 % 256) ∧
      e.flag (R.DMC_CH_STATUS c) F.DMC_CH_STATUS_RATE_2X = twice ∧ (s.dev.flag (R.DMC_CH_STATUS c) F.DMC_CH_STATUS_RATE_2X ≠ twice →
        e.allow c = (if twice then s.dev.postponeMax / 2 else s.dev.postponeMax) ∧ e.postponed c = min (s.dev.postponed c) (e.allow c)))) ∧
    (∀ mr4 twice, s.dev.dramState c = dsActive → Completes (.mr4Poll c mr4 twice true) s (fun e => e.bitOf R.FLT_WORD_LO 8 = true)) ∧
    (∀ expired ns fails, s.dev.dramState c = dsActive → s.dev.postponed c = 0 → Completes (.retrainPause c true expired ns fails) s (fun e =>
      e.getF (R.DMC_CH_RETRAIN c) F.DMC_CH_RETRAIN_COUNT = capAt (s.dev.getF (R.DMC_CH_RETRAIN c) F.DMC_CH_RETRAIN_COUNT + 1) (2 ^ F.DMC_CH_RETRAIN_COUNT.width - 1) ∧
      e.getF (R.DMC_CH_RETRAIN c) F.DMC_CH_RETRAIN_LAST_NS = capAt ns 2000 ∧ (fails = true → e.flag R.DMC_INT_STATUS F.DMC_INT_STATUS_RETRAIN_FAIL = true))) ∧
    (∀ expired ns fails, s.dev.dramState c = dsActive → Completes (.retrainPause c false expired ns fails) s (fun e => (e.dramCh c).pauseDue = !expired ∧ e.regs = s.dev.regs)) ∧
    (∀ rings, s.dev.dramState c ≠ dsOff → Completes (.alertNParity c rings) s (fun e => e.bitOf R.FLT_WORD_LO 7 = true ∧
      (∀ n ∈ rings, n < 64 → s.dev.ringState n = rsRunning → s.dev.ringRemote n = false → e.ringState n = rsFault ∧ e.getF (R.RING_STATUS n) F.RING_STATUS_ERR = reFetchDenied)))) ∧
  (∀ (s : State) (c : Fin 8) (line a : Nat), line = (s.dev.dramCh c).scrub → a = s.dev.dramLine c line →
    (s.dev.flag R.DMC_SCRUB F.DMC_SCRUB_ENABLE = true → s.dev.dramState c = dsActive →
      Completes (.scrubRead c .uncorrectable) s (fun e => e.poisoned a 1 = true ∧ e.bitOf R.FLT_WORD_LO 7 = true ∧
        (s.dev.faultReact 7 < 2 → e.mem = memCanon s.dev.mem) ∧ e.flag (R.DMC_CH_ERR_HI (s.dev.dramOf a)) F.DMC_CH_ERR_HI_VALID = true ∧
        (e.dramCh c).scrub = (line + 1) % (s.dev.capacity / 512)) ∧
      Completes (.scrubRead c .corrected) s (fun e => e.bitOf R.FLT_WORD_LO 9 = true ∧ (e.dramCh c).scrub = (line + 1) % (s.dev.capacity / 512) ∧
        (s.dev.faultReact 9 < 2 → e.poison = s.dev.poison ∧ e.mem = memCanon s.dev.mem)) ∧
      Completes (.scrubRead c .good) s (fun e => (e.dramCh c).scrub = (line + 1) % (s.dev.capacity / 512) ∧ e.regs = s.dev.regs ∧ e.poison = s.dev.poison)) ∧
    (∀ r, s.Inv → s.dev.flag R.DMC_SCRUB F.DMC_SCRUB_ENABLE = false ∨ s.dev.dramState c ≠ dsActive → exec (.scrubRead c r) s = .next s)) ∧
  (∀ (s : State) (c : Fin 8) (arrivals : List DramReq) (now : Nat) (r : Ecc) (d : Dev), d = arrivals.foldl (fun d q => d.dramArrive q) s.dev →
    (s.dev.dramState c ≠ dsActive ∨ (d.dramCh c).reqs = [] → Completes (.dramReadComplete c arrivals now r) s (fun e => e.dram = d.dram ∧ e.regs = s.dev.regs)) ∧
    (∀ w, s.dev.dramState c = dsActive → d.dramNext c now = some w → ∀ l, l = dramEligible [] (d.dramCh c).reqs →
      (w ∈ l ∧ ∀ v ∈ l, rankLt (d.dramRank (d.dramCh c) now v) (d.dramRank (d.dramCh c) now w) = false) ∧
      Completes (.dramReadComplete c arrivals now r) s (fun e => (e.dramCh c).reqs = (d.dramCh c).reqs.erase w ∧
        (w.req.port < 37 → w.deadline < now → e.flag R.DMC_INT_STATUS F.DMC_INT_STATUS_DEADLINE = true ∧ e.getF (R.DMC_PORT_MISSED w.req.port) F.DMC_PORT_MISSED_MISSED =
          capAt (s.dev.getF (R.DMC_PORT_MISSED w.req.port) F.DMC_PORT_MISSED_MISSED + 1) (2 ^ F.DMC_PORT_MISSED_MISSED.width - 1) ∧
          (r = .good ∨ (w.req.write = true ∧ w.req.whole = true) → e = { s.dev with regs := e.regs, dram := e.dram } ∧
            RegsBut [R.DMC_PORT_MISSED w.req.port, R.DMC_INT_STATUS] s.dev e)) ∧
        (now ≤ w.deadline → r = .good ∨ (w.req.write = true ∧ w.req.whole = true) → e.regs = s.dev.regs ∧ e.poison = s.dev.poison) ∧
        (r = .uncorrectable → (w.req.write && w.req.whole) = false → e.poisoned w.req.addr 1 = true ∧ e.bitOf R.FLT_WORD_LO 7 = true)))) ∧
  (∀ (s : State) (bytes busy : List Nat) (total : Nat), total = ((List.range 8).map (fun c => nth bytes c 0)).sum → ∀ hot : Nat → Prop,
    (∀ c, hot c ↔ s.dev.getF R.DMC_HOT_CFG F.DMC_HOT_CFG_THRESH * total < 256 * nth bytes c 0 ∧ 1000 * s.dev.getF R.DMC_HOT_CFG F.DMC_HOT_CFG_WINDOW_US < 2 * nth busy c 0) →
    Completes (.hotWindowEnd bytes busy) s (fun e => (∀ c, c < 8 → hot c → e.getF (R.DMC_CH_HOT c) F.DMC_CH_HOT_WINDOWS =
        capAt (s.dev.getF (R.DMC_CH_HOT c) F.DMC_CH_HOT_WINDOWS + 1) (2 ^ F.DMC_CH_HOT_WINDOWS.width - 1)) ∧
      (∀ c, c < 8 → ¬ hot c → e.getF (R.DMC_CH_HOT c) F.DMC_CH_HOT_WINDOWS = s.dev.getF (R.DMC_CH_HOT c) F.DMC_CH_HOT_WINDOWS) ∧
      (e.dram.hotBefore = true ↔ ∃ c, c < 8 ∧ hot c)))

/-! ### Register and memory accesses -/

/-- A register write of a core: one that a rule refuses gets a bus error, sets the ACCESS fault, and is noted and counted in the violation registers, with no
effect; one to an address that names no register has none; only 32-bit accesses are taken. A write to memory that the map refuses gets the same answer, one
that it lets through stores its bytes alone. A device whose kindling has stopped answers neither (R29). -/
def Obligations.RefusedAccesses : Prop :=
  (∀ (s : State) (o : Origin) (off v k : Nat), s.dev.board.stopped = false → off < regSize → s.dev.judgeWrite o.id off (BitVec.ofNat 32 v) = some k →
    Completes (.registerWrite o (regBase + off) 4 v) s (fun e => e.bitOf R.FLT_WORD_LO 20 = true ∧ Output.busError o.id (regBase + off) ∈ e.outbox ∧
      e.getF R.AUD_VIOL_INFO F.AUD_VIOL_INFO_COUNT = capAt (s.dev.getF R.AUD_VIOL_INFO F.AUD_VIOL_INFO_COUNT + 1) 65535 ∧
      (s.dev.flag R.AUD_VIOL_INFO F.AUD_VIOL_INFO_VALID = false → e.flag R.AUD_VIOL_INFO F.AUD_VIOL_INFO_VALID = true ∧
        e.getF R.AUD_VIOL_INFO F.AUD_VIOL_INFO_KIND = k % 8 ∧ e.getF R.AUD_VIOL_INFO F.AUD_VIOL_INFO_ORIGIN = o.id ∧
        e.reg R.AUD_VIOL_ADDR_LO = BitVec.ofNat 32 (regBase + off)) ∧
      (s.dev.faultReact 20 < 2 → k ≠ vkValue → e.mem = memCanon s.dev.mem ∧ e.seq = s.dev.seq ∧
        RegsBut [R.AUD_VIOL_INFO, R.AUD_VIOL_ADDR_LO, R.AUD_VIOL_ADDR_HI, R.FLT_WORD_LO, R.FLT_FIRST] s.dev e))) ∧
  (∀ (s : State) (o : Origin) (off v : Nat), s.Inv → off < regSize → s.dev.judgeWrite o.id off (BitVec.ofNat 32 v) = none → regRow (regCanon off) = none →
    exec (.registerWrite o (regBase + off) 4 v) s = .next s) ∧
  (∀ (s : State) (o : Origin) (a size v : Nat), s.dev.board.stopped = false → regBase ≤ a → a < regBase + regSize → size ≠ 4 →
    Completes (.registerWrite o a size v) s (fun e => e.bitOf R.FLT_WORD_LO 20 = true ∧ Output.busError o.id a ∈ e.outbox)) ∧
  (∀ (s : State) (o : Origin) (a size v k : Nat), s.dev.board.stopped = false → ¬(regBase ≤ a ∧ a < regBase + regSize) → s.dev.memRefusal o.id a size true = some k →
    Completes (.registerWrite o a size v) s (fun e => e.bitOf R.FLT_WORD_LO 20 = true ∧ Output.busError o.id a ∈ e.outbox)) ∧
  (∀ (s : State) (o : Origin) (a size v : Nat), s.Inv → s.dev.board.stopped = false → Unwatched s.dev a size → ¬(regBase ≤ a ∧ a < regBase + regSize) →
    s.dev.memRefusal o.id a size true = none →
    Completes (.registerWrite o a size v) s (fun e => e.read a size = bytesOf size v ∧ e.regs = s.dev.regs ∧
      ∀ b, b < a ∨ a + size ≤ b → memByte e.mem b = memByte s.dev.mem b)) ∧
  (∀ (s : State) (o : Origin) (a size v : Nat), s.Inv → s.dev.board.stopped = true → exec (.registerWrite o a size v) s = .next s)

/-- What a write stores, field by field: RW sets the value, a 1 clears a bit of W1C and sets a bit of W1S, the other types keep theirs; and the fields of
WO read 0. -/
def Obligations.FieldTypes : Prop :=
  ∀ r ∈ regTable, ∀ f ∈ r.fields, ∀ old w : Word,
    getBits (r.store old w) ⟨f.lsb, f.width⟩ = (match f.ty with
      | .rw => getBits w ⟨f.lsb, f.width⟩
      | .w1c => getBits old ⟨f.lsb, f.width⟩ &&& ((2 ^ f.width - 1) ^^^ getBits w ⟨f.lsb, f.width⟩)
      | .w1s => getBits old ⟨f.lsb, f.width⟩ ||| getBits w ⟨f.lsb, f.width⟩
      | .ro | .wo | .rl => getBits old ⟨f.lsb, f.width⟩) ∧
    (f.ty = .wo → getBits (old &&& BitVec.ofNat 32 r.readMask) ⟨f.lsb, f.width⟩ = 0)

/-! ### Calibration procedures -/

/-- GO of LINEARITY, LEVELS and DESKEW: a named hearth with a grate under policy OFF ends it at once with POLICY_OFF for the lowest; with nothing in the way
the named hearths wait for their boundaries or run, BUSY is set and no table is touched. The end of a hearth's procedure writes the fields of
its procedure into the shadow table of the hearth, or reports the failure; without REFCLK LINEARITY and DESKEW end with NO_REF when their end is judged (the
model's choice, log entry 134). The live tables stay. -/
def Obligations.CalibrationProcedures : Prop :=
  (∀ (s : State) (o : Origin) (hearths p : Nat) (c : Instr), (c, p) ∈ [(Instr.linearity o hearths, 1), (.levels o hearths, 2), (.deskew o hearths, 3)] →
    Accepts s.dev o R.CAL_PROC (setBits (setBits (setBits 0#32 F.CAL_PROC_PROC p) F.CAL_PROC_HEARTHS hearths) F.CAL_PROC_GO 1) → hearths % 2 ^ 16 ≠ 0 →
    (∀ h, (bitList hearths 16).find? (fun h => (List.range 8).any (fun k => s.dev.policy (8 * h + k) == polOff)) = some h →
      Completes c s (fun e => e.getF R.CAL_PROC_STATUS F.CAL_PROC_STATUS_OUTCOME = 2 ∧ e.getF R.CAL_PROC_STATUS F.CAL_PROC_STATUS_HEARTH = h ∧
        e.flag R.CAL_INT_STATUS F.CAL_INT_STATUS_PROC_DONE = true ∧ e.cal = s.dev.cal)) ∧
    ((bitList hearths 16).any (fun h => (List.range 8).any (fun k => s.dev.policy (8 * h + k) == polOff)) = false →
      (∀ h ∈ bitList hearths 16, s.dev.procBar p h = none) →
      Completes c s (fun e => e.flag R.CAL_PROC_STATUS F.CAL_PROC_STATUS_BUSY = true ∧ e.cal.live = s.dev.cal.live ∧ e.cal.shadow = s.dev.cal.shadow ∧
        ∃ q, e.cal.proc = some q ∧ q.proc = p ∧ ∀ h, h ∈ bitList hearths 16 ↔ (h ∈ q.waiting ∨ ∃ x ∈ q.running, x.1 = h)))) ∧
  (∀ (s : State) (h : Fin 16) (measured : List Byte) (p : CalProc) (x : Nat × Nat), s.dev.cal.proc = some p → p.running.find? (fun y => y.1 == h.val) = some x →
    (p.proc = 2 ∨ s.dev.board.refPresent = true → Completes (.calProcDone h none measured) s (fun e => e.cal.live = s.dev.cal.live ∧ e.bitOf R.CAL_PROC_STATUS h = true ∧
      (e.calShadow h).body = calCopy measured (s.dev.calShadow h).body (procPlaces p.proc) ∧ (e.calShadow h).temp = x.2 ∧ (e.calShadow h).secs = s.dev.time.secs ∧
      (∀ k, k ≠ h.val → e.calShadow k = s.dev.calShadow k) ∧ e.flag (R.CAL_TAB_STATUS h) F.CAL_TAB_STATUS_SHADOW_DIRTY = true ∧
      (p.running.all (fun y => y.1 == h.val) = true → p.waiting = [] → e.cal.proc = none ∧ e.flag R.CAL_PROC_STATUS F.CAL_PROC_STATUS_BUSY = false))) ∧
    (p.proc ≠ 2 → s.dev.board.refPresent = false → s.dev.getF R.CAL_PROC_STATUS F.CAL_PROC_STATUS_OUTCOME = 0 → Completes (.calProcDone h none measured) s (fun e =>
      e.cal.live = s.dev.cal.live ∧ e.cal.shadow = s.dev.cal.shadow ∧ e.getF R.CAL_PROC_STATUS F.CAL_PROC_STATUS_OUTCOME = 4 ∧
      e.getF R.CAL_PROC_STATUS F.CAL_PROC_STATUS_HEARTH = h.val)) ∧
    (∀ code pin, s.dev.getF R.CAL_PROC_STATUS F.CAL_PROC_STATUS_OUTCOME = 0 → Completes (.calProcDone h (some (code, pin)) measured) s (fun e =>
      e.cal.live = s.dev.cal.live ∧ e.cal.shadow = s.dev.cal.shadow ∧ e.getF R.CAL_PROC_STATUS F.CAL_PROC_STATUS_OUTCOME = (if code = 4 then 4 else 3) ∧
      e.getF R.CAL_PROC_STATUS F.CAL_PROC_STATUS_HEARTH = h.val ∧ e.getF R.CAL_PROC_STATUS F.CAL_PROC_STATUS_PIN = pin % 64)))

/-! ### Device time -/

/-- Device time: a tick loads a new INC, advances by INC as its clock scales it, loads SECONDS and adds the adjustments; the writes that correct it wait for
that tick; the master's identity, the RTC's second. HOLDOVER ends at an INC write once a Sync of the master that is named then has come (the model's reading,
log entry 133). -/
def Obligations.DeviceTimeRuns : Prop :=
  (∀ (s : State) (v q : Nat) (a : Int), s.dev.banked = false → v = s.dev.time.incPend.getD s.dev.time.inc → a = s.dev.time.adjPend.foldl (· + ·) 0 →
    (s.dev.bypassSrc pllFabric = 0 ∧ q = v) ∨ (s.dev.bypassSrc pllFabric = 1 ∧ 2 * q = 5 * v) ∨ (s.dev.bypassSrc pllFabric = 2 ∧ q = 5 * v) →
    s.dev.time.setPend = none → s.dev.time.ns < 10 ^ 9 → s.dev.time.frac < 2 ^ 32 → s.dev.time.units + q < 2 ^ 48 * secUnits →
    0 ≤ (s.dev.time.units : Int) + q + a * 2 ^ 32 → (s.dev.time.units : Int) + q + a * 2 ^ 32 < 2 ^ 48 * secUnits →
    Completes .deviceTimeTick s (fun e => e.time.inc = v ∧ e.time.incPend = none ∧ e.time.adjPend = [] ∧ e.time.ns < 10 ^ 9 ∧ e.time.frac < 2 ^ 32 ∧
      (e.time.units : Int) = s.dev.time.units + q + a * 2 ^ 32 ∧ (s.dev.bypassSrc pllFabric = 2 → e.flag R.MGT_TIME_STATUS F.MGT_TIME_STATUS_HOLDOVER = true))) ∧
  (∀ (s : State) (v : Nat), s.dev.banked = false → s.dev.time.setPend = some v → s.dev.time.adjPend = [] → v < 2 ^ 48 →
    Completes .deviceTimeTick s (fun e => e.time.secs = v ∧ e.time.setPend = none)) ∧
  (∀ (s : State) (o : Origin) (w : Word),
    (Accepts s.dev o R.MGT_TIME_INC_HI w → Completes (.mgtTimeIncWrite o w) s (fun e => e.time.incPend = some (s.dev.incOf w) ∧ e.time.inc = s.dev.time.inc ∧
      e.flag R.MGT_TIME_STATUS F.MGT_TIME_STATUS_FROM_RTC = false ∧ (s.dev.time.master ∈ s.dev.time.syncs → s.dev.onOsc = false →
        e.flag R.MGT_TIME_STATUS F.MGT_TIME_STATUS_HOLDOVER = false) ∧ RegsBut [R.MGT_TIME_INC_HI, R.MGT_TIME_STATUS] s.dev e)) ∧
    (Accepts s.dev o R.MGT_TIME_ADJ w → Completes (.mgtTimeAdjWrite o w) s (fun e => e.time = { s.dev.time with adjPend := s.dev.time.adjPend ++ [sgn w.toNat 32] } ∧
      RegsBut [] s.dev e)) ∧
    (Accepts s.dev o R.MGT_TIME_SET_SEC_HI w → Completes (.mgtTimeSetSecWrite o w) s (fun e =>
      e.time = { s.dev.time with setPend := some ((s.dev.reg R.MGT_TIME_SET_SEC_LO).toNat + 2 ^ 32 * (w.toNat % 65536)) } ∧
      e.flag R.MGT_TIME_STATUS F.MGT_TIME_STATUS_UNSET = false ∧ RegsBut [R.MGT_TIME_SET_SEC_HI, R.MGT_TIME_STATUS] s.dev e)) ∧
    (∀ m, Accepts s.dev o (R.MGT_PTP_MASTER 2) w → m = [(s.dev.reg (R.MGT_PTP_MASTER 0)).toNat, (s.dev.reg (R.MGT_PTP_MASTER 1)).toNat, w.toNat % 65536] →
      Completes (.mgtPtpMasterWrite o w) s (fun e => e.time.master = m ∧ (m ≠ s.dev.time.master → e.time.syncs = s.dev.time.syncs ∧
        e.flag R.MGT_TIME_STATUS F.MGT_TIME_STATUS_MASTER_CHANGE = true ∧ e.flag R.MGT_TIME_STATUS F.MGT_TIME_STATUS_HOLDOVER = true) ∧
        (m = s.dev.time.master → e.time = s.dev.time ∧ RegsBut [R.MGT_PTP_MASTER 2] s.dev e)))) ∧
  (∀ s : State, Completes .syncTimeout s (fun e => e.time = { s.dev.time with syncs := [] } ∧ e.flag R.MGT_TIME_STATUS F.MGT_TIME_STATUS_HOLDOVER = true ∧
    RegsBut [R.MGT_TIME_STATUS, R.MGT_INT_STATUS] s.dev e)) ∧
  (∀ s : State, Completes .rtcSecond s (fun e => e.time.rtcSecs = (s.dev.time.rtcSecs + 1) % 2 ^ 48 ∧ e.time.rtcSub = 0 ∧ e.regs = s.dev.regs ∧
    e.time.secs = s.dev.time.secs ∧
    (if s.dev.banked = true then e.ledger liBanked = capAt (s.dev.ledger liBanked + 1) (2 ^ 64 - 1) ∧ e.ledger liPowerOn = s.dev.ledger liPowerOn
      else e.ledger liPowerOn = capAt (s.dev.ledger liPowerOn + 1) (2 ^ 64 - 1) ∧ e.ledger liBanked = s.dev.ledger liBanked)))

/-- The management ports: messages of the PTP domain are stamped in order and read oldest first, frames go to their own address, to groups and on to the other
port, the link state is reported. A frame of Leloisk's Ethertype is told to no agent. -/
def Obligations.ManagementPorts : Prop :=
  (∀ (s : State) (p : Fin 2) (tx : Bool) (m : PtpMsg) (delta now : Int) (f : List PtpStamp), f = mapGet s.dev.time.tsFifo p [] →
    now = ((s.dev.time.secs * 10 ^ 9 + s.dev.time.ns) * 65536 + s.dev.time.frac / 65536 : Nat) + max (-262144) (min 262144 delta) → 0 ≤ now → now < 2 ^ 48 * 10 ^ 9 * 65536 →
    ∀ seen, seen = (if tx = false ∧ m.type = 0 ∧ m.source ∉ s.dev.time.syncs then s.dev.time.syncs ++ [m.source] else s.dev.time.syncs) →
    (m.domain = s.dev.getF R.MGT_PTP_CFG F.MGT_PTP_CFG_DOMAIN → m.type ≤ 1 → f.length < 16 → Completes (.ptpTimestamp p tx m.type m.seqId ⟨m.domain, m.source⟩ delta) s (fun e =>
      (∃ x : PtpStamp, mapGet e.time.tsFifo p [] = f ++ [x] ∧ x.tx = tx ∧ x.type = m.type ∧ x.seqId = m.seqId ∧ x.ns < 10 ^ 9 ∧ x.frac < 65536 ∧
        (((x.secs * 10 ^ 9 + x.ns) * 65536 + x.frac : Nat) : Int) = now) ∧ e.time.syncs = seen ∧
      (∀ q : Fin 2, q ≠ p → mapGet e.time.tsFifo q [] = mapGet s.dev.time.tsFifo q []) ∧
      e.flag R.MGT_INT_STATUS F.MGT_INT_STATUS_TS = true ∧ RegsBut [R.MGT_INT_STATUS] s.dev e)) ∧
    (m.domain = s.dev.getF R.MGT_PTP_CFG F.MGT_PTP_CFG_DOMAIN → m.type ≤ 1 → 16 ≤ f.length → Completes (.ptpTimestamp p tx m.type m.seqId ⟨m.domain, m.source⟩ delta) s (fun e =>
      e.time = { s.dev.time with syncs := seen } ∧ e.flag (R.MGT_TS_INFO p) F.MGT_TS_INFO_OVERFLOW = true ∧ RegsBut [R.MGT_TS_INFO p] s.dev e)) ∧
    (s.Inv → m.domain ≠ s.dev.getF R.MGT_PTP_CFG F.MGT_PTP_CFG_DOMAIN ∨ 1 < m.type → exec (.ptpTimestamp p tx m.type m.seqId ⟨m.domain, m.source⟩ delta) s = .next s)) ∧
  (∀ (s : State) (o : Origin) (p : Fin 2), Grants s.dev o (R.MGT_TS_INFO p) →
    (∀ x t, mapGet s.dev.time.tsFifo p [] = x :: t → Completes (.mgtTspInfoRead o p) s (fun e => mapGet e.time.tsFifo p [] = t ∧
      e.outbox = s.dev.outbox ++ [.readData o.id (regBase + R.MGT_TS_INFO p) (e.reg (R.MGT_TS_INFO p))] ∧ e.getF (R.MGT_TS_INFO p) F.MGT_TS_INFO_VALID = 1 ∧
      e.getF (R.MGT_TS_INFO p) F.MGT_TS_INFO_TX = bit x.tx ∧ e.getF (R.MGT_TS_INFO p) F.MGT_TS_INFO_SEQ_ID = x.seqId % 65536 ∧
      e.getF (R.MGT_TS_INFO p) F.MGT_TS_INFO_TYPE = x.type % 16 ∧ e.getF (R.MGT_TS_INFO p) F.MGT_TS_INFO_OVERFLOW = s.dev.getF (R.MGT_TS_INFO p) F.MGT_TS_INFO_OVERFLOW ∧
      e.reg (R.MGT_TS_NS p) = BitVec.ofNat 32 x.ns ∧ e.reg (R.MGT_TS_SEC_LO p) = BitVec.ofNat 32 x.secs ∧
      e.reg (R.MGT_TS_SEC_HI p) = BitVec.ofNat 32 (x.secs / 2 ^ 32 % 65536 + 65536 * (x.frac % 65536)) ∧
      RegsBut [R.MGT_TS_INFO p, R.MGT_TS_NS p, R.MGT_TS_SEC_LO p, R.MGT_TS_SEC_HI p] s.dev e)) ∧
    (mapGet s.dev.time.tsFifo p [] = [] → Completes (.mgtTspInfoRead o p) s (fun e => e.time = s.dev.time ∧
      e.getF (R.MGT_TS_INFO p) F.MGT_TS_INFO_VALID = 0 ∧ RegsBut [R.MGT_TS_INFO p] s.dev e))) ∧
  (∀ (s : State) (p : Fin 2) (bytes : List Byte) (ok : Bool) (residence : Int), s.Inv →
    ∀ dest, dest = natBE (slice bytes 0 6) → ∀ group : Bool, group = (fieldAt bytes 0 1 % 2 == 1) → ∀ told, told = (if isLeloisk bytes = true then [] else [.agentFrame p bytes]) →
    (ok = false ∨ 1518 < bytes.length ∨ s.dev.banked = true ∨ s.dev.mgtUp p = false → exec (.mgtFrameReceive p bytes ok residence) s = .next s) ∧
    (ok = true → bytes.length ≤ 1518 → s.dev.banked = false → s.dev.mgtUp p = true →
      (dest = s.dev.portMac p → Completes (.mgtFrameReceive p bytes ok residence) s (fun e => e.outbox = s.dev.outbox ++ told ∧ OnlyOut s.dev e)) ∧
      (dest ≠ s.dev.portMac p → s.dev.mgtForwards p = false → Completes (.mgtFrameReceive p bytes ok residence) s (fun e =>
        e.outbox = s.dev.outbox ++ (if group = true then told else []) ∧ OnlyOut s.dev e)) ∧
      (dest ≠ s.dev.portMac p → s.dev.mgtForwards p = true →
        Completes (.mgtFrameReceive p bytes ok residence) s (fun e =>
          e.outbox = s.dev.outbox ++ (if group = true then told else []) ++
            [.frame (1 - p.val) (if s.dev.flag R.MGT_PTP_CFG F.MGT_PTP_CFG_TC_EN = true then tcCorrect bytes residence else bytes)] ∧ OnlyOut s.dev e)))) ∧
  (∀ (s : State) (p : Fin 2) (up an bad : Bool), Completes (.mgtLinkChange p up an bad) s (fun e => e.getF (R.MGT_PORT_STATUS p) F.MGT_PORT_STATUS_LINK = bit (up && !bad) ∧
    e.reg (R.MGT_PORT_STATUS p) = BitVec.ofNat 32 (bit (up && !bad) + 2 * bit an + 4 * bit bad) ∧ RegsBut [R.MGT_PORT_STATUS p, R.MGT_INT_STATUS] s.dev e ∧
    ((up && !bad) ≠ s.dev.flag (R.MGT_PORT_STATUS p) F.MGT_PORT_STATUS_LINK → e.flag R.MGT_INT_STATUS F.MGT_INT_STATUS_LINK = true) ∧
    ((up && !bad) = s.dev.flag (R.MGT_PORT_STATUS p) F.MGT_PORT_STATUS_LINK → RegsBut [R.MGT_PORT_STATUS p] s.dev e)))

/-! ### Ledger and audit log -/

/-- The ledger's service and checkpoints: a service resets one drive's count, a checkpoint that is due writes the slot that is written next, or fails and is
tried again after an hour. -/
def Obligations.LedgerIsKept : Prop :=
  (∀ (s : State) (o : Origin) (w : Word) (k : Nat), Accepts s.dev o R.LDG_SERVICE (setBits w F.LDG_SERVICE_GO 1) → k = getBits w F.LDG_SERVICE_INDEX →
    (k < 144 → Completes (.ldgService o w) s (fun e => e.ledger (liRelaySince k) = 0 ∧ (∀ i, i ≠ liRelaySince k → e.ledger i = s.dev.ledger i) ∧ RegsBut [] s.dev e)) ∧
    (144 ≤ k → Completes (.ldgService o w) s (fun e => e.time = s.dev.time ∧ RegsBut [] s.dev e))) ∧
  (∀ (s : State) (fails : Bool), s.dev.banked = false →
    (s.dev.time.ckptIn = 0 → Completes (.ledgerCheckpoint false) s (fun e => e.time.ckptIn = 86400 ∧ e.time.ckptSecs = s.dev.time.rtcSecs ∧
      e.ledger liCheckpoints = capAt (s.dev.ledger liCheckpoints + 1) (2 ^ 64 - 1) ∧ e.regs = s.dev.regs ∧
      ∃ x, e.time.slots.getLast? = some x ∧ x.good = true ∧ x.items = s.dev.time.ledger ∧ x.rtc = s.dev.time.rtcSecs ∧ x.epoch = s.dev.devEpoch ∧
        x.count = s.dev.audit.count ∧ x.chain = s.dev.audit.chain)) ∧
    (s.dev.time.ckptIn = 0 → Completes (.ledgerCheckpoint true) s (fun e => e.time.ckptIn = 3600 ∧ e.flag R.LDG_STATUS F.LDG_STATUS_CKPT_ERR = true ∧
      e.bitOf R.FLT_WORD_LO 18 = true ∧ ∀ x ∈ s.dev.time.slots.drop (s.dev.time.slots.length - 1), x ∈ e.time.slots)) ∧
    (s.Inv → s.dev.time.ckptIn ≠ 0 → exec (.ledgerCheckpoint fails) s = .next s))

/-- The audit log: entries reach flash oldest first, a checkpoint covers the entries before it and is signed, an entry is read from flash or buffer, one that is
gone reads zero. -/
def Obligations.AuditLogIsKept : Prop :=
  (∀ (s : State) (n : Nat), Completes (.auditFlush n) s (fun e => e.audit.buffer = s.dev.audit.buffer.drop n ∧ e.regs = s.dev.regs ∧
    e.audit.chain = s.dev.audit.chain ∧ e.audit.count = s.dev.audit.count ∧
    e.audit.flashChain = (s.dev.audit.buffer.take n).foldl (fun c x => shake256 32 (c ++ x.2)) s.dev.audit.flashChain ∧
    (s.dev.audit.flash.length + n ≤ 2048 * s.dev.board.profile.auditEntries → e.audit.flash = s.dev.audit.flash ++ s.dev.audit.buffer.take n))) ∧
  (∀ (s : State) (n : Nat) (h : List Byte) (t : List (Nat × List Byte)), s.Inv → s.dev.audit.heads = (n, h) :: t → Completes .auditCheckpoint s (fun e =>
    e.audit.heads = t ∧ e = { s.dev with audit := e.audit } ∧ ∃ x, e.audit.ckpts = s.dev.audit.ckpts ++ [(n / 4096 - 1, x)] ∧
      slice x 0 4 = [0x41, 0x55, 0x44, 0x1A] ∧ fieldAt x 16 8 = n % 2 ^ 64 ∧ slice x 40 32 = slice h 0 32 ∧
      slice x 128 114 = edSign s.dev.idSeed auditContext (slice x 0 128))) ∧
  (∀ (s : State) (o : Origin) (w : Word) (i : Nat), Accepts s.dev o R.AUD_RD_CTRL (setBits w F.AUD_RD_CTRL_GO 1) →
    i = (s.dev.reg R.AUD_RD_INDEX_LO).toNat + 2 ^ 32 * (s.dev.reg R.AUD_RD_INDEX_HI).toNat →
    (∀ bs, getBits w F.AUD_RD_CTRL_CHECKPOINT = 0 → mapFind s.dev.audit.flash i = some bs → Completes (.audRdGo o w) s (fun e =>
      e.getF R.AUD_RD_CTRL F.AUD_RD_CTRL_GONE = 0 ∧ ∀ k, k < bs.length / 4 → e.reg (R.AUD_RD_DATA k) = BitVec.ofNat 32 (fieldAt bs (4 * k) 4))) ∧
    (∀ bs, getBits w F.AUD_RD_CTRL_CHECKPOINT = 0 → mapFind s.dev.audit.flash i = none → mapFind s.dev.audit.buffer i = some bs → Completes (.audRdGo o w) s (fun e =>
      e.getF R.AUD_RD_CTRL F.AUD_RD_CTRL_GONE = 0 ∧ ∀ k, k < bs.length / 4 → e.reg (R.AUD_RD_DATA k) = BitVec.ofNat 32 (fieldAt bs (4 * k) 4))) ∧
    (getBits w F.AUD_RD_CTRL_CHECKPOINT = 0 → mapFind s.dev.audit.flash i = none → mapFind s.dev.audit.buffer i = none →
      i < s.dev.audit.count ∨ s.dev.audit.count + 2 * s.dev.audit.folding.length + 2 ≤ i → Completes (.audRdGo o w) s (fun e =>
      e.getF R.AUD_RD_CTRL F.AUD_RD_CTRL_GONE = 1 ∧ ∀ k, k < 8 → e.reg (R.AUD_RD_DATA k) = 0)) ∧
    (∀ bs, getBits w F.AUD_RD_CTRL_CHECKPOINT = 1 → mapFind s.dev.audit.ckpts i = some bs → Completes (.audRdGo o w) s (fun e =>
      e.getF R.AUD_RD_CTRL F.AUD_RD_CTRL_GONE = 0 ∧ ∀ k, k < bs.length / 4 → e.reg (R.AUD_RD_DATA k) = BitVec.ofNat 32 (fieldAt bs (4 * k) 4))) ∧
    (getBits w F.AUD_RD_CTRL_CHECKPOINT = 1 → mapFind s.dev.audit.ckpts i = none → Completes (.audRdGo o w) s (fun e =>
      e.getF R.AUD_RD_CTRL F.AUD_RD_CTRL_GONE = 1 ∧ ∀ k, k < 64 → e.reg (R.AUD_RD_DATA k) = 0))) ∧
  (∀ (s : State) (o : Origin) (b : Option (Fin 32)) (w : Word) (off : Nat), off = (match b with | some i => R.AUD_PERM_REG i | none => R.AUD_PERM_DESC) →
    (s.Inv → Accepts s.dev o off w → Completes (.audPermWrite o b w) s (fun e => RegsBut [off] s.dev e ∧ OnlyRegsAudit s.dev e ∧
      (b.isSome = true → e.reg off = BitVec.ofNat 32 ((s.dev.reg off).toNat / 4096 * 4096 + w.toNat % 4096)) ∧
      (b = none → e.getF off F.AUD_PERM_DESC_MASK = getBits w F.AUD_PERM_DESC_MASK ∧
        e.getF off F.AUD_PERM_DESC_LOCK = s.dev.getF off F.AUD_PERM_DESC_LOCK ||| getBits w F.AUD_PERM_DESC_LOCK))) ∧
    ((o ≠ .supervisor ∧ o ≠ .factory) ∨ s.dev.flag R.AUD_PERM_DESC F.AUD_PERM_DESC_LOCK = true → Completes (.audPermWrite o b w) s (fun e =>
      e.bitOf R.FLT_WORD_LO 20 = true ∧ Output.busError o.id (regBase + off) ∈ e.outbox ∧ e.reg off = s.dev.reg off)))

/-! ### Security operations -/

/-- Attestation, confirmation of slots, rollback counters, keys, device reset: each operation that its conditions allow has its effect and ends OK, else REFUSED
without any. A device reset starts a douse of every channel that it follows, or joins the one that runs (log entry 70); in BANKED it falls due at once. -/
def Obligations.SecurityOperations : Prop :=
  ∀ (s : State) (o : Origin) (arg : Nat),
    (Accepts s.dev o R.SEC_CTRL (secWord 1 arg) →
      (s.Inv → s.dev.inHost s.dev.secAddr 544 = true → Completes (.attest o arg) s (fun e => EndsOp 1 srOk e ∧
        (∃ x, x.length = 544 ∧ e.read s.dev.secAddr 544 = x ∧ slice x 0 5 = [0x41, 0x54, 0x54, 0x1A, 1] ∧ slice x 8 8 = bytesOf 8 s.dev.serial ∧
          slice x 40 32 = s.dev.secData ∧ slice x 416 114 = edSign s.dev.idSeed attestContext (slice x 0 416)) ∧
        (∀ a, a < s.dev.secAddr ∨ s.dev.secAddr + 544 ≤ a → memByte e.mem a = memByte s.dev.mem a) ∧ RegsBut [R.SEC_STATUS] s.dev e)) ∧
      (s.dev.inHost s.dev.secAddr 544 = false → Completes (.attest o arg) s (fun e => EndsOp 1 srRefused e ∧ e.mem = memCanon s.dev.mem ∧ RegsBut [R.SEC_STATUS] s.dev e))) ∧
    (Accepts s.dev o R.SEC_CTRL (secWord 2 arg) → Completes (.confirm o arg) s (fun e => EndsOp 2 srOk e ∧ e.board.otp = s.dev.board.otp ∧
      e.board.running = s.dev.board.running ∧ (∀ a, a < 0x20000 ∨ 0x40000 ≤ a → flashByteOf e.board.flash a = flashByteOf s.dev.board.flash a) ∧
      (s.dev.bootRecord.seq + 5 < 2 ^ 32 → e.bootRecord.prefer = s.dev.bootRecord.prefer ∧ ∀ st, st < 5 →
        (∀ r, tbit arg st = true → s.dev.runOf st = some r → nth s.dev.bootRecord.prefer st 0 = r.slot → nth e.bootRecord.tries st 0 = 0xFF) ∧
        (tbit arg st = false → nth e.bootRecord.tries st 0 = nth s.dev.bootRecord.tries st 0)) ∧
      (bitList arg 5 = [] → e.board.flash = s.dev.board.flash) ∧ RegsBut (R.SEC_STATUS :: (List.range 5).map R.SEC_BOOT) s.dev e)) ∧
    (Accepts s.dev o R.SEC_CTRL (secWord 3 arg) → Completes (.raise o arg) s (fun e => EndsOp 3 srOk e ∧
      (∀ st r, st < 5 → tbit arg st = true → s.dev.runOf st = some r → e.board.otp.counter st = max (s.dev.board.otp.counter st) (capAt r.version 128)) ∧
      (∀ st, tbit arg st = false ∨ s.dev.runOf st = none → e.board.otp.counter st = s.dev.board.otp.counter st) ∧
      e.board.otp = { s.dev.board.otp with counters := e.board.otp.counters } ∧ e.board.flash = s.dev.board.flash ∧
      RegsBut (R.SEC_STATUS :: (List.range 5).map R.SEC_BOOT) s.dev e)) ∧
    (Accepts s.dev o R.SEC_CTRL (secWord 4 arg) →
      (s.dev.board.otp.customerKey (arg % 4) = none → Completes (.keyProgram o arg) s (fun e => EndsOp 4 srOk e ∧
        e.board.otp.customerKey (arg % 4) = some s.dev.secData ∧ (∀ i, i ≠ arg % 4 → e.board.otp.customerKey i = s.dev.board.otp.customerKey i) ∧
        e.board = { s.dev.board with otp := { s.dev.board.otp with customer := e.board.otp.customer } } ∧
        RegsBut (R.SEC_STATUS :: (List.range 5).map R.SEC_BOOT) s.dev e)) ∧
      (s.dev.board.otp.customerKey (arg % 4) ≠ none → Completes (.keyProgram o arg) s (fun e => EndsOp 4 srRefused e ∧ e.board = s.dev.board ∧
        RegsBut [R.SEC_STATUS] s.dev e))) ∧
    (Accepts s.dev o R.SEC_CTRL (secWord 5 arg) →
      (s.dev.board.running.any (fun r => 4 * r.signer + r.key == arg % 8) = true → Completes (.keyRevoke o arg) s (fun e => EndsOp 5 srRefused e ∧ e.board = s.dev.board ∧
        RegsBut [R.SEC_STATUS] s.dev e)) ∧
      (s.dev.board.running.any (fun r => 4 * r.signer + r.key == arg % 8) = false → Completes (.keyRevoke o arg) s (fun e => EndsOp 5 srOk e ∧
        tbit e.board.otp.revoked (arg % 8) = true ∧ (∀ i, i ≠ arg % 8 → tbit e.board.otp.revoked i = tbit s.dev.board.otp.revoked i) ∧
        e.board = { s.dev.board with otp := { s.dev.board.otp with revoked := e.board.otp.revoked } } ∧
        RegsBut (R.SEC_STATUS :: (List.range 5).map R.SEC_BOOT) s.dev e))) ∧
    (Accepts s.dev o R.SEC_CTRL (secWord 6 arg) →
      (s.dev.banked = false → s.dev.faults.douses.any (fun x => x.scope == allChannels) = false → Completes (.deviceReset o arg) s (fun e => EndsOp 6 srOk e ∧
        Doused dcReset allChannels e ∧ e.faults.douses.length = s.dev.faults.douses.length + 1 ∧ ∀ x ∈ e.faults.douses, x.resetAfter = true)) ∧
      (s.dev.banked = false → s.dev.faults.douses.any (fun x => x.scope == allChannels) = true → Completes (.deviceReset o arg) s (fun e => EndsOp 6 srOk e ∧
        e.faults.douses = s.dev.faults.douses.map (fun x => { x with resetAfter := true }) ∧ RegsBut [R.SEC_STATUS, R.FLT_DOUSE_STATUS] s.dev e ∧
        e.getF R.FLT_DOUSE_STATUS F.FLT_DOUSE_STATUS_CAUSE = s.dev.getF R.FLT_DOUSE_STATUS F.FLT_DOUSE_STATUS_CAUSE ||| dcReset)) ∧
      (s.dev.banked = true → Completes (.deviceReset o arg) s (fun e => EndsOp 6 srOk e ∧ e.board.resetDue = true ∧ e.faults = s.dev.faults ∧
        RegsBut [R.SEC_STATUS] s.dev e)))

/-- Flash operations and the supervisor's watchdog: erasing sets a sector's bytes, programming clears bits, both only outside the running slots; a read brings the
flash's bytes to memory; an expired watchdog raises WATCHDOG and resets the supervisor's mailbox endpoint. -/
def Obligations.FlashAndWatchdog : Prop :=
  (∀ (s : State) (o : Origin) (arg off n : Nat), off = s.dev.secOff → n = arg % 8192 →
    (Accepts s.dev o R.SEC_CTRL (secWord 7 arg) →
      (∀ r, off % sectorBytes = 0 → s.dev.flashFree off sectorBytes = some r → Completes (.flashErase o arg) s (fun e => EndsOp 7 srOk e ∧
        (∀ a, off ≤ a → a < off + sectorBytes → flashByteOf e.board.flash a = flashErased) ∧
        (∀ a, a < off ∨ off + sectorBytes ≤ a → flashByteOf e.board.flash a = flashByteOf s.dev.board.flash a) ∧
        e.ledger (liFlashErase r) = capAt (s.dev.ledger (liFlashErase r) + 1) (2 ^ 64 - 1))) ∧
      (off % sectorBytes ≠ 0 ∨ s.dev.flashFree off sectorBytes = none → Completes (.flashErase o arg) s (fun e => EndsOp 7 srRefused e ∧ e.board = s.dev.board))) ∧
    (Accepts s.dev o R.SEC_CTRL (secWord 8 arg) →
      (∀ r, off % 256 = 0 → n ≠ 0 → n ≤ 4096 → s.dev.inHost s.dev.secAddr n = true → s.dev.flashFree off n = some r → Completes (.flashProgram o arg) s (fun e => EndsOp 8 srOk e ∧
        (∀ i, i < n → flashByteOf e.board.flash (off + i) = flashByteOf s.dev.board.flash (off + i) &&& memByte s.dev.mem (s.dev.secAddr + i)) ∧
        (∀ a, a < off ∨ off + n ≤ a → flashByteOf e.board.flash a = flashByteOf s.dev.board.flash a) ∧ e.mem = memCanon s.dev.mem)) ∧
      (off % 256 ≠ 0 ∨ n = 0 ∨ 4096 < n ∨ s.dev.inHost s.dev.secAddr n = false ∨ s.dev.flashFree off n = none →
        Completes (.flashProgram o arg) s (fun e => EndsOp 8 srRefused e ∧ e.board = s.dev.board))) ∧
    (Accepts s.dev o R.SEC_CTRL (secWord 9 arg) →
      (∀ r, s.Inv → n ≠ 0 → n ≤ 4096 → s.dev.inHost s.dev.secAddr n = true → s.dev.regionOf off n = some r → r < 11 ∨ r = 15 → Completes (.flashRead o arg) s (fun e =>
        EndsOp 9 srOk e ∧ (∀ i, i < n → memByte e.mem (s.dev.secAddr + i) = flashByteOf s.dev.board.flash (off + i)) ∧
        (∀ a, a < s.dev.secAddr ∨ s.dev.secAddr + n ≤ a → memByte e.mem a = memByte s.dev.mem a) ∧ e.board = s.dev.board)) ∧
      (n = 0 ∨ 4096 < n ∨ s.dev.inHost s.dev.secAddr n = false ∨ s.dev.regionOf off n = none → Completes (.flashRead o arg) s (fun e => EndsOp 9 srRefused e ∧
        e.mem = memCanon s.dev.mem)))) ∧
  (∀ (s : State) (o : Origin) (w : Word), s.Inv → Accepts s.dev o R.SEC_WDOG (setBits w F.SEC_WDOG_KICK 1) → Completes (.kick o w) s (fun e =>
    e.getF R.SEC_WDOG F.SEC_WDOG_TIMEOUT_MS = getBits w F.SEC_WDOG_TIMEOUT_MS ∧ RegsBut [R.SEC_WDOG] s.dev e ∧ OnlyRegsAudit s.dev e)) ∧
  (∀ s : State, (s.dev.getF R.SEC_WDOG F.SEC_WDOG_TIMEOUT_MS ≠ 0 → s.dev.banked = false → Completes .watchdogExpiry s (fun e => e.bitOf R.FLT_WORD_LO 17 = true ∧
      e.epochOf 0x20 = (s.dev.epochOf 0x20 + 1) % 256 ∧ (s.dev.warmOk = false → e.bitOf R.FLT_WORD_LO 21 = true))) ∧
    (s.Inv → s.dev.getF R.SEC_WDOG F.SEC_WDOG_TIMEOUT_MS = 0 → exec .watchdogExpiry s = .next s))

end
end

