-- ==== Sys2Proof/Laws/Mem.lean ====
section
/-! SUPPORT. Memory: the canonical form, what every write keeps, what reads back. -/

namespace Sys2Proof.Machine

set_option Elab.async false

/-- The canonical form in terms of the list library. -/
theorem memory_wf_iff (m : List Host.Cell) :
    Memory.wf m = true ↔ m.Pairwise (fun a b => a.1 < b.1) ∧ ∀ c ∈ m, c.2 ≠ memDefault := by
  induction m with
  | nil => simp [Memory.wf]
  | cons c t ih =>
    cases t with
    | nil => simp [Memory.wf]
    | cons c' t =>
      simp only [Memory.wf, Bool.and_eq_true, bne_iff_ne, decide_eq_true_eq, ih]
      constructor
      · rintro ⟨⟨h1, h2⟩, h3, h4⟩
        refine ⟨?_, ?_⟩
        · refine List.pairwise_cons.2 ⟨?_, h3⟩
          intro x hx
          rcases List.mem_cons.1 hx with rfl | hx
          · exact h2
          · exact Nat.lt_trans h2 ((List.pairwise_cons.1 h3).1 x hx)
        · intro x hx
          rcases List.mem_cons.1 hx with rfl | hx
          · exact h1
          · exact h4 x hx
      · rintro ⟨h1, h2⟩
        have h1' := List.pairwise_cons.1 h1
        exact ⟨⟨h2 c (by simp), h1'.1 c' (by simp)⟩, h1'.2, fun x hx => h2 x (by simp [List.mem_cons.1 hx])⟩

theorem memCells_bounds (a : Nat) (bs : List Byte) : ∀ c ∈ memCells a bs, a ≤ c.1 ∧ c.1 < a + bs.length ∧ c.2 ≠ memDefault := by
  induction bs generalizing a with
  | nil => simp [memCells]
  | cons b bs ih =>
    intro c hc
    by_cases hb : b = memDefault
    · rw [memCells, if_pos hb] at hc
      have := ih (a + 1) c hc
      simp only [List.length_cons]
      exact ⟨by omega, by omega, this.2.2⟩
    · rw [memCells, if_neg hb] at hc
      rcases List.mem_cons.1 hc with rfl | hc
      · simp [hb]
      · have := ih (a + 1) c hc
        simp only [List.length_cons]
        exact ⟨by omega, by omega, this.2.2⟩

theorem memCells_sorted (a : Nat) (bs : List Byte) : (memCells a bs).Pairwise (fun x y => x.1 < y.1) := by
  induction bs generalizing a with
  | nil => simp [memCells]
  | cons b bs ih =>
    by_cases hb : b = memDefault
    · rw [memCells, if_pos hb]; exact ih (a + 1)
    · rw [memCells, if_neg hb]
      refine List.pairwise_cons.2 ⟨?_, ih (a + 1)⟩
      intro x hx
      have := (memCells_bounds (a + 1) bs x hx).1
      exact Nat.lt_of_lt_of_le (Nat.lt_succ_self a) this

/-- A write keeps the canonical form. -/
theorem memWrite_wf (m : List Host.Cell) (a : Nat) (bs : List Byte) (h : Memory.wf m = true) : Memory.wf (memWrite m a bs) = true := by
  rw [memory_wf_iff] at h ⊢
  obtain ⟨hs, hd⟩ := h
  unfold memWrite
  refine ⟨?_, ?_⟩
  · refine List.pairwise_append.2 ⟨List.pairwise_append.2 ⟨hs.filter _, memCells_sorted a bs, ?_⟩, hs.filter _, ?_⟩
    · intro x hx y hy
      have h1 : x.1 < a := by simpa using (List.mem_filter.1 hx).2
      exact Nat.lt_of_lt_of_le h1 (memCells_bounds a bs y hy).1
    · intro x hx y hy
      have h2 : a + bs.length ≤ y.1 := by simpa using (List.mem_filter.1 hy).2
      rcases List.mem_append.1 hx with hx | hx
      · have h1 : x.1 < a := by simpa using (List.mem_filter.1 hx).2
        omega
      · have := (memCells_bounds a bs x hx).2.1
        omega
  · intro c hc
    rcases List.mem_append.1 hc with hc | hc
    · rcases List.mem_append.1 hc with hc | hc
      · exact hd c (List.mem_filter.1 hc).1
      · exact (memCells_bounds a bs c hc).2.2
    · exact hd c (List.mem_filter.1 hc).1

/-- `Dev.write` keeps the canonical form. -/
theorem write_wf (d : Dev) (a : Nat) (bs : List Byte) (h : Memory.wf d.mem = true) : Memory.wf (d.write a bs).mem = true :=
  memWrite_wf d.mem a bs h

/-- An address that no cell of a list names reads as the default. -/
theorem memByte_of_forall_ne (m : List Host.Cell) (x : Nat) (h : ∀ c ∈ m, c.1 ≠ x) : memByte m x = memDefault := by
  induction m with
  | nil => rfl
  | cons c t ih =>
    obtain ⟨k, b⟩ := c
    rw [memByte, if_neg (h (k, b) (by simp))]
    exact ih (fun c hc => h c (by simp [hc]))

theorem memByte_append (l r : List Host.Cell) (x : Nat) :
    memByte (l ++ r) x = if l.any (fun c => c.1 == x) then memByte l x else memByte r x := by
  induction l with
  | nil => simp
  | cons c t ih =>
    obtain ⟨k, b⟩ := c
    by_cases hk : k = x
    · simp [memByte, hk]
    · simp [memByte, hk, ih]

theorem memByte_filter (m : List Host.Cell) (p : Nat → Bool) (x : Nat) (h : p x = true) :
    memByte (m.filter (fun c => p c.1)) x = memByte m x := by
  induction m with
  | nil => rfl
  | cons c t ih =>
    obtain ⟨k, b⟩ := c
    by_cases hk : k = x
    · subst hk; simp [h, memByte]
    · by_cases hp : p k = true
      · simp [hp, memByte, hk, ih]
      · simp [hp, memByte, hk, ih]

theorem memByte_memCells (a : Nat) (bs : List Byte) (i : Nat) (h : i < bs.length) : memByte (memCells a bs) (a + i) = bs[i] := by
  induction bs generalizing a i with
  | nil => simp at h
  | cons b bs ih =>
    cases i with
    | zero =>
      by_cases hb : b = memDefault
      · rw [memCells, if_pos hb]
        rw [memByte_of_forall_ne]
        · simp [hb]
        · intro c hc
          have := (memCells_bounds (a + 1) bs c hc).1
          omega
      · rw [memCells, if_neg hb]; simp [memByte]
    | succ i =>
      have h' : i < bs.length := by simpa using h
      have e : a + (i + 1) = a + 1 + i := by omega
      by_cases hb : b = memDefault
      · rw [memCells, if_pos hb, e]; simpa using ih (a + 1) i h'
      · rw [memCells, if_neg hb, memByte, if_neg (by omega), e]; simpa using ih (a + 1) i h'

/-- A byte outside a write reads as before. -/
theorem memByte_memWrite_other (m : List Host.Cell) (a : Nat) (bs : List Byte) (x : Nat) (h : x < a ∨ a + bs.length ≤ x) :
    memByte (memWrite m a bs) x = memByte m x := by
  have key : ∀ (p : Nat → Bool), p x = false → (m.filter (fun c => p c.1)).any (fun c => c.1 == x) = false := by
    intro p hp
    simp only [List.any_eq_false, List.mem_filter, beq_iff_eq]
    rintro c ⟨_, hc⟩ rfl
    rw [hp] at hc
    exact absurd hc (by simp)
  have cells : (memCells a bs).any (fun c => c.1 == x) = false := by
    simp only [List.any_eq_false, beq_iff_eq]
    rintro c hc rfl
    have := memCells_bounds a bs c hc
    omega
  unfold memWrite
  rw [memByte_append]
  rcases h with h | h
  · by_cases hx : (m.filter (fun c => decide (c.1 < a)) ++ memCells a bs).any (fun c => c.1 == x) = true
    · rw [if_pos hx, memByte_append]
      rw [List.any_append, cells, Bool.or_false] at hx
      rw [if_pos hx]
      exact memByte_filter m (fun k => decide (k < a)) x (by simpa using h)
    · rw [if_neg hx]
      have h1 : memByte m x = memDefault := by
        refine memByte_of_forall_ne m x ?_
        rintro c hc rfl
        refine hx ?_
        rw [List.any_append, Bool.or_eq_true]
        exact Or.inl (List.any_eq_true.2 ⟨c, List.mem_filter.2 ⟨hc, by simpa using h⟩, by simp⟩)
      rw [h1]
      refine memByte_of_forall_ne _ x ?_
      rintro c hc rfl
      have := (List.mem_filter.1 hc).2
      simp only [decide_eq_true_eq] at this
      omega
  · rw [List.any_append, cells, Bool.or_false, key (fun k => decide (k < a)) (by simp; omega)]
    exact memByte_filter m (fun k => decide (a + bs.length ≤ k)) x (by simpa using h)

/-- A byte inside a write reads as written. -/
theorem memByte_memWrite_same (m : List Host.Cell) (a : Nat) (bs : List Byte) (i : Nat) (h : i < bs.length) :
    memByte (memWrite m a bs) (a + i) = bs[i] := by
  have below : (m.filter (fun c => decide (c.1 < a))).any (fun c => c.1 == a + i) = false := by
    simp only [List.any_eq_false, List.mem_filter, beq_iff_eq, decide_eq_true_eq]
    rintro c ⟨_, hc⟩ he
    omega
  unfold memWrite
  rw [memByte_append]
  by_cases hx : (m.filter (fun c => decide (c.1 < a)) ++ memCells a bs).any (fun c => c.1 == a + i) = true
  · rw [if_pos hx, memByte_append, below]
    exact memByte_memCells a bs i h
  · rw [if_neg hx]
    rw [List.any_append, below, Bool.false_or, Bool.not_eq_true, List.any_eq_false] at hx
    have e := memByte_memCells a bs i h
    rw [memByte_of_forall_ne (memCells a bs) (a + i) (fun c hc he => hx c hc (by simp [he]))] at e
    rw [← e]
    refine memByte_of_forall_ne _ _ ?_
    intro c hc he
    have := (List.mem_filter.1 hc).2
    simp only [decide_eq_true_eq] at this
    omega

/-- The canonical form of any cell list has it. -/
theorem memCanon_wf (m : List Host.Cell) : Memory.wf (memCanon m) = true := by
  unfold memCanon
  split
  · assumption
  · have step : ∀ (l acc : List Host.Cell), Memory.wf acc = true →
        Memory.wf (l.foldl (fun acc c => memWrite acc c.1 [c.2]) acc) = true := by
      intro l
      induction l with
      | nil => intro acc h; exact h
      | cons c l ih => intro acc h; exact ih _ (memWrite_wf acc c.1 [c.2] h)
    exact step m [] rfl

/-- A canonical memory is its own canonical form. -/
theorem memCanon_of_wf (m : List Host.Cell) (h : Memory.wf m = true) : memCanon m = m := by
  unfold memCanon; rw [if_pos h]

end Sys2Proof.Machine
end

