-- ==== Sys2Proof/Laws/Regs.lean ====
section
/-! SUPPORT. Sparse maps, bit fields, registers: what a write leaves to the next read. -/

namespace Sys2Proof.Machine

set_option Elab.async false

/-! ### Sparse maps -/

theorem mapFind_mapSet_same {α : Type} (m : List (Nat × α)) (i : Nat) (v : α) : mapFind (mapSet m i v) i = some v := by
  induction m with
  | nil => simp [mapSet, mapFind]
  | cons c t ih =>
    obtain ⟨k, w⟩ := c
    simp only [mapSet]
    split
    · simp [mapFind]
    · split
      · simp [mapFind]
      · next h1 h2 => simp [mapFind, ih, Ne.symm h2]

theorem mapFind_mapSet_other {α : Type} (m : List (Nat × α)) (i j : Nat) (v : α) (h : j ≠ i) : mapFind (mapSet m i v) j = mapFind m j := by
  induction m with
  | nil => simp [mapSet, mapFind, Ne.symm h]
  | cons c t ih =>
    obtain ⟨k, w⟩ := c
    simp only [mapSet]
    split
    · simp [mapFind, Ne.symm h]
    · split
      · next h1 h2 => subst h2; simp [mapFind, Ne.symm h]
      · simp [mapFind, ih]

@[simp] theorem mapGet_mapSet_same {α : Type} (m : List (Nat × α)) (i : Nat) (v d : α) : mapGet (mapSet m i v) i d = v := by
  simp [mapGet, mapFind_mapSet_same]

theorem mapGet_mapSet_other {α : Type} (m : List (Nat × α)) (i j : Nat) (v d : α) (h : j ≠ i) : mapGet (mapSet m i v) j d = mapGet m j d := by
  simp [mapGet, mapFind_mapSet_other m i j v h]

/-! ### Bit fields -/

theorem natField_natSetField_same (n v : Nat) (f : Fld) : natField (natSetField n f v) f = v % 2 ^ f.width := by
  unfold natField natSetField
  have hl : 0 < 2 ^ f.lsb := Nat.two_pow_pos _
  rw [Nat.pow_add, show n / (2 ^ f.lsb * 2 ^ f.width) * (2 ^ f.lsb * 2 ^ f.width) + v % 2 ^ f.width * 2 ^ f.lsb + n % 2 ^ f.lsb =
    n % 2 ^ f.lsb + (n / (2 ^ f.lsb * 2 ^ f.width) * 2 ^ f.width + v % 2 ^ f.width) * 2 ^ f.lsb by ring]
  rw [Nat.add_mul_div_right _ _ hl, Nat.div_eq_of_lt (Nat.mod_lt _ hl), Nat.zero_add, Nat.add_comm, Nat.add_mul_mod_self_right, Nat.mod_mod]

/-- A field set reads as set. -/
theorem getBits_setBits_same (w : Word) (f : Fld) (v : Nat) (hf : f.lsb + f.width ≤ 32) : getBits (setBits w f v) f = v % 2 ^ f.width := by
  unfold getBits setBits
  rw [BitVec.toNat_ofNat]
  have hw : natSetField w.toNat f v < 2 ^ 32 := by
    unfold natSetField
    have h1 : w.toNat < 2 ^ 32 := w.isLt
    have hd : 2 ^ 32 = 2 ^ (32 - (f.lsb + f.width)) * (2 ^ f.lsb * 2 ^ f.width) := by rw [← Nat.pow_add, ← Nat.pow_add]; congr 1; omega
    have e : 2 ^ (f.lsb + f.width) = 2 ^ f.lsb * 2 ^ f.width := Nat.pow_add ..
    have hv : v % 2 ^ f.width < 2 ^ f.width := Nat.mod_lt _ (Nat.two_pow_pos _)
    have hr : w.toNat % 2 ^ f.lsb < 2 ^ f.lsb := Nat.mod_lt _ (Nat.two_pow_pos _)
    have hq : w.toNat / (2 ^ f.lsb * 2 ^ f.width) < 2 ^ (32 - (f.lsb + f.width)) := by
      rw [Nat.div_lt_iff_lt_mul (by positivity), ← hd]; exact h1
    rw [e, hd]
    generalize 2 ^ f.lsb = a at *
    generalize 2 ^ f.width = b at *
    generalize 2 ^ (32 - (f.lsb + f.width)) = c at *
    generalize w.toNat / (a * b) = q at *
    have x1 : (q + 1) * (a * b) ≤ c * (a * b) := Nat.mul_le_mul_right _ hq
    have x2 : (v % b + 1) * a ≤ b * a := Nat.mul_le_mul_right _ hv
    rw [Nat.add_mul, Nat.one_mul] at x1 x2
    rw [Nat.mul_comm b a] at x2
    omega
  rw [Nat.mod_eq_of_lt hw]
  exact natField_natSetField_same w.toNat v f

theorem testBit_natField (n : Nat) (f : Fld) (i : Nat) : (natField n f).testBit i = (decide (i < f.width) && n.testBit (f.lsb + i)) := by
  simp [natField, Nat.testBit_mod_two_pow, Nat.testBit_div_two_pow, Nat.add_comm]

theorem testBit_natSetField (n v : Nat) (f : Fld) (i : Nat) :
    (natSetField n f v).testBit i = if f.lsb ≤ i ∧ i < f.lsb + f.width then v.testBit (i - f.lsb) else n.testBit i := by
  have hr : n % 2 ^ f.lsb < 2 ^ f.lsb := Nat.mod_lt _ (Nat.two_pow_pos _)
  have hv : v % 2 ^ f.width < 2 ^ f.width := Nat.mod_lt _ (Nat.two_pow_pos _)
  have e : natSetField n f v = 2 ^ f.lsb * (2 ^ f.width * (n / 2 ^ (f.lsb + f.width)) + v % 2 ^ f.width) + n % 2 ^ f.lsb := by
    unfold natSetField
    rw [Nat.pow_add]
    ring
  rw [e, Nat.testBit_two_pow_mul_add _ hr]
  split
  · next h => rw [Nat.testBit_mod_two_pow, if_neg (by omega)]; simp [h]
  · next h =>
    rw [Nat.testBit_two_pow_mul_add _ hv]
    split
    · next h2 => rw [Nat.testBit_mod_two_pow, if_pos (by omega)]; simp [h2]
    · next h2 => rw [Nat.testBit_div_two_pow, if_neg (by omega)]; congr 1; omega

/-- A field that another, disjoint field's setting leaves. -/
theorem getBits_setBits_other (w : Word) (f g : Fld) (v : Nat) (hg : g.lsb + g.width ≤ 32)
    (h : f.lsb + f.width ≤ g.lsb ∨ g.lsb + g.width ≤ f.lsb) : getBits (setBits w f v) g = getBits w g := by
  apply Nat.eq_of_testBit_eq
  intro i
  simp only [getBits, setBits, BitVec.toNat_ofNat, testBit_natField, Nat.testBit_mod_two_pow, testBit_natSetField]
  by_cases hi : i < g.width
  · rw [if_neg (by omega)]
    have : g.lsb + i < 32 := by omega
    simp [this]
  · simp [hi]

/-! ### Registers -/

@[simp] theorem reg_setReg_same (d : Dev) (off : Nat) (w : Word) : (d.setReg off w).reg off = w := by
  simp [Dev.reg, Dev.setReg, mapFind_mapSet_same]

theorem reg_setReg_other (d : Dev) (off o : Nat) (w : Word) (h : o ≠ off) : (d.setReg off w).reg o = d.reg o := by
  simp [Dev.reg, Dev.setReg, mapFind_mapSet_other _ _ _ _ h]

/-- A field stored reads as stored. -/
theorem getF_setF_same (d : Dev) (off : Nat) (f : Fld) (v : Nat) (hf : f.lsb + f.width ≤ 32) : (d.setF off f v).getF off f = v % 2 ^ f.width := by
  simp only [Dev.getF, Dev.setF, reg_setReg_same]
  exact getBits_setBits_same _ f v hf

/-- A disjoint field of the same register is untouched. -/
theorem getF_setF_disjoint (d : Dev) (off : Nat) (f g : Fld) (v : Nat) (hg : g.lsb + g.width ≤ 32)
    (h : f.lsb + f.width ≤ g.lsb ∨ g.lsb + g.width ≤ f.lsb) : (d.setF off f v).getF off g = d.getF off g := by
  simp only [Dev.getF, Dev.setF, reg_setReg_same]
  exact getBits_setBits_other _ f g v hg h

/-- A field of another register is untouched. -/
theorem getF_setF_other (d : Dev) (off o : Nat) (f g : Fld) (v : Nat) (h : o ≠ off) : (d.setF off f v).getF o g = d.getF o g := by
  simp [Dev.getF, Dev.setF, reg_setReg_other _ _ _ _ h]

theorem reg_setF_other (d : Dev) (off o : Nat) (f : Fld) (v : Nat) (h : o ≠ off) : (d.setF off f v).reg o = d.reg o := by
  simp [Dev.setF, reg_setReg_other _ _ _ _ h]

theorem reg_latch_other (d : Dev) (off o : Nat) (f : Fld) (h : o ≠ off) : (d.latch off f).reg o = d.reg o := reg_setF_other d off o f 1 h

theorem reg_bump_other (d : Dev) (off o : Nat) (f : Fld) (n : Nat) (h : o ≠ off) : (d.bump off f n).reg o = d.reg o :=
  reg_setF_other d off o f _ h

end Sys2Proof.Machine
end

