-- ==== Sys2Proof/Laws/Access.lean ====
section
/-! SUPPORT. What a meaning answers, and what a register access can do: refused, or logged, stored and acted on. -/

namespace Sys2Proof.Machine

set_option Elab.async false

/-! ### Answers -/

/-- A meaning answers the device it makes, the queue as it was. -/
theorem completes_act {c : Instr} {s : State} {f : Dev → Dev} {P : Dev → Prop} (h : exec c s = s.act f) (hp : P (f s.dev).canon) : Completes c s P :=
  ⟨s.put (f s.dev), h, rfl, hp⟩

/-- Canonical memory is left by `canon`. -/
theorem canon_of_wf {d : Dev} (h : Memory.wf d.mem = true) : d.canon = d := by
  simp [Dev.canon, memCanon, h]

/-- The registers of a device do not depend on the form of its memory. -/
@[simp] theorem canon_reg (d : Dev) (off : Nat) : d.canon.reg off = d.reg off := rfl
@[simp] theorem canon_getF (d : Dev) (off : Nat) (f : Fld) : d.canon.getF off f = d.getF off f := rfl
@[simp] theorem canon_bitOf (d : Dev) (off i : Nat) : d.canon.bitOf off i = d.bitOf off i := rfl

/-! ### Logging touches the audit log only -/

theorem closeFolds_only (d : Dev) : d.closeFolds = { d with audit := d.closeFolds.audit } := rfl

theorem log_only (d : Dev) (o k ob : Nat) (old : List Byte) (n : Nat) : d.log o k ob old n = { d with audit := (d.log o k ob old n).audit } := rfl

@[simp] theorem log_reg (d : Dev) (o k ob : Nat) (old : List Byte) (n off : Nat) : (d.log o k ob old n).reg off = d.reg off := rfl

theorem logViolation_only (d : Dev) (o a k : Nat) : d.logViolation o a k = { d with audit := (d.logViolation o a k).audit } := rfl

/-- The entry of a write touches the audit log, and for MGT_TIME_INC what it remembers of its last entry. -/
theorem logWrite_only (d : Dev) (o off : Nat) (w : Word) :
    d.logWrite o off w = { d with audit := (d.logWrite o off w).audit
                                  time := { d.time with lastIncLogged := (d.logWrite o off w).time.lastIncLogged
                                                        lastIncSecs := (d.logWrite o off w).time.lastIncSecs } } := by
  unfold Dev.logWrite
  split
  · rfl
  · split
    · rfl
    · split
      · next h =>
        simp only [Dev.logTime] at h
        split_ifs at h <;> (simp only [Option.some.injEq] at h; subst h; rfl)
      · rfl

theorem logWrite_regs (d : Dev) (o off : Nat) (w : Word) : (d.logWrite o off w).regs = d.regs := by rw [logWrite_only]

@[simp] theorem logWrite_reg (d : Dev) (o off x : Nat) (w : Word) : (d.logWrite o off w).reg x = d.reg x := by
  simp [Dev.reg, logWrite_regs]

/-! ### Writes -/

/-- A refused write: the refusal and nothing else. -/
theorem writeVia_refused {d : Dev} {o off k : Nat} {w : Word} {eff : Dev → Nat → Word → Word → Dev} (hs : d.board.stopped = false)
    (h : d.judgeWrite o off w = some k) :
    d.writeVia o off w eff = (d.refusedWrite o off k).refuse o (regBase + off) k := by
  simp [Dev.writeVia, hs, h]

/-- A device that kindling has stopped answers no write (R29). -/
theorem writeVia_stopped {d : Dev} {o off : Nat} {w : Word} {eff : Dev → Nat → Word → Word → Dev} (hs : d.board.stopped = true) :
    d.writeVia o off w eff = d := by
  simp [Dev.writeVia, hs]

/-- An accepted write of a register that the table holds and that is no FLT_WORD: logged, stored, acted on. -/
theorem writeVia_accepted {d : Dev} {o off : Nat} {w : Word} {eff : Dev → Nat → Word → Word → Dev} {r : RDesc}
    (hs : d.board.stopped = false) (h : d.judgeWrite o off w = none) (hr : regRow (regCanon off) = some r)
    (hf : isFaultWord (regCanon off) = false) :
    d.writeVia o off w eff =
      eff ((d.logWrite o (regCanon off) w).setReg (regCanon off) (r.store (d.reg (regCanon off)) (regNorm (regCanon off) w))) (regCanon off)
        (d.reg (regCanon off)) (regNorm (regCanon off) w) := by
  simp [Dev.writeVia, hs, h, Dev.doWriteVia, hr, hf]

/-- An accepted write of FLT_WORD is not stored. -/
theorem writeVia_accepted_fault {d : Dev} {o off : Nat} {w : Word} {eff : Dev → Nat → Word → Word → Dev} {r : RDesc}
    (hs : d.board.stopped = false) (h : d.judgeWrite o off w = none) (hr : regRow (regCanon off) = some r)
    (hf : isFaultWord (regCanon off) = true) :
    d.writeVia o off w eff = eff (d.logWrite o (regCanon off) w) (regCanon off) (d.reg (regCanon off)) (regNorm (regCanon off) w) := by
  simp [Dev.writeVia, hs, h, Dev.doWriteVia, hr, hf]

/-- A write at an offset that names no register does nothing (R8). -/
theorem writeVia_unnamed {d : Dev} {o off : Nat} {w : Word} {eff : Dev → Nat → Word → Word → Dev}
    (hs : d.board.stopped = false) (h : d.judgeWrite o off w = none) (hr : regRow (regCanon off) = none) : d.writeVia o off w eff = d := by
  simp [Dev.writeVia, hs, h, Dev.doWriteVia, hr]

end Sys2Proof.Machine
end

