-- ==== Sys2Proof/Laws/Flash.lean ====
section
/-! SUPPORT. Laws of the flash: what a byte reads after cells are joined, filtered or replaced. -/

namespace Sys2Proof.Machine

set_option Elab.async false

theorem flashByteOf_append (l m : List Host.Cell) (x : Nat) :
    flashByteOf (l ++ m) x = if l.any (fun c => c.1 == x) then flashByteOf l x else flashByteOf m x := by
  induction l with
  | nil => simp
  | cons c t ih =>
    obtain ⟨k, b⟩ := c
    by_cases h : k = x <;> simp [flashByteOf, h, ih]

theorem flashByteOf_of_absent (l : List Host.Cell) (x : Nat) (h : l.any (fun c => c.1 == x) = false) : flashByteOf l x = flashErased := by
  have := flashByteOf_append l [] x
  simpa [h, flashByteOf] using this

theorem flashByteOf_filter (p : Nat → Bool) (m : List Host.Cell) (x : Nat) (h : p x = true) :
    flashByteOf (m.filter (fun c => p c.1)) x = flashByteOf m x := by
  induction m with
  | nil => rfl
  | cons c t ih =>
    obtain ⟨k, b⟩ := c
    by_cases hk : k = x
    · subst hk; simp [h, flashByteOf]
    · by_cases hp : p k = true <;> simp [hp, flashByteOf, hk, ih]

/-- Cells of a byte string lie in its range. -/
theorem flashCells_any (bs : List Byte) (a x : Nat) (h : x < a ∨ a + bs.length ≤ x) : (flashCells a bs).any (fun c => c.1 == x) = false := by
  induction bs generalizing a with
  | nil => rfl
  | cons b t ih =>
    have hne : a ≠ x := by simp at h; omega
    have ht := ih (a + 1) (by simp at h; omega)
    by_cases hb : b = flashErased <;> simp [flashCells, hb, ht, hne]

/-- A byte of the cells of a byte string. -/
theorem flashByteOf_flashCells (bs : List Byte) (a i : Nat) (h : i < bs.length) : flashByteOf (flashCells a bs) (a + i) = bs[i] := by
  induction bs generalizing a i with
  | nil => simp at h
  | cons b t ih =>
    cases i with
    | zero =>
      by_cases hb : b = flashErased
      · have := flashByteOf_of_absent _ _ (flashCells_any t (a + 1) a (Or.inl (by omega)))
        simp [flashCells, hb, this]
      · simp [flashCells, hb, flashByteOf]
    | succ i =>
      have ht := ih (a + 1) i (by simpa using h)
      rw [show a + (i + 1) = a + 1 + i by omega]
      by_cases hb : b = flashErased
      · simpa [flashCells, hb] using ht
      · simp [flashCells, hb, flashByteOf, ht]; omega

/-- A byte after the bytes from `a` on are replaced: the new one in their range, the old one outside it. -/
theorem flashByteOf_flashPut (m : List Host.Cell) (bs : List Byte) (a : Nat) :
    (∀ i, (h : i < bs.length) → flashByteOf (flashPut m a bs) (a + i) = bs[i]) ∧
    (∀ x, x < a ∨ a + bs.length ≤ x → flashByteOf (flashPut m a bs) x = flashByteOf m x) := by
  constructor
  · intro i h
    have h1 : (m.filter (fun c => decide (c.1 < a))).any (fun c => c.1 == a + i) = false := by
      simp [List.any_eq_false]; omega
    rw [flashPut, List.append_assoc, flashByteOf_append, h1, flashByteOf_append]
    by_cases h2 : (flashCells a bs).any (fun c => c.1 == a + i) = true
    · simp [h2, flashByteOf_flashCells bs a i h]
    · have h3 : (m.filter (fun c => decide (a + bs.length ≤ c.1))).any (fun c => c.1 == a + i) = false := by
        simp [List.any_eq_false]; omega
      have h4 := flashByteOf_of_absent _ _ (Bool.eq_false_iff.mpr h2)
      rw [flashByteOf_flashCells bs a i h] at h4
      simp [h2, flashByteOf_of_absent _ _ h3, h4]
  · intro x hx
    rw [flashPut, List.append_assoc, flashByteOf_append, flashByteOf_append, flashCells_any bs a x hx]
    by_cases h1 : x < a
    · have h2 := flashByteOf_filter (fun k => decide (k < a)) m x (by simpa using h1)
      by_cases h3 : (m.filter (fun c => decide (c.1 < a))).any (fun c => c.1 == x) = true
      · rw [if_pos h3]; exact h2
      · have h4 := flashByteOf_of_absent _ _ (Bool.eq_false_iff.mpr h3)
        have h5 : (m.filter (fun c => decide (a + bs.length ≤ c.1))).any (fun c => c.1 == x) = false := by
          simp [List.any_eq_false]; omega
        rw [if_neg h3, if_neg (by simp), flashByteOf_of_absent _ _ h5, ← h4]; exact h2
    · have h2 : (m.filter (fun c => decide (c.1 < a))).any (fun c => c.1 == x) = false := by
        simp [List.any_eq_false]; omega
      rw [if_neg (by simp [h2]), if_neg (by simp)]
      exact flashByteOf_filter (fun k => decide (a + bs.length ≤ k)) m x (by simp; omega)

/-- What is read where bytes were put is those bytes. -/
theorem flashPut_reads (m : List Host.Cell) (bs : List Byte) (a n : Nat) (h : bs.length = n) :
    (List.range n).map (fun i => flashByteOf (flashPut m a bs) (a + i)) = bs := by
  subst h
  refine List.ext_getElem (by simp) (fun i _ h2 => ?_)
  simpa using (flashByteOf_flashPut m bs a).1 i h2

/-- What is read elsewhere is what was there. -/
theorem flashPut_reads_else (m : List Host.Cell) (bs : List Byte) (a b n : Nat) (h : b + n ≤ a ∨ a + bs.length ≤ b) :
    (List.range n).map (fun i => flashByteOf (flashPut m a bs) (b + i)) = (List.range n).map (fun i => flashByteOf m (b + i)) := by
  refine List.map_congr_left (fun i hi => (flashByteOf_flashPut m bs a).2 _ ?_)
  have := List.mem_range.mp hi
  omega

/-! ### What the stages depend on -/

/-- What is read, the directory, the boot control record and the slots of the stages are those of any device with the same flash and OTP. -/
theorem flashRead_congr {d e : Dev} (f : e.board.flash = d.board.flash) (a n : Nat) : e.flashRead a n = d.flashRead a n := by
  rw [Dev.flashRead, f]; rfl

theorem directory_congr {d e : Dev} (f : e.board.flash = d.board.flash) : e.directory = d.directory := by
  have h : ∀ a, e.directoryAt a = d.directoryAt a := fun a => by rw [Dev.directoryAt, flashRead_congr f]; rfl
  rw [Dev.directory, h, h]; rfl

theorem bootRecord_congr {d e : Dev} (f : e.board.flash = d.board.flash) : e.bootRecord = d.bootRecord := by
  have h : ∀ c, e.bootCopy c = d.bootCopy c := fun c => by rw [Dev.bootCopy, flashRead_congr f]; rfl
  rw [Dev.bootRecord, h, h]; rfl

theorem slotOk_congr {d e : Dev} (f : e.board.flash = d.board.flash) (o : e.board.otp = d.board.otp) (stage slot : Nat) :
    e.slotOk stage slot = d.slotOk stage slot := by
  have h : e.region (slotRegion stage slot) = d.region (slotRegion stage slot) := by rw [Dev.region, directory_congr f]; rfl
  have hr : e.flashRead = d.flashRead := funext fun a => funext fun n => flashRead_congr f a n
  unfold Dev.slotOk
  rw [h, hr, o]

/-- A confirmed preferred slot that qualifies is selected, and the boot control record stays (R537). -/
theorem selectStage_confirmed {d : Dev} {stage : Nat} {x : SlotOk} (t : nth d.bootRecord.tries stage 0xFF = 0xFF)
    (h : d.slotOk stage (nth d.bootRecord.prefer stage 0 % 2) = some x) : d.selectStage stage = (some x, d) := by
  unfold Dev.selectStage
  simp only [t, ne_eq, not_true_eq_false, and_false, if_false, Nat.reduceEqDiff, h]

end Sys2Proof.Machine
end

