-- ==== Sys2Proof/Laws/Keeps.lean ====
section
/-! SUPPORT. What the end of a site's run leaves alone: board, power, faults, clocks, calibration, mailboxes, DRAM state, and the registers of
the windows GLB to DMC and MGT. -/

namespace Sys2Proof.Machine

set_option Elab.async false

/-- Registers that the end of a run leaves alone: those of the windows GLB to DMC and MGT. -/
def steadyReg (off : Nat) : Bool := decide (off < 0xA0000) || decide (0xB0000 ≤ off ∧ off < 0xC0000)

/-- What is left alone. -/
structure Keeps (d e : Dev) : Prop where
  reg : ∀ off, steadyReg off = true → e.reg off = d.reg off
  board : e.board = d.board
  faults : e.faults = d.faults
  power : e.power = d.power
  clk : e.clk = d.clk
  cal : e.cal = d.cal
  llk : e.llk = d.llk
  jtag : e.jtag = d.jtag
  dram : e.dram = d.dram
  mbx : e.mbx = d.mbx
  secs : e.time.secs = d.time.secs
  binds : e.seq.live = d.seq.live

namespace Keeps

theorem refl (d : Dev) : Keeps d d := ⟨fun _ _ => rfl, rfl, rfl, rfl, rfl, rfl, rfl, rfl, rfl, rfl, rfl, rfl⟩

theorem trans {d e f : Dev} (h : Keeps d e) (g : Keeps e f) : Keeps d f :=
  ⟨fun o ho => (g.reg o ho).trans (h.reg o ho), g.board.trans h.board, g.faults.trans h.faults, g.power.trans h.power, g.clk.trans h.clk,
    g.cal.trans h.cal, g.llk.trans h.llk, g.jtag.trans h.jtag, g.dram.trans h.dram, g.mbx.trans h.mbx, g.secs.trans h.secs, g.binds.trans h.binds⟩

theorem foldl {α : Type} {f : Dev → α → Dev} (l : List α) (d : Dev) (h : ∀ d x, Keeps d (f d x)) : Keeps d (l.foldl f d) := by
  induction l generalizing d with
  | nil => exact refl d
  | cons x t ih => exact (h d x).trans (ih (f d x))

theorem setReg (d : Dev) {off : Nat} (w : Word) (h : steadyReg off = false) : Keeps d (d.setReg off w) :=
  ⟨fun o ho => reg_setReg_other d off o w (fun e => by subst e; simp [h] at ho), rfl, rfl, rfl, rfl, rfl, rfl, rfl, rfl, rfl, rfl, rfl⟩

theorem setF (d : Dev) {off : Nat} (f : Fld) (v : Nat) (h : steadyReg off = false) : Keeps d (d.setF off f v) := setReg d _ h
theorem latch (d : Dev) {off : Nat} (f : Fld) (h : steadyReg off = false) : Keeps d (d.latch off f) := setReg d _ h
theorem bump (d : Dev) {off : Nat} (f : Fld) (n : Nat) (h : steadyReg off = false) : Keeps d (d.bump off f n) := setReg d _ h

theorem ite {c : Prop} [Decidable c] {d a b : Dev} (ha : Keeps d a) (hb : Keeps d b) : Keeps d (if c then a else b) := by
  split <;> assumption

/-- What changes only memory, poison, the sequencers other than what is live, rings, Flue, TMU, the draught scheduler, the audit log, the outbox,
the ledger and its residues. -/
theorem upd {d e : Dev} (hr : e.regs = d.regs := by rfl) (h1 : e.board = d.board := by rfl) (h2 : e.faults = d.faults := by rfl)
    (h3 : e.power = d.power := by rfl) (h4 : e.clk = d.clk := by rfl) (h5 : e.cal = d.cal := by rfl) (h6 : e.llk = d.llk := by rfl)
    (h7 : e.jtag = d.jtag := by rfl) (h8 : e.dram = d.dram := by rfl) (h9 : e.mbx = d.mbx := by rfl)
    (h10 : e.time.secs = d.time.secs := by rfl) (h11 : e.seq.live = d.seq.live := by rfl) : Keeps d e :=
  ⟨fun _ _ => by simp [Dev.reg, hr], h1, h2, h3, h4, h5, h6, h7, h8, h9, h10, h11⟩

/-! ### The windows whose registers may change -/

theorem hrt {off : Nat} (h : 0x100000 ≤ off) : steadyReg off = false := by
  simp [steadyReg]; omega

/-! ### The functions of the end of a run -/

theorem toggle (d : Dev) (ch : Nat) : Keeps d (d.toggle ch) := by
  unfold Dev.toggle
  dsimp only
  split
  · exact upd
  · exact upd

theorem pinsSafe (d : Dev) (chs : List Nat) : Keeps d (d.pinsSafe chs) := by
  unfold Dev.pinsSafe
  refine (foldl chs d (fun d ch => ?_)).trans upd
  split
  · exact refl d
  · exact toggle d ch

theorem ddsStop (d : Dev) (s : Nat) : Keeps d (d.ddsStop s) := by
  unfold Dev.ddsStop
  dsimp only
  have h : Keeps d ((d.ddsClaims s).foldl (fun d c => match d.ddsList c with
    | some l => d.modDds c.unit (fun u => ({ u with connected := false }).load l 0 0 0)
    | none => d.modDds c.unit (fun u => { u with connected := false })) d) := by
    refine foldl _ _ (fun d c => ?_)
    split <;> exact upd
  split
  · exact h.trans upd
  · exact h

theorem out (d : Dev) (o : Output) : Keeps d (d.out o) := upd

theorem modPort (d : Dev) (p : Nat) (f : FluePort → FluePort) : Keeps d (d.modPort p f) := upd

theorem pump (d : Dev) (p n : Nat) : Keeps d (d.pump p n) := by
  induction n generalizing d with
  | zero => exact refl d
  | succ n ih =>
    unfold Dev.pump
    split
    · exact refl d
    · split
      · exact refl d
      · dsimp only
        split
        · exact refl d
        · exact ((out d _).trans (modPort _ _ _)).trans (ih _)

theorem enqueue (d : Dev) (p : Nat) (k : Packet) : Keeps d (d.enqueue p k) := (modPort d p _).trans (pump _ p _)

theorem unroutable (d : Dev) (k : Packet) : Keeps d (d.unroutable 0 k) := by
  unfold Dev.unroutable
  split
  · exact (bump d _ _ (by decide)).trans (latch _ _ (by decide))
  · exact bump d _ _ (by decide)

theorem sendPacket (d : Dev) (k : Packet) : Keeps d (d.sendPacket k) := by
  unfold Dev.sendPacket
  split
  · exact foldl _ _ (fun d p => enqueue d p k)
  · split
    · exact enqueue d _ k
    · exact refl d
    · exact unroutable d k

theorem sendEvent (d : Dev) (ring epoch kind site rdvId : Nat) (withdrawn : Bool) (startSeq : Nat) (more : List Nat) :
    Keeps d (d.sendEvent ring epoch kind site rdvId withdrawn startSeq more) := by
  unfold Dev.sendEvent
  split
  · exact refl d
  · exact sendPacket d _

theorem modSite (d : Dev) (n : Nat) (f : Site → Site) : Keeps d (d.modSite n f) := upd
theorem modCap (d : Dev) (n : Nat) (f : CapRun → CapRun) : Keeps d (d.modCap n f) := upd
theorem write (d : Dev) (a : Nat) (bs : List Byte) : Keeps d (d.write a bs) := upd

theorem capPut (d : Dev) (s : Nat) (p : CapPlan) (r : List Byte) : Keeps d (d.capPut s p r) := by
  unfold Dev.capPut
  exact upd

theorem capStop (d : Dev) (s : Nat) (p : CapPlan) (vc cause : Nat) : Keeps d (d.capStop s p vc cause) := by
  unfold Dev.capStop
  dsimp only
  split
  · exact (modCap d s _).trans (capPut _ s p _)
  · exact modCap d s _

theorem capResult (d : Dev) (s : Nat) (p : CapPlan) (i : WinInst) : Keeps d (d.capResult s p i) := by
  unfold Dev.capResult
  dsimp only
  split
  · exact modCap d s _
  · exact (write d _ _).trans (modCap _ s _)

theorem drawNat (d : Dev) : Keeps d d.drawNat.2 := upd

theorem fineRef (d : Dev) (n : Nat) (o : Option (Nat × Nat)) (a : Nat) : Keeps d (d.fineRef n o a) := by
  unfold Dev.fineRef
  split
  · exact refl d
  · exact upd

/-- Offering a record: what it leaves, whatever became of the record. -/
theorem capTry (d : Dev) (s : Nat) (p : CapPlan) (vc : Nat) (r : List Byte) : Keeps d (d.capTry s p vc r).2 := by
  unfold Dev.capTry
  dsimp only
  split
  · exact refl d
  · split
    · exact capStop d s p vc 1
    · split
      · exact refl d
      · exact capPut d s p r

theorem capSample (d : Dev) (s : Nat) (p : CapPlan) (v : VecRec) (m : Nat) (x : Samp) : Keeps d (d.capSample s p v m x) := by
  unfold Dev.capSample
  dsimp only
  split
  · exact refl d
  · next st _ =>
    refine Keeps.trans (modCap d s (fun c => { c with prevSamp := mapSet c.prevSamp x.pin (st + 1) })) ?_
    refine ite ?_ (ite (modCap _ s _) (refl _))
    split
    · next h => exact ((congrArg (Keeps _) (congrArg Prod.snd h)).mp (capTry _ s p _ _)).trans ((fineRef _ _ _ _).trans (modCap _ s _))
    · next h => exact ((congrArg (Keeps _) (congrArg Prod.snd h)).mp (capTry _ s p _ _)).trans (ite (modCap _ s _) (refl _))
    · next h =>
      exact ((congrArg (Keeps _) (congrArg Prod.snd h)).mp (capTry _ s p _ _)).trans ((modCap _ s _).trans (ite (capStop _ s p _ 0) (refl _)))

theorem capWindows (d : Dev) (s : Nat) (p : CapPlan) (v : VecRec) : Keeps d (d.capWindows s p v) := by
  unfold Dev.capWindows
  exact (modCap d s _).trans (foldl _ _ (fun d i => capResult d s p i))

theorem capDamper (d : Dev) (s : Nat) (p : CapPlan) (v : VecRec) : Keeps d (d.capDamper s p v) := by
  unfold Dev.capDamper
  dsimp only
  refine ite ?_ (refl d)
  split
  · next h => exact (modCap d s _).trans (((congrArg (Keeps _) (congrArg Prod.snd h)).mp (capTry _ s p _ _)).trans (modCap _ s _))
  · next h => exact (modCap d s _).trans (((congrArg (Keeps _) (congrArg Prod.snd h)).mp (capTry _ s p _ _)).trans (modCap _ s _))
  · next h => exact (modCap d s _).trans ((congrArg (Keeps _) (congrArg Prod.snd h)).mp (capTry _ s p _ _))

theorem capLate (d : Dev) (s : Nat) (p : CapPlan) (v : VecRec) : Keeps d (d.capLate s p v) := by
  unfold Dev.capLate
  split
  · exact refl d
  · split
    · next h => exact ((congrArg (Keeps _) (congrArg Prod.snd h)).mp (capTry _ s p _ _)).trans (modCap _ s _)
    · next h => exact (congrArg (Keeps _) (congrArg Prod.snd h)).mp (capTry _ s p _ _)

theorem capTake (d : Dev) (s : Nat) (v : VecRec) : Keeps d (d.capTake s v) := by
  unfold Dev.capTake
  split
  · exact refl d
  · next p _ =>
    refine Keeps.trans ?_ (modCap _ s _)
    refine Keeps.trans ?_ (capWindows _ s p v)
    refine Keeps.trans ?_ (ite (capStop _ s p _ 0) (refl _))
    refine Keeps.trans ?_ (capLate _ s p v)
    exact (capDamper d s p v).trans (ite (foldl _ _ (fun d x => ite (capSample d s p v _ x) (refl d))) (refl _))

theorem capDecide (d : Dev) (s : Nat) : Keeps d (d.capDecide s) := by
  unfold Dev.capDecide
  split
  · exact refl d
  · exact modCap d s _

theorem capDrain (d : Dev) (s : Nat) (l : List CapItem) : Keeps d (d.capDrain s l) := by
  induction l generalizing d with
  | nil => exact modCap d s _
  | cons x t ih =>
    cases x with
    | boundary => exact (capDecide d s).trans (ih _)
    | vec v p j =>
      unfold Dev.capDrain
      exact ite (modCap d s _) ((capTake d s v).trans (ih _))

theorem capFlush (d : Dev) (s : Nat) (b : Bool) : Keeps d (d.capFlush s b) := capDrain d s _

theorem capBegin (d : Dev) (s : Nat) : Keeps d (d.capBegin s) := by
  unfold Dev.capBegin
  dsimp only
  split
  · exact modSite d s _
  · exact (modSite d s _).trans (capPut _ s _ _)

theorem capFinish (d : Dev) (s : Nat) : Keeps d (d.capFinish s) := by
  unfold Dev.capFinish
  dsimp only
  split
  · exact modCap d s _
  · next p _ =>
    refine Keeps.trans ?_ (write _ _ _)
    refine Keeps.trans ?_ (capPut _ s p _)
    refine Keeps.trans ?_ (capPut _ s p _)
    refine Keeps.trans ?_ (foldl _ _ (fun d i => capResult d s p i))
    refine Keeps.trans ?_ (modCap _ s _)
    split
    · exact (modCap d s _).trans (capStop _ s p _ 0)
    · exact modCap d s _

theorem modTmu (d : Dev) (n : Nat) (f : TmuCh → TmuCh) : Keeps d (d.modTmu n f) := upd

theorem tmuQueue (d : Dev) (n : Nat) (x : TmuItem) : Keeps d (d.tmuQueue n x) := by
  unfold Dev.tmuQueue
  dsimp only
  split
  · exact refl d
  · split
    · split
      · exact (modTmu d n _).trans (bump _ _ _ (by simp [steadyReg, R.TMU_CH_LOST]; omega))
      · exact modTmu d n _
    · exact modTmu d n _

theorem tmuAfter (d : Dev) (h n : Nat) (x : TmuItem) : Keeps d (d.tmuAfter h n x) := by
  unfold Dev.tmuAfter
  split
  · exact tmuQueue d n x
  · exact modTmu d h _

theorem tbNow (d : Dev) : Keeps d d.tbNow := by
  unfold Dev.tbNow
  exact upd

theorem tmuMark (d : Dev) (n ev : Nat) : Keeps d (d.tmuMark n ev) := by
  unfold Dev.tmuMark
  split
  · exact refl d
  · exact tmuAfter d n n _

theorem tmuStop (d : Dev) (s : Nat) : Keeps d (d.tmuStop s) := by
  unfold Dev.tmuStop
  exact ite (refl d) ((tbNow d).trans (foldl _ _ (fun d c => (ite (refl d) (tmuMark d _ 1)).trans (modTmu _ _ _))))

theorem modEngine (d : Dev) (n : Nat) (f : Engine → Engine) : Keeps d (d.modEngine n f) := upd
theorem setGroups (d : Dev) (g : List (Nat × Group)) : Keeps d (d.setGroups g) := upd
theorem setGroup (d : Dev) (k : Nat) (g : Group) : Keeps d (d.setGroup k g) := upd

theorem holdCause (d : Dev) (k : Nat) : Keeps d (d.holdCause k) := by
  unfold Dev.holdCause
  split
  · exact refl d
  · split
    · exact refl d
    · exact ite (foldl _ _ (fun d m => modSite d m _)) (refl d)

theorem freeEngine (d : Dev) (e : Nat) : Keeps d (d.freeEngine e) := by
  unfold Dev.freeEngine
  split
  · exact modEngine d e _
  · dsimp only
    split
    · exact ((modEngine d e _).trans (setGroup _ _ _)).trans (holdCause _ _)
    · exact modEngine d e _

theorem nameGroup (d : Dev) (k : Nat) : Keeps d (d.nameGroup k) := by
  unfold Dev.nameGroup
  split
  · exact refl d
  · exact foldl _ _ (fun d s => modSite d s _)

theorem leaveGroup (d : Dev) (s : Nat) : Keeps d (d.leaveGroup s) := by
  unfold Dev.leaveGroup
  split
  · exact refl d
  · dsimp only
    split
    · refine Keeps.trans ?_ (foldl _ _ (fun d e => freeEngine d e))
      exact upd
    · exact (setGroup d _ _).trans (nameGroup _ _)

theorem log (d : Dev) (o k ob : Nat) (old : List Byte) (n : Nat) : Keeps d (d.log o k ob old n) := upd
theorem notice (d : Dev) (c o n : Nat) : Keeps d (d.notice c o n) := log d 0 _ o [] _
theorem count (d : Dev) (i n : Nat) : Keeps d (d.count i n) := upd

theorem addReason (d : Dev) (s r : Nat) : Keeps d (d.addReason s r) := by
  unfold Dev.addReason
  dsimp only
  split
  · exact refl d
  · exact (modSite d s _).trans (ite (refl _) (notice _ _ _ _))

theorem postReport (d : Dev) (s : Nat) (b : List Byte) : Keeps d (d.postReport s b) := by
  unfold Dev.postReport
  dsimp only
  split
  · exact upd
  · refine Keeps.trans ?_ (bump _ _ _ (by decide))
    exact upd

theorem endWait (d : Dev) (s e : Nat) : Keeps d (d.endWait s e) := by
  unfold Dev.endWait
  dsimp only
  split
  · exact refl d
  · exact (modSite d s _).trans (postReport _ _ _)

theorem setMeet (d : Dev) (m : RdvMeet) : Keeps d (d.setMeet m) := upd
theorem dropMeet (d : Dev) (n : Nat) : Keeps d (d.dropMeet n) := upd
theorem rdvWithdraw (d : Dev) (s : Nat) : Keeps d (d.rdvWithdraw s) := upd
theorem rdvRelease (d : Dev) (s e : Nat) (f : List Nat) : Keeps d (d.rdvRelease s e f) := upd

theorem takeRelease (d : Dev) (r : Start) (x e : Nat) (f : List Nat) : Keeps d (d.takeRelease r x e f) := by
  unfold Dev.takeRelease
  dsimp only
  split
  · refine Keeps.trans ?_ (foldl _ _ (fun d s => rdvWithdraw d s))
    exact ((setMeet d _).trans (bump _ _ _ (by decide))).trans (latch _ _ (by decide))
  · exact (setMeet d _).trans (foldl _ _ (fun d s => rdvRelease d s e f))

theorem gather (d : Dev) (r : Start) (rep : RdvReport) : Keeps d (d.gather r rep) := by
  unfold Dev.gather
  dsimp only
  split
  · exact setMeet d _
  · split
    · exact (setMeet d _).trans (dropMeet _ _)
    · refine Keeps.trans ?_ (takeRelease _ r _ _ _)
      split
      · exact ((setMeet d _).trans (setMeet _ _)).trans (sendEvent _ _ _ _ _ _ _ _ _)
      · exact (setMeet d _).trans (setMeet _ _)

theorem rdvCheck (d : Dev) (id : Nat) : Keeps d (d.rdvCheck id) := by
  unfold Dev.rdvCheck
  split
  · exact refl d
  · exact ite (refl d) (ite (dropMeet d _) (ite ((setMeet d _).trans (gather _ _ _))
      (ite ((setMeet d _).trans (sendPacket _ _)) ((setMeet d _).trans (gather _ _ _)))))

theorem sendFail (d : Dev) (s : Nat) : Keeps d (d.sendFail s) := by
  unfold Dev.sendFail
  split
  · exact refl d
  · split
    · exact refl d
    · split
      · exact foldl _ _ (fun d p => enqueue d p _)
      · exact sendEvent d _ _ _ _ _ _ _ _

theorem drive (d : Dev) (ch : Nat) (v : Drv) (t : Nat) : Keeps d (d.drive ch v t) := by
  unfold Dev.drive
  exact ite (refl d) (Keeps.trans upd (toggle _ _))

theorem lastEvents (d : Dev) (s : Nat) (b : Bool) : Keeps d (d.lastEvents s b) := by
  unfold Dev.lastEvents
  dsimp only
  refine Keeps.trans ?_ (modSite _ s _)
  refine Keeps.trans ?_ (capFlush _ s b)
  split
  · exact modSite d s _
  · exact foldl _ _ (fun d x => drive d _ _ _)

/-- The end of a run. -/
theorem endSite (d : Dev) (s : Nat) (c : EndCause) (r : Nat) (ff : Bool) : Keeps d (d.endSite s c r ff) := by
  unfold Dev.endSite
  dsimp only
  split
  · exact refl d
  · refine Keeps.trans ?_ (rdvCheck _ _)
    refine Keeps.trans ?_ (ite (sendFail _ _) (refl _))
    refine Keeps.trans ?_ (leaveGroup _ _)
    refine Keeps.trans ?_ (capFinish _ _)
    refine Keeps.trans ?_ (tmuStop _ _)
    refine Keeps.trans ?_ (ddsStop _ _)
    refine Keeps.trans ?_ (pinsSafe _ _)
    refine Keeps.trans ?_ (ite (latch _ _ (hrt (by dsimp only [R.HRT_INT_STATUS]; omega))) (refl _))
    refine Keeps.trans ?_ (ite (latch _ _ (hrt (by dsimp only [R.HRT_INT_STATUS]; omega))) (refl _))
    refine Keeps.trans ?_ (ite (refl _) (capBegin _ _))
    refine Keeps.trans ?_ (modSite _ _ _)
    refine Keeps.trans ?_ (addReason _ _ _)
    refine Keeps.trans ((endWait d s 1).trans (ite (lastEvents _ s _) (refl _))) (ite ?_ (refl _))
    exact foldl _ _ (fun d r => addReason d s r)

theorem smother (d : Dev) (s r : Nat) (ff : Bool) : Keeps d (d.smother s r ff) := by
  unfold Dev.smother
  dsimp only
  split
  · exact endSite d s _ _ _
  · split
    · exact modSite d s _
    · exact refl d

theorem smotherBoth (d : Dev) (s r a : Nat) : Keeps d (d.smotherBoth s r a) := (modSite d s _).trans (smother _ s r false)

theorem smotherAll (d : Dev) (l : List Nat) (r : Nat) : Keeps d (d.smotherAll l r) := foldl l d (fun d s => smother d s r false)

theorem ownerWrite (d : Dev) (n a : Nat) (bs : List Byte) : Keeps d (d.ownerWrite n a bs) := by
  unfold Dev.ownerWrite
  split
  · exact sendPacket d _
  · exact write d _ _

theorem post (d : Dev) (n : Nat) (c : Completion) : Keeps d (d.post n c) := upd
theorem endCurrent (d : Dev) (n : Nat) : Keeps d (d.endCurrent n) := upd

theorem ppmuEndStep (d : Dev) (p : PpmuPlan) (s : PpmuStep) (c f : Nat) : Keeps d (d.ppmuEndStep p s c f) := by
  unfold Dev.ppmuEndStep
  exact (ownerWrite d _ _ _).trans upd

theorem ppmuFinish (d : Dev) : Keeps d d.ppmuFinish := by
  unfold Dev.ppmuFinish
  refine Keeps.trans ?_ (foldl _ _ (fun d p => (post d _ _).trans (endCurrent _ _)))
  exact upd

theorem modGrate (d : Dev) (g : Nat) (f : Grate → Grate) : Keeps d (d.modGrate g f) := upd
theorem ppmuDouse (d : Dev) (g scope : Nat) : Keeps d (d.ppmuDouse g scope) := by
  unfold Dev.ppmuDouse
  have h : Keeps d (match d.staticPin g with
    | some p => if tbit scope (8 * g + p.pin) then d.modGrate g (fun x => { x with forceOff := true }) else d
    | none => d) := by
    split
    · exact ite (modGrate _ _ _) (refl _)
    · exact refl d
  dsimp only
  split
  · exact h
  · refine Keeps.trans ?_ (ppmuFinish _)
    refine Keeps.trans ?_ (foldl _ _ (fun d x => (drawNat d).trans (ppmuEndStep _ _ _ _ _)))
    exact (h.trans (drawNat _)).trans (ppmuEndStep _ _ _ _ _)

end Keeps

/-! ### Douses and fault lines -/

/-- What a douse or a fault line leaves alone: registers of the windows GLB to DMC but PWR, and of MGT, save listed ones; board, clocks, DRAM,
mailboxes, what is live. -/
structure Spares (l : List Nat) (d e : Dev) : Prop where
  reg : ∀ off, steadyReg off = true → ¬(0x20000 ≤ off ∧ off < 0x30000) → off ∉ l → e.reg off = d.reg off
  board : e.board = d.board
  clk : e.clk = d.clk
  llk : e.llk = d.llk
  jtag : e.jtag = d.jtag
  dram : e.dram = d.dram
  mbx : e.mbx = d.mbx
  secs : e.time.secs = d.time.secs
  binds : e.seq.live = d.seq.live

namespace Spares

theorem of_keeps {l : List Nat} {d e : Dev} (h : Keeps d e) : Spares l d e :=
  ⟨fun o ho _ _ => h.reg o ho, h.board, h.clk, h.llk, h.jtag, h.dram, h.mbx, h.secs, h.binds⟩

theorem refl (l : List Nat) (d : Dev) : Spares l d d := of_keeps (Keeps.refl d)

theorem trans {l : List Nat} {d e f : Dev} (h : Spares l d e) (g : Spares l e f) : Spares l d f :=
  ⟨fun o h1 h2 h3 => (g.reg o h1 h2 h3).trans (h.reg o h1 h2 h3), g.board.trans h.board, g.clk.trans h.clk, g.llk.trans h.llk, g.jtag.trans h.jtag,
    g.dram.trans h.dram, g.mbx.trans h.mbx, g.secs.trans h.secs, g.binds.trans h.binds⟩

theorem mono {l m : List Nat} {d e : Dev} (h : Spares l d e) (hs : ∀ x ∈ l, x ∈ m) : Spares m d e :=
  ⟨fun o h1 h2 h3 => h.reg o h1 h2 (fun hx => h3 (hs o hx)), h.board, h.clk, h.llk, h.jtag, h.dram, h.mbx, h.secs, h.binds⟩

theorem foldl {α : Type} {l : List Nat} {f : Dev → α → Dev} (xs : List α) (d : Dev) (h : ∀ d x, Spares l d (f d x)) : Spares l d (xs.foldl f d) := by
  induction xs generalizing d with
  | nil => exact refl l d
  | cons x t ih => exact (h d x).trans (ih (f d x))

theorem setReg {l : List Nat} (d : Dev) {off : Nat} (w : Word) (h : steadyReg off = false ∨ (0x20000 ≤ off ∧ off < 0x30000) ∨ off ∈ l) :
    Spares l d (d.setReg off w) :=
  ⟨fun o h1 h2 h3 => reg_setReg_other d off o w (fun e => by
      subst e
      rcases h with h | h | h
      · simp [h] at h1
      · exact h2 h
      · exact h3 h), rfl, rfl, rfl, rfl, rfl, rfl, rfl, rfl⟩

theorem setF {l : List Nat} (d : Dev) {off : Nat} (f : Fld) (v : Nat) (h : steadyReg off = false ∨ (0x20000 ≤ off ∧ off < 0x30000) ∨ off ∈ l) :
    Spares l d (d.setF off f v) := setReg d _ h

theorem ite {l : List Nat} {c : Prop} [Decidable c] {d a b : Dev} (ha : Spares l d a) (hb : Spares l d b) : Spares l d (if c then a else b) := by
  split <;> assumption

theorem upd {l : List Nat} {d e : Dev} (hr : e.regs = d.regs := by rfl) (h1 : e.board = d.board := by rfl) (h4 : e.clk = d.clk := by rfl)
    (h6 : e.llk = d.llk := by rfl) (h7 : e.jtag = d.jtag := by rfl) (h8 : e.dram = d.dram := by rfl) (h9 : e.mbx = d.mbx := by rfl)
    (h10 : e.time.secs = d.time.secs := by rfl) (h11 : e.seq.live = d.seq.live := by rfl) : Spares l d e :=
  ⟨fun _ _ _ _ => by simp [Dev.reg, hr], h1, h4, h6, h7, h8, h9, h10, h11⟩

theorem calEnd {l : List Nat} (d : Dev) (h : Nat) (f : Option (Nat × Nat)) : Spares l d (d.calEnd h f) := by
  unfold Dev.calEnd
  dsimp only
  split
  · exact refl l d
  · split
    · exact refl l d
    · have hs : ∀ (d : Dev), Spares l d (match f with
        | none => d.setBit R.CAL_PROC_STATUS h true
        | some (code, pin) =>
          (if d.getF R.CAL_PROC_STATUS F.CAL_PROC_STATUS_OUTCOME = 0 then
            (d.setF R.CAL_PROC_STATUS F.CAL_PROC_STATUS_PIN pin).setF R.CAL_PROC_STATUS F.CAL_PROC_STATUS_HEARTH h else d).setF R.CAL_PROC_STATUS
            F.CAL_PROC_STATUS_OUTCOME (if d.getF R.CAL_PROC_STATUS F.CAL_PROC_STATUS_OUTCOME = 0 then code else
              min (d.getF R.CAL_PROC_STATUS F.CAL_PROC_STATUS_OUTCOME) code)) := by
        intro d
        split
        · exact setF d _ _ (.inl (by decide))
        · exact (ite ((setF d _ _ (.inl (by decide))).trans (setF _ _ _ (.inl (by decide)))) (refl l d)).trans (setF _ _ _ (.inl (by decide)))
      split
      · refine (hs d).trans ?_
        refine Spares.trans ?_ (setF _ _ _ (.inl (by decide)))
        refine Spares.trans ?_ (setF _ _ _ (.inl (by decide)))
        refine Spares.trans ?_ (setF _ _ _ (.inl (by decide)))
        exact upd
      · exact (hs d).trans upd

theorem supSeqEnd {l : List Nat} (d : Dev) (o s : Nat) : Spares l d (d.supSeqEnd o s) := by
  unfold Dev.supSeqEnd
  dsimp only
  refine Spares.trans ?_ (setF _ _ _ (.inr (.inl (by decide))))
  refine Spares.trans ?_ (setF _ _ _ (.inr (.inl (by decide))))
  refine Spares.trans ?_ (setF _ _ _ (.inr (.inl (by decide))))
  refine Spares.trans ?_ (setF _ _ _ (.inr (.inl (by decide))))
  exact upd

theorem douseEntry {l : List Nat} (d : Dev) (c s b : Nat) : Spares l d (d.douseEntry c s b) := by
  unfold Dev.douseEntry
  split
  · exact upd
  · exact of_keeps (Keeps.log d _ _ _ _ _)

theorem douseHalt {l : List Nat} (d : Dev) (s : Nat) : Spares l d (d.douseHalt s) := by
  unfold Dev.douseHalt
  dsimp only
  refine Spares.trans ?_ (foldl _ _ (fun d h => calEnd d h _))
  refine of_keeps ?_
  refine Keeps.trans ?_ (Keeps.foldl _ _ (fun d g => Keeps.ppmuDouse d g _))
  exact (Keeps.foldl _ _ (fun d s => Keeps.endSite d s _ _ _)).trans (Keeps.pinsSafe _ _)

theorem douseSeq {l : List Nat} (d : Dev) (s : Nat) : Spares l d (d.douseSeq s) := by
  unfold Dev.douseSeq
  split
  · exact ite (refl l d) (supSeqEnd d _ _)
  · exact refl l d

/-- A douse. -/
theorem douse (d : Dev) (c s b : Nat) (r : Bool) : Spares [R.FLT_DOUSE_STATUS] d (d.douse c s b r) := by
  unfold Dev.douse
  dsimp only
  split
  · exact douseEntry d _ _ _
  · unfold Dev.douseView
    dsimp only
    refine Spares.trans ?_ (setF _ _ _ (.inr (.inr (by decide))))
    refine Spares.trans ?_ (setF _ _ _ (.inr (.inr (by decide))))
    refine Spares.trans ?_ (setF _ _ _ (.inr (.inr (by decide))))
    refine Spares.trans ?_ (setF _ _ _ (.inr (.inr (by decide))))
    exact (((douseHalt d (d.closed s)).trans (douseSeq _ (d.closed s))).trans (douseEntry _ c (d.closed s) b)).trans
      (f := { ((((d.douseHalt (d.closed s)).douseSeq (d.closed s)).douseEntry c (d.closed s) b).count 2) with faults := _ }) upd

theorem latchFault (d : Dev) (b u : Nat) : Spares [R.FLT_DOUSE_STATUS, R.FLT_WORD_LO, R.FLT_FIRST] d (d.latchFault b u) := by
  unfold Dev.latchFault
  dsimp only
  have h : Spares [R.FLT_DOUSE_STATUS, R.FLT_WORD_LO, R.FLT_FIRST] d
      { (d.setBit R.FLT_WORD_LO b true) with faults := { (d.setBit R.FLT_WORD_LO b true).faults with
          units := mapSet (d.setBit R.FLT_WORD_LO b true).faults.units b u
          held := mapSet (d.setBit R.FLT_WORD_LO b true).faults.held b
            ((d.setBit R.FLT_WORD_LO b true).cfgClass b, (d.setBit R.FLT_WORD_LO b true).cfgReact b) } } :=
    Spares.trans (e := d.setBit R.FLT_WORD_LO b true) (setF d (off := R.FLT_WORD_LO) _ _ (.inr (.inr (by decide)))) upd
  exact h.trans (ite (refl _ _) (setReg _ _ (.inr (.inr (by decide)))))

theorem faultSmother {l : List Nat} (d : Dev) (b u : Nat) : Spares l d (d.faultSmother b u) := by
  unfold Dev.faultSmother
  split
  · split
    · exact of_keeps (Keeps.smotherAll _ _ _)
    · exact refl l d
  · exact refl l d

/-- A fault line. -/
theorem raise (d : Dev) (b u : Nat) : Spares [R.FLT_DOUSE_STATUS, R.FLT_WORD_LO, R.FLT_FIRST] d (d.raise b u) := by
  unfold Dev.raise
  split
  · exact refl _ d
  split
  · exact faultSmother d b u
  · have h0 : ∀ (d : Dev) (c s b : Nat), Spares [R.FLT_DOUSE_STATUS, R.FLT_WORD_LO, R.FLT_FIRST] d (d.douse c s b) :=
      fun d c s b => (douse d c s b false).mono (by simp)
    exact ((latchFault d b u).trans (ite (h0 _ _ _ _) (ite (h0 _ _ _ _) (refl _ _)))).trans (faultSmother _ _ _)

end Spares

end Sys2Proof.Machine
end

