-- ==== Sys2Proof/Laws/Rings.lean ====
section
/-! SUPPORT. What the shared operations over rings, free values and operands can do: which descriptor is next, what its taking and its
completion touch. -/

namespace Sys2Proof.Machine

set_option Elab.async false

/-! ### Free values -/

/-- A draw moves the counter and nothing else. -/
theorem drawNat_only (d : Dev) : d.drawNat.2 = { d with fresh := d.fresh + 1 } := rfl
theorem drawBool_only (d : Dev) : d.drawBool.2 = { d with fresh := d.fresh + 1 } := rfl

/-- An exact quotient draws nothing. -/
theorem divFree_exact (d : Dev) (x : Int) (n : Nat) (h : x % (n : Int) = 0) : d.divFree x n = (x / (n : Int), d) := by
  simp [Dev.divFree, h]

/-- Any other quotient is one of the two neighbours. -/
theorem divFree_near (d : Dev) (x : Int) (n : Nat) :
    (d.divFree x n).1 = x / (n : Int) ∨ (d.divFree x n).1 = x / (n : Int) + 1 := by
  by_cases h : x % (n : Int) = 0
  · exact .inl (by simp [Dev.divFree, h])
  · cases hb : Config.freeBool d.fresh <;> simp [Dev.divFree, Dev.drawBool, h, hb]

/-! ### Descriptors (spec/13 R362, R363) -/

/-- The next descriptor of a ring: the first that waits, while none executes. -/
theorem nextDesc_some {d : Dev} {n op : Nat} {q : Desc} (h : d.nextDesc n op = some q) :
    (d.ring n).current = none ∧ (∃ t, (d.ring n).waiting = q :: t) ∧ q.opcode = op := by
  unfold Dev.nextDesc at h
  split at h
  · next x t hc hw =>
      split at h
      · next ho =>
          have e : x = q := by simpa using h
          exact ⟨hc, ⟨t, e ▸ hw⟩, e ▸ ho⟩
      · cases h
  · cases h

/-- Taking a descriptor touches the rings and the audit log only. -/
theorem beginDesc_only (d : Dev) (n : Nat) (q : Desc) (keep : Bool) :
    d.beginDesc n q keep = { d with rings := (d.beginDesc n q keep).rings, audit := (d.beginDesc n q keep).audit } := by
  unfold Dev.beginDesc Dev.logDesc
  split <;> rfl

/-- A descriptor that logs nothing touches its ring only. -/
theorem beginDesc_unlogged (d : Dev) (n : Nat) (q : Desc) (keep : Bool) (h : opUnlogged q.opcode = true) :
    d.beginDesc n q keep = d.modRing n (fun r => { r with waiting := r.waiting.tail, current := if keep then some q else none }) := by
  simp [Dev.beginDesc, Dev.logDesc, h]

/-- A load without a descriptor to take has no effect. -/
theorem withLoad_none {d : Dev} {n op : Nat} {remote : RemoteRead} {k : Dev → Desc → List Byte → Dev} (h : d.nextDesc n op = none) :
    d.withLoad n op remote k = d := by
  simp [Dev.withLoad, h]

/-! ### Completions and operands (spec/13 R367, R370, spec/14 R385) -/

/-- A completion touches the rings only. -/
theorem complete_only (d : Dev) (n : Nat) (q : Desc) (st a b : Nat) (lost : Bool) :
    d.complete n q st a b lost = { d with rings := (d.complete n q st a b lost).rings } := rfl

/-- An operand touches the offers of the draught scheduler only. -/
theorem offer_only (d : Dev) (s src : Nat) (p : List Byte) :
    d.offer s src p = { d with drt := { d.drt with offers := (d.offer s src p).drt.offers } } := rfl

/-- A completion waits at the end of its ring's completions. -/
theorem post_held (d : Dev) (n : Nat) (c : Completion) : ((d.post n c).ring n).held = (d.ring n).held ++ [c] := by
  simp only [Dev.post, Dev.modRing, Dev.ring]
  rw [mapGet_mapSet_same]

end Sys2Proof.Machine
end

