-- ==== Sys2Proof/Laws/State.lean ====
section
/-! SUPPORT. One lemma per field per update of the state and of the device. -/

namespace Sys2Proof.Machine

set_option Elab.async false

@[simp] theorem put_pending (s : State) (d : Dev) : (s.put d).pending = s.pending := rfl
@[simp] theorem put_dev (s : State) (d : Dev) : (s.put d).dev = d.canon := rfl
@[simp] theorem act_eq (s : State) (f : Dev → Dev) : s.act f = .next (s.put (f s.dev)) := rfl

@[simp] theorem canon_regs (d : Dev) : d.canon.regs = d.regs := rfl
@[simp] theorem canon_poison (d : Dev) : d.canon.poison = d.poison := rfl
@[simp] theorem canon_board (d : Dev) : d.canon.board = d.board := rfl
@[simp] theorem canon_faults (d : Dev) : d.canon.faults = d.faults := rfl
@[simp] theorem canon_power (d : Dev) : d.canon.power = d.power := rfl
@[simp] theorem canon_time (d : Dev) : d.canon.time = d.time := rfl
@[simp] theorem canon_audit (d : Dev) : d.canon.audit = d.audit := rfl
@[simp] theorem canon_seq (d : Dev) : d.canon.seq = d.seq := rfl
@[simp] theorem canon_rings (d : Dev) : d.canon.rings = d.rings := rfl
@[simp] theorem canon_flue (d : Dev) : d.canon.flue = d.flue := rfl
@[simp] theorem canon_tmu (d : Dev) : d.canon.tmu = d.tmu := rfl
@[simp] theorem canon_clk (d : Dev) : d.canon.clk = d.clk := rfl
@[simp] theorem canon_drt (d : Dev) : d.canon.drt = d.drt := rfl
@[simp] theorem canon_mbx (d : Dev) : d.canon.mbx = d.mbx := rfl
@[simp] theorem canon_dram (d : Dev) : d.canon.dram = d.dram := rfl
@[simp] theorem canon_cal (d : Dev) : d.canon.cal = d.cal := rfl
@[simp] theorem canon_llk (d : Dev) : d.canon.llk = d.llk := rfl
@[simp] theorem canon_jtag (d : Dev) : d.canon.jtag = d.jtag := rfl
@[simp] theorem canon_outbox (d : Dev) : d.canon.outbox = d.outbox := rfl
@[simp] theorem canon_fresh (d : Dev) : d.canon.fresh = d.fresh := rfl
@[simp] theorem canon_mem (d : Dev) : d.canon.mem = memCanon d.mem := rfl

@[simp] theorem setReg_mem (d : Dev) (off : Nat) (w : Word) : (d.setReg off w).mem = d.mem := rfl
@[simp] theorem setReg_poison (d : Dev) (off : Nat) (w : Word) : (d.setReg off w).poison = d.poison := rfl
@[simp] theorem setReg_board (d : Dev) (off : Nat) (w : Word) : (d.setReg off w).board = d.board := rfl
@[simp] theorem setReg_faults (d : Dev) (off : Nat) (w : Word) : (d.setReg off w).faults = d.faults := rfl
@[simp] theorem setReg_power (d : Dev) (off : Nat) (w : Word) : (d.setReg off w).power = d.power := rfl
@[simp] theorem setReg_time (d : Dev) (off : Nat) (w : Word) : (d.setReg off w).time = d.time := rfl
@[simp] theorem setReg_audit (d : Dev) (off : Nat) (w : Word) : (d.setReg off w).audit = d.audit := rfl
@[simp] theorem setReg_seq (d : Dev) (off : Nat) (w : Word) : (d.setReg off w).seq = d.seq := rfl
@[simp] theorem setReg_rings (d : Dev) (off : Nat) (w : Word) : (d.setReg off w).rings = d.rings := rfl
@[simp] theorem setReg_flue (d : Dev) (off : Nat) (w : Word) : (d.setReg off w).flue = d.flue := rfl
@[simp] theorem setReg_tmu (d : Dev) (off : Nat) (w : Word) : (d.setReg off w).tmu = d.tmu := rfl
@[simp] theorem setReg_clk (d : Dev) (off : Nat) (w : Word) : (d.setReg off w).clk = d.clk := rfl
@[simp] theorem setReg_drt (d : Dev) (off : Nat) (w : Word) : (d.setReg off w).drt = d.drt := rfl
@[simp] theorem setReg_mbx (d : Dev) (off : Nat) (w : Word) : (d.setReg off w).mbx = d.mbx := rfl
@[simp] theorem setReg_dram (d : Dev) (off : Nat) (w : Word) : (d.setReg off w).dram = d.dram := rfl
@[simp] theorem setReg_cal (d : Dev) (off : Nat) (w : Word) : (d.setReg off w).cal = d.cal := rfl
@[simp] theorem setReg_llk (d : Dev) (off : Nat) (w : Word) : (d.setReg off w).llk = d.llk := rfl
@[simp] theorem setReg_jtag (d : Dev) (off : Nat) (w : Word) : (d.setReg off w).jtag = d.jtag := rfl
@[simp] theorem setReg_outbox (d : Dev) (off : Nat) (w : Word) : (d.setReg off w).outbox = d.outbox := rfl
@[simp] theorem setReg_fresh (d : Dev) (off : Nat) (w : Word) : (d.setReg off w).fresh = d.fresh := rfl

@[simp] theorem setF_mem (d : Dev) (off : Nat) (l : Fld) (v : Nat) : (d.setF off l v).mem = d.mem := rfl
@[simp] theorem setF_poison (d : Dev) (off : Nat) (l : Fld) (v : Nat) : (d.setF off l v).poison = d.poison := rfl
@[simp] theorem setF_board (d : Dev) (off : Nat) (l : Fld) (v : Nat) : (d.setF off l v).board = d.board := rfl
@[simp] theorem setF_faults (d : Dev) (off : Nat) (l : Fld) (v : Nat) : (d.setF off l v).faults = d.faults := rfl
@[simp] theorem setF_power (d : Dev) (off : Nat) (l : Fld) (v : Nat) : (d.setF off l v).power = d.power := rfl
@[simp] theorem setF_time (d : Dev) (off : Nat) (l : Fld) (v : Nat) : (d.setF off l v).time = d.time := rfl
@[simp] theorem setF_audit (d : Dev) (off : Nat) (l : Fld) (v : Nat) : (d.setF off l v).audit = d.audit := rfl
@[simp] theorem setF_seq (d : Dev) (off : Nat) (l : Fld) (v : Nat) : (d.setF off l v).seq = d.seq := rfl
@[simp] theorem setF_rings (d : Dev) (off : Nat) (l : Fld) (v : Nat) : (d.setF off l v).rings = d.rings := rfl
@[simp] theorem setF_flue (d : Dev) (off : Nat) (l : Fld) (v : Nat) : (d.setF off l v).flue = d.flue := rfl
@[simp] theorem setF_tmu (d : Dev) (off : Nat) (l : Fld) (v : Nat) : (d.setF off l v).tmu = d.tmu := rfl
@[simp] theorem setF_clk (d : Dev) (off : Nat) (l : Fld) (v : Nat) : (d.setF off l v).clk = d.clk := rfl
@[simp] theorem setF_drt (d : Dev) (off : Nat) (l : Fld) (v : Nat) : (d.setF off l v).drt = d.drt := rfl
@[simp] theorem setF_mbx (d : Dev) (off : Nat) (l : Fld) (v : Nat) : (d.setF off l v).mbx = d.mbx := rfl
@[simp] theorem setF_dram (d : Dev) (off : Nat) (l : Fld) (v : Nat) : (d.setF off l v).dram = d.dram := rfl
@[simp] theorem setF_cal (d : Dev) (off : Nat) (l : Fld) (v : Nat) : (d.setF off l v).cal = d.cal := rfl
@[simp] theorem setF_llk (d : Dev) (off : Nat) (l : Fld) (v : Nat) : (d.setF off l v).llk = d.llk := rfl
@[simp] theorem setF_jtag (d : Dev) (off : Nat) (l : Fld) (v : Nat) : (d.setF off l v).jtag = d.jtag := rfl
@[simp] theorem setF_outbox (d : Dev) (off : Nat) (l : Fld) (v : Nat) : (d.setF off l v).outbox = d.outbox := rfl
@[simp] theorem setF_fresh (d : Dev) (off : Nat) (l : Fld) (v : Nat) : (d.setF off l v).fresh = d.fresh := rfl

@[simp] theorem latch_mem (d : Dev) (off : Nat) (l : Fld) : (d.latch off l).mem = d.mem := rfl
@[simp] theorem latch_poison (d : Dev) (off : Nat) (l : Fld) : (d.latch off l).poison = d.poison := rfl
@[simp] theorem latch_board (d : Dev) (off : Nat) (l : Fld) : (d.latch off l).board = d.board := rfl
@[simp] theorem latch_faults (d : Dev) (off : Nat) (l : Fld) : (d.latch off l).faults = d.faults := rfl
@[simp] theorem latch_power (d : Dev) (off : Nat) (l : Fld) : (d.latch off l).power = d.power := rfl
@[simp] theorem latch_time (d : Dev) (off : Nat) (l : Fld) : (d.latch off l).time = d.time := rfl
@[simp] theorem latch_audit (d : Dev) (off : Nat) (l : Fld) : (d.latch off l).audit = d.audit := rfl
@[simp] theorem latch_seq (d : Dev) (off : Nat) (l : Fld) : (d.latch off l).seq = d.seq := rfl
@[simp] theorem latch_rings (d : Dev) (off : Nat) (l : Fld) : (d.latch off l).rings = d.rings := rfl
@[simp] theorem latch_flue (d : Dev) (off : Nat) (l : Fld) : (d.latch off l).flue = d.flue := rfl
@[simp] theorem latch_tmu (d : Dev) (off : Nat) (l : Fld) : (d.latch off l).tmu = d.tmu := rfl
@[simp] theorem latch_clk (d : Dev) (off : Nat) (l : Fld) : (d.latch off l).clk = d.clk := rfl
@[simp] theorem latch_drt (d : Dev) (off : Nat) (l : Fld) : (d.latch off l).drt = d.drt := rfl
@[simp] theorem latch_mbx (d : Dev) (off : Nat) (l : Fld) : (d.latch off l).mbx = d.mbx := rfl
@[simp] theorem latch_dram (d : Dev) (off : Nat) (l : Fld) : (d.latch off l).dram = d.dram := rfl
@[simp] theorem latch_cal (d : Dev) (off : Nat) (l : Fld) : (d.latch off l).cal = d.cal := rfl
@[simp] theorem latch_llk (d : Dev) (off : Nat) (l : Fld) : (d.latch off l).llk = d.llk := rfl
@[simp] theorem latch_jtag (d : Dev) (off : Nat) (l : Fld) : (d.latch off l).jtag = d.jtag := rfl
@[simp] theorem latch_outbox (d : Dev) (off : Nat) (l : Fld) : (d.latch off l).outbox = d.outbox := rfl
@[simp] theorem latch_fresh (d : Dev) (off : Nat) (l : Fld) : (d.latch off l).fresh = d.fresh := rfl

@[simp] theorem bump_mem (d : Dev) (off : Nat) (l : Fld) (n : Nat) : (d.bump off l n).mem = d.mem := rfl
@[simp] theorem bump_poison (d : Dev) (off : Nat) (l : Fld) (n : Nat) : (d.bump off l n).poison = d.poison := rfl
@[simp] theorem bump_board (d : Dev) (off : Nat) (l : Fld) (n : Nat) : (d.bump off l n).board = d.board := rfl
@[simp] theorem bump_faults (d : Dev) (off : Nat) (l : Fld) (n : Nat) : (d.bump off l n).faults = d.faults := rfl
@[simp] theorem bump_power (d : Dev) (off : Nat) (l : Fld) (n : Nat) : (d.bump off l n).power = d.power := rfl
@[simp] theorem bump_time (d : Dev) (off : Nat) (l : Fld) (n : Nat) : (d.bump off l n).time = d.time := rfl
@[simp] theorem bump_audit (d : Dev) (off : Nat) (l : Fld) (n : Nat) : (d.bump off l n).audit = d.audit := rfl
@[simp] theorem bump_seq (d : Dev) (off : Nat) (l : Fld) (n : Nat) : (d.bump off l n).seq = d.seq := rfl
@[simp] theorem bump_rings (d : Dev) (off : Nat) (l : Fld) (n : Nat) : (d.bump off l n).rings = d.rings := rfl
@[simp] theorem bump_flue (d : Dev) (off : Nat) (l : Fld) (n : Nat) : (d.bump off l n).flue = d.flue := rfl
@[simp] theorem bump_tmu (d : Dev) (off : Nat) (l : Fld) (n : Nat) : (d.bump off l n).tmu = d.tmu := rfl
@[simp] theorem bump_clk (d : Dev) (off : Nat) (l : Fld) (n : Nat) : (d.bump off l n).clk = d.clk := rfl
@[simp] theorem bump_drt (d : Dev) (off : Nat) (l : Fld) (n : Nat) : (d.bump off l n).drt = d.drt := rfl
@[simp] theorem bump_mbx (d : Dev) (off : Nat) (l : Fld) (n : Nat) : (d.bump off l n).mbx = d.mbx := rfl
@[simp] theorem bump_dram (d : Dev) (off : Nat) (l : Fld) (n : Nat) : (d.bump off l n).dram = d.dram := rfl
@[simp] theorem bump_cal (d : Dev) (off : Nat) (l : Fld) (n : Nat) : (d.bump off l n).cal = d.cal := rfl
@[simp] theorem bump_llk (d : Dev) (off : Nat) (l : Fld) (n : Nat) : (d.bump off l n).llk = d.llk := rfl
@[simp] theorem bump_jtag (d : Dev) (off : Nat) (l : Fld) (n : Nat) : (d.bump off l n).jtag = d.jtag := rfl
@[simp] theorem bump_outbox (d : Dev) (off : Nat) (l : Fld) (n : Nat) : (d.bump off l n).outbox = d.outbox := rfl
@[simp] theorem bump_fresh (d : Dev) (off : Nat) (l : Fld) (n : Nat) : (d.bump off l n).fresh = d.fresh := rfl

@[simp] theorem out_regs (d : Dev) (o : Output) : (d.out o).regs = d.regs := rfl
@[simp] theorem out_mem (d : Dev) (o : Output) : (d.out o).mem = d.mem := rfl
@[simp] theorem out_poison (d : Dev) (o : Output) : (d.out o).poison = d.poison := rfl
@[simp] theorem out_board (d : Dev) (o : Output) : (d.out o).board = d.board := rfl
@[simp] theorem out_faults (d : Dev) (o : Output) : (d.out o).faults = d.faults := rfl
@[simp] theorem out_power (d : Dev) (o : Output) : (d.out o).power = d.power := rfl
@[simp] theorem out_time (d : Dev) (o : Output) : (d.out o).time = d.time := rfl
@[simp] theorem out_audit (d : Dev) (o : Output) : (d.out o).audit = d.audit := rfl
@[simp] theorem out_seq (d : Dev) (o : Output) : (d.out o).seq = d.seq := rfl
@[simp] theorem out_rings (d : Dev) (o : Output) : (d.out o).rings = d.rings := rfl
@[simp] theorem out_flue (d : Dev) (o : Output) : (d.out o).flue = d.flue := rfl
@[simp] theorem out_tmu (d : Dev) (o : Output) : (d.out o).tmu = d.tmu := rfl
@[simp] theorem out_clk (d : Dev) (o : Output) : (d.out o).clk = d.clk := rfl
@[simp] theorem out_drt (d : Dev) (o : Output) : (d.out o).drt = d.drt := rfl
@[simp] theorem out_mbx (d : Dev) (o : Output) : (d.out o).mbx = d.mbx := rfl
@[simp] theorem out_dram (d : Dev) (o : Output) : (d.out o).dram = d.dram := rfl
@[simp] theorem out_cal (d : Dev) (o : Output) : (d.out o).cal = d.cal := rfl
@[simp] theorem out_llk (d : Dev) (o : Output) : (d.out o).llk = d.llk := rfl
@[simp] theorem out_jtag (d : Dev) (o : Output) : (d.out o).jtag = d.jtag := rfl
@[simp] theorem out_fresh (d : Dev) (o : Output) : (d.out o).fresh = d.fresh := rfl
@[simp] theorem out_outbox (d : Dev) (o : Output) : (d.out o).outbox = d.outbox ++ [o] := rfl

@[simp] theorem write_regs (d : Dev) (a : Nat) (bs : List Byte) : (d.write a bs).regs = d.regs := rfl
@[simp] theorem write_board (d : Dev) (a : Nat) (bs : List Byte) : (d.write a bs).board = d.board := rfl
@[simp] theorem write_faults (d : Dev) (a : Nat) (bs : List Byte) : (d.write a bs).faults = d.faults := rfl
@[simp] theorem write_power (d : Dev) (a : Nat) (bs : List Byte) : (d.write a bs).power = d.power := rfl
@[simp] theorem write_time (d : Dev) (a : Nat) (bs : List Byte) : (d.write a bs).time = d.time := rfl
@[simp] theorem write_audit (d : Dev) (a : Nat) (bs : List Byte) : (d.write a bs).audit = d.audit := rfl
@[simp] theorem write_seq (d : Dev) (a : Nat) (bs : List Byte) : (d.write a bs).seq = d.seq := rfl
@[simp] theorem write_rings (d : Dev) (a : Nat) (bs : List Byte) : (d.write a bs).rings = d.rings := rfl
@[simp] theorem write_flue (d : Dev) (a : Nat) (bs : List Byte) : (d.write a bs).flue = d.flue := rfl
@[simp] theorem write_tmu (d : Dev) (a : Nat) (bs : List Byte) : (d.write a bs).tmu = d.tmu := rfl
@[simp] theorem write_clk (d : Dev) (a : Nat) (bs : List Byte) : (d.write a bs).clk = d.clk := rfl
@[simp] theorem write_drt (d : Dev) (a : Nat) (bs : List Byte) : (d.write a bs).drt = d.drt := rfl
@[simp] theorem write_mbx (d : Dev) (a : Nat) (bs : List Byte) : (d.write a bs).mbx = d.mbx := rfl
@[simp] theorem write_dram (d : Dev) (a : Nat) (bs : List Byte) : (d.write a bs).dram = d.dram := rfl
@[simp] theorem write_cal (d : Dev) (a : Nat) (bs : List Byte) : (d.write a bs).cal = d.cal := rfl
@[simp] theorem write_llk (d : Dev) (a : Nat) (bs : List Byte) : (d.write a bs).llk = d.llk := rfl
@[simp] theorem write_jtag (d : Dev) (a : Nat) (bs : List Byte) : (d.write a bs).jtag = d.jtag := rfl
@[simp] theorem write_outbox (d : Dev) (a : Nat) (bs : List Byte) : (d.write a bs).outbox = d.outbox := rfl
@[simp] theorem write_fresh (d : Dev) (a : Nat) (bs : List Byte) : (d.write a bs).fresh = d.fresh := rfl
@[simp] theorem write_mem (d : Dev) (a : Nat) (bs : List Byte) : (d.write a bs).mem = memWrite d.mem a bs := rfl

@[simp] theorem drawBool_regs (d : Dev) : d.drawBool.2.regs = d.regs := rfl
@[simp] theorem drawBool_mem (d : Dev) : d.drawBool.2.mem = d.mem := rfl
@[simp] theorem drawBool_poison (d : Dev) : d.drawBool.2.poison = d.poison := rfl
@[simp] theorem drawBool_board (d : Dev) : d.drawBool.2.board = d.board := rfl
@[simp] theorem drawBool_faults (d : Dev) : d.drawBool.2.faults = d.faults := rfl
@[simp] theorem drawBool_power (d : Dev) : d.drawBool.2.power = d.power := rfl
@[simp] theorem drawBool_time (d : Dev) : d.drawBool.2.time = d.time := rfl
@[simp] theorem drawBool_audit (d : Dev) : d.drawBool.2.audit = d.audit := rfl
@[simp] theorem drawBool_seq (d : Dev) : d.drawBool.2.seq = d.seq := rfl
@[simp] theorem drawBool_rings (d : Dev) : d.drawBool.2.rings = d.rings := rfl
@[simp] theorem drawBool_flue (d : Dev) : d.drawBool.2.flue = d.flue := rfl
@[simp] theorem drawBool_tmu (d : Dev) : d.drawBool.2.tmu = d.tmu := rfl
@[simp] theorem drawBool_clk (d : Dev) : d.drawBool.2.clk = d.clk := rfl
@[simp] theorem drawBool_drt (d : Dev) : d.drawBool.2.drt = d.drt := rfl
@[simp] theorem drawBool_mbx (d : Dev) : d.drawBool.2.mbx = d.mbx := rfl
@[simp] theorem drawBool_dram (d : Dev) : d.drawBool.2.dram = d.dram := rfl
@[simp] theorem drawBool_cal (d : Dev) : d.drawBool.2.cal = d.cal := rfl
@[simp] theorem drawBool_llk (d : Dev) : d.drawBool.2.llk = d.llk := rfl
@[simp] theorem drawBool_jtag (d : Dev) : d.drawBool.2.jtag = d.jtag := rfl
@[simp] theorem drawBool_outbox (d : Dev) : d.drawBool.2.outbox = d.outbox := rfl
@[simp] theorem drawNat_regs (d : Dev) : d.drawNat.2.regs = d.regs := rfl
@[simp] theorem drawNat_mem (d : Dev) : d.drawNat.2.mem = d.mem := rfl
@[simp] theorem drawNat_poison (d : Dev) : d.drawNat.2.poison = d.poison := rfl
@[simp] theorem drawNat_board (d : Dev) : d.drawNat.2.board = d.board := rfl
@[simp] theorem drawNat_faults (d : Dev) : d.drawNat.2.faults = d.faults := rfl
@[simp] theorem drawNat_power (d : Dev) : d.drawNat.2.power = d.power := rfl
@[simp] theorem drawNat_time (d : Dev) : d.drawNat.2.time = d.time := rfl
@[simp] theorem drawNat_audit (d : Dev) : d.drawNat.2.audit = d.audit := rfl
@[simp] theorem drawNat_seq (d : Dev) : d.drawNat.2.seq = d.seq := rfl
@[simp] theorem drawNat_rings (d : Dev) : d.drawNat.2.rings = d.rings := rfl
@[simp] theorem drawNat_flue (d : Dev) : d.drawNat.2.flue = d.flue := rfl
@[simp] theorem drawNat_tmu (d : Dev) : d.drawNat.2.tmu = d.tmu := rfl
@[simp] theorem drawNat_clk (d : Dev) : d.drawNat.2.clk = d.clk := rfl
@[simp] theorem drawNat_drt (d : Dev) : d.drawNat.2.drt = d.drt := rfl
@[simp] theorem drawNat_mbx (d : Dev) : d.drawNat.2.mbx = d.mbx := rfl
@[simp] theorem drawNat_dram (d : Dev) : d.drawNat.2.dram = d.dram := rfl
@[simp] theorem drawNat_cal (d : Dev) : d.drawNat.2.cal = d.cal := rfl
@[simp] theorem drawNat_llk (d : Dev) : d.drawNat.2.llk = d.llk := rfl
@[simp] theorem drawNat_jtag (d : Dev) : d.drawNat.2.jtag = d.jtag := rfl
@[simp] theorem drawNat_outbox (d : Dev) : d.drawNat.2.outbox = d.outbox := rfl

@[simp] theorem modSite_regs (d : Dev) (n : Nat) (f : Site → Site) : (d.modSite n f).regs = d.regs := rfl
@[simp] theorem modSite_mem (d : Dev) (n : Nat) (f : Site → Site) : (d.modSite n f).mem = d.mem := rfl
@[simp] theorem modSite_poison (d : Dev) (n : Nat) (f : Site → Site) : (d.modSite n f).poison = d.poison := rfl
@[simp] theorem modSite_board (d : Dev) (n : Nat) (f : Site → Site) : (d.modSite n f).board = d.board := rfl
@[simp] theorem modSite_faults (d : Dev) (n : Nat) (f : Site → Site) : (d.modSite n f).faults = d.faults := rfl
@[simp] theorem modSite_power (d : Dev) (n : Nat) (f : Site → Site) : (d.modSite n f).power = d.power := rfl
@[simp] theorem modSite_time (d : Dev) (n : Nat) (f : Site → Site) : (d.modSite n f).time = d.time := rfl
@[simp] theorem modSite_audit (d : Dev) (n : Nat) (f : Site → Site) : (d.modSite n f).audit = d.audit := rfl
@[simp] theorem modSite_rings (d : Dev) (n : Nat) (f : Site → Site) : (d.modSite n f).rings = d.rings := rfl
@[simp] theorem modSite_flue (d : Dev) (n : Nat) (f : Site → Site) : (d.modSite n f).flue = d.flue := rfl
@[simp] theorem modSite_tmu (d : Dev) (n : Nat) (f : Site → Site) : (d.modSite n f).tmu = d.tmu := rfl
@[simp] theorem modSite_clk (d : Dev) (n : Nat) (f : Site → Site) : (d.modSite n f).clk = d.clk := rfl
@[simp] theorem modSite_drt (d : Dev) (n : Nat) (f : Site → Site) : (d.modSite n f).drt = d.drt := rfl
@[simp] theorem modSite_mbx (d : Dev) (n : Nat) (f : Site → Site) : (d.modSite n f).mbx = d.mbx := rfl
@[simp] theorem modSite_dram (d : Dev) (n : Nat) (f : Site → Site) : (d.modSite n f).dram = d.dram := rfl
@[simp] theorem modSite_cal (d : Dev) (n : Nat) (f : Site → Site) : (d.modSite n f).cal = d.cal := rfl
@[simp] theorem modSite_llk (d : Dev) (n : Nat) (f : Site → Site) : (d.modSite n f).llk = d.llk := rfl
@[simp] theorem modSite_jtag (d : Dev) (n : Nat) (f : Site → Site) : (d.modSite n f).jtag = d.jtag := rfl
@[simp] theorem modSite_outbox (d : Dev) (n : Nat) (f : Site → Site) : (d.modSite n f).outbox = d.outbox := rfl
@[simp] theorem modSite_fresh (d : Dev) (n : Nat) (f : Site → Site) : (d.modSite n f).fresh = d.fresh := rfl

@[simp] theorem modRing_regs (d : Dev) (n : Nat) (f : RingSt → RingSt) : (d.modRing n f).regs = d.regs := rfl
@[simp] theorem modRing_mem (d : Dev) (n : Nat) (f : RingSt → RingSt) : (d.modRing n f).mem = d.mem := rfl
@[simp] theorem modRing_poison (d : Dev) (n : Nat) (f : RingSt → RingSt) : (d.modRing n f).poison = d.poison := rfl
@[simp] theorem modRing_board (d : Dev) (n : Nat) (f : RingSt → RingSt) : (d.modRing n f).board = d.board := rfl
@[simp] theorem modRing_faults (d : Dev) (n : Nat) (f : RingSt → RingSt) : (d.modRing n f).faults = d.faults := rfl
@[simp] theorem modRing_power (d : Dev) (n : Nat) (f : RingSt → RingSt) : (d.modRing n f).power = d.power := rfl
@[simp] theorem modRing_time (d : Dev) (n : Nat) (f : RingSt → RingSt) : (d.modRing n f).time = d.time := rfl
@[simp] theorem modRing_audit (d : Dev) (n : Nat) (f : RingSt → RingSt) : (d.modRing n f).audit = d.audit := rfl
@[simp] theorem modRing_seq (d : Dev) (n : Nat) (f : RingSt → RingSt) : (d.modRing n f).seq = d.seq := rfl
@[simp] theorem modRing_flue (d : Dev) (n : Nat) (f : RingSt → RingSt) : (d.modRing n f).flue = d.flue := rfl
@[simp] theorem modRing_tmu (d : Dev) (n : Nat) (f : RingSt → RingSt) : (d.modRing n f).tmu = d.tmu := rfl
@[simp] theorem modRing_clk (d : Dev) (n : Nat) (f : RingSt → RingSt) : (d.modRing n f).clk = d.clk := rfl
@[simp] theorem modRing_drt (d : Dev) (n : Nat) (f : RingSt → RingSt) : (d.modRing n f).drt = d.drt := rfl
@[simp] theorem modRing_mbx (d : Dev) (n : Nat) (f : RingSt → RingSt) : (d.modRing n f).mbx = d.mbx := rfl
@[simp] theorem modRing_dram (d : Dev) (n : Nat) (f : RingSt → RingSt) : (d.modRing n f).dram = d.dram := rfl
@[simp] theorem modRing_cal (d : Dev) (n : Nat) (f : RingSt → RingSt) : (d.modRing n f).cal = d.cal := rfl
@[simp] theorem modRing_llk (d : Dev) (n : Nat) (f : RingSt → RingSt) : (d.modRing n f).llk = d.llk := rfl
@[simp] theorem modRing_jtag (d : Dev) (n : Nat) (f : RingSt → RingSt) : (d.modRing n f).jtag = d.jtag := rfl
@[simp] theorem modRing_outbox (d : Dev) (n : Nat) (f : RingSt → RingSt) : (d.modRing n f).outbox = d.outbox := rfl
@[simp] theorem modRing_fresh (d : Dev) (n : Nat) (f : RingSt → RingSt) : (d.modRing n f).fresh = d.fresh := rfl

@[simp] theorem modGrate_regs (d : Dev) (g : Nat) (f : Grate → Grate) : (d.modGrate g f).regs = d.regs := rfl
@[simp] theorem modGrate_mem (d : Dev) (g : Nat) (f : Grate → Grate) : (d.modGrate g f).mem = d.mem := rfl
@[simp] theorem modGrate_poison (d : Dev) (g : Nat) (f : Grate → Grate) : (d.modGrate g f).poison = d.poison := rfl
@[simp] theorem modGrate_board (d : Dev) (g : Nat) (f : Grate → Grate) : (d.modGrate g f).board = d.board := rfl
@[simp] theorem modGrate_faults (d : Dev) (g : Nat) (f : Grate → Grate) : (d.modGrate g f).faults = d.faults := rfl
@[simp] theorem modGrate_power (d : Dev) (g : Nat) (f : Grate → Grate) : (d.modGrate g f).power = d.power := rfl
@[simp] theorem modGrate_time (d : Dev) (g : Nat) (f : Grate → Grate) : (d.modGrate g f).time = d.time := rfl
@[simp] theorem modGrate_audit (d : Dev) (g : Nat) (f : Grate → Grate) : (d.modGrate g f).audit = d.audit := rfl
@[simp] theorem modGrate_rings (d : Dev) (g : Nat) (f : Grate → Grate) : (d.modGrate g f).rings = d.rings := rfl
@[simp] theorem modGrate_flue (d : Dev) (g : Nat) (f : Grate → Grate) : (d.modGrate g f).flue = d.flue := rfl
@[simp] theorem modGrate_tmu (d : Dev) (g : Nat) (f : Grate → Grate) : (d.modGrate g f).tmu = d.tmu := rfl
@[simp] theorem modGrate_clk (d : Dev) (g : Nat) (f : Grate → Grate) : (d.modGrate g f).clk = d.clk := rfl
@[simp] theorem modGrate_drt (d : Dev) (g : Nat) (f : Grate → Grate) : (d.modGrate g f).drt = d.drt := rfl
@[simp] theorem modGrate_mbx (d : Dev) (g : Nat) (f : Grate → Grate) : (d.modGrate g f).mbx = d.mbx := rfl
@[simp] theorem modGrate_dram (d : Dev) (g : Nat) (f : Grate → Grate) : (d.modGrate g f).dram = d.dram := rfl
@[simp] theorem modGrate_cal (d : Dev) (g : Nat) (f : Grate → Grate) : (d.modGrate g f).cal = d.cal := rfl
@[simp] theorem modGrate_llk (d : Dev) (g : Nat) (f : Grate → Grate) : (d.modGrate g f).llk = d.llk := rfl
@[simp] theorem modGrate_jtag (d : Dev) (g : Nat) (f : Grate → Grate) : (d.modGrate g f).jtag = d.jtag := rfl
@[simp] theorem modGrate_outbox (d : Dev) (g : Nat) (f : Grate → Grate) : (d.modGrate g f).outbox = d.outbox := rfl
@[simp] theorem modGrate_fresh (d : Dev) (g : Nat) (f : Grate → Grate) : (d.modGrate g f).fresh = d.fresh := rfl

@[simp] theorem modChan_regs (d : Dev) (g : Nat) (f : Chan → Chan) : (d.modChan g f).regs = d.regs := rfl
@[simp] theorem modChan_mem (d : Dev) (g : Nat) (f : Chan → Chan) : (d.modChan g f).mem = d.mem := rfl
@[simp] theorem modChan_poison (d : Dev) (g : Nat) (f : Chan → Chan) : (d.modChan g f).poison = d.poison := rfl
@[simp] theorem modChan_board (d : Dev) (g : Nat) (f : Chan → Chan) : (d.modChan g f).board = d.board := rfl
@[simp] theorem modChan_faults (d : Dev) (g : Nat) (f : Chan → Chan) : (d.modChan g f).faults = d.faults := rfl
@[simp] theorem modChan_power (d : Dev) (g : Nat) (f : Chan → Chan) : (d.modChan g f).power = d.power := rfl
@[simp] theorem modChan_time (d : Dev) (g : Nat) (f : Chan → Chan) : (d.modChan g f).time = d.time := rfl
@[simp] theorem modChan_audit (d : Dev) (g : Nat) (f : Chan → Chan) : (d.modChan g f).audit = d.audit := rfl
@[simp] theorem modChan_rings (d : Dev) (g : Nat) (f : Chan → Chan) : (d.modChan g f).rings = d.rings := rfl
@[simp] theorem modChan_flue (d : Dev) (g : Nat) (f : Chan → Chan) : (d.modChan g f).flue = d.flue := rfl
@[simp] theorem modChan_tmu (d : Dev) (g : Nat) (f : Chan → Chan) : (d.modChan g f).tmu = d.tmu := rfl
@[simp] theorem modChan_clk (d : Dev) (g : Nat) (f : Chan → Chan) : (d.modChan g f).clk = d.clk := rfl
@[simp] theorem modChan_drt (d : Dev) (g : Nat) (f : Chan → Chan) : (d.modChan g f).drt = d.drt := rfl
@[simp] theorem modChan_mbx (d : Dev) (g : Nat) (f : Chan → Chan) : (d.modChan g f).mbx = d.mbx := rfl
@[simp] theorem modChan_dram (d : Dev) (g : Nat) (f : Chan → Chan) : (d.modChan g f).dram = d.dram := rfl
@[simp] theorem modChan_cal (d : Dev) (g : Nat) (f : Chan → Chan) : (d.modChan g f).cal = d.cal := rfl
@[simp] theorem modChan_llk (d : Dev) (g : Nat) (f : Chan → Chan) : (d.modChan g f).llk = d.llk := rfl
@[simp] theorem modChan_jtag (d : Dev) (g : Nat) (f : Chan → Chan) : (d.modChan g f).jtag = d.jtag := rfl
@[simp] theorem modChan_outbox (d : Dev) (g : Nat) (f : Chan → Chan) : (d.modChan g f).outbox = d.outbox := rfl
@[simp] theorem modChan_fresh (d : Dev) (g : Nat) (f : Chan → Chan) : (d.modChan g f).fresh = d.fresh := rfl

@[simp] theorem modHearth_regs (d : Dev) (g : Nat) (f : Hearth → Hearth) : (d.modHearth g f).regs = d.regs := rfl
@[simp] theorem modHearth_mem (d : Dev) (g : Nat) (f : Hearth → Hearth) : (d.modHearth g f).mem = d.mem := rfl
@[simp] theorem modHearth_poison (d : Dev) (g : Nat) (f : Hearth → Hearth) : (d.modHearth g f).poison = d.poison := rfl
@[simp] theorem modHearth_board (d : Dev) (g : Nat) (f : Hearth → Hearth) : (d.modHearth g f).board = d.board := rfl
@[simp] theorem modHearth_faults (d : Dev) (g : Nat) (f : Hearth → Hearth) : (d.modHearth g f).faults = d.faults := rfl
@[simp] theorem modHearth_power (d : Dev) (g : Nat) (f : Hearth → Hearth) : (d.modHearth g f).power = d.power := rfl
@[simp] theorem modHearth_time (d : Dev) (g : Nat) (f : Hearth → Hearth) : (d.modHearth g f).time = d.time := rfl
@[simp] theorem modHearth_audit (d : Dev) (g : Nat) (f : Hearth → Hearth) : (d.modHearth g f).audit = d.audit := rfl
@[simp] theorem modHearth_rings (d : Dev) (g : Nat) (f : Hearth → Hearth) : (d.modHearth g f).rings = d.rings := rfl
@[simp] theorem modHearth_flue (d : Dev) (g : Nat) (f : Hearth → Hearth) : (d.modHearth g f).flue = d.flue := rfl
@[simp] theorem modHearth_tmu (d : Dev) (g : Nat) (f : Hearth → Hearth) : (d.modHearth g f).tmu = d.tmu := rfl
@[simp] theorem modHearth_clk (d : Dev) (g : Nat) (f : Hearth → Hearth) : (d.modHearth g f).clk = d.clk := rfl
@[simp] theorem modHearth_drt (d : Dev) (g : Nat) (f : Hearth → Hearth) : (d.modHearth g f).drt = d.drt := rfl
@[simp] theorem modHearth_mbx (d : Dev) (g : Nat) (f : Hearth → Hearth) : (d.modHearth g f).mbx = d.mbx := rfl
@[simp] theorem modHearth_dram (d : Dev) (g : Nat) (f : Hearth → Hearth) : (d.modHearth g f).dram = d.dram := rfl
@[simp] theorem modHearth_cal (d : Dev) (g : Nat) (f : Hearth → Hearth) : (d.modHearth g f).cal = d.cal := rfl
@[simp] theorem modHearth_llk (d : Dev) (g : Nat) (f : Hearth → Hearth) : (d.modHearth g f).llk = d.llk := rfl
@[simp] theorem modHearth_jtag (d : Dev) (g : Nat) (f : Hearth → Hearth) : (d.modHearth g f).jtag = d.jtag := rfl
@[simp] theorem modHearth_outbox (d : Dev) (g : Nat) (f : Hearth → Hearth) : (d.modHearth g f).outbox = d.outbox := rfl
@[simp] theorem modHearth_fresh (d : Dev) (g : Nat) (f : Hearth → Hearth) : (d.modHearth g f).fresh = d.fresh := rfl

@[simp] theorem modMbx_regs (d : Dev) (n : Nat) (f : Mbx → Mbx) : (d.modMbx n f).regs = d.regs := rfl
@[simp] theorem modMbx_mem (d : Dev) (n : Nat) (f : Mbx → Mbx) : (d.modMbx n f).mem = d.mem := rfl
@[simp] theorem modMbx_poison (d : Dev) (n : Nat) (f : Mbx → Mbx) : (d.modMbx n f).poison = d.poison := rfl
@[simp] theorem modMbx_board (d : Dev) (n : Nat) (f : Mbx → Mbx) : (d.modMbx n f).board = d.board := rfl
@[simp] theorem modMbx_faults (d : Dev) (n : Nat) (f : Mbx → Mbx) : (d.modMbx n f).faults = d.faults := rfl
@[simp] theorem modMbx_power (d : Dev) (n : Nat) (f : Mbx → Mbx) : (d.modMbx n f).power = d.power := rfl
@[simp] theorem modMbx_time (d : Dev) (n : Nat) (f : Mbx → Mbx) : (d.modMbx n f).time = d.time := rfl
@[simp] theorem modMbx_audit (d : Dev) (n : Nat) (f : Mbx → Mbx) : (d.modMbx n f).audit = d.audit := rfl
@[simp] theorem modMbx_seq (d : Dev) (n : Nat) (f : Mbx → Mbx) : (d.modMbx n f).seq = d.seq := rfl
@[simp] theorem modMbx_rings (d : Dev) (n : Nat) (f : Mbx → Mbx) : (d.modMbx n f).rings = d.rings := rfl
@[simp] theorem modMbx_flue (d : Dev) (n : Nat) (f : Mbx → Mbx) : (d.modMbx n f).flue = d.flue := rfl
@[simp] theorem modMbx_tmu (d : Dev) (n : Nat) (f : Mbx → Mbx) : (d.modMbx n f).tmu = d.tmu := rfl
@[simp] theorem modMbx_clk (d : Dev) (n : Nat) (f : Mbx → Mbx) : (d.modMbx n f).clk = d.clk := rfl
@[simp] theorem modMbx_drt (d : Dev) (n : Nat) (f : Mbx → Mbx) : (d.modMbx n f).drt = d.drt := rfl
@[simp] theorem modMbx_dram (d : Dev) (n : Nat) (f : Mbx → Mbx) : (d.modMbx n f).dram = d.dram := rfl
@[simp] theorem modMbx_cal (d : Dev) (n : Nat) (f : Mbx → Mbx) : (d.modMbx n f).cal = d.cal := rfl
@[simp] theorem modMbx_llk (d : Dev) (n : Nat) (f : Mbx → Mbx) : (d.modMbx n f).llk = d.llk := rfl
@[simp] theorem modMbx_jtag (d : Dev) (n : Nat) (f : Mbx → Mbx) : (d.modMbx n f).jtag = d.jtag := rfl
@[simp] theorem modMbx_outbox (d : Dev) (n : Nat) (f : Mbx → Mbx) : (d.modMbx n f).outbox = d.outbox := rfl
@[simp] theorem modMbx_fresh (d : Dev) (n : Nat) (f : Mbx → Mbx) : (d.modMbx n f).fresh = d.fresh := rfl

@[simp] theorem modTmu_regs (d : Dev) (n : Nat) (f : TmuCh → TmuCh) : (d.modTmu n f).regs = d.regs := rfl
@[simp] theorem modTmu_mem (d : Dev) (n : Nat) (f : TmuCh → TmuCh) : (d.modTmu n f).mem = d.mem := rfl
@[simp] theorem modTmu_poison (d : Dev) (n : Nat) (f : TmuCh → TmuCh) : (d.modTmu n f).poison = d.poison := rfl
@[simp] theorem modTmu_board (d : Dev) (n : Nat) (f : TmuCh → TmuCh) : (d.modTmu n f).board = d.board := rfl
@[simp] theorem modTmu_faults (d : Dev) (n : Nat) (f : TmuCh → TmuCh) : (d.modTmu n f).faults = d.faults := rfl
@[simp] theorem modTmu_power (d : Dev) (n : Nat) (f : TmuCh → TmuCh) : (d.modTmu n f).power = d.power := rfl
@[simp] theorem modTmu_time (d : Dev) (n : Nat) (f : TmuCh → TmuCh) : (d.modTmu n f).time = d.time := rfl
@[simp] theorem modTmu_audit (d : Dev) (n : Nat) (f : TmuCh → TmuCh) : (d.modTmu n f).audit = d.audit := rfl
@[simp] theorem modTmu_seq (d : Dev) (n : Nat) (f : TmuCh → TmuCh) : (d.modTmu n f).seq = d.seq := rfl
@[simp] theorem modTmu_rings (d : Dev) (n : Nat) (f : TmuCh → TmuCh) : (d.modTmu n f).rings = d.rings := rfl
@[simp] theorem modTmu_flue (d : Dev) (n : Nat) (f : TmuCh → TmuCh) : (d.modTmu n f).flue = d.flue := rfl
@[simp] theorem modTmu_clk (d : Dev) (n : Nat) (f : TmuCh → TmuCh) : (d.modTmu n f).clk = d.clk := rfl
@[simp] theorem modTmu_drt (d : Dev) (n : Nat) (f : TmuCh → TmuCh) : (d.modTmu n f).drt = d.drt := rfl
@[simp] theorem modTmu_mbx (d : Dev) (n : Nat) (f : TmuCh → TmuCh) : (d.modTmu n f).mbx = d.mbx := rfl
@[simp] theorem modTmu_dram (d : Dev) (n : Nat) (f : TmuCh → TmuCh) : (d.modTmu n f).dram = d.dram := rfl
@[simp] theorem modTmu_cal (d : Dev) (n : Nat) (f : TmuCh → TmuCh) : (d.modTmu n f).cal = d.cal := rfl
@[simp] theorem modTmu_llk (d : Dev) (n : Nat) (f : TmuCh → TmuCh) : (d.modTmu n f).llk = d.llk := rfl
@[simp] theorem modTmu_jtag (d : Dev) (n : Nat) (f : TmuCh → TmuCh) : (d.modTmu n f).jtag = d.jtag := rfl
@[simp] theorem modTmu_outbox (d : Dev) (n : Nat) (f : TmuCh → TmuCh) : (d.modTmu n f).outbox = d.outbox := rfl
@[simp] theorem modTmu_fresh (d : Dev) (n : Nat) (f : TmuCh → TmuCh) : (d.modTmu n f).fresh = d.fresh := rfl

@[simp] theorem modPort_regs (d : Dev) (p : Nat) (f : FluePort → FluePort) : (d.modPort p f).regs = d.regs := rfl
@[simp] theorem modPort_mem (d : Dev) (p : Nat) (f : FluePort → FluePort) : (d.modPort p f).mem = d.mem := rfl
@[simp] theorem modPort_poison (d : Dev) (p : Nat) (f : FluePort → FluePort) : (d.modPort p f).poison = d.poison := rfl
@[simp] theorem modPort_board (d : Dev) (p : Nat) (f : FluePort → FluePort) : (d.modPort p f).board = d.board := rfl
@[simp] theorem modPort_faults (d : Dev) (p : Nat) (f : FluePort → FluePort) : (d.modPort p f).faults = d.faults := rfl
@[simp] theorem modPort_power (d : Dev) (p : Nat) (f : FluePort → FluePort) : (d.modPort p f).power = d.power := rfl
@[simp] theorem modPort_time (d : Dev) (p : Nat) (f : FluePort → FluePort) : (d.modPort p f).time = d.time := rfl
@[simp] theorem modPort_audit (d : Dev) (p : Nat) (f : FluePort → FluePort) : (d.modPort p f).audit = d.audit := rfl
@[simp] theorem modPort_seq (d : Dev) (p : Nat) (f : FluePort → FluePort) : (d.modPort p f).seq = d.seq := rfl
@[simp] theorem modPort_rings (d : Dev) (p : Nat) (f : FluePort → FluePort) : (d.modPort p f).rings = d.rings := rfl
@[simp] theorem modPort_tmu (d : Dev) (p : Nat) (f : FluePort → FluePort) : (d.modPort p f).tmu = d.tmu := rfl
@[simp] theorem modPort_clk (d : Dev) (p : Nat) (f : FluePort → FluePort) : (d.modPort p f).clk = d.clk := rfl
@[simp] theorem modPort_drt (d : Dev) (p : Nat) (f : FluePort → FluePort) : (d.modPort p f).drt = d.drt := rfl
@[simp] theorem modPort_mbx (d : Dev) (p : Nat) (f : FluePort → FluePort) : (d.modPort p f).mbx = d.mbx := rfl
@[simp] theorem modPort_dram (d : Dev) (p : Nat) (f : FluePort → FluePort) : (d.modPort p f).dram = d.dram := rfl
@[simp] theorem modPort_cal (d : Dev) (p : Nat) (f : FluePort → FluePort) : (d.modPort p f).cal = d.cal := rfl
@[simp] theorem modPort_llk (d : Dev) (p : Nat) (f : FluePort → FluePort) : (d.modPort p f).llk = d.llk := rfl
@[simp] theorem modPort_jtag (d : Dev) (p : Nat) (f : FluePort → FluePort) : (d.modPort p f).jtag = d.jtag := rfl
@[simp] theorem modPort_outbox (d : Dev) (p : Nat) (f : FluePort → FluePort) : (d.modPort p f).outbox = d.outbox := rfl
@[simp] theorem modPort_fresh (d : Dev) (p : Nat) (f : FluePort → FluePort) : (d.modPort p f).fresh = d.fresh := rfl

@[simp] theorem setLedger_regs (d : Dev) (i v : Nat) : (d.setLedger i v).regs = d.regs := rfl
@[simp] theorem setLedger_mem (d : Dev) (i v : Nat) : (d.setLedger i v).mem = d.mem := rfl
@[simp] theorem setLedger_poison (d : Dev) (i v : Nat) : (d.setLedger i v).poison = d.poison := rfl
@[simp] theorem setLedger_board (d : Dev) (i v : Nat) : (d.setLedger i v).board = d.board := rfl
@[simp] theorem setLedger_faults (d : Dev) (i v : Nat) : (d.setLedger i v).faults = d.faults := rfl
@[simp] theorem setLedger_power (d : Dev) (i v : Nat) : (d.setLedger i v).power = d.power := rfl
@[simp] theorem setLedger_audit (d : Dev) (i v : Nat) : (d.setLedger i v).audit = d.audit := rfl
@[simp] theorem setLedger_seq (d : Dev) (i v : Nat) : (d.setLedger i v).seq = d.seq := rfl
@[simp] theorem setLedger_rings (d : Dev) (i v : Nat) : (d.setLedger i v).rings = d.rings := rfl
@[simp] theorem setLedger_flue (d : Dev) (i v : Nat) : (d.setLedger i v).flue = d.flue := rfl
@[simp] theorem setLedger_tmu (d : Dev) (i v : Nat) : (d.setLedger i v).tmu = d.tmu := rfl
@[simp] theorem setLedger_clk (d : Dev) (i v : Nat) : (d.setLedger i v).clk = d.clk := rfl
@[simp] theorem setLedger_drt (d : Dev) (i v : Nat) : (d.setLedger i v).drt = d.drt := rfl
@[simp] theorem setLedger_mbx (d : Dev) (i v : Nat) : (d.setLedger i v).mbx = d.mbx := rfl
@[simp] theorem setLedger_dram (d : Dev) (i v : Nat) : (d.setLedger i v).dram = d.dram := rfl
@[simp] theorem setLedger_cal (d : Dev) (i v : Nat) : (d.setLedger i v).cal = d.cal := rfl
@[simp] theorem setLedger_llk (d : Dev) (i v : Nat) : (d.setLedger i v).llk = d.llk := rfl
@[simp] theorem setLedger_jtag (d : Dev) (i v : Nat) : (d.setLedger i v).jtag = d.jtag := rfl
@[simp] theorem setLedger_outbox (d : Dev) (i v : Nat) : (d.setLedger i v).outbox = d.outbox := rfl
@[simp] theorem setLedger_fresh (d : Dev) (i v : Nat) : (d.setLedger i v).fresh = d.fresh := rfl

@[simp] theorem setDrt_regs (d : Dev) (x : Draught) : (d.setDrt x).regs = d.regs := rfl
@[simp] theorem setDrt_mem (d : Dev) (x : Draught) : (d.setDrt x).mem = d.mem := rfl
@[simp] theorem setDrt_poison (d : Dev) (x : Draught) : (d.setDrt x).poison = d.poison := rfl
@[simp] theorem setDrt_board (d : Dev) (x : Draught) : (d.setDrt x).board = d.board := rfl
@[simp] theorem setDrt_faults (d : Dev) (x : Draught) : (d.setDrt x).faults = d.faults := rfl
@[simp] theorem setDrt_power (d : Dev) (x : Draught) : (d.setDrt x).power = d.power := rfl
@[simp] theorem setDrt_time (d : Dev) (x : Draught) : (d.setDrt x).time = d.time := rfl
@[simp] theorem setDrt_audit (d : Dev) (x : Draught) : (d.setDrt x).audit = d.audit := rfl
@[simp] theorem setDrt_seq (d : Dev) (x : Draught) : (d.setDrt x).seq = d.seq := rfl
@[simp] theorem setDrt_rings (d : Dev) (x : Draught) : (d.setDrt x).rings = d.rings := rfl
@[simp] theorem setDrt_flue (d : Dev) (x : Draught) : (d.setDrt x).flue = d.flue := rfl
@[simp] theorem setDrt_tmu (d : Dev) (x : Draught) : (d.setDrt x).tmu = d.tmu := rfl
@[simp] theorem setDrt_clk (d : Dev) (x : Draught) : (d.setDrt x).clk = d.clk := rfl
@[simp] theorem setDrt_mbx (d : Dev) (x : Draught) : (d.setDrt x).mbx = d.mbx := rfl
@[simp] theorem setDrt_dram (d : Dev) (x : Draught) : (d.setDrt x).dram = d.dram := rfl
@[simp] theorem setDrt_cal (d : Dev) (x : Draught) : (d.setDrt x).cal = d.cal := rfl
@[simp] theorem setDrt_llk (d : Dev) (x : Draught) : (d.setDrt x).llk = d.llk := rfl
@[simp] theorem setDrt_jtag (d : Dev) (x : Draught) : (d.setDrt x).jtag = d.jtag := rfl
@[simp] theorem setDrt_outbox (d : Dev) (x : Draught) : (d.setDrt x).outbox = d.outbox := rfl
@[simp] theorem setDrt_fresh (d : Dev) (x : Draught) : (d.setDrt x).fresh = d.fresh := rfl

end Sys2Proof.Machine
end

