-- ==== Sys2Proof/Machine/Flags.lean ====
section
/-! DEFINITION. Interrupt requests (spec/06 R204, spec/09 R281, spec/11 R322, spec/12 R351, spec/14 R405, spec/16 R444, spec/17 R463, spec/18
R466, spec/19 R497, spec/20 R526): which blocks ask, and to whom INT_ROUTE sends each. -/

namespace Sys2Proof.Machine

/-- The blocks with an interrupt of their own, and where their status, enable and route registers lie. -/
inductive IrqBlock where
  | hearth (h : Fin 16)
  | clk | flue | draught | dram | power | cal | mgt | tmu
  deriving DecidableEq, Repr

/-- Status, enable and route registers of a block. -/
def IrqBlock.regs : IrqBlock → Nat × Nat × Nat
  | .hearth h => (R.HRT_INT_STATUS h, R.HRT_INT_EN h, R.HRT_INT_ROUTE h)
  | .clk => (R.CLK_INT_STATUS, R.CLK_INT_EN, R.CLK_INT_ROUTE)
  | .flue => (R.FLU_INT_STATUS, R.FLU_INT_EN, R.FLU_INT_ROUTE)
  | .draught => (R.DRT_INT_STATUS, R.DRT_INT_EN, R.DRT_INT_ROUTE)
  | .dram => (R.DMC_INT_STATUS, R.DMC_INT_EN, R.DMC_INT_ROUTE)
  | .power => (R.PWR_INT_STATUS, R.PWR_INT_EN, R.PWR_INT_ROUTE)
  | .cal => (R.CAL_INT_STATUS, R.CAL_INT_EN, R.CAL_INT_ROUTE)
  | .mgt => (R.MGT_INT_STATUS, R.MGT_INT_EN, R.MGT_INT_ROUTE)
  | .tmu => (R.TMU_INT_STATUS, R.TMU_INT_EN, R.TMU_INT_ROUTE)

/-- The status bits that a block's enable register enables. The grate events of a hearth are enabled at their grates (R204). -/
def Dev.irqEnabled (d : Dev) (b : IrqBlock) : Nat :=
  match b with
  | .hearth _ => (d.reg b.regs.2.1).toNat ||| 0xFF
  | _ => (d.reg b.regs.2.1).toNat

/-- A block's interrupt is raised while a status bit is set and enabled. -/
def Dev.irq (d : Dev) (b : IrqBlock) : Bool :=
  (((d.view b.regs.1).getD (d.reg b.regs.1)).toNat &&& d.irqEnabled b) != 0

/-- TARGET and CORE of its route: 0 the kernel of core CORE, 1 the supervisor, 2 IRQ_N, 3 none (R204). -/
def Dev.irqRoute (d : Dev) (b : IrqBlock) : Nat × Nat := (d.getF b.regs.2.2 F.HRT_INT_ROUTE_TARGET, d.getF b.regs.2.2 F.HRT_INT_ROUTE_CORE)

/-- A ring's interrupt and where RING_n_INT sends it (R384). -/
def Dev.irqRing (d : Dev) (n : Nat) : Bool := d.flag (R.RING_STATUS n) F.RING_STATUS_CMP_INT || d.flag (R.RING_STATUS n) F.RING_STATUS_ERR_INT

def Dev.irqRingRoute (d : Dev) (n : Nat) : Nat × Nat := (d.getF (R.RING_INT n) F.RING_INT_TARGET, d.getF (R.RING_INT n) F.RING_INT_CORE)

/-- Whether an endpoint of a mailbox is interrupted: its EVENT bit is set and enabled, and it is no remote manager (R415). -/
def Dev.irqMailbox (d : Dev) (n : Nat) (s : Side) : Bool :=
  let b := if s = .a then 0 else 1
  d.bitOf (R.MBX_STATUS n) b && d.bitOf (R.MBX_INT_EN n) b && !(0x40 ≤ d.mbxId n s && d.mbxId n s ≤ 0x43)

/-- The fault interrupt: a set bit has a reaction other than LOG (R466). -/
def Dev.irqFault (d : Dev) : Bool := (List.range faultBits).any (fun b => tbit d.faultWord b && d.faultReact b != 0)

end Sys2Proof.Machine
end

