-- ==== Sys2Proof/Machine/Balls.lean ====
section
/-! DEFINITION. What the device does at its balls (spec/02 R57, R62–R64, R67, spec/03 R87, spec/11 R319, spec/19 R483): each signal group is a
function of the state that the rest of the model holds. No command reads it. -/

namespace Sys2Proof.Machine

/-- The output groups of R57. A bidirectional group appears for what the device drives on it. -/
inductive BallGroup where
  | channel (ch : Fin 1024)
  | relay (g : Fin 128)
  | spareRelay (h : Fin 16)
  | drstN (c : Fin 8)
  | dcsN (c : Fin 8)
  | dmcOther (c : Fin 8)
  | flueTx (p : Fin 4)
  | mgtTx (p : Fin 2)
  | mgtMdio
  | xspiCsN
  | xspiResetN
  | xspiOther
  | pmbus (b : Fin 2)
  | supEn (n : Fin 32)
  | syncOut
  | clkOut (n : Fin 4) (neg : Bool)
  | faultN
  | irqN
  | calPort
  deriving DecidableEq, Repr

/-- What a ball shows: the pin safe state (R87), a static level, nothing, or its group's own signalling. -/
inductive BallState where
  | safe | low | high | pulledUp | highZ | idle | released | sinking | disconnected | signals
  deriving DecidableEq, Repr

/-- Before the first step of kindling (R57). -/
def Dev.inReset (d : Dev) : Bool := d.getF R.SEC_KINDLE F.SEC_KINDLE_STEP == 0

/-- The hearths in which DESKEW runs: it drives their channels, each in turn, and uses the calibration port (R486). -/
def Dev.deskewing (d : Dev) : List Nat :=
  match d.cal.proc with
  | some p => if p.proc = 3 then p.running.map (·.1) else []
  | none => []

/-- Whether a channel is out of the pin safe state (R87): by its pattern, its PPMU or DESKEW. -/
def Dev.channelActive (d : Dev) (ch : Nat) : Bool :=
  (mapFind d.seq.chans ch).isSome || (match d.ppmuNow (chGrate ch) with | some p => p.1 == ch && p.2.1 != 0 | none => false) ||
  d.deskewing.contains (chHearth ch)

/-- A relay drive: open-drain, released in reset and in BANKED (R57, R64). -/
def relayBall (sinks : Bool) : BallState := if sinks then .sinking else .released

/-- Whether IRQ_N sinks: an interrupt routed to it is raised (R204, R384, R466). -/
def Dev.irqLow (d : Dev) : Bool :=
  ((List.finRange 16).map IrqBlock.hearth ++
    ([IrqBlock.clk, IrqBlock.flue, IrqBlock.draught, IrqBlock.dram, IrqBlock.power, IrqBlock.cal, IrqBlock.mgt, IrqBlock.tmu] : List IrqBlock)).any
    (fun b => d.irq b && (d.irqRoute b).1 == 2) ||
  (List.range 64).any (fun n => d.irqRing n && (d.irqRingRoute n).1 == 2) ||
  (d.irqFault && d.getF R.FLT_INT_ROUTE F.HRT_INT_ROUTE_TARGET == 2)

/-- A DMC ball in each state of its PHY's domain (R57, R67, R446): in reset, in retention, unpowered, in use. -/
def Dev.dmcBall (d : Dev) (c : Nat) (reset retention : BallState) : BallState :=
  if d.inReset then reset
  else if d.domain (161 + c) = 4 then retention
  else if d.domain (161 + c) = 0 then .highZ
  else .signals

/-- Each group's state (R57, R62–R64, R67, R319, R327, R337, R453, R466, R486). -/
def Dev.ball (d : Dev) (b : BallGroup) : BallState :=
  let io := !d.inReset && d.powered != devBanked
  match b with
  | .channel ch => if d.channelActive ch then .signals else .safe
  | .relay g => relayBall (io && (d.grate g).relay)
  | .spareRelay h => relayBall (io && (d.hearth h).spare)
  | .drstN c => d.dmcBall c .low .high
  | .dcsN c => d.dmcBall c .high .high
  | .dmcOther c => d.dmcBall c .highZ .highZ
  | .flueTx p =>
    if d.portState p = psTrain ∨ d.portState p = psActive ∨ d.portState p = psWake then .signals else .idle
  | .mgtTx _ => if io then .signals else .idle
  | .mgtMdio => if io then .signals else .highZ
  | .xspiCsN => if io then .signals else .pulledUp
  | .xspiResetN => if io then .high else .low
  | .xspiOther => if io then .signals else .highZ
  | .pmbus _ => .released
  | .supEn n => if io && d.supOn n then .high else .low
  | .syncOut => if io && d.role != 2 && d.pllLocked pllGrid then .signals else .highZ
  | .clkOut n neg =>
    if !io || d.getF (R.CLK_OUT_CFG n) F.CLK_OUT_CFG_FORMAT = 0 then .highZ
    else if d.outEnabled n && d.outSourceRuns n then .signals
    else if neg then .high else .low
  | .faultN => if d.faultNLow then .sinking else .released
  | .irqN => if io && d.irqLow then .sinking else .released
  | .calPort => if d.deskewing.isEmpty then .disconnected else .signals

/-! ### Analogue codes (R483) -/

/-- The codes that the DACs of an ON grate hold for VIH, VIL and VTT, with the live corrections. -/
def Dev.grateDacs (d : Dev) (g : Nat) : Option (Nat × Nat × Nat) :=
  if (d.grate g).dom = .on then
    let l := d.gratePath g
    some (dacCode l.1 (d.calGrate g 0) (d.calGrate g 2), dacCode l.2.1 (d.calGrate g 4) (d.calGrate g 6), dacCode l.2.2.1 (d.calGrate g 8) (d.calGrate g 10))
  else none

/-- The codes of a pin's threshold DACs, VOH and VOL. -/
def Dev.pinDacs (d : Dev) (ch : Nat) : Option (Nat × Nat) :=
  if (d.grate (chGrate ch)).dom = .on then
    let l := (nth (d.liveLevel (chGrate ch)).pins (ch % 8) PinLevel.reset)
    some (dacCode l.voh (sgn (d.calPin ch 6) 16) (sgn (d.calPin ch 8) 16), dacCode l.vol (sgn (d.calPin ch 10) 16) (sgn (d.calPin ch 12) 16))
  else none

/-- What a grate's PPMU forces now: the code of its voltage DAC in FVMI, the raw current in FIMV. -/
def Dev.ppmuForce (d : Dev) (g : Nat) : Option Int :=
  let value := match d.stepOn g with
    | some (_, s) => some s.value
    | none => (d.staticPin g).map (·.value)
  match d.ppmuNow g, value with
  | some (_, 1, _), some v => some (dacCode v (d.calGrate g 12) (d.calGrate g 14))
  | some (_, 2, r), some v => some (calInverse (sgn v 16) (d.calGrate g (20 + 4 * r)) (d.calGrate g (22 + 4 * r)))
  | _, _ => none

end Sys2Proof.Machine
end

