-- ==== Sys2Proof/WellFormed.lean ====
section
/-! DEFINITION. Which commands are well formed: numbers that the interfaces carry in so many bits, and lists of the lengths that the events
bring. A resource number is bounded by its type. -/

namespace Sys2Proof

open Machine

/-- A packet as the header of R329 can spell it. -/
def Machine.Packet.wf (k : Packet) : Bool :=
  k.type < 16 && k.dest < 128 && k.src < 128 && k.tag < 1024 && k.be < 256 && k.arg < 65536 && k.addr < 2 ^ 44 &&
    k.payload.length ≤ 15 && k.payload.all (· < 2 ^ 64)

/-- A Leloisk frame as R475 lays it out. -/
def Machine.LlkFrame.wf (f : LlkFrame) : Bool :=
  f.port < 2 && f.dest < 2 ^ 48 && f.src < 2 ^ 48 && f.version < 256 && f.seq < 65536 && f.arg < 2 ^ 32 && f.serial < 2 ^ 64

/-- A PMB1 reading: words of 16 bits. -/
def Machine.SupReading.wf (r : SupReading) : Bool := r.vout < 65536 && r.iout < 65536 && r.status < 65536

/-- What kindling meets: two straps, 8 DRAM channels, 128 counts for each of the 32 TMU channels, exponent bytes. -/
def Machine.KindleEnv.wf (e : KindleEnv) : Bool := e.strap < 4 && e.dramFail < 256 && e.counts.length == 32 && e.counts.all (fun c => c.length == 128) && e.temp < 65536 &&
    e.voutExp.all (fun x => x.1 < 32 && x.2 < 256)

/-- Well-formedness of a command. -/
def Instr.wf : Instr → Bool
  | .powerOn e => e.wf
  | .deviceResetAfterDouse e => e.wf
  | .faultLineAssert l => !l.isEmpty && l.all (fun x => x.1 < 22 && x.2 < 65536)
  | .douseSupplyStep l => l.all (· < 32)
  | .leloiskWake f => f.wf
  | .leloiskDouse f => f.wf
  | .readFault f => f.wf
  | .readLedger f => f.wf
  | .leloiskDiscard f op => f.wf && op < 256
  | .bypass ir => ir < 256
  | .calCommit _ l => l.all (· < 19)
  | .vector _ obs => obs.all (fun o => o.ch < 1024)
  | .ageOut _ e => e < 2 ^ 32
  | .ident _ n r p pol t => n < 128 && r < 4 && p < 4 && pol < 16 && t.lanes.length == 4
  | .link _ a _ _ _ _ _ => a < 4096
  | .read _ k => k.wf && k.type == 0
  | .write _ k => k.wf && k.type == 1
  | .doorbell _ k => k.wf && k.type == 2
  | .response _ k => k.wf && k.type == 3
  | .message _ k => k.wf && k.type == 4
  | .packetForward _ k => k.wf
  | .fluePacketDiscard _ bs => bs.all (fun b => match b with | .ctl t x => t < 256 && x < 2 ^ 56 | .data x => x < 2 ^ 64)
  | .joinTimeout l => l.all (· < 121)
  | .epochMarker _ k => k.wf && k.type == 6
  | .startEvent _ k => k.wf && k.type == 5
  | .stopEvent _ k => k.wf && k.type == 5
  | .failEvent _ k => k.wf && k.type == 5
  | .rdvReport _ k => k.wf && k.type == 5
  | .rdvRelease _ k => k.wf && k.type == 5
  | .bandMeasureDone l h => l < 4096 && h < 4096
  | .tmuEdge _ _ c _ => c < 128
  | .tmuCalDone _ l => l.length == 128
  | .ascent n _ _ => n < 32768
  | .railPgTimeout r => r < 8
  | .pwrSupReadGo _ _ r => r.wf
  | .pmbAlert a => a.all (· < 128)
  | .tempSample l => l.length == 16
  | .mr4Poll _ m _ _ => m < 256
  | .dramReadComplete _ l now _ => l.all (fun r => r.port < 37 && r.addr < 2 ^ 41 && r.time ≤ now)
  | .alertNParity _ l => l.all (· < 64)
  | .hotWindowEnd b t => b.length == 8 && t.length == 8
  | .linearity _ h => h < 65536
  | .levels _ h => h < 65536
  | .deskew _ h => h < 65536
  | .calProcDone _ f _ => f.all (fun x => (x.1 == 3 || x.1 == 4) && x.2 < 64)
  | .ptpTimestamp _ _ type _ m e => type ≤ 1 && m.source.length == 3 && e.natAbs ≤ 4 * 65536
  | .mgtFrameReceive _ b _ _ => b.length ≤ 65535
  | .attest _ a => a < 65536
  | .confirm _ a => a < 65536
  | .raise _ a => a < 65536
  | .keyProgram _ a => a < 65536
  | .keyRevoke _ a => a < 65536
  | .deviceReset _ a => a < 65536
  | .flashErase _ a => a < 65536
  | .flashProgram _ a => a < 65536
  | .flashRead _ a => a < 65536
  | .registerWrite _ a n v => a + n ≤ 2 ^ 44 && [1, 2, 4, 8].contains n && v < 2 ^ (8 * n)
  | .vddEmberLoss | .resetN _ | .douseN _ | .douseRelayStep | .fltDouse _ _ | .fltWordClear _ _ _ _ | .fltCfgWrite _ _ _ | .fltInject _ _ _
  | .drvOvl _ _ | .faultRead | .idcode | .extest _ _ _ | .samplePreload _ _ _ | .clamp _ | .highz _ | .unlock _ | .doorbellWrite _ _ _
  | .consumeDescriptor _ | .nop _ | .imageLoad _ _ | .imageUnload _ | .timingLoad _ _ | .levelsLoad _ _ | .bindLoad _ _ | .captureLoad _ _
  | .ddsLoad _ _ | .calLoad _ _ | .ppmuMeasure _ _ | .ppmuStepDone _ _ _ | .commit _ | .runBoundaryApply _ | .poolLoadDone _
  | .settleTimeEnd _ | .calTableApply _ _ | .start _ | .stop _ | .completionWrite _ _ | .ringEnable _ _ _ | .ringDisable _ _ _
  | .ringDrained _ | .haltRing _ _ _ | .resume _ _ _ | .ringSeqWrite _ _ _ | .descriptorFetch _ _ | .remoteWriteRetry _ _ | .syncEdge _
  | .syncMissing | .syncPulseGen | .vectorZero | .nopInstr _ | .repeat_ _ | .loopBegin _ | .loopEnd _ | .call _ | .return_ _ | .jump _
  | .jumpIf _ | .lateJump _ | .wait _ | .holdPoint _ | .holdResume _ | .rendezvous _ | .rdvResume _ | .rdvWaitLimit _ | .halt _ | .setreg _
  | .granuleFetch _ _ | .siteComplete _ | .holdReportWrite | .hrtHoldCtrlWrite _ _ | .hrtHoldCiWrite _ _ | .summaryPost _
  | .windowOperandPost _ | .operandAccept _ | .dispatch | .drtQcCiWrite _ _ _ | .release | .drtResCiWrite _ _ | .drtCfgWrite _ _
  | .mbxTx _ _ _ | .mbxRxData _ _ | .mbxWait _ _ _ | .mbxWaitTimeout _ _ | .mbxCfgWrite _ _ _ | .mbxEventClear _ _ | .lockRead _ _
  | .lockRelease _ _ | .mbxLockFree _ _ | .endpointReset _ | .fluePortEnable _ _ _ _ | .retrain _ _ _ | .trainTimeout _ | .portIdleEntry _
  | .portWake _ | .wakeBurstAligned _ | .wakeTimeout _ | .replayTimeout _ | .probe _ _ | .rspTimeout _ | .fluRaccGo _ _ | .epochMarkerSend
  | .skewStart _ _ | .skewDone | .clkPllCtrlWrite _ _ _ | .pllInLockWindow _ | .acqTimeout _ | .settleEnd _ | .lockLoss _ | .nearRail _
  | .refclkAbsent _ | .refclkPresent | .measure _ _ | .gridPhaseStep | .clkOutCfgWrite _ _ _ | .emberClkFail | .emberClkReturn
  | .tmuStampCommit _ | .tmuRecordDrain _ | .arm _ _ _ | .disarm _ _ _ | .tmuDiffTimeout _ | .tmuTestPulse _ | .tmuCalStart _ _
  | .ddsTransition _ | .hrtGrtPwrWrite _ _ _ | .grateWakeDone _ | .grateSettleDone _ | .grateIdleOff _ | .descendSmoulder _
  | .descendBanked _ _ | .request _ | .descentDone _ | .wakeN | .alarm | .ascentRestored | .pwrDomainCtrlWrite _ _ | .up _ _ _ | .down _ _ _
  | .supStepAdvance _ _ | .pgTimeout | .supPgFall _ | .scrubRead _ _ | .refreshDue _ _ | .makeupBurst _ | .retrainPause _ _ _ _ _ | .deviceTimeTick
  | .mgtTimeIncWrite _ _ | .mgtTimeAdjWrite _ _ | .mgtTimeSetSecWrite _ _ | .mgtPtpMasterWrite _ _ | .syncTimeout | .mgtTspInfoRead _ _
  | .ldgService _ _ | .ledgerCheckpoint _ | .auditFlush _ | .auditCheckpoint | .audRdGo _ _ | .audPermWrite _ _ _ | .kick _ _
  | .watchdogExpiry | .douseNHigh | .mgtLinkChange _ _ _ _ | .rtcSecond | .tmuGroupOn _ | .flueDma _ _ _ _ | .probeSend _
  | .ddsAmpSettleEnd _ => true

end Sys2Proof
end

