-- ==== Sys2Proof/Tests/Slice0.lean ====
section
/-! SUPPORT. Tests: commands that are not well formed are refused by name of the field, the hypotheses of every statement are met by a state, and
single steps give what the rules of spec/ say. -/

namespace Sys2Proof.Tests

open Sys2Proof Sys2Proof.Machine

set_option Elab.async false




/-! ### Helpers: devices and descriptors that the tests start from -/

/-- A state of a device in GLOW, set up, that `f` changes. -/
def devGl : Dev :=
  let d := { State.reset.dev with board := { State.reset.dev.board with refPresent := true } }
  let d := d.setReg R.EMB_PSTATE 2
  let d := (List.range 32).foldl (fun (d : Dev) b => d.setReg (R.AUD_PERM_REG b) 0xFFF) d
  let d := d.setReg R.AUD_PERM_DESC 0x3FFFFFFF
  let d := (d.setReg R.GLB_CAPACITY 2).setReg R.DMC_REGION 1
  d.setF R.SEC_KINDLE F.SEC_KINDLE_READY 1
def st (f : Dev → Dev) : State := ⟨[], f devGl⟩
def regs (l : List (Nat × Word)) (d : Dev) : Dev := l.foldl (fun (d : Dev) x => d.setReg x.1 x.2) d
def by3 : List Byte := (List.range 100).map (fun i => BitVec.ofNat 8 (i + 1))
def kenv (strap : Nat) : KindleEnv := ⟨strap, Profile.none_, [], 0, false, [], 400, [], none, none⟩
/-- Ring 1 with its areas in the host region, in a state. -/
def ringIn (n state : Nat) (d : Dev) : Dev :=
  regs [(R.RING_CTRL n, 0x80002000), (R.RING_SIZE n, 0x404), (R.RING_CMD_BASE n, 16), (R.RING_CMP_BASE n, 32), (R.RING_DB_LO n, 0x3000), (R.RING_SB_LO n, 0x4000),
    (R.RING_STATUS n, BitVec.ofNat 32 state), (R.DMC_REGION, 1)] d
def descB (op flags seq : Nat) (body : List Byte) : List Byte := slice (bytesOf 1 op ++ bytesOf 1 flags ++ bytesOf 2 0 ++ bytesOf 4 seq ++ bytesOf 8 0 ++ body) 0 64
def mkq (op flags seq : Nat) (body : List Byte) : Desc := ⟨descB op flags seq body, 0x20, 0x10000⟩
/-- A ring with a descriptor waiting. -/
def waits (n : Nat) (q : Desc) (d : Dev) : Dev := (ringIn n 0x10001 d).modRing n (fun r => { r with waiting := [q] })
/-- A manager whose downstream port 1 is ACTIVE towards device 1. -/
def linkUp (d : Dev) : Dev :=
  let d := d.setF R.GLB_ROLE F.GLB_ROLE_ROLE 1
  regs [(R.FLU_PORT_STATUS 1, 2), (R.FLU_TREE_PRESENT 0, 3)] (d.modPort 1 (fun p => { p with identOk := true }))
def comp (s : Nat) : Completion := ⟨s, 0, 0, 0, 0, 0, true⟩
/-- RLE granule of one run. -/
def granB (op operand ctrl row : Nat) : List Byte := bytesOf 8 (3 * 2 ^ 61 + 2 ^ 48 + op * 2 ^ 44 + operand) ++ bytesOf 1 64 ++ bytesOf 1 ctrl ++ bytesOf 6 0 ++ bytesOf 8 row
def imgHead (len grans bad : Nat) : List Byte :=
  [0x5A#8, 0x59#8, 0x4E#8, 0x1A#8] ++ bytesOf 1 1 ++ bytesOf 1 bad ++ bytesOf 2 0 ++ bytesOf 8 len ++ bytesOf 2 1 ++ bytesOf 2 8 ++ bytesOf 4 1 ++ bytesOf 4 grans ++ bytesOf 4 1 ++
  bytesOf 2 0 ++ bytesOf 2 1 ++ bytesOf 2 0 ++ bytesOf 2 0 ++ bytesOf 2 0 ++ bytesOf 2 0 ++ bytesOf 2 0 ++ bytesOf 2 0 ++ bytesOf 4 0x40000 ++ bytesOf 12 0 ++
  bytesOf 8 256 ++ bytesOf 8 0 ++ bytesOf 8 320 ++ bytesOf 8 384 ++ bytesOf 8 0 ++ bytesOf 8 0 ++ bytesOf 8 0 ++ bytesOf 8 448 ++ bytesOf 128 0
/-- An image of four RLE granules of 64 vectors in one segment; its digest and check word are written out. -/
def img (bad : Nat) : List Byte :=
  let gr := granB 0 0 0 2 ++ granB 0 0 0 2 ++ granB 0 0 0 2 ++ granB 0xB 0 0 2
  let rest := bytesOf 8 0 ++ bytesOf 56 0 ++ bytesOf 8 448 ++ bytesOf 8 96 ++ bytesOf 4 0 ++ bytesOf 4 4 ++ bytesOf 4 24576 ++ bytesOf 4 0 ++ bytesOf 32 0 ++
    bytesOf 4 0 ++ bytesOf 4 0 ++ bytesOf 6 448 ++ bytesOf 1 1 ++ bytesOf 1 0 ++ bytesOf 48 0 ++ gr
  let bs := imgHead 544 4 bad ++ rest
  let digest := if bad = 0 then 87982233993401288095118318196585128079679271452605750928345544271388389706342
    else 8802537022700046961047673348655508518613753094962417028313822433809475403169
  splice (splice bs 216 (bytesOf 32 digest)) 252 (bytesOf 4 (if bad = 0 then 4175645967 else 4248211004))
/-- A calibration table image of 16 zero bytes with its digest. -/
def calImg (k body : Nat) : List Byte :=
  let h := [0x43#8, 0x41#8, 0x4C#8, 0x1A#8] ++ bytesOf 1 k ++ bytesOf 1 1 ++ bytesOf 2 0 ++ bytesOf 4 body ++ bytesOf 4 0 ++ bytesOf 6 77 ++ bytesOf 2 400 ++ bytesOf 2 0 ++ bytesOf 2 0 ++ bytesOf 32 17193875341849585606423058344758666679347077335688083935864822565306421637333
  h ++ bytesOf 4 (crc32c h) ++ bytesOf body 0
/-- The load descriptor of opcode `op` over `len` bytes at 0x8000, with more body fields, waits on ring 1. -/
def loadQ (op : Nat) (bs : List Byte) (more : List Byte) (d : Dev) : Dev := (waits 1 (mkq op 1 9 (bytesOf 8 0x8000 ++ bytesOf 8 bs.length ++ more)) d).write 0x8000 bs
def levelB (vih : Nat) : List Byte := bytesOf 2 vih ++ bytesOf 2 0x2EE0 ++ bytesOf 2 0x2EE0 ++ bytesOf 2 0 ++ (List.range 8).flatMap (fun _ => bytesOf 2 0x3EE0 ++ bytesOf 2 0x2EE0) ++ bytesOf 8 0 ++ bytesOf 1 0xFF ++ bytesOf 15 0
def bindB (site image : Nat) : List Byte := bytesOf 2 site ++ bytesOf 2 image ++ bytesOf 2 1 ++ bytesOf 2 0 ++ bytesOf 2 (2 ^ (site / 16)) ++ bytesOf 6 0 ++ bytesOf 2 (64 * (site / 16)) ++ bytesOf 6 (2 ^ 48 - 1)
def capB (site pins : Nat) : List Byte := bytesOf 2 site ++ bytesOf 2 1 ++ bytesOf 2 pins ++ bytesOf 1 0 ++ bytesOf 1 1 ++ bytesOf 4 8 ++ bytesOf 4 0 ++ bytesOf 8 0x100000 ++ bytesOf 8 8192 ++ bytesOf 32 0 ++ bytesOf 16 0
def ddsB (site f : Nat) : List Byte := bytesOf 2 site ++ bytesOf 2 0 ++ bytesOf 1 1 ++ bytesOf 1 0 ++ bytesOf 1 0 ++ bytesOf 1 0 ++ bytesOf 8 0 ++ bytesOf 8 f ++ bytesOf 8 0
/-- The image that loading it gives, loaded at 1 GiB. -/
def image0 : Image :=
  ⟨⟨false, 544, 1, 8, 1, 0, 262144, 0, [0], [⟨448, 96, 0, 4, 24576⟩], [⟨0, 0, 448, 1⟩], [], [], [],
    [⟨3, 1, 0, 0, 448, 24, [⟨64, 0, 2⟩]⟩, ⟨3, 1, 0, 0, 472, 24, [⟨64, 0, 2⟩]⟩, ⟨3, 1, 0, 0, 496, 24, [⟨64, 0, 2⟩]⟩, ⟨3, 1, 11, 0, 520, 24, [⟨64, 0, 2⟩]⟩]⟩,
    0x40000000, [], [], []⟩
def eU : Nat := 0xFFFFFFFF
def tim0 : TimSet := ⟨10000, 0, 1, false, List.replicate 64 ⟨1, 1, false, [0, eU, eU, 5000, 7000, eU]⟩⟩
def plan0 : CapPlan := ⟨0, false, 1, 1, 8, 0x100000, 8192, 0x200000, 0, [], [0]⟩
def setUp0 : SetUp := ⟨[(0, [(0, tim0)])], [], [(3, ⟨5, false, false, 1, [8]⟩)], [], []⟩
/-- Site 3 ARMED, bound to image 5 and channel 8, with timing, clocks locked and an epoch known. -/
def ready (d : Dev) : Dev :=
  let d := { d with seq := { d.seq with images := [(5, image0)], shadow := setUp0, live := setUp0 }, flue := { d.flue with known := true, epoch := 100, everKnown := true } }
  let d := regs ((List.range 6).map (fun p => (R.CLK_PLL_STATUS p, 3))) d
  (d.modGrate 1 (fun g => { g with dom := .on })).modSite 3 (fun s => { s with st := .armed })
def start0 (epoch : Nat) : Start := ⟨7, 1, 9, [3], epoch, 0x8000, false, true, false, false⟩
/-- The same, STARTING in start 7, in group 0 with engine 0. -/
def starting (d : Dev) : Dev :=
  let d := ready d
  let d := { d with seq := { d.seq with starts := [start0 100], nextStart := 8, groups := [(0, ⟨5, [0], [3], true, 0, none, false⟩)], engines := [(0, ⟨some 0, []⟩)] } }
  d.modSite 3 (fun s => { s with st := .starting, start := 7, group := 0, run := SiteRun.start 0 1, cap := CapRun.start })
def runningS (d : Dev) : Dev := (starting d).modSite 3 (fun s => { s with st := .running })
def opnd (site src : Nat) : DrtOperand := ⟨site, src, by3.take 64, none, false, false⟩
def ent (flow eseq : Nat) (s : DrtSt) (order : Nat) : DrtEntry := ⟨flow, eseq, 0xFF, [5, 0xFF, 0xFF, 0xFF], [some (by3.take 64)], s, 0, order, 0, 0, 0, 0, 0, []⟩
def drt (f : Draught → Draught) (d : Dev) : Dev :=
  let d := regs [(R.DRT_CFG, 0x80000300), (R.DRT_Q_CTRL 0, 4), (R.DRT_Q_CTRL 1, 4), (R.DRT_Q_BASE 0, 16), (R.DRT_Q_BASE 1, 32), (R.DRT_RES_BASE, 48), (R.DRT_RES_SIZE, 2), (R.DRT_AGE, 0xFFFFFFFF)] (ready d)
  { d with drt := f d.drt }
/-- PLL 2 in a state, with bands 1 and 3 that fit N = 40. -/
def pllIn (state : Nat) (d : Dev) : Dev :=
  let d := regs [(R.CLK_PLL_STATUS 2, BitVec.ofNat 32 state), (R.CLK_PLL_LIMIT 2, 0xFFFFFFFF)] d
  { d with clk := { d.clk with bands := [(64 * 2 + 1, 0x80FFF000), (64 * 2 + 3, 0x80FFF000)], plls := [(2, ⟨40, 0, false⟩)] } }
def msg (w : Nat) : MbxMsg := ⟨w, 0x20, 0, 0⟩
/-- Mailbox 1 between the supervisor and user core 3. -/
def mbxIn (a b : List MbxMsg) (ra rb : Nat) (d : Dev) : Dev :=
  let d := regs [(R.MBX_CFG 1, 0x80001420), (R.MBX_STATUS 1, 3)] d
  { d with mbx := { d.mbx with boxes := [(1, ⟨a, b, ⟨1, ra, 0⟩, ⟨1, rb, 0⟩⟩)] } }
def pkt (type dest src tag be arg addr : Nat) (pl : List Nat) : Packet := ⟨type, dest, src, tag, be, arg, addr, pl⟩
/-- Port p in a state. -/
def portIn (p state : Nat) (d : Dev) : Dev := regs [(R.FLU_PORT_STATUS p, BitVec.ofNat 32 state)] d
/-- A worker: device 1 below the manager on port 0. -/
def worker (d : Dev) : Dev := portIn 0 2 (regs [(R.GLB_ROLE, 0x102)] (d.modPort 0 (fun p => { p with identOk := true })))
/-- Site 3 of a start that spans devices, running. -/
def multiRun (d : Dev) : Dev :=
  let d := runningS (linkUp (ringIn 1 0x10001 d))
  { d with seq := { d.seq with starts := [{ start0 100 with multi := true }], live := { d.seq.live with binds := [(3, ⟨5, true, true, 1, [8]⟩)] } } }
/-- TMU channel `n`, source the test pulse, rising and falling edges, record, rate 1, a buffer at 0x10000. -/
def tmuIn (n : Nat) (f : TmuCh → TmuCh) (d : Dev) : Dev :=
  let d := regs [(R.TMU_REF_STATUS, 0xFFFFFFFF), (R.TMU_CH_CFG n, 0x0401C003), (R.TMU_CH_BUF_BASE n, 16), (R.TMU_CH_BUF_SIZE n, 1)] d
  ({ d with tmu := { d.tmu with groups := [(0, .on), (1, .waking)] } }).modTmu n f
def stamp0 : TmuStamp := ⟨3, 100, 5, 100, 17, true, false, none, []⟩
def item0 (b : Bool) : TmuItem := ⟨none, b, 3, 100, by3.take 16⟩
def regAt (r : Nat) : Nat := 0x100000 + 0x20000 * r
def dirB : List Byte :=
  let b := directoryMagic ++ bytesOf 4 1 ++ (List.range 16).flatMap (fun r => bytesOf 8 (regAt r) ++ bytesOf 8 0x20000)
  b ++ bytesOf 4 1972416702
/-- A flash with a directory of 16 regions of two sectors. -/
def flashed (d : Dev) : Dev := { d with board := { d.board with flash := flashPut [] 0 dirB } }
def douse1 (d : Dev) : Dev := { d with faults := ⟨[], [], [⟨dcRegister, 255, .relay, false⟩]⟩ }
def fr (dest src v op ser : Nat) : LlkFrame := ⟨0, dest, src, v, 77, op, ser, 0⟩
def slotQ (op flags seq : Nat) (body : List Byte) (d : Dev) : Dev := ((ringIn 1 1 d).modRing 1 (fun r => { r with cmdPi := 3 })).write 0x10000 (descB op flags seq body)
def dmaQ (a len dest dir : Nat) := mkq 0x18 1 7 (bytesOf 8 a ++ bytesOf 8 0x20000 ++ bytesOf 4 len ++ bytesOf 1 dest ++ bytesOf 1 dir)
def heldS (l : List Completion) (d : Dev) : Dev := (ringIn 1 0x30001 d).modRing 1 (fun r => { r with held := l })
def withImg (num : Nat) (d : Dev) : Dev := { d with seq := { d.seq with images := [(num, image0)] } }
def withBind (site num : Nat) (d : Dev) : Dev := { d with seq := { d.seq with live := { d.seq.live with binds := [(site, ⟨num, false, false, 2 ^ (site / 16), [64 * (site / 16)]⟩)] } } }
def levQ (l : List Byte) (d : Dev) : Dev := (waits 1 (mkq 4 1 9 (bytesOf 8 0x8000 ++ bytesOf 16 (2 + 2 ^ 127))) d).write 0x8000 l
def stepB (ch mode range value : Nat) : List Byte := bytesOf 2 ch ++ bytesOf 1 mode ++ bytesOf 1 range ++ bytesOf 2 value ++ bytesOf 2 50000 ++ bytesOf 2 3000 ++ bytesOf 2 0 ++ bytesOf 1 0 ++ bytesOf 1 0 ++ bytesOf 2 0
def ppQ (bs : List Byte) (d : Dev) : Dev := (waits 1 (mkq 9 1 9 (bytesOf 8 0x8000 ++ bytesOf 2 (bs.length / 16) ++ bytesOf 6 0 ++ bytesOf 8 0x9000)) d).write 0x8000 bs
def stepOf (n ch mode : Nat) : PpmuStep := ⟨n, ch, mode, 1, 30000, 50000, 3000, 200, 2, false, false⟩
def plan (l : List PpmuStep) (d : Dev) : Dev :=
  let d := (ringIn 1 0x10001 d).modRing 1 (fun r => { r with current := some (mkq 9 1 9 []) })
  let d := d.modGrate 1 (fun g => { g with dom := .on })
  { d with rings := { d.rings with plans := [⟨1, 9, true, 0x9000, true, l, 0, 0, false⟩] } }
def gr (dom : Dom) (d : Dev) := (d.modGrate 1 (fun g => { g with dom := dom })).modChan 8 (fun c => { c with drv := .h })
def lev2 : LevelEntry := { LevelEntry.reset with vih := 0x4000, relay := true }
def su1 : SetUp := ⟨[(0, [(1, tim0)]), (1, [(2, tim0)])], [(1, lev2)], [(3, ⟨5, false, false, 1, [9]⟩), (4, ⟨5, false, false, 1, [17]⟩)], [], []⟩
def pc (hs applied : List Nat) : PendCommit := ⟨1, 9, 0x20, true, hs, applied, su1, [], []⟩
def pend (l : List PendCommit) (settles : List Settle) (d : Dev) : Dev := 
  let d := ringIn 1 0x10001 (ready d)
  { d with seq := { d.seq with commits := l, settles := settles } }
def dirty (k : Nat) (d : Dev) : Dev := d.setF (R.CAL_TAB_STATUS k) F.CAL_TAB_STATUS_SHADOW_DIRTY 1 |>.setBit R.CAL_DUE k true
def tab (k : Nat) (d : Dev) : Dev := { d with cal := { d.cal with shadow := [(k, ⟨3, 77, 300, 0, 0, List.replicate 16 1⟩)] }, rings := { d.rings with calCommits := [⟨1, 9, true, [k, 18], [], false, 0x20⟩] } }
def stQ (ep : Nat) (f : Dev → Dev) : State := st (fun d => f (waits 1 (mkq 0x12 1 9 (bytesOf 32 8 ++ bytesOf 8 ep ++ bytesOf 8 0x8000)) (ready d)))
def stopQ (f : Dev → Dev) : State := st (fun d => (ringIn 1 0x10001 (f d)).modRing 1 (fun r => { r with immediate := [mkq 0x13 1 4 (bytesOf 32 0x1C)] }))
def ending (f : Site → Site) : State := st (fun d => (ringIn 1 0x10001 (starting d)).modSite 3 (fun s => f { s with st := .stopping, endCause := .halt, summary := 2 }))
def vec (f : SiteRun → SiteRun) (d : Dev) : Dev := (runningS d).modSite 3 (fun s => { s with run := f s.run })
def rep (ctrl pi ci : Nat) (d : Dev) : Dev := regs [(R.HRT_HOLD_CTRL, BitVec.ofNat 32 ctrl), (R.HRT_HOLD_BASE, 16), (R.HRT_HOLD_PI, BitVec.ofNat 32 pi), (R.HRT_HOLD_CI, BitVec.ofNat 32 ci)] { d with seq := { d.seq with reports := [⟨3, by3⟩, ⟨4, []⟩] } }
def dd (f : DdsUnit → DdsUnit) (d : Dev) : Dev :=
  let d := runningS d
  ({ d with seq := { d.seq with claims := [⟨3, 1, 0, 1, 8, 0, false⟩] } }).modDds 1 (fun u => f { u with ftw := 2 ^ 40 })
def gIns (op operand : Nat) : Gran := ⟨3, 1, op, operand, 448, 24, [⟨64, 0, 2⟩]⟩
def imgIns (op operand : Nat) : Image := { image0 with z := { image0.z with grans := [gIns 0 0, gIns op operand, gIns 0 0, gIns 0 0, gIns 0xB 0], branches := [⟨0, 0, 448, 1⟩, ⟨3, 0, 520, 1⟩], holds := [⟨1, true⟩], rdvs := [⟨1, 7, 0, 2, 1⟩], segs := [⟨448, 120, 0, 5, 24576⟩] } }
def atI (op operand : Nat) (f : SiteRun → SiteRun) (d : Dev) : Dev :=
  let d := runningS d
  let d := { d with seq := { d.seq with images := [(5, imgIns op operand)] } }
  let d := d.modEngine 0 (fun e => { e with ring := [⟨0, false, false⟩, ⟨1, false, false⟩, ⟨2, false, false⟩, ⟨3, false, false⟩] })
  d.modSite 3 (fun s => { s with run := f { s.run with vec := 64, flow := { s.run.flow with pc := 1 } } })
def fl (f : Flow → Flow) (r : SiteRun) : SiteRun := { r with flow := f r.flow }
def loops8 : List LoopEnt := List.replicate 8 ⟨0, 3⟩
def grp (f : Group → Group) (d : Dev) : Dev := match d.group 0 with | some g => d.setGroup 0 (f g) | none => d
def w0 (rdv : Bool) (ep : Nat) : IdleWait := ⟨rdv, 1, 0, 7, 10, 2560, ep, false⟩
def idl (w : IdleWait) (r : SiteRun) : SiteRun := { r with idle := true, wait := some w, t := 10000 }
def full (d : Dev) : Dev := d.modEngine 0 (fun e => { e with ring := [⟨1, false, false⟩, ⟨2, false, false⟩, ⟨3, false, false⟩, ⟨4, false, false⟩] }) |> fun d => { d with seq := { d.seq with images := d.seq.images.map (fun x => (x.1, { x.2 with z := { x.2.z with windowGuard := 0 } })) } }
def sync (f : Flue → Flue) (d : Dev) : Dev := { (runningS d) with flue := f (runningS d).flue }
def stopping (d : Dev) : Dev := (drt id d).modSite 3 (fun s => { s with st := .stopping })
def winp (d : Dev) : Dev := let d := drt id (d.write 0x200000 by3); let d := { d with seq := { d.seq with live := { d.seq.live with plans := [(3, plan0)] } } }; d.modSite 3 (fun s => { s with st := .running, cap := { s.cap with results := 2 } })
def r1 (d : Dev) : Dev := (drt (fun x => { x with entries := [{ ent 12 0 .done 1 with relOrder := 4, result := by3 }, { ent 16 0 .done 1 with relOrder := 3 }], relSeq := 9 }) d)
def ret (d : Dev) : Dev := { d with clk := { d.clk with plls := [(2, ⟨40, 2, true⟩)] } }
def noref (d : Dev) : Dev := { d with board := { d.board with refPresent := false } }
def locks (d : Dev) : Dev := { d with mbx := { d.mbx with locks := [(0, (0x20, 0)), (5, (0x14, 1))] } }
def k0 : Packet := pkt 1 1 0 0 255 0 0x100 [1, 2]
def rp (p st n : Nat) (d : Dev) : Dev := (portIn p st (linkUp (ready d))).modPort p (fun q => { q with replay := [(0, k0), (1, k0)], replays := n })
def skw (l : List Int) (t : Option Int) (d : Dev) : Dev := { (worker d) with flue := { (worker d).flue with skew := some ⟨l, t, false, 400⟩, known := true } }
def start64 (op : Nat) : List Nat := (List.range 8).map (fun i => fieldAt (descB op 1 9 (bytesOf 32 8 ++ bytesOf 8 130 ++ bytesOf 8 0x8000)) (8 * i) 8)
def evp (src ring ep kind more : Nat) (l : List Nat) : Packet := pkt 5 0x7F src 0 0 ring 0 ([ep, kind + more] ++ l)
def pw (f : Power → Power) (d : Dev) : Dev := { d with power := f d.power }
def supT (l : List (Nat × Word)) (q : Option SupSeq) (d : Dev) : Dev :=
  pw (fun p => { p with seq := q }) (regs ([(R.PWR_SEQ_UP 0, 0x00040A43), (R.PWR_SEQ_UP 1, 0x00040045), (R.PWR_SEQ_DOWN 0, 0x00040085), (R.PWR_SEQ_DOWN 1, 0x00040083)] ++ l) d)
def dr (s post al : Nat) (rest : Word) (d : Dev) : Dev := regs ([0, 7].map (fun c => (R.DMC_CH_STATUS c, rest ||| BitVec.ofNat 32 (s + 65536 * post + 2 ^ 20 * al)))) d
def cal (p : CalProc) (d : Dev) : Dev := { d with cal := { d.cal with proc := some p } }
def tm (f : TimeState → TimeState) (d : Dev) : Dev := { d with time := f d.time }
def aud (f : Audit → Audit) (d : Dev) : Dev := { d with audit := f d.audit }
def ps : PtpStamp := ⟨true, 1, 70000, 123, 5, 6⟩
def up2 : List (Nat × Word) := [(R.MGT_PORT_STATUS 0, 1), (R.MGT_PORT_STATUS 1, 1), (R.MGT_PORT_CTRL 0, 0x80000000), (R.MGT_PORT_CTRL 1, 0x80000000), (R.MGT_PORT_MAC_LO 0, 2)]
def run0 (s : Nat) : StageRun := ⟨s, 0, 3, 0, 0, by3.take 32⟩
def hostR : List (Nat × Word) := [(R.DMC_REGION, 1), (R.SEC_ADDR_LO, 0x10000)]
def rn (d : Dev) : Dev := let d := flashed d; { d with board := { d.board with running := [run0 0, run0 1, run0 3] } }
def seqLate : State := st (atI 0 0 (fun r => { r with late := some ⟨3, 1⟩ }))
def timeRuns : State := st (fun d => tm (fun t => { t with incPend := some (5 * 2 ^ 30), ns := 999999999, adjPend := [5, -3] }) (ready d))
def ppmuBad : State := st (ppQ (stepB 9 1 1 30000 ++ stepB 10 9 1 300))
def ppmuGood : State := st (ppQ (stepB 9 1 1 30000 ++ stepB 10 2 1 300))
def dmaNowhere : State := st (waits 1 (dmaQ 0x8000 64 1 0))
def remoteLoad (op : Nat) (more : List Byte) (d : Dev) : Dev :=
  (waits 1 (mkq op 1 9 (bytesOf 8 0x8000 ++ more)) d).setF (R.RING_CTRL 1) F.RING_CTRL_REMOTE 1
def imageRemote : State := st (remoteLoad 1 (bytesOf 8 544))
def imageSmall : State := st (fun d => (remoteLoad 1 (bytesOf 8 544) d).setReg R.GLB_CAPACITY 1)
def timingRemote : State := st (remoteLoad 3 (bytesOf 2 1 ++ bytesOf 2 6))
def imageDesc : Desc := mkq 1 1 9 (bytesOf 8 0x8000 ++ bytesOf 8 544)

/-! ### States of the witnesses -/

def kindlingEndsReadyOrStopped1 : State := st (fun d => { d with board := { d.board with resetDue := true } })
def pins1 : State := st id
def pins2 : State := st douse1
def pins3 : State := st (regs [(R.EMB_PSTATE, 0)])
def faultLines1 : State := st (regs [(R.FLT_CFG 0, 0xCCCCCCCC), (R.FLT_CFG 1, 0xCCCCCCCC)])
def faultLines2 : State := st (regs [(R.FLT_CFG 0, 0x88888888), (R.FLT_CFG 1, 0x88888888)])
def faultLines3 : State := st id
def faultRegisters1 : State := st id
def faultRegisters2 : State := st (fun d => { d with board := { d.board with factory := true, otp := { d.board.otp with field := false} } })
def douseSteps1 : State := st (fun d => { (regs [(R.PWR_SUP_EN, 0xFFFFFFFF), (R.PWR_SUP_CFG 4, 0xFFFFFFFF)] d) with faults := ⟨[], [], [⟨dcRegister, 255, .supply, false⟩, ⟨dcReset, allChannels, .supply, true⟩]⟩ })
def douseSteps2 : State := st (fun d => { (regs [(R.PWR_SUP_EN, 0xFFFFFFFF), (R.PWR_SUP_CFG 4, 0xFFFFFFFF)] (d.modGrate 3 (fun g => { g with relay := true}))) with faults := ⟨[], [], [⟨dcRegister, 255, .relay, false⟩, ⟨dcReset, allChannels, .supply, true⟩]⟩ })
def driverOverload1 : State := st (fun d => (d.modChan 8 (fun g => { g with drv := .h})).modChan 9 (fun g => { g with drv := .l}))
def leloiskFrames1 : State := st (fun d => regs [(R.EMB_PSTATE, 1), (R.EMB_WAKE_CFG, 4), (R.FLT_LLK_CFG, 0xC0000000), (R.MGT_PORT_CTRL 0, 0x80000000), (R.FLT_LLK_SRC_HI 1, 0x80000000), (R.FLT_LLK_SRC_LO 1, 5)] { d with board := { d.board with profileLoaded := true } })
def leloiskFrames2 : State := st id
def testAccessPort1 : State := st id
def testAccessPort2 : State := st (fun d => { d with board := { d.board with factory := true, otp := { d.board.otp with field := false} } })
def doorbellsAndFetches1 : State := st (ringIn 1 0)
def doorbellsAndFetches2 : State := st (ringIn 1 1)
def doorbellsAndFetches3 : State := st (fun d => (ringIn 1 1 d).modRing 1 (fun r => { r with fetching := true, fetchTries := 4 }))
def descriptorIsConsumed1 : State := st (slotQ 0 0 0 [])
def descriptorIsConsumed2 : State := st (fun d => (slotQ 1 1 0 (bytesOf 8 0 ++ bytesOf 8 64) d).setReg R.AUD_PERM_DESC 0)
def sequenceGapStopsTheRing1 : State := st (ringIn 1 2)
def sequenceGapStopsTheRing2 : State := st (slotQ 0 0 1 [])
def nopAndFlueDma1 : State := st (waits 1 (mkq 0 1 5 []))
def nopAndFlueDma2 : State := st (fun d => linkUp (waits 1 (dmaQ 0x8000 64 1 1) d))
def nopAndFlueDma3 : State := st (fun d => linkUp (waits 1 (dmaQ 0x8000 64 1 0) d))
def completionsAreWritten1 : State := st (heldS [comp 3])
def completionsAreWritten2 : State := st (fun d => (regs [(R.RING_CTRL 1, 0x90000000), (R.FLU_PORT_STATUS 0, 2)] (heldS ((List.range 2).map comp) d)).modRing 1 (fun r => { r with faultErr := reWriteDenied }))
def ringControl1 : State := st (ringIn 1 0)
def ringControl2 : State := st (ringIn 1 1)
def ringControl3 : State := st (ringIn 1 2)
def ringControl4 : State := st (ringIn 1 4)
def ringControl5 : State := st (ringIn 1 0x10004)
def imageLoads1 : State := st (waits 1 (mkq 2 0 7 (bytesOf 2 5)))
def imageLoads2 : State := st (fun d => withBind 3 5 (withImg 5 (waits 1 (mkq 2 0 7 (bytesOf 2 5)) d)))
def imageLoads3 : State := st (fun d => withImg 5 (waits 1 (mkq 2 0 7 (bytesOf 2 5)) d))
def timingAndLevelLoads1 : State := st (levQ (levelB 0x3EE0 ++ levelB 0x3EE0))
def timingAndLevelLoads2 : State := st (levQ (levelB 0x3EE0 ++ levelB 0))
def entryLoads1 : State := st (loadQ 5 (bindB 3 7 ++ bindB 20 0) (bytesOf 2 2))
def entryLoads2 : State := st (loadQ 5 (bindB 3 7 ++ bindB 300 0) (bytesOf 2 2))
def entryLoads3 : State := st (loadQ 6 (capB 3 1 ++ capB 9 1) (bytesOf 2 2))
def entryLoads4 : State := st (loadQ 6 (capB 3 1 ++ capB 500 1) (bytesOf 2 2))
def entryLoads5 : State := st (loadQ 7 (ddsB 3 (2^46) ++ ddsB 5 (2^45)) (bytesOf 2 2))
def entryLoads6 : State := st (loadQ 7 (ddsB 3 (2^46) ++ ddsB 5 1) (bytesOf 2 2))
def calibrationLoad1 : State := st (loadQ 8 (calImg 18 16) (bytesOf 2 17))
def calibrationLoad2 : State := st (loadQ 8 (calImg 17 16) (bytesOf 2 17))
def ppmuPlans1 : State := st (plan [stepOf 0 9 1, stepOf 1 10 2])
def grates1 : State := st (gr .waking)
def grates2 : State := st (gr .settling)
def commitPends1 : State := st (fun d => (waits 1 (mkq 0x10 1 9 (bytesOf 2 1)) (ready d)) |> fun d => { d with seq := { d.seq with images := [] } })
def commitPends2 : State := st (fun d => waits 1 (mkq 0x10 1 9 (bytesOf 2 1)) (ready d))
def commitApplies1 : State := st (pend [pc [0, 1] []] [])
def commitApplies2 : State := st (pend [pc [0,1] [0,1]] [.level 1])
def commitApplies3 : State := st (fun d => (pend [pc [0,1] [0,1]] [] d).modHearth 1 (fun h => { h with loading := true }))
def calibrationGoesLive1 : State := st (fun d => dirty 2 (dirty 3 (waits 1 (mkq 0x11 1 9 (bytesOf 8 0xC)) d)))
def calibrationGoesLive2 : State := st (fun d => dirty 17 (tab 17 (ringIn 1 0x10001 d)))
def startIsJudged1 : State := stQ 102 id
def startIsJudged2 : State := stQ 102 (fun d => d.modHearth 0 (fun g => { g with engines := 0 }))
def startIsJudged3 : State := stQ 102 (fun d => { d with flue := { d.flue with known := false } })
def startIsJudged4 : State := stQ 101 id
def startIsJudged5 : State := stQ 102 (fun d => { d with seq := { d.seq with settles := [.level 1] } })
def runsEnd1 : State := stopQ runningS
def runsEnd2 : State := ending (fun s => { s with cap := { s.cap with finished := true }})
def vectorsAndGranules1 : State := st runningS
def vectorsAndGranules2 : State := st (fun d => (starting d).modHearth 0 (fun h => { h with ringKib := 0 }))
def holdReports1 : State := st (rep 0x80000004 0 0)
def holdReports2 : State := st (rep 0x80000004 20 4)
def holdReports3 : State := st (rep 0 0 0)
def synthClocks1 : State := st (dd id)
def sequencerInstructions1 : State := st (atI 0 0 id)
def sequencerInstructions2 : State := st (atI 1 2 id)
def sequencerInstructions3 : State := st (atI 1 2 (fun r => { r with rep := 1}))
def sequencerInstructions4 : State := st (atI 2 5 (fl (fun f => { f with back := true })))
def sequencerInstructions5 : State := st (atI 2 5 id)
def sequencerInstructions6 : State := st (atI 2 5 (fl (fun f => { f with loops := loops8 })))
def sequencerInstructions7 : State := st (atI 3 0 id)
def sequencerInstructions8 : State := st (atI 3 0 (fl (fun f => { f with loops := [⟨0, 2⟩, ⟨0, 9⟩] })))
def sequencerInstructions9 : State := st (atI 3 0 (fl (fun f => { f with loops := [⟨0, 1⟩, ⟨0, 9⟩] })))
def sequencerInstructions10 : State := st (atI 4 1 id)
def sequencerInstructions11 : State := st (atI 4 1 (fl (fun f => { f with calls := List.replicate 16 0 })))
def sequencerInstructions12 : State := st (atI 5 0 id)
def sequencerInstructions13 : State := st (atI 5 0 (fl (fun f => { f with calls := [2, 3] })))
def sequencerInstructions14 : State := st (atI 6 (1 + 65536) (fl (fun f => { f with loops := loops8 })))
def sequencerInstructions15 : State := st (atI 6 (1 + 65536) id)
def sequencerInstructions16 : State := st (atI 7 (1 + 65536) id)
def sequencerInstructions17 : State := st (atI 7 1 (fun r => { r with condTrue := true }))
def sequencerInstructions18 : State := st (atI 7 (1 + 49 * 2 ^ 19 + 65536) (fl (fun f => { f with loops := loops8 }) ∘ (fun r => { r with condTrue := true })))
def sequencerInstructions19 : State := st (atI 7 (1 + 65536) (fun r => { r with condTrue := true }))
def sequencerInstructions20 : State := st (atI 0xB 0 id)
def sequencerInstructions21 : State := st (atI 0xC 77 id)
def sequencerInstructions22 : State := st (atI 0xC (77 + 4 * 2 ^ 32) id)
def sequencerInstructions23 : State := st (atI 0xC (77 + 5 * 2 ^ 32) id)
def sequencerInstructions24 : State := st (atI 0xC (77 + 6 * 2 ^ 32) (fl (fun f => { f with flags := 255 })))
def sequencerInstructions25 : State := st (atI 0xC (7 * 2 ^ 32) (fun r => { r with siteFail := true }))
def sequencerInstructions26 : State := st (atI 8 (5 * 2 ^ 14) (fun r => { r with waitMore := true }))
def sequencerInstructions27 : State := st (atI 8 (5 * 2 ^ 14) (fun r => { r with waitHit := some 3 }))
def sequencerInstructions28 : State := st (atI 8 (5 * 2 ^ 14) (fun r => { r with waitHit := some 60 }))
def sequencerInstructions29 : State := st (atI 8 (5 * 2 ^ 14) id)
def sequencerInstructions30 : State := st (atI 8 (5 * 2 ^ 14) (fun r => { r with rep := 4 }))
def holdsAndRendezvous1 : State := st (fun d => full (atI 9 0 id d))
def holdsAndRendezvous2 : State := st (fun d => grp (fun g => { g with hasEngine := false }) (atI 9 0 id d))
def holdsAndRendezvous3 : State := st (fun d => full (atI 9 0 (idl (w0 false 90)) d))
def holdsAndRendezvous4 : State := st (fun d => grp (fun g => { g with hasEngine := false }) (atI 9 0 (idl (w0 false 90)) d))
def holdsAndRendezvous5 : State := st (atI 10 0 id)
def holdsAndRendezvous6 : State := st (atI 10 0 (fun r => { idl (w0 true 90) r with rdvDone := some 100 }))
def holdsAndRendezvous7 : State := st (fun d => regs [(R.HRT_SEQ_CFG, 0x000A0A0A)] (atI 10 0 (fun r => idl (w0 true 89) r) d))
def holdsAndRendezvous8 : State := st (fun d => regs [(R.HRT_SEQ_CFG, 0xFFFFFFFF)] (atI 10 0 (fun r => idl (w0 true 90) r) d))
def epochsAreCounted1 : State := st (sync (fun f => { f with assign := some 101 }))
def epochsAreCounted2 : State := st (fun d => regs [(R.GLB_ROLE, 2)] (sync id d))
def epochsAreCounted3 : State := st (fun d => regs [(R.CLK_SYNC_STATUS, 0xFFFFFFFF)] (sync id d))
def operandsBecomeEvents1 : State := st stopping
def operandsBecomeEvents2 : State := st winp
def operandsBecomeEvents3 : State := st (drt (fun x => { x with offers := [opnd 3 5] }))
def operandsBecomeEvents4 : State := st (drt (fun x => { x with offers := [opnd 3 5], entries := List.replicate 8192 (ent 16 0 .complete 1) }))
def operandsBecomeEvents5 : State := st (drt (fun x => { x with entries := [{ ent 12 0 .opened 0 with sources := [0x41, 0x40, 0xFF, 0xFF], ops := [none, some []] }, ent 16 0 .complete 1] }))
def eventsAreDispatchedAndReleased1 : State := st (drt (fun x => { x with entries := [ent 12 0 .complete 4, ent 16 0 .complete 3] }))
def eventsAreDispatchedAndReleased2 : State := st r1
def eventsAreDispatchedAndReleased3 : State := st (fun d => regs [(R.DRT_RES_PI, 4)] (r1 d))
def pllStates1 : State := st (pllIn 0)
def pllStates2 : State := st (fun d => regs [(R.CLK_PLL_CTRL 0, 0x80000028)] (runningS d))
def pllStates3 : State := st (pllIn 1)
def pllStates4 : State := st (fun d => ret (pllIn 1 d))
def pllStates5 : State := st (pllIn 2)
def pllStates6 : State := st (fun d => noref (pllIn 2 d))
def pllStates7 : State := st (fun d => pllIn 0 (runningS d))
def referenceAndClocks1 : State := st (fun d => noref (pllIn 4 d))
def referenceAndClocks2 : State := st (pllIn 3)
def referenceAndClocks3 : State := st (fun d => { d with clk := { d.clk with measuring := some 131 } })
def referenceAndClocks4 : State := st ready
def referenceAndClocks5 : State := st (regs [(R.CLK_EMBER_STATUS, 1)])
def mailboxesAndLocks1 : State := st (mbxIn [] [] 0 0)
def mailboxesAndLocks2 : State := st (mbxIn [msg 5] [msg 6] 0 0)
def mailboxesAndLocks3 : State := st (fun d => regs [(R.MBX_STATUS 1, 0), (R.MBX_WAIT 1, 3)] (mbxIn [] [msg 5, msg 7] wrPending wrPending d))
def mailboxesAndLocks4 : State := st (mbxIn [msg 5, msg 7] [] wrPending wrPending)
def mailboxesAndLocks5 : State := st locks
def fluePorts1 : State := st (fun d => portIn 1 0 (ready (linkUp d)))
def fluePorts2 : State := st (fun d => linkUp (ready d))
def fluePorts3 : State := st (rp 1 1 2)
def fluePorts4 : State := st (rp 1 3 2)
def fluePorts5 : State := st (rp 1 4 2)
def fluePorts6 : State := st (rp 1 2 0)
def fluePorts7 : State := st (rp 1 2 8)
def fluePorts8 : State := st (fun d => { (linkUp d) with flue := { (linkUp d).flue with reads := [(5, .racc 1 0), (6, .fetch 1)], nextTag := 9 } })
def fluePorts9 : State := st (fun d => ready (worker d))
def fluePorts10 : State := st (skw (List.replicate 64 1) none)
def fluePorts11 : State := st (skw [] none)
def packets1 : State := st (fun d => linkUp (ready d))
def packets2 : State := st (fun d => regs [(R.RING_DB_LO 1, 0x3000)] (linkUp d))
def packets3 : State := st (fun d => { (linkUp d) with flue := { (linkUp d).flue with reads := [(5, .racc 1 0)] } })
def packets4 : State := st (fun d => mbxIn [] [msg 3] 0 0 (linkUp d) |> regs [(R.MBX_CFG 1, 0x80002041)])
def packets5 : State := st (fun d => ready (worker d))
def packets6 : State := st multiRun
def stampsAreTaken1 : State := st (tmuIn 3 (fun c => { c with st := tmArmed }))
def stampsAreTaken2 : State := st (tmuIn 3 (fun c => { c with st := tmSuspended }))
def stampsAreTaken3 : State := st (tmuIn 3 (fun c => { c with st := tmArmed, lastAt := some 6400000 }))
def stampsAreTaken4 : State := st (tmuIn 3 (fun c => { c with held := [stamp0] }))
def stampsAreTaken5 : State := st (tmuIn 3 (fun c => { c with held := [stamp0], fifo := List.replicate 1024 (item0 true) }))
def stampsAreTaken6 : State := st (fun d => regs [(R.TMU_CH_WR 3, 4080)] (tmuIn 3 (fun c => { c with fifo := [item0 true, item0 false] }) d))
def stampsAreTaken7 : State := st (fun d => regs [(R.TMU_CH_DIFF_MAX 0, 5)] (tmuIn 0 (fun c => { c with st := tmArmed, interval := some ⟨5, 6, 7, false⟩ }) (d.modTmu 1 (fun c => { c with st := tmPaired }))))
def channelsAreArmed1 : State := st (tmuIn 3 id)
def channelsAreArmed2 : State := st (fun d => regs [(R.TMU_CH_CFG 3, 0)] (tmuIn 3 id d))
def channelsAreArmed3 : State := st (tmuIn 3 (fun c => { c with st := tmArmed, byReg := true }))
def channelsAreArmed4 : State := st (fun d => regs [(R.TMU_CAL_MASK, 0xFFFFFFFF)] (tmuIn 3 (fun c => { c with st := tmArmed, byReg := true }) d))
def channelsAreArmed5 : State := st (tmuIn 3 (fun c => { c with st := tmCalibrating }))
def descents1 : State := st (runningS)
def descents2 : State := st id
def descents3 : State := st (pw (fun p => { p with descent := some (devSmoulder, false, devGlow) }))
def descents4 : State := st (fun d => regs [(R.EMB_PSTATE, 4)] (pw (fun p => { p with descent := some (devBanked, true, devGlow) }) (d.write 100 by3)))
def wakesAndAscents1 : State := st (fun d => regs [(R.EMB_WAKE_CFG, 0x1FF), (R.EMB_PSTATE, BitVec.ofNat 32 1)] d)
def wakesAndAscents2 : State := st (fun d => regs [(R.EMB_WAKE_CFG, 0x1FF), (R.EMB_PSTATE, BitVec.ofNat 32 4)] d)
def wakesAndAscents3 : State := st (fun d => regs [(R.EMB_WAKE_CFG, 0x1FF), (R.EMB_WAKE_ALARM_LO, 1), (R.EMB_WAKE_ALARM_HI, 0x80000000), (R.EMB_PSTATE, BitVec.ofNat 32 1)] { d with time := { d.time with rtcSecs := 5 } })
def wakesAndAscents4 : State := st (fun d => regs [(R.EMB_PSTATE, 5)] (pw (fun p => { p with ascent := some devSmoulder }) (d.write 100 by3)))
def wakesAndAscents5 : State := st (fun d => (regs [(R.EMB_PSTATE, 5)] (pw (fun p => { p with ascent := some devBanked }) d)).setF R.EMB_PSTATE F.EMB_PSTATE_COLD 1)
def wakesAndAscents6 : State := st (fun d => pw (fun p => { p with restoring := true }) ((ready d).modSite 3 (fun s => { s with st := .idle })))
def supplySequences1 : State := st (supT [] none)
def supplySequences2 : State := st (supT [(R.PWR_SUP_EN, 0x8)] (some ⟨true, 0, true, [3], none⟩))
def supplySequences3 : State := st (supT [(R.PWR_SUP_EN, 0x8)] (some ⟨true, 0, false, [3], none⟩))
def supplySequences4 : State := st (supT [(R.PWR_SUP_EN, 0x28)] (some ⟨true, 1, false, [3, 5], none⟩))
def supplySequences5 : State := st (supT [(R.PWR_SUP_EN, 0x28)] none)
def dramController1 : State := st (dr 2 0 4 0)
def dramController2 : State := st (dr 2 4 4 0x90000000)
def dramController3 : State := st (dr 5 1 4 0)
def refusedAccesses1 : State := st id
def calibrationProcedures1 : State := st (regs ((List.range 128).map (fun g => (R.HRT_GRT_PWR g, 0xAAAAAAAA))) )
def calibrationProcedures2 : State := st id
def calibrationProcedures3 : State := st (cal ⟨1, [], [(3, 400)]⟩)
def deviceTimeRuns1 : State := st (fun d => tm (fun t => { t with setPend := some 0x300000005, ns := 999999999 }) d)
def deviceTimeRuns2 : State := st id
def managementPorts1 : State := st id
def managementPorts2 : State := st (tm (fun t => { t with tsFifo := [(0, [ps, ps]), (1, List.replicate 16 ps)] }))
def managementPorts3 : State := st (regs up2)
def managementPorts4 : State := st (regs (up2 ++ [(R.MGT_PORT_CTRL 0, 0xFFFFFFFF), (R.MGT_PORT_CTRL 1, 0xFFFFFFFF)]))
def ledgerIsKept1 : State := st id
def ledgerIsKept2 : State := st (tm (fun t => { t with ckptIn := 0, ledger := [(liRelaySince 3, 4), (liCheckpoints, 2 ^ 64 - 1)], rtcSecs := 77 }))
def auditLogIsKept1 : State := st (aud (fun a => { a with buffer := [(1, by3.take 32), (2, by3.drop 32 |>.take 32)], flash := [(0, by3.take 32)], ckpts := [(0, by3 ++ by3 ++ by3.take 56)], heads := [(4096, by3.take 32)] }))
def auditLogIsKept2 : State := st (fun d => regs [(R.AUD_RD_INDEX_LO, 1)] (aud (fun a => { a with buffer := [(1, by3.take 32), (2, by3.drop 32 |>.take 32)] }) { d with board := { d.board with profile := { d.board.profile with auditEntries := 1} } }))
def auditLogIsKept3 : State := st (aud (fun a => { a with count := 5 }))
def auditLogIsKept4 : State := st id
def securityOperations1 : State := st (regs hostR)
def securityOperations2 : State := st (fun d => regs [(R.SEC_ADDR_LO, 0xFFFFFFFF)] (rn d))
def securityOperations3 : State := st (fun d => regs hostR { rn d with board := { (rn d).board with otp := { (rn d).board.otp with customer := #v[none, some (by3.take 32), none, none] } } })
def flashAndWatchdog1 : State := st (fun d => regs (hostR ++ [(R.SEC_FLASH_OFF, BitVec.ofNat 32 (regAt 15))]) ((rn d).write 0x10000 by3))
def flashAndWatchdog2 : State := st (regs (hostR ++ [(R.SEC_WDOG, 5)]))
/-- The ring is remote, on a device that is a worker (or has no link, in `cutOff`). -/
def far (n : Nat) (d : Dev) : Dev := d.setF (R.RING_CTRL n) F.RING_CTRL_REMOTE 1
def cutOff (d : Dev) : Dev := regs [(R.GLB_ROLE, 0x102)] d
def poisonAt (a : Nat) (d : Dev) : Dev := { d with poison := [a / 64] }
def stopped (d : Dev) : Dev := { d with board := { d.board with stopped := true } }
def resetDouses (d : Dev) : Dev := { d with faults := ⟨[], [], [⟨dcReset, allChannels, .relay, true⟩]⟩ }
def reads (l : List (Nat × ReadFor)) (d : Dev) : Dev := { d with flue := { d.flue with reads := l } }
def inUse (n : Nat) (q : Desc) (f : RingSt → RingSt) (d : Dev) : Dev := (ringIn n 0x10001 d).modRing n (fun r => f { r with current := some q })
/-- A FLUE_DMA descriptor between 0x8000 of the ring's area and `b` of device `dest`. -/
def dmaTo (b len dest dir : Nat) : Desc := mkq 0x18 1 7 (bytesOf 8 0x8000 ++ bytesOf 8 b ++ bytesOf 4 len ++ bytesOf 1 dest ++ bytesOf 1 dir)
def doorbellsAndFetches4 : State := st (fun d => worker (far 1 ((ringIn 1 1 d).modRing 1 (fun r => { r with cmdPi := 3 }))))
def doorbellsAndFetches5 : State := st (fun d => worker (far 1 ((ringIn 1 1 d).modRing 1 (fun r => { r with fetching := true, fetchTries := 3 }))))
def completionsAreWritten3 : State := st (fun d => worker (far 1 ((heldS [] d).modRing 1 (fun r => { r with faultErr := reWriteDenied, blockDue := true }))))
def completionsAreWritten4 : State := st (fun d => worker (far 1 ((heldS ((List.range 2).map comp) d).modRing 1 (fun r => { r with faultErr := reWriteDenied }))))
def descriptorIsConsumed3 : State := st (slotQ 0 0 0 (bytesOf 8 1))
def driverOverload2 : State := st (fun d => d.modChan 8 (fun c => { c with term := true }))
def farDma (q : Desc) : State := st (fun d => worker (far 1 (waits 1 q d)))
def loadFrom (op : Nat) (more : List Byte) : Desc := mkq op 1 9 (bytesOf 8 0x8000 ++ more)
def entryLoads7 : State := st (fun d => poisonAt 0x8000 (waits 1 (loadFrom 1 (bytesOf 8 544)) d))
def entryLoads8 : State := st (fun d => worker (far 1 (waits 1 (loadFrom 1 (bytesOf 8 544)) d)))
def pins4 : State := st resetDouses
def refusedAccesses2 : State := st stopped
def runsEnd3 : State := st (fun d => cutOff (far 1 ((ringIn 1 0x10001 (starting d)).modSite 3 (fun s => { s with st := .stopping, endCause := .halt, summary := 2, cap := { s.cap with finished := true } }))))
def pllStates8 : State := st (fun d => { (pllIn 1 d) with clk := { (pllIn 1 d).clk with cut := [2] } })
def securityOperations4 : State := st resetDouses
def securityOperations5 : State := st (regs [(R.EMB_PSTATE, 0)])
def diffIn (o : Option TmuOpen) (held : List TmuStamp) (d : Dev) : Dev :=
  tmuIn 0 (fun c => { c with st := tmArmed, interval := o }) (tmuIn 1 (fun c => { c with st := tmPaired, held := held }) d)
def stampsAreTaken8 : State := st (tmuIn 3 (fun c => { c with st := tmSuspended, byReg := true }))
def stampsAreTaken9 : State := st (diffIn none [])
def stampsAreTaken10 : State := st (diffIn (some ⟨5, 6, 7, false⟩) [])
def stampsAreTaken11 : State := st (fun d => regs [(R.TMU_CH_DIFF_MAX 0, 5)] (diffIn (some ⟨5, 6, 7, false⟩) [stamp0] d))
def stampsAreTaken12 : State := st (tmuIn 3 (fun c => { c with fifo := [item0 true], bufGap := some ⟨some 2, 1, 0⟩ }))
def multiBind (d : Dev) : Dev :=
  let d := linkUp d
  let su : SetUp := { setUp0 with binds := [(3, ⟨5, true, true, 1, [8]⟩)] }
  { d with seq := { d.seq with shadow := su, live := su } }
def startIsJudged6 : State := stQ 130 (fun d => multiBind { d with seq := { d.seq with settles := [.level 1] } })
def req0 : DramReq := ⟨0, false, false, 0, 100, false⟩
def dramController4 : State := st (fun d => (dr 2 0 4 0 d).modDram 0 (fun x => { x with reqs := [⟨req0, 4100⟩] }))
def fluePorts12 : State := st (fun d => reads [(7, .dma 1 1)] (inUse 1 (dmaTo 0x20000 64 1 1) id (linkUp d)))
/-- A packet of a reserved type. -/
def badPacket : Packet := pkt 15 0 1 0 0 0 0 []
def packets7 : State := st (fun d => reads [(5, .dma 1 1)] (inUse 1 (dmaTo 0x20000 64 1 1) id (linkUp d)))
def packets8 : State := st (fun d => reads [(5, .fetch 1)] (far 1 (inUse 1 (dmaTo 0x20000 64 1 1) (fun r => { r with fetching := true }) (worker d))))
def packets9 : State := st (fun d => let d := linkUp (ready d); { d with flue := { d.flue with joinDue := true } })
def packets10 : State := st (fun d => let d := linkUp (ready d); { d with flue := { d.flue with marked := some 101 } })
def packets11 : State := st (fun d => regs [(R.EMB_PSTATE, 1)] (worker d))
def packets12 : State := st (fun d => regs [(R.AUD_PERM_DESC, 0)] (ready (worker d)))
def packets13 : State := st (fun d => let d := ready (worker d); { d with seq := { d.seq with settles := [.level 1] } })
def evDesc (d : Dev) (k : Packet) : Desc := { bytes := slice k.evBody 0 64, origin := d.ringOrigin k.arg, slot := 0 }
def ev12 : Packet := evp 0 1 130 1 0 (start64 0x12)
def ev13 : Packet := evp 0 1 130 1 0 (start64 0x13)

theorem pair_inl {α β γ : Type} (x : α × (β ⊕ γ)) (h : x.2.isLeft = true) : x = (x.1, Sum.inl (x.2.getLeft h)) := by
  obtain ⟨a, b | b⟩ := x
  · rfl
  · cases h

theorem pair_inr {α β γ : Type} (x : α × (β ⊕ γ)) (h : x.2.isRight = true) : x = (x.1, Sum.inr (x.2.getRight h)) := by
  obtain ⟨a, b | b⟩ := x
  · cases h
  · rfl


/-! ### The hypotheses of the statements are met -/

/-- The hypotheses of the clauses of `Obligations.Pins` are met. -/
theorem test_witness_Pins :
    (∃ (s : State) (ns : Nat), 20 ≤ ns ∧ s.dev.board.douseLow = false ∧ s.dev.banked = false ∧ ((s.dev.faults.douses.any fun x => x.resetAfter && x.scope == allChannels) = false)) ∧
    (∃ (s : State) (ns : Nat), 20 ≤ ns ∧ s.dev.board.douseLow = false ∧ s.dev.banked = false ∧ ((s.dev.faults.douses.any fun x => x.resetAfter && x.scope == allChannels) = true)) ∧
    (∃ (s : State) (ns : Nat), (ns < 5 ∨ s.dev.board.douseLow = true)) ∧
    (∃ (s : State) (ns : Nat), 5 ≤ ns ∧ ns < 20 ∧ s.dev.board.douseLow = false ∧ s.dev.banked = false ∧ ((s.dev.faults.douses.any fun x => x.resetAfter && x.scope == allChannels) = false)) ∧
    (∃ (s : State) (ns : Nat), 1000 ≤ ns ∧ s.dev.banked = false ∧ ((s.dev.faults.douses.any fun x => x.scope == allChannels) = false)) ∧
    (∃ (s : State) (ns : Nat), 1000 ≤ ns ∧ s.dev.banked = false ∧ ((s.dev.faults.douses.any fun x => x.scope == allChannels) = true)) ∧
    (∃ (s : State) (ns : Nat), 1000 ≤ ns ∧ s.dev.banked = true) ∧
    (∃ (s : State) (ns : Nat), s.Inv ∧ ns < 100) :=
  ⟨⟨pins1, 20, by decide +kernel⟩,
   ⟨pins4, 20, by decide +kernel⟩,
   ⟨st id, 4, by decide +kernel⟩,
   ⟨pins1, 5, by decide +kernel⟩,
   ⟨pins1, 1000, by decide +kernel⟩,
   ⟨pins4, 1000, by decide +kernel⟩,
   ⟨pins3, 1000, by decide +kernel⟩,
   ⟨pins1, 0, by unfold State.Inv; decide +kernel⟩⟩

/-- The hypotheses of the clauses of `Obligations.FaultLines` are met. -/
theorem test_witness_FaultLines :
    (∃ (s : State) (b : Nat), b < faultBits ∧ s.dev.bitOf R.FLT_WORD_LO b = false ∧ s.dev.banked = false ∧ s.dev.faultReact b = 3 ∧ s.dev.faultClass b ≠ 2) ∧
    (∃ (s : State) (b : Nat), b < faultBits ∧ s.dev.bitOf R.FLT_WORD_LO b = false ∧ s.dev.banked = false ∧ s.dev.faultReact b = 2 ∧ s.dev.faultClass b ≠ 2) ∧
    (∃ (s : State) (b : Nat), b < faultBits ∧ s.dev.bitOf R.FLT_WORD_LO b = false ∧ s.dev.faultReact b ≤ 1 ∧ s.dev.faultClass b ≠ 2) :=
  ⟨⟨faultLines1, 0, by decide +kernel⟩,
   ⟨faultLines2, 0, by decide +kernel⟩,
   ⟨faultLines3, 7, by decide +kernel⟩⟩

/-- The hypotheses of the clauses of `Obligations.FaultRegisters` are met. -/
theorem test_witness_FaultRegisters :
    (∃ (s : State) (o : Origin) (w : Word), s.dev.banked = false ∧ Accepts s.dev o R.FLT_DOUSE w ∧ getBits w F.FLT_DOUSE_GO = 1 ∧ getBits w F.FLT_DOUSE_ALL = 1) ∧
    (∃ (s : State) (o : Origin) (w : Word), s.dev.banked = false ∧ Accepts s.dev o R.FLT_DOUSE w ∧ getBits w F.FLT_DOUSE_GO = 1 ∧ getBits w F.FLT_DOUSE_ALL = 0 ∧ getBits w F.FLT_DOUSE_HEARTHS ≠ 0) ∧
    (∃ (s : State) (o : Origin) (hi : Bool) (w : Word), s.Inv ∧ Accepts s.dev o (if hi = true then R.FLT_WORD_HI else R.FLT_WORD_LO) w) ∧
    (∃ (s : State) (o : Origin) (k : Fin 8) (w : Word), s.Inv ∧ Accepts s.dev o (R.FLT_CFG ↑k) w) ∧
    (∃ (s : State) (o : Origin) (hi : Bool) (w : Word), Accepts s.dev o (if hi = true then R.FLT_INJECT_HI else R.FLT_INJECT_LO) w) :=
  ⟨⟨faultRegisters1, .supervisor, 0xFFFFFFFF, by unfold Accepts; decide +kernel⟩,
   ⟨faultRegisters1, .supervisor, 0x80000001, by unfold Accepts; decide +kernel⟩,
   ⟨faultRegisters1, .supervisor, false, 0, by unfold Accepts State.Inv; decide +kernel⟩,
   ⟨faultRegisters1, .supervisor, (1 : Fin 8), 0, by unfold Accepts State.Inv; decide +kernel⟩,
   ⟨faultRegisters2, .factory, false, 0, by unfold Accepts; decide +kernel⟩⟩

/-- The hypotheses of the clauses of `Obligations.DouseSteps` are met. -/
theorem test_witness_DouseSteps :
    (∃ (s : State), ((s.dev.faults.douses.any fun x => x.step == DouseStep.supply) = true)) ∧
    (∃ (s : State) (x : Douse), List.find? (fun y => y.step == DouseStep.relay) s.dev.faults.douses = some x) :=
  ⟨⟨douseSteps1, by decide +kernel⟩,
   ⟨douseSteps2, ((List.find? (fun y ↦ y.step == DouseStep.relay) douseSteps2.dev.faults.douses).get (by decide +kernel)), (Option.some_get _).symm⟩⟩

/-- The hypotheses of the clauses of `Obligations.DriverOverload` are met. -/
theorem test_witness_DriverOverload :
    (∃ (s : State) (g : Fin 128) (k : Fin 8) (ch : Nat), ch = 8 * ↑g + ↑k ∧ (s.dev.chan ch).drv ≠ Drv.z) ∧
    (∃ (s : State) (g : Fin 128) (k : Fin 8) (ch : Nat), ch = 8 * ↑g + ↑k ∧ (s.dev.chan ch).drv = Drv.z) ∧
    (∃ (s : State) (g : Fin 128), (∃ k, k < 8 ∧ (s.dev.chan (8 * ↑g + k)).term = true)) ∧
    (∃ (s : State) (g : Fin 128), (∀ (k : Nat), k < 8 → (s.dev.chan (8 * ↑g + k)).term = false)) :=
  ⟨⟨driverOverload1, (1 : Fin 128), (0 : Fin 8), 8, by decide +kernel⟩,
   ⟨st id, (1 : Fin 128), (7 : Fin 8), 15, by decide +kernel⟩,
   ⟨driverOverload2, (1 : Fin 128), 0, by decide +kernel⟩,
   ⟨st id, (127 : Fin 128), by decide +kernel⟩⟩

/-- The hypotheses of the clauses of `Obligations.LeloiskFrames` are met. -/
theorem test_witness_LeloiskFrames :
    (∃ (s : State) (f : LlkFrame), LlkReady s.dev f ∧ (s.dev.llkDone f).llkStatus llkWake f.arg = 0 ∧ s.dev.getF R.EMB_PSTATE F.EMB_PSTATE_STATE = devSmoulder ∧ s.dev.board.stopped = false ∧ s.dev.bitOf R.EMB_WAKE_CFG wkLeloisk = true) ∧
    (∃ (s : State) (f : LlkFrame), LlkReady s.dev f ∧ (s.dev.llkDone f).llkStatus llkDouse f.arg = 0 ∧ s.dev.banked = false) ∧
    (∃ (s : State) (f : LlkFrame), s.Inv ∧ s.dev.llkServes f.port = true ∧ (s.dev.llkDone f).llkAccepts f = false) :=
  ⟨⟨leloiskFrames1, (fr (2^48-1) 5 1 0 0), by unfold LlkReady; decide +kernel⟩,
   ⟨leloiskFrames2, (fr (2^48-1) 5 1 0 0), by unfold LlkReady; decide +kernel⟩,
   ⟨leloiskFrames2, (fr (2^48-1) 5 2 0 0), by unfold State.Inv; decide +kernel⟩⟩

/-- The hypotheses of the clauses of `Obligations.TestAccessPort` are met. -/
theorem test_witness_TestAccessPort :
    (∃ (s : State), s.Inv) ∧
    (∃ (s : State) (ok : Bool), s.dev.board.otp.field = false ∧ ok = true) ∧
    (∃ (s : State) (ok : Bool), (s.dev.board.otp.field = true ∨ ok = false)) :=
  ⟨⟨testAccessPort1, by unfold State.Inv; decide +kernel⟩,
   ⟨testAccessPort2, true, by decide +kernel⟩,
   ⟨testAccessPort1, false, by decide +kernel⟩⟩

/-- The hypotheses of the clauses of `Obligations.DoorbellsAndFetches` are met. -/
theorem test_witness_DoorbellsAndFetches :
    (∃ (s : State) (n : Fin 64), s.Inv ∧ s.dev.inHost (s.dev.dbAddr ↑n) 64 = true ∧ s.dev.ringState ↑n = rsDisabled) ∧
    (∃ (s : State) (n : Fin 64) (pi : Word) (ci : Word), s.Inv ∧ s.dev.ringState ↑n ≠ rsDisabled ∧ (s.dev.ringState ↑n = rsRunning → sub32 (BitVec.toNat pi) (s.dev.ringCi ↑n) ≤ 2 ^ s.dev.cmdLog2 ↑n ∧ sub32 (s.dev.devSeq ↑n) (BitVec.toNat ci) ≤ 2 ^ s.dev.cmpLog2 ↑n)) ∧
    (∃ (s : State) (n : Fin 64) (pi : Word) (ci : Word), s.Inv ∧ s.dev.ringState ↑n = rsRunning ∧ (2 ^ s.dev.cmdLog2 ↑n < sub32 (BitVec.toNat pi) (s.dev.ringCi ↑n) ∨ 2 ^ s.dev.cmpLog2 ↑n < sub32 (s.dev.devSeq ↑n) (BitVec.toNat ci)) ∧ s.dev.ownerCut ↑n = false) ∧
    (∃ (s : State) (n : Fin 64) (p : Nat), MayTake s.dev ↑n ∧ s.dev.ringRemote ↑n = true ∧ (s.dev.ring ↑n).slotBytes = none ∧ (s.dev.ring ↑n).fetching = false ∧ s.dev.route 0 = Route.port p) ∧
    (∃ (s : State) (n : Fin 64), (s.dev.ring ↑n).fetching = true ∧ (s.dev.ring ↑n).fetchTries < 4 ∧ s.dev.route 0 ≠ Route.none_) ∧
    (∃ (s : State) (n : Fin 64), (s.dev.ring ↑n).fetching = true ∧ (s.dev.ring ↑n).fetchTries ≥ 4 ∧ s.dev.ownerCut ↑n = false) :=
  ⟨⟨doorbellsAndFetches1, (0 : Fin 64), by unfold State.Inv; decide +kernel⟩,
   ⟨doorbellsAndFetches2, (1 : Fin 64), 0, 0, by unfold State.Inv; decide +kernel⟩,
   ⟨doorbellsAndFetches2, (1 : Fin 64), 0, 1, by unfold State.Inv; decide +kernel⟩,
   ⟨doorbellsAndFetches4, (1 : Fin 64), 0, by unfold MayTake; decide +kernel⟩,
   ⟨doorbellsAndFetches5, (1 : Fin 64), by decide +kernel⟩,
   ⟨doorbellsAndFetches3, (1 : Fin 64), by decide +kernel⟩⟩

/-- The hypotheses of the clauses of `Obligations.DescriptorIsConsumed` are met. -/
theorem test_witness_DescriptorIsConsumed :
    (∃ (s : State) (n : Fin 64), CanConsume s.dev ↑n ∧ (s.dev.slotDesc ↑n).hostSeq = s.dev.expect ↑n ∧ s.dev.judgeDesc (↑n) (s.dev.slotDesc ↑n) = none) ∧
    (∃ (s : State) (n : Fin 64) (kind : Nat), CanConsume s.dev ↑n ∧ (s.dev.slotDesc ↑n).hostSeq = s.dev.expect ↑n ∧ s.dev.judgeDesc (↑n) (s.dev.slotDesc ↑n) = some (DescEnd.denied kind)) ∧
    (∃ (s : State) (n : Fin 64) (check : Nat), CanConsume s.dev ↑n ∧ (s.dev.slotDesc ↑n).hostSeq = s.dev.expect ↑n ∧ s.dev.judgeDesc (↑n) (s.dev.slotDesc ↑n) = some (DescEnd.refused check)) :=
  ⟨⟨descriptorIsConsumed1, (1 : Fin 64), by unfold CanConsume MayTake; decide +kernel⟩,
   ⟨descriptorIsConsumed2, (1 : Fin 64), 0, by unfold CanConsume MayTake; decide +kernel⟩,
   ⟨descriptorIsConsumed3, (1 : Fin 64), 128, by unfold CanConsume MayTake; decide +kernel⟩⟩

/-- The hypotheses of the clauses of `Obligations.SequenceGapStopsTheRing` are met. -/
theorem test_witness_SequenceGapStopsTheRing :
    (∃ (s : State) (n : Fin 64), s.Inv ∧ s.dev.ringState ↑n = rsStopped) ∧
    (∃ (s : State) (n : Fin 64), CanConsume s.dev ↑n ∧ s.dev.ownerCut ↑n = false ∧ (s.dev.slotDesc ↑n).hostSeq ≠ s.dev.expect ↑n) :=
  ⟨⟨sequenceGapStopsTheRing1, (1 : Fin 64), by unfold State.Inv; decide +kernel⟩,
   ⟨sequenceGapStopsTheRing2, (1 : Fin 64), by unfold CanConsume MayTake; decide +kernel⟩⟩

/-- The hypotheses of the clauses of `Obligations.NopAndFlueDma` are met. -/
theorem test_witness_NopAndFlueDma :
    (∃ (s : State) (n : Fin 64) (q : Desc), s.Inv ∧ s.dev.nextDesc (↑n) opNop = some q) ∧
    (∃ (s : State) (n : Fin 64) (bytes : List Byte) (denied late : Bool) (remote : RemoteRead) (q : Desc) (len : Nat) (dest : Nat) (st : Nat), remote = ⟨bytes, readEnd denied late⟩ ∧ s.Inv ∧ s.dev.nextDesc (↑n) opFlueDma = some q ∧ len = q.get 32 4 ∧ dest = q.get 36 1 ∧ q.get 37 1 = 0 ∧ s.dev.ownerFails (↑n) remote = some st) ∧
    (∃ (s : State) (n : Fin 64) (bytes : List Byte) (denied late : Bool) (remote : RemoteRead) (q : Desc) (len : Nat) (dest : Nat), remote = ⟨bytes, readEnd denied late⟩ ∧ s.Inv ∧ s.dev.nextDesc (↑n) opFlueDma = some q ∧ len = q.get 32 4 ∧ dest = q.get 36 1 ∧ (q.get 37 1 = 0 → s.dev.ownerFails (↑n) remote = none) ∧ s.dev.route dest = Route.none_) ∧
    (∃ (s : State) (n : Fin 64) (bytes : List Byte) (denied late : Bool) (remote : RemoteRead) (q : Desc) (len : Nat) (dest : Nat) (p : Nat) (bs : List Byte), remote = ⟨bytes, readEnd denied late⟩ ∧ s.Inv ∧ s.dev.nextDesc (↑n) opFlueDma = some q ∧ len = q.get 32 4 ∧ dest = q.get 36 1 ∧ (q.get 37 1 = 0 → s.dev.ownerFails (↑n) remote = none) ∧ s.dev.route dest = Route.port p ∧ q.get 37 1 = 0 ∧ bs = s.dev.ownerRead (↑n) (q.get 16 8) len remote) ∧
    (∃ (s : State) (n : Fin 64) (bytes : List Byte) (denied late : Bool) (remote : RemoteRead) (q : Desc) (len : Nat) (dest : Nat) (p : Nat), remote = ⟨bytes, readEnd denied late⟩ ∧ s.Inv ∧ s.dev.nextDesc (↑n) opFlueDma = some q ∧ len = q.get 32 4 ∧ dest = q.get 36 1 ∧ (q.get 37 1 = 0 → s.dev.ownerFails (↑n) remote = none) ∧ s.dev.route dest = Route.port p ∧ q.get 37 1 ≠ 0 ∧ 0 < len) ∧
    (∃ (s : State) (n : Fin 64) (bytes : List Byte) (denied late : Bool) (remote : RemoteRead) (q : Desc) (len : Nat) (dest : Nat) (kind : Nat), remote = ⟨bytes, readEnd denied late⟩ ∧ s.Inv ∧ s.dev.nextDesc (↑n) opFlueDma = some q ∧ len = q.get 32 4 ∧ dest = q.get 36 1 ∧ (q.get 37 1 = 0 → s.dev.ownerFails (↑n) remote = none) ∧ s.dev.route dest = Route.here ∧ s.dev.memRefusal q.origin (q.get 24 8) len (decide (q.get 37 1 = 0)) = some kind) ∧
    (∃ (s : State) (n : Fin 64) (bytes : List Byte) (denied late : Bool) (remote : RemoteRead) (q : Desc) (len : Nat) (dest : Nat), remote = ⟨bytes, readEnd denied late⟩ ∧ s.Inv ∧ s.dev.nextDesc (↑n) opFlueDma = some q ∧ len = q.get 32 4 ∧ dest = q.get 36 1 ∧ (q.get 37 1 = 0 → s.dev.ownerFails (↑n) remote = none) ∧ s.dev.route dest = Route.here ∧ s.dev.memRefusal q.origin (q.get 24 8) len (decide (q.get 37 1 = 0)) = none ∧ q.get 37 1 = 0 ∧ Unwatched s.dev (q.get 24 8) len) ∧
    (∃ (s : State) (n : Fin 64) (bytes : List Byte) (denied late : Bool) (remote : RemoteRead) (q : Desc) (len : Nat) (dest : Nat), remote = ⟨bytes, readEnd denied late⟩ ∧ s.Inv ∧ s.dev.nextDesc (↑n) opFlueDma = some q ∧ len = q.get 32 4 ∧ dest = q.get 36 1 ∧ (q.get 37 1 = 0 → s.dev.ownerFails (↑n) remote = none) ∧ s.dev.route dest = Route.here ∧ s.dev.memRefusal q.origin (q.get 24 8) len (decide (q.get 37 1 = 0)) = none ∧ q.get 37 1 ≠ 0 ∧ s.dev.ringRemote ↑n = true) ∧
    (∃ (s : State) (n : Fin 64) (bytes : List Byte) (denied late : Bool) (remote : RemoteRead) (q : Desc) (len : Nat) (dest : Nat), remote = ⟨bytes, readEnd denied late⟩ ∧ s.Inv ∧ s.dev.nextDesc (↑n) opFlueDma = some q ∧ len = q.get 32 4 ∧ dest = q.get 36 1 ∧ (q.get 37 1 = 0 → s.dev.ownerFails (↑n) remote = none) ∧ s.dev.route dest = Route.here ∧ s.dev.memRefusal q.origin (q.get 24 8) len (decide (q.get 37 1 = 0)) = none ∧ q.get 37 1 ≠ 0 ∧ s.dev.ringRemote ↑n = false ∧ Unwatched s.dev (q.get 16 8) len) :=
  ⟨⟨nopAndFlueDma1, (1 : Fin 64), ((nopAndFlueDma1.dev.nextDesc (↑(1 : Fin 64)) opNop).get (by decide +kernel)), by unfold State.Inv; decide +kernel, (Option.some_get _).symm⟩,
   ⟨farDma (dmaTo 0x20000 64 0 0), (1 : Fin 64), [], false, true, ⟨[], .late⟩, dmaTo 0x20000 64 0 0, 64, 0, ((farDma (dmaTo 0x20000 64 0 0)).dev.ownerFails 1 ⟨[], .late⟩).get (by decide +kernel), rfl, by unfold State.Inv; decide +kernel⟩,
   ⟨dmaNowhere, (1 : Fin 64), [], false, false, ⟨[], .done⟩, ((dmaNowhere.dev.nextDesc 1 opFlueDma).get (by decide +kernel)), 64, 1, rfl, by unfold State.Inv; decide +kernel⟩,
   ⟨nopAndFlueDma3, (1 : Fin 64), [], false, false, ⟨[], .done⟩, ((nopAndFlueDma3.dev.nextDesc 1 opFlueDma).get (by decide +kernel)), 64, 1, 1, _, rfl, by unfold State.Inv; decide +kernel, by decide +kernel, by decide +kernel, by decide +kernel, by decide +kernel, by decide +kernel, by decide +kernel, rfl⟩,
   ⟨nopAndFlueDma2, (1 : Fin 64), [], false, false, ⟨[], .done⟩, ((nopAndFlueDma2.dev.nextDesc 1 opFlueDma).get (by decide +kernel)), 64, 1, 1, rfl, by unfold State.Inv; decide +kernel⟩,
   ⟨st (waits 1 (dmaTo 0xFFFFFFFFFFF00000 64 0 0)), (1 : Fin 64), [], false, false, ⟨[], .done⟩, dmaTo 0xFFFFFFFFFFF00000 64 0 0, 64, 0, ((st (waits 1 (dmaTo 0xFFFFFFFFFFF00000 64 0 0))).dev.memRefusal (dmaTo 0xFFFFFFFFFFF00000 64 0 0).origin ((dmaTo 0xFFFFFFFFFFF00000 64 0 0).get 24 8) 64 true).get (by decide +kernel), rfl, by unfold State.Inv; decide +kernel⟩,
   ⟨st (waits 1 (dmaTo 0x20000 64 0 0)), (1 : Fin 64), [], false, false, ⟨[], .done⟩, dmaTo 0x20000 64 0 0, 64, 0, rfl, by unfold Unwatched State.Inv; decide +kernel⟩,
   ⟨farDma (dmaTo 0x20000 64 1 1), (1 : Fin 64), [], false, false, ⟨[], .done⟩, dmaTo 0x20000 64 1 1, 64, 1, rfl, by unfold State.Inv; decide +kernel⟩,
   ⟨st (waits 1 (dmaTo 0x20000 64 0 1)), (1 : Fin 64), [], false, false, ⟨[], .done⟩, dmaTo 0x20000 64 0 1, 64, 0, rfl, by unfold Unwatched State.Inv; decide +kernel⟩⟩

/-- The hypotheses of the clauses of `Obligations.CompletionsAreWritten` are met. -/
theorem test_witness_CompletionsAreWritten :
    (∃ (s : State) (n : Fin 64) (c : Completion), s.Inv ∧ s.dev.ringState ↑n ≠ rsDisabled ∧ s.dev.ringRemote ↑n = false ∧ s.dev.batch ↑n ≠ [] ∧ s.dev.batch ↑n = [c] ∧ (s.dev.sbAddr ↑n + 256 ≤ s.dev.cmpBase ↑n + 32 * (s.dev.devSeq ↑n % 2 ^ s.dev.cmpLog2 ↑n) ∨ s.dev.cmpBase ↑n + 32 * (s.dev.devSeq ↑n % 2 ^ s.dev.cmpLog2 ↑n) + 32 ≤ s.dev.sbAddr ↑n)) ∧
    (∃ (s : State) (n : Fin 64), s.dev.ringRemote ↑n = true ∧ s.dev.ringState ↑n ≠ rsDisabled ∧ s.dev.portUp 0 = true ∧ (s.dev.ring ↑n).faultErr = reWriteDenied ∧ s.dev.ownerCut ↑n = false ∧ s.dev.batch ↑n ≠ []) ∧
    (∃ (s : State) (n : Fin 64), s.dev.ringRemote ↑n = true ∧ s.dev.ringState ↑n ≠ rsDisabled ∧ s.dev.portUp 0 = true ∧ (s.dev.ring ↑n).faultErr = reWriteDenied ∧ s.dev.ownerCut ↑n = false ∧ (s.dev.ring ↑n).blockDue = true ∧ s.dev.batch ↑n = []) :=
  ⟨⟨completionsAreWritten1, (1 : Fin 64), ((completionsAreWritten1.dev.batch ↑(1 : Fin 64)).head (by decide +kernel)), by unfold State.Inv; decide +kernel⟩,
   ⟨completionsAreWritten4, (1 : Fin 64), by decide +kernel⟩,
   ⟨completionsAreWritten3, (1 : Fin 64), by decide +kernel⟩⟩

/-- The hypotheses of the clauses of `Obligations.RingControl` are met. -/
theorem test_witness_RingControl :
    (∃ (s : State) (o : Origin) (n : Fin 64) (w : Word), Accepts s.dev o (R.RING_CTRL ↑n) (setBits w F.RING_CTRL_ENABLE 1) ∧ s.dev.ringState ↑n = rsDisabled ∧ getBits w F.RING_CTRL_HALT = 0 ∧ s.dev.ownerCut ↑n = false ∧ s.dev.readN (s.dev.dbAddr ↑n) 4 ≤ 2 ^ s.dev.cmdLog2 ↑n ∧ sub32 0 (s.dev.readN (s.dev.dbAddr ↑n + 4) 4) ≤ 2 ^ s.dev.cmpLog2 ↑n) ∧
    (∃ (s : State) (o : Origin) (n : Fin 64) (w : Word), Accepts s.dev o (R.RING_CTRL ↑n) (setBits w F.RING_CTRL_ENABLE 0) ∧ (s.dev.ringState ↑n = rsRunning ∨ s.dev.ringState ↑n = rsStopped ∨ s.dev.ringState ↑n = rsFault)) ∧
    (∃ (s : State) (o : Origin) (n : Fin 64) (w : Word), Accepts s.dev o (R.RING_CTRL ↑n) (setBits w F.RING_CTRL_HALT 1) ∧ getBits w F.RING_CTRL_ENABLE = 1 ∧ s.dev.ringState ↑n = rsRunning ∧ s.dev.ownerCut ↑n = false) ∧
    (∃ (s : State) (o : Origin) (n : Fin 64) (w : Word), Accepts s.dev o (R.RING_CTRL ↑n) (setBits w F.RING_CTRL_RESUME 1) ∧ getBits w F.RING_CTRL_ENABLE = 1 ∧ (s.dev.ringState ↑n = rsStopped ∨ s.dev.ringState ↑n = rsFault) ∧ s.dev.ownerCut ↑n = false ∧ sub32 (s.dev.readN (s.dev.dbAddr ↑n) 4) (s.dev.ringCi ↑n) ≤ 2 ^ s.dev.cmdLog2 ↑n ∧ sub32 (s.dev.devSeq ↑n) (s.dev.readN (s.dev.dbAddr ↑n + 4) 4) ≤ 2 ^ s.dev.cmpLog2 ↑n) ∧
    (∃ (s : State) (o : Origin) (n : Fin 64) (w : Word), s.Inv ∧ Accepts s.dev o (R.RING_SEQ ↑n) w) ∧
    (∃ (s : State) (n : Fin 64), s.dev.board.stopped = false ∧ (s.dev.ringState ↑n = rsRunning ∨ s.dev.ringState ↑n = rsDraining)) ∧
    (∃ (s : State) (n : Fin 64), s.dev.ringState ↑n = rsDraining ∧ s.dev.inProgress ↑n = 0 ∧ (s.dev.ring ↑n).held = [] ∧ (s.dev.ring ↑n).waiting = [] ∧ (s.dev.ring ↑n).current = none ∧ (s.dev.ring ↑n).immediate = []) ∧
    (∃ (s : State) (n : Fin 64), s.dev.ringState ↑n = rsDraining ∧ s.Inv ∧ s.dev.inProgress ↑n ≠ 0) :=
  ⟨⟨ringControl1, .supervisor, (0 : Fin 64), 0, by unfold Accepts; decide +kernel⟩,
   ⟨ringControl2, .supervisor, (1 : Fin 64), 0, by unfold Accepts; decide +kernel⟩,
   ⟨ringControl2, .supervisor, (1 : Fin 64), 0x80000000, by unfold Accepts; decide +kernel⟩,
   ⟨ringControl3, .supervisor, (1 : Fin 64), 0x80000000, by unfold Accepts; decide +kernel⟩,
   ⟨ringControl1, .supervisor, (0 : Fin 64), 0, by unfold Accepts State.Inv; decide +kernel⟩,
   ⟨ringControl2, (1 : Fin 64), by decide +kernel⟩,
   ⟨ringControl4, (1 : Fin 64), by decide +kernel⟩,
   ⟨ringControl5, (1 : Fin 64), by unfold State.Inv; decide +kernel⟩⟩

/-- The hypotheses of the clauses of `Obligations.TimingAndLevelLoads` are met. -/
theorem test_witness_TimingAndLevelLoads :
    (∃ (s : State) (n : Fin 64) (remote : RemoteRead) (q : Desc) (imgs : List TimSet), s.dev.nextDesc (↑n) opTimingLoad = some q ∧ (q.mask 26 2).any s.dev.commitPending = false ∧ Readable s.dev (↑n) (q.get 16 8) (2064 * q.get 24 2) remote ∧ imgs = List.map (fun i => parseTimSet (slice (s.dev.ownerRead (↑n) (q.get 16 8) (2064 * q.get 24 2) remote) (timImageSize * i) timImageSize)) (List.range (q.get 24 2)) ∧ s.dev.timingFail (q.mask 26 2) imgs = none) ∧
    (∃ (s : State) (n : Fin 64) (remote : RemoteRead) (q : Desc) (imgs : List TimSet) (h : Nat) (f : TimFail), s.dev.nextDesc (↑n) opTimingLoad = some q ∧ (q.mask 26 2).any s.dev.commitPending = false ∧ Readable s.dev (↑n) (q.get 16 8) (2064 * q.get 24 2) remote ∧ imgs = List.map (fun i => parseTimSet (slice (s.dev.ownerRead (↑n) (q.get 16 8) (2064 * q.get 24 2) remote) (timImageSize * i) timImageSize)) (List.range (q.get 24 2)) ∧ s.dev.timingFail (q.mask 26 2) imgs = some (h, f)) ∧
    (∃ (s : State) (n : Fin 64) (remote : RemoteRead) (q : Desc) (bs : List Byte), s.dev.nextDesc (↑n) opLevelsLoad = some q ∧ Readable s.dev (↑n) (q.get 16 8) (64 * (q.mask 24 16).length) remote ∧ bs = s.dev.ownerRead (↑n) (q.get 16 8) (64 * (q.mask 24 16).length) remote ∧ List.findSome? (fun x => levelChecks s.dev.absent bs x.fst (64 * x.snd)) (q.mask 24 16).zipIdx = none) ∧
    (∃ (s : State) (n : Fin 64) (remote : RemoteRead) (q : Desc) (bs : List Byte) (f : LevelFail), s.dev.nextDesc (↑n) opLevelsLoad = some q ∧ Readable s.dev (↑n) (q.get 16 8) (64 * (q.mask 24 16).length) remote ∧ bs = s.dev.ownerRead (↑n) (q.get 16 8) (64 * (q.mask 24 16).length) remote ∧ List.findSome? (fun x => levelChecks s.dev.absent bs x.fst (64 * x.snd)) (q.mask 24 16).zipIdx = some f) :=
  ⟨⟨timingRemote, (1 : Fin 64), ⟨bytesOf 4 1000 ++ bytesOf 1 3, .done⟩, (mkq 3 1 9 (bytesOf 8 0x8000 ++ (bytesOf 2 1 ++ bytesOf 2 6))), (List.map (fun i => parseTimSet (slice (timingRemote.dev.ownerRead (Fin.val (1 : Fin 64)) (Desc.get (mkq 3 1 9 (bytesOf 8 0x8000 ++ (bytesOf 2 1 ++ bytesOf 2 6))) 16 8) (2064 * Desc.get (mkq 3 1 9 (bytesOf 8 0x8000 ++ (bytesOf 2 1 ++ bytesOf 2 6))) 24 2) ⟨bytesOf 4 1000 ++ bytesOf 1 3, .done⟩) (timImageSize * i) timImageSize)) (List.range (Desc.get (mkq 3 1 9 (bytesOf 8 0x8000 ++ (bytesOf 2 1 ++ bytesOf 2 6))) 24 2))), by decide +kernel, by decide +kernel, by unfold Readable; decide +kernel, rfl, by decide +kernel⟩,
   ⟨timingRemote, (1 : Fin 64), ⟨bytesOf 4 1000 ++ bytesOf 1 3 ++ bytesOf 1 1, .done⟩, (mkq 3 1 9 (bytesOf 8 0x8000 ++ (bytesOf 2 1 ++ bytesOf 2 6))), (List.map (fun i => parseTimSet (slice (timingRemote.dev.ownerRead (Fin.val (1 : Fin 64)) (Desc.get (mkq 3 1 9 (bytesOf 8 0x8000 ++ (bytesOf 2 1 ++ bytesOf 2 6))) 16 8) (2064 * Desc.get (mkq 3 1 9 (bytesOf 8 0x8000 ++ (bytesOf 2 1 ++ bytesOf 2 6))) 24 2) ⟨bytesOf 4 1000 ++ bytesOf 1 3 ++ bytesOf 1 1, .done⟩) (timImageSize * i) timImageSize)) (List.range (Desc.get (mkq 3 1 9 (bytesOf 8 0x8000 ++ (bytesOf 2 1 ++ bytesOf 2 6))) 24 2))), ((timingRemote.dev.timingFail [1, 2] (List.map (fun i => parseTimSet (slice (slice (bytesOf 4 1000 ++ bytesOf 1 3 ++ bytesOf 1 1) 0 2064) (timImageSize * i) timImageSize)) (List.range 1))).get (by decide +kernel)).1, ((timingRemote.dev.timingFail [1, 2] (List.map (fun i => parseTimSet (slice (slice (bytesOf 4 1000 ++ bytesOf 1 3 ++ bytesOf 1 1) 0 2064) (timImageSize * i) timImageSize)) (List.range 1))).get (by decide +kernel)).2, by decide +kernel, by decide +kernel, by unfold Readable; decide +kernel, rfl, by decide +kernel⟩,
   ⟨timingAndLevelLoads1, (1 : Fin 64), ⟨[], .done⟩, ((timingAndLevelLoads1.dev.nextDesc (↑(1 : Fin 64)) opLevelsLoad).get (by decide +kernel)), (timingAndLevelLoads1.dev.ownerRead (↑(1 : Fin 64)) (((timingAndLevelLoads1.dev.nextDesc (↑(1 : Fin 64)) opLevelsLoad).get (by decide +kernel)).get 16 8) (64 * (((timingAndLevelLoads1.dev.nextDesc (↑(1 : Fin 64)) opLevelsLoad).get (by decide +kernel)).mask 24 16).length) ⟨[], .done⟩), (Option.some_get _).symm, by unfold Readable; decide +kernel, rfl, by decide +kernel⟩,
   ⟨timingAndLevelLoads2, (1 : Fin 64), ⟨[], .done⟩, ((timingAndLevelLoads2.dev.nextDesc (↑(1 : Fin 64)) opLevelsLoad).get (by decide +kernel)), (timingAndLevelLoads2.dev.ownerRead (↑(1 : Fin 64)) (((timingAndLevelLoads2.dev.nextDesc (↑(1 : Fin 64)) opLevelsLoad).get (by decide +kernel)).get 16 8) (64 * (((timingAndLevelLoads2.dev.nextDesc (↑(1 : Fin 64)) opLevelsLoad).get (by decide +kernel)).mask 24 16).length) ⟨[], .done⟩), { check := 24, grate := 127, off := 64 }, (Option.some_get _).symm, by unfold Readable; decide +kernel, rfl, by decide +kernel⟩⟩

/-- The hypotheses of the clauses of `Obligations.EntryLoads` are met. -/
theorem test_witness_EntryLoads :
    (∃ (s : State) (n : Fin 64) (remote : RemoteRead) (q : Desc) (bs : List Byte) (offs : List Nat), Readable s.dev (↑n) (q.get 16 8) (q.get 24 8) remote ∧ bs = s.dev.ownerRead (↑n) (q.get 16 8) (q.get 24 8) remote ∧ s.dev.nextDesc (↑n) opBindLoad = some q ∧ entryOffsets bs (q.get 24 8) bindLen (q.get 32 2) 0 0 = Sum.inl offs ∧ ((offs.zipIdx.all fun x => (bindChecks s.dev.absent bs x.fst x.snd).isNone) = true)) ∧
    (∃ (s : State) (n : Fin 64) (remote : RemoteRead) (q : Desc) (bs : List Byte) (offs : List Nat), Readable s.dev (↑n) (q.get 16 8) (q.get 24 8) remote ∧ bs = s.dev.ownerRead (↑n) (q.get 16 8) (q.get 24 8) remote ∧ s.dev.nextDesc (↑n) opBindLoad = some q ∧ entryOffsets bs (q.get 24 8) bindLen (q.get 32 2) 0 0 = Sum.inl offs ∧ ((offs.zipIdx.all fun x => (bindChecks s.dev.absent bs x.fst x.snd).isNone) = false)) ∧
    (∃ (s : State) (n : Fin 64) (remote : RemoteRead) (q : Desc) (bs : List Byte) (offs : List Nat) (good : Bool), Readable s.dev (↑n) (q.get 16 8) (q.get 24 8) remote ∧ bs = s.dev.ownerRead (↑n) (q.get 16 8) (q.get 24 8) remote ∧ s.dev.nextDesc (↑n) opCaptureLoad = some q ∧ entryOffsets bs (q.get 24 8) capLen (q.get 32 2) 0 0 = Sum.inl offs ∧ (good = offs.zipIdx.all fun x => (capFieldCheck bs x.fst x.snd).isNone && (capWindowCheck bs x.fst x.snd).isNone) ∧ good = true) ∧
    (∃ (s : State) (n : Fin 64) (remote : RemoteRead) (q : Desc) (bs : List Byte) (offs : List Nat) (good : Bool), Readable s.dev (↑n) (q.get 16 8) (q.get 24 8) remote ∧ bs = s.dev.ownerRead (↑n) (q.get 16 8) (q.get 24 8) remote ∧ s.dev.nextDesc (↑n) opCaptureLoad = some q ∧ entryOffsets bs (q.get 24 8) capLen (q.get 32 2) 0 0 = Sum.inl offs ∧ (good = offs.zipIdx.all fun x => (capFieldCheck bs x.fst x.snd).isNone && (capWindowCheck bs x.fst x.snd).isNone) ∧ good = false) ∧
    (∃ (s : State) (n : Fin 64) (remote : RemoteRead) (q : Desc) (bs : List Byte) (offs : List Nat) (count : Nat), Readable s.dev (↑n) (q.get 16 8) (q.get 24 8) remote ∧ bs = s.dev.ownerRead (↑n) (q.get 16 8) (q.get 24 8) remote ∧ s.dev.nextDesc (↑n) opDdsLoad = some q ∧ entryOffsets bs (q.get 24 8) ddsLen (q.get 32 2) 0 0 = Sum.inl offs ∧ count = (applyEntries s.dev.seq.shadow.dds (List.map (parseDds bs) (List.map (fun x => x.snd.fst) (byKey (fun o => 65536 * fieldAt bs o 2 + fieldAt bs (o + 2) 2) offs)))).length ∧ offs.any (ddsFieldBad bs) = false ∧ count ≤ 64) ∧
    (∃ (s : State) (n : Fin 64) (remote : RemoteRead) (q : Desc) (bs : List Byte) (offs : List Nat) (count : Nat), Readable s.dev (↑n) (q.get 16 8) (q.get 24 8) remote ∧ bs = s.dev.ownerRead (↑n) (q.get 16 8) (q.get 24 8) remote ∧ s.dev.nextDesc (↑n) opDdsLoad = some q ∧ entryOffsets bs (q.get 24 8) ddsLen (q.get 32 2) 0 0 = Sum.inl offs ∧ count = (applyEntries s.dev.seq.shadow.dds (List.map (parseDds bs) (List.map (fun x => x.snd.fst) (byKey (fun o => 65536 * fieldAt bs o 2 + fieldAt bs (o + 2) 2) offs)))).length ∧ (offs.any (ddsFieldBad bs) = true ∨ 64 < count ∧ s.dev.seq.shadow.dds.length ≤ 64)) ∧
    (∃ (s : State) (n : Fin 64) (remote : RemoteRead) (q : Desc) (c : Instr) (op : Nat) (a : Nat) (len : Nat) (al : Nat) (t : List (Nat × Nat × Nat)), (c, op) ∈ [(Instr.imageLoad n remote, opImageLoad), (Instr.timingLoad n remote, opTimingLoad), (Instr.levelsLoad n remote, opLevelsLoad), (Instr.bindLoad n remote, opBindLoad), (Instr.captureLoad n remote, opCaptureLoad), (Instr.ddsLoad n remote, opDdsLoad), (Instr.calLoad n remote, opCalLoad), (Instr.ppmuMeasure n remote, opPpmu)] ∧ s.dev.nextDesc (↑n) op = some q ∧ q.areas s.dev.deviceNum = (a, len, al) :: t ∧ (op = opTimingLoad → (q.mask 26 2).any s.dev.commitPending = false) ∧ (op = opCalLoad → s.dev.calPending (q.get 32 2) = false ∧ s.dev.calFilling (q.get 32 2) = false) ∧ s.dev.ringRemote ↑n = false ∧ s.dev.poisoned a len = true) ∧
    (∃ (s : State) (n : Fin 64) (remote : RemoteRead) (q : Desc) (c : Instr) (op : Nat) (a : Nat) (len : Nat) (al : Nat) (t : List (Nat × Nat × Nat)) (st : Nat), (c, op) ∈ [(Instr.imageLoad n remote, opImageLoad), (Instr.timingLoad n remote, opTimingLoad), (Instr.levelsLoad n remote, opLevelsLoad), (Instr.bindLoad n remote, opBindLoad), (Instr.captureLoad n remote, opCaptureLoad), (Instr.ddsLoad n remote, opDdsLoad), (Instr.calLoad n remote, opCalLoad), (Instr.ppmuMeasure n remote, opPpmu)] ∧ s.dev.nextDesc (↑n) op = some q ∧ q.areas s.dev.deviceNum = (a, len, al) :: t ∧ (op = opTimingLoad → (q.mask 26 2).any s.dev.commitPending = false) ∧ (op = opCalLoad → s.dev.calPending (q.get 32 2) = false ∧ s.dev.calFilling (q.get 32 2) = false) ∧ s.dev.ownerFails (↑n) remote = some st) :=
  ⟨⟨entryLoads1, (1 : Fin 64), ⟨[], .done⟩, ((entryLoads1.dev.nextDesc (↑(1 : Fin 64)) opBindLoad).get (by decide +kernel)), (entryLoads1.dev.ownerRead (↑(1 : Fin 64)) (((entryLoads1.dev.nextDesc (↑(1 : Fin 64)) opBindLoad).get (by decide +kernel)).get 16 8) (((entryLoads1.dev.nextDesc (↑(1 : Fin 64)) opBindLoad).get (by decide +kernel)).get 24 8) ⟨[], .done⟩), [0, 24], by unfold Readable; decide +kernel, rfl, (Option.some_get _).symm, by decide +kernel, by decide +kernel⟩,
   ⟨entryLoads2, (1 : Fin 64), ⟨[], .done⟩, ((entryLoads2.dev.nextDesc (↑(1 : Fin 64)) opBindLoad).get (by decide +kernel)), (entryLoads2.dev.ownerRead (↑(1 : Fin 64)) (((entryLoads2.dev.nextDesc (↑(1 : Fin 64)) opBindLoad).get (by decide +kernel)).get 16 8) (((entryLoads2.dev.nextDesc (↑(1 : Fin 64)) opBindLoad).get (by decide +kernel)).get 24 8) ⟨[], .done⟩), [0, 24], by unfold Readable; decide +kernel, rfl, (Option.some_get _).symm, by decide +kernel, by decide +kernel⟩,
   ⟨entryLoads3, (1 : Fin 64), ⟨[], .done⟩, ((entryLoads3.dev.nextDesc (↑(1 : Fin 64)) opCaptureLoad).get (by decide +kernel)), (entryLoads3.dev.ownerRead (↑(1 : Fin 64)) (((entryLoads3.dev.nextDesc (↑(1 : Fin 64)) opCaptureLoad).get (by decide +kernel)).get 16 8) (((entryLoads3.dev.nextDesc (↑(1 : Fin 64)) opCaptureLoad).get (by decide +kernel)).get 24 8) ⟨[], .done⟩), [0, 80], _, by unfold Readable; decide +kernel, rfl, (Option.some_get _).symm, by decide +kernel, rfl, by decide +kernel⟩,
   ⟨entryLoads4, (1 : Fin 64), ⟨[], .done⟩, ((entryLoads4.dev.nextDesc (↑(1 : Fin 64)) opCaptureLoad).get (by decide +kernel)), (entryLoads4.dev.ownerRead (↑(1 : Fin 64)) (((entryLoads4.dev.nextDesc (↑(1 : Fin 64)) opCaptureLoad).get (by decide +kernel)).get 16 8) (((entryLoads4.dev.nextDesc (↑(1 : Fin 64)) opCaptureLoad).get (by decide +kernel)).get 24 8) ⟨[], .done⟩), [0, 80], _, by unfold Readable; decide +kernel, rfl, (Option.some_get _).symm, by decide +kernel, rfl, by decide +kernel⟩,
   ⟨entryLoads5, (1 : Fin 64), ⟨[], .done⟩, ((entryLoads5.dev.nextDesc (↑(1 : Fin 64)) opDdsLoad).get (by decide +kernel)), (entryLoads5.dev.ownerRead (↑(1 : Fin 64)) (((entryLoads5.dev.nextDesc (↑(1 : Fin 64)) opDdsLoad).get (by decide +kernel)).get 16 8) (((entryLoads5.dev.nextDesc (↑(1 : Fin 64)) opDdsLoad).get (by decide +kernel)).get 24 8) ⟨[], .done⟩), [0, 32], _, by unfold Readable; decide +kernel, rfl, (Option.some_get _).symm, by decide +kernel, rfl, by decide +kernel, by decide +kernel⟩,
   ⟨entryLoads6, (1 : Fin 64), ⟨[], .done⟩, ((entryLoads6.dev.nextDesc (↑(1 : Fin 64)) opDdsLoad).get (by decide +kernel)), (entryLoads6.dev.ownerRead (↑(1 : Fin 64)) (((entryLoads6.dev.nextDesc (↑(1 : Fin 64)) opDdsLoad).get (by decide +kernel)).get 16 8) (((entryLoads6.dev.nextDesc (↑(1 : Fin 64)) opDdsLoad).get (by decide +kernel)).get 24 8) ⟨[], .done⟩), [0, 32], _, by unfold Readable; decide +kernel, rfl, (Option.some_get _).symm, by decide +kernel, rfl, by decide +kernel⟩,
   ⟨entryLoads7, (1 : Fin 64), ⟨[], .done⟩, loadFrom 1 (bytesOf 8 544), .imageLoad 1 ⟨[], .done⟩, opImageLoad, 32768, 544, 1, [], by decide +kernel⟩,
   ⟨entryLoads8, (1 : Fin 64), ⟨[], .late⟩, loadFrom 1 (bytesOf 8 544), .imageLoad 1 ⟨[], .late⟩, opImageLoad, 32768, 544, 1, [], _, by decide +kernel, by decide +kernel, by decide +kernel, by decide +kernel, by decide +kernel, rfl⟩⟩

/-- The hypotheses of the clauses of `Obligations.CalibrationLoad` are met. -/
theorem test_witness_CalibrationLoad :
    (∃ (s : State) (n : Fin 64) (remote : RemoteRead) (q : Desc) (bs : List Byte) (f : CalFail), s.dev.nextDesc (↑n) opCalLoad = some q ∧ s.dev.calPending (q.get 32 2) = false ∧ s.dev.calFilling (q.get 32 2) = false ∧ Readable s.dev (↑n) (q.get 16 8) (q.get 24 8) remote ∧ bs = s.dev.ownerRead (↑n) (q.get 16 8) (q.get 24 8) remote ∧ calChecks (q.get 32 2) (q.get 24 8) bs = some f) ∧
    (∃ (s : State) (n : Fin 64) (remote : RemoteRead) (q : Desc) (bs : List Byte), s.dev.nextDesc (↑n) opCalLoad = some q ∧ s.dev.calPending (q.get 32 2) = false ∧ s.dev.calFilling (q.get 32 2) = false ∧ Readable s.dev (↑n) (q.get 16 8) (q.get 24 8) remote ∧ bs = s.dev.ownerRead (↑n) (q.get 16 8) (q.get 24 8) remote ∧ calChecks (q.get 32 2) (q.get 24 8) bs = none) :=
  ⟨⟨calibrationLoad1, (1 : Fin 64), ⟨[], .done⟩, ((calibrationLoad1.dev.nextDesc (↑(1 : Fin 64)) opCalLoad).get (by decide +kernel)), (calibrationLoad1.dev.ownerRead (↑(1 : Fin 64)) (((calibrationLoad1.dev.nextDesc (↑(1 : Fin 64)) opCalLoad).get (by decide +kernel)).get 16 8) (((calibrationLoad1.dev.nextDesc (↑(1 : Fin 64)) opCalLoad).get (by decide +kernel)).get 24 8) ⟨[], .done⟩), { check := 144, index := 0, off := 4 }, (Option.some_get _).symm, by decide +kernel, by decide +kernel, by unfold Readable; decide +kernel, rfl, by decide +kernel⟩,
   ⟨calibrationLoad2, (1 : Fin 64), ⟨[], .done⟩, ((calibrationLoad2.dev.nextDesc (↑(1 : Fin 64)) opCalLoad).get (by decide +kernel)), (calibrationLoad2.dev.ownerRead (↑(1 : Fin 64)) (((calibrationLoad2.dev.nextDesc (↑(1 : Fin 64)) opCalLoad).get (by decide +kernel)).get 16 8) (((calibrationLoad2.dev.nextDesc (↑(1 : Fin 64)) opCalLoad).get (by decide +kernel)).get 24 8) ⟨[], .done⟩), (Option.some_get _).symm, by decide +kernel, by decide +kernel, by unfold Readable; decide +kernel, rfl, by decide +kernel⟩⟩

/-- The hypotheses of the clauses of `Obligations.PpmuPlans` are met. -/
theorem test_witness_PpmuPlans :
    (∃ (s : State) (n : Fin 64) (remote : RemoteRead) (q : Desc) (bs : List Byte) (bad : Nat → Bool), s.dev.nextDesc (↑n) opPpmu = some q ∧ Readable s.dev (↑n) (q.get 16 8) (16 * q.get 24 2) remote ∧ bs = s.dev.ownerRead (↑n) (q.get 16 8) (16 * q.get 24 2) remote ∧ (∀ (i : Nat), bad i = (stepFieldBad bs i || s.dev.absent (fieldAt bs (16 * i) 2) || s.dev.policy (chGrate (fieldAt bs (16 * i) 2)) == polOff)) ∧ (List.range (q.get 24 2)).any bad = true) ∧
    (∃ (s : State) (n : Fin 64) (remote : RemoteRead) (q : Desc) (bs : List Byte) (bad : Nat → Bool), s.dev.nextDesc (↑n) opPpmu = some q ∧ Readable s.dev (↑n) (q.get 16 8) (16 * q.get 24 2) remote ∧ bs = s.dev.ownerRead (↑n) (q.get 16 8) (16 * q.get 24 2) remote ∧ (∀ (i : Nat), bad i = (stepFieldBad bs i || s.dev.absent (fieldAt bs (16 * i) 2) || s.dev.policy (chGrate (fieldAt bs (16 * i) 2)) == polOff)) ∧ (List.range (q.get 24 2)).any bad = false ∧ List.findSome? s.dev.stepConflict (List.map (parseStep bs) (List.range (q.get 24 2))) = none) ∧
    (∃ (s : State) (g : Fin 128) (p : PpmuPlan) (x : PpmuStep), s.Inv ∧ s.dev.stepOn ↑g = some (p, x) ∧ (s.dev.grate ↑g).dom = Dom.on ∧ s.dev.board.douseLow = false) :=
  ⟨⟨ppmuBad, (1 : Fin 64), ⟨[], .done⟩, ((ppmuBad.dev.nextDesc 1 opPpmu).get (by decide +kernel)), (ppmuBad.dev.ownerRead 1 0x8000 32 ⟨[], .done⟩), (fun i => stepFieldBad (ppmuBad.dev.ownerRead 1 0x8000 32 ⟨[], .done⟩) i || ppmuBad.dev.absent (fieldAt (ppmuBad.dev.ownerRead 1 0x8000 32 ⟨[], .done⟩) (16 * i) 2) || ppmuBad.dev.policy (chGrate (fieldAt (ppmuBad.dev.ownerRead 1 0x8000 32 ⟨[], .done⟩) (16 * i) 2)) == polOff), by decide +kernel, by unfold Readable; decide +kernel, by decide +kernel, fun _ => rfl, by decide +kernel⟩,
   ⟨ppmuGood, (1 : Fin 64), ⟨[], .done⟩, ((ppmuGood.dev.nextDesc 1 opPpmu).get (by decide +kernel)), (ppmuGood.dev.ownerRead 1 0x8000 32 ⟨[], .done⟩), (fun i => stepFieldBad (ppmuGood.dev.ownerRead 1 0x8000 32 ⟨[], .done⟩) i || ppmuGood.dev.absent (fieldAt (ppmuGood.dev.ownerRead 1 0x8000 32 ⟨[], .done⟩) (16 * i) 2) || ppmuGood.dev.policy (chGrate (fieldAt (ppmuGood.dev.ownerRead 1 0x8000 32 ⟨[], .done⟩) (16 * i) 2)) == polOff), by decide +kernel, by unfold Readable; decide +kernel, by decide +kernel, fun _ => rfl, by decide +kernel, by decide +kernel⟩,
   ⟨ppmuPlans1, (1 : Fin 128), ((ppmuPlans1.dev.stepOn ↑(1 : Fin 128)).get (by decide +kernel)).1, ((ppmuPlans1.dev.stepOn ↑(1 : Fin 128)).get (by decide +kernel)).2, by unfold State.Inv; decide +kernel⟩⟩

/-- The hypotheses of the clauses of `Obligations.Grates` are met. -/
theorem test_witness_Grates :
    (∃ (s : State) (g : Fin 128), s.Inv ∧ (s.dev.grate ↑g).dom = Dom.waking) ∧
    (∃ (s : State) (g : Fin 128), s.Inv ∧ (s.dev.grate ↑g).dom = Dom.settling) ∧
    (∃ (s : State) (g : Fin 128), s.Inv ∧ s.dev.policy ↑g ≠ polOn ∧ s.dev.policy ↑g ≠ polOff ∧ s.dev.getF (R.HRT_GRT_PWR ↑g) F.HRT_GRT_PWR_IDLE_MS ≠ 0 ∧ (s.dev.grate ↑g).dom ≠ Dom.off ∧ s.dev.grateInUse ↑g = false) ∧
    (∃ (s : State) (o : Origin) (g : Fin 128) (w : Word), Accepts s.dev o (R.HRT_GRT_PWR ↑g) w ∧ getBits w F.HRT_GRT_PWR_POLICY = polOff ∧ s.dev.cal.proc = none) :=
  ⟨⟨grates1, (1 : Fin 128), by unfold State.Inv; decide +kernel⟩,
   ⟨grates2, (1 : Fin 128), by unfold State.Inv; decide +kernel⟩,
   ⟨grates1, (1 : Fin 128), by unfold State.Inv; decide +kernel⟩,
   ⟨grates1, .supervisor, (0 : Fin 128), 2, by unfold Accepts; decide +kernel⟩⟩

/-- The hypotheses of the clauses of `Obligations.CommitPends` are met. -/
theorem test_witness_CommitPends :
    (∃ (s : State) (n : Fin 64) (q : Desc) (d : Dev) (f : CommitFail), s.dev.nextDesc (↑n) opCommit = some q ∧ (s.dev.beginDesc (↑n) q true).judgeCommit (q.mask 16 2) = (d, Sum.inr f)) ∧
    (∃ (s : State) (n : Fin 64) (q : Desc) (d : Dev) (claims : List LiveClaim), s.dev.nextDesc (↑n) opCommit = some q ∧ (s.dev.beginDesc (↑n) q true).judgeCommit (q.mask 16 2) = (d, Sum.inl claims)) :=
  ⟨⟨commitPends1, (1 : Fin 64), ((commitPends1.dev.nextDesc (↑(1 : Fin 64)) opCommit).get (by decide +kernel)), ((commitPends1.dev.beginDesc (↑(1 : Fin 64)) ((commitPends1.dev.nextDesc (↑(1 : Fin 64)) opCommit).get (by decide +kernel)) true).judgeCommit (((commitPends1.dev.nextDesc (↑(1 : Fin 64)) opCommit).get (by decide +kernel)).mask 16 2)).1, (((commitPends1.dev.beginDesc (↑(1 : Fin 64)) ((commitPends1.dev.nextDesc (↑(1 : Fin 64)) opCommit).get (by decide +kernel)) true).judgeCommit (((commitPends1.dev.nextDesc (↑(1 : Fin 64)) opCommit).get (by decide +kernel)).mask 16 2)).2.getRight (by decide +kernel)), (Option.some_get _).symm, pair_inr _ _⟩,
   ⟨commitPends2, (1 : Fin 64), ((commitPends2.dev.nextDesc (↑(1 : Fin 64)) opCommit).get (by decide +kernel)), ((commitPends2.dev.beginDesc (↑(1 : Fin 64)) ((commitPends2.dev.nextDesc (↑(1 : Fin 64)) opCommit).get (by decide +kernel)) true).judgeCommit (((commitPends2.dev.nextDesc (↑(1 : Fin 64)) opCommit).get (by decide +kernel)).mask 16 2)).1, (((commitPends2.dev.beginDesc (↑(1 : Fin 64)) ((commitPends2.dev.nextDesc (↑(1 : Fin 64)) opCommit).get (by decide +kernel)) true).judgeCommit (((commitPends2.dev.nextDesc (↑(1 : Fin 64)) opCommit).get (by decide +kernel)).mask 16 2)).2.getLeft (by decide +kernel)), (Option.some_get _).symm, pair_inl _ _⟩⟩

/-- The hypotheses of the clauses of `Obligations.CommitApplies` are met. -/
theorem test_witness_CommitApplies :
    (∃ (s : State) (h : Fin 16) (c : PendCommit), ((s.dev.rings.calCommits.any fun c => c.tables.contains ↑h && !c.applied.contains ↑h) = false) ∧ s.dev.noBoundary ↑h = false ∧ List.find? (fun c => c.hearths.contains ↑h && !c.applied.contains ↑h) s.dev.seq.commits = some c) ∧
    (∃ (s : State) (h : Fin 16), ((s.dev.rings.calCommits.any fun c => c.tables.contains ↑h && !c.applied.contains ↑h) = false) ∧ (s.dev.noBoundary ↑h = true ∨ (s.dev.seq.commits.any fun c => c.hearths.contains ↑h && !c.applied.contains ↑h) = false)) ∧
    (∃ (s : State) (c : PendCommit) (x : Settle), s.dev.seq.commits = [c] ∧ c.hearths.all c.applied.contains = true ∧ s.dev.seq.settles = [x] ∧ ((c.hearths.any fun h => (s.dev.hearth h).loading) = false)) ∧
    (∃ (s : State) (c : PendCommit) (h : Fin 16), s.dev.seq.commits = [c] ∧ c.hearths.all c.applied.contains = true ∧ s.dev.seq.settles = [] ∧ (s.dev.hearth ↑h).loading = true ∧ ((c.hearths.all fun k => k == ↑h || !(s.dev.hearth k).loading) = true)) :=
  ⟨⟨commitApplies1, (0 : Fin 16), ((List.find? (fun c ↦ c.hearths.contains ↑(0 : Fin 16) && !c.applied.contains ↑(0 : Fin 16)) commitApplies1.dev.seq.commits).get (by decide +kernel)), by decide +kernel, by decide +kernel, (Option.some_get _).symm⟩,
   ⟨commitApplies1, (15 : Fin 16), by decide +kernel⟩,
   ⟨commitApplies2, ((commitApplies2.dev.seq.commits).head (by decide +kernel)), ((commitApplies2.dev.seq.settles).head (by decide +kernel)), by decide +kernel⟩,
   ⟨commitApplies3, ((commitApplies3.dev.seq.commits).head (by decide +kernel)), (1 : Fin 16), by decide +kernel⟩⟩

/-- The hypotheses of the clauses of `Obligations.CalibrationGoesLive` are met. -/
theorem test_witness_CalibrationGoesLive :
    (∃ (s : State) (n : Fin 64) (q : Desc) (k : Nat), s.dev.nextDesc (↑n) opCalCommit = some q ∧ tbit q.flags 2 = false ∧ k ∈ q.mask 16 8 ∧ k < 16 ∧ s.dev.flag (R.CAL_TAB_STATUS k) F.CAL_TAB_STATUS_SHADOW_DIRTY = true ∧ s.dev.calPending k = false ∧ (∀ (c : CalCommit), c ∈ s.dev.rings.calCommits → c.ring ≠ ↑n)) ∧
    (∃ (s : State) (k : Fin 19) (c : CalCommit), List.find? (fun c => c.tables.contains ↑k && !c.applied.contains ↑k) s.dev.rings.calCommits = some c ∧ s.dev.calBoundary ↑k = true ∧ s.dev.cal.proc = none) :=
  ⟨⟨calibrationGoesLive1, (1 : Fin 64), ((calibrationGoesLive1.dev.nextDesc (↑(1 : Fin 64)) opCalCommit).get (by decide +kernel)), 2, (Option.some_get _).symm, by decide +kernel, by decide +kernel, by decide +kernel, by decide +kernel, by decide +kernel, by decide +kernel⟩,
   ⟨calibrationGoesLive2, (17 : Fin 19), ((List.find? (fun c ↦ c.tables.contains ↑(17 : Fin 19) && !c.applied.contains ↑(17 : Fin 19)) calibrationGoesLive2.dev.rings.calCommits).get (by decide +kernel)), (Option.some_get _).symm, by decide +kernel, by decide +kernel⟩⟩

/-- The hypotheses of the clauses of `Obligations.StartIsJudged` are met. -/
theorem test_witness_StartIsJudged :
    (∃ (s : State) (n : Fin 64) (q : Desc) (r : Start), s.dev.nextDesc (↑n) opStart = some q ∧ (s.dev.ring ↑n).events = [] ∧ r = s.dev.startOfDesc (↑n) q false ∧ s.dev.judgeStart r.sites r.epoch r.unadmitted = StartEnd.accepted ∧ (s.dev.takeGroups (s.dev.formGroups r.sites)).isSome = true) ∧
    (∃ (s : State) (n : Fin 64) (q : Desc) (r : Start), s.dev.nextDesc (↑n) opStart = some q ∧ (s.dev.ring ↑n).events = [] ∧ r = s.dev.startOfDesc (↑n) q false ∧ s.dev.judgeStart r.sites r.epoch r.unadmitted = StartEnd.accepted ∧ s.dev.takeGroups (s.dev.formGroups r.sites) = none) ∧
    (∃ (s : State) (n : Fin 64) (q : Desc) (r : Start) (a : Nat), s.dev.nextDesc (↑n) opStart = some q ∧ (s.dev.ring ↑n).events = [] ∧ r = s.dev.startOfDesc (↑n) q false ∧ s.dev.judgeStart r.sites r.epoch r.unadmitted = StartEnd.refused a) ∧
    (∃ (s : State) (n : Fin 64) (q : Desc) (r : Start), s.dev.nextDesc (↑n) opStart = some q ∧ (s.dev.ring ↑n).events = [] ∧ r = s.dev.startOfDesc (↑n) q false ∧ s.dev.judgeStart r.sites r.epoch r.unadmitted = StartEnd.late) ∧
    (∃ (s : State) (n : Fin 64) (q : Desc) (r : Start), s.dev.nextDesc (↑n) opStart = some q ∧ (s.dev.ring ↑n).events = [] ∧ r = s.dev.startOfDesc (↑n) q false ∧ s.Inv ∧ s.dev.judgeStart r.sites r.epoch r.unadmitted = StartEnd.held ∧ (r.multi = false ∨ (s.dev.ring ↑n).startSent = true)) ∧
    (∃ (s : State) (n : Fin 64) (q : Desc) (r : Start), s.dev.nextDesc (↑n) opStart = some q ∧ (s.dev.ring ↑n).events = [] ∧ r = s.dev.startOfDesc (↑n) q false ∧ r.multi = true ∧ (s.dev.ring ↑n).startSent = false ∧ s.dev.judgeStart r.sites r.epoch r.unadmitted = StartEnd.held) ∧
    (∃ (s : State) (n : Fin 64) (q : Desc) (r : Start) (p : Nat), s.dev.nextDesc (↑n) opStart = some q ∧ (s.dev.ring ↑n).events = [] ∧ r = s.dev.startOfDesc (↑n) q false ∧ r.multi = true ∧ (s.dev.ring ↑n).startSent = false ∧ p ∈ s.dev.eventPorts) :=
  ⟨⟨startIsJudged1, (1 : Fin 64), ((startIsJudged1.dev.nextDesc 1 opStart).get (by decide +kernel)), (startIsJudged1.dev.startOfDesc 1 ((startIsJudged1.dev.nextDesc 1 opStart).get (by decide +kernel)) false), (Option.some_get _).symm, by decide +kernel, rfl, by decide +kernel, by decide +kernel⟩,
   ⟨startIsJudged2, (1 : Fin 64), ((startIsJudged2.dev.nextDesc 1 opStart).get (by decide +kernel)), (startIsJudged2.dev.startOfDesc 1 ((startIsJudged2.dev.nextDesc 1 opStart).get (by decide +kernel)) false), (Option.some_get _).symm, by decide +kernel, rfl, by decide +kernel, by decide +kernel⟩,
   ⟨startIsJudged3, (1 : Fin 64), ((startIsJudged3.dev.nextDesc 1 opStart).get (by decide +kernel)), (startIsJudged3.dev.startOfDesc 1 ((startIsJudged3.dev.nextDesc 1 opStart).get (by decide +kernel)) false), 4294967172, (Option.some_get _).symm, by decide +kernel, rfl, by decide +kernel⟩,
   ⟨startIsJudged4, (1 : Fin 64), ((startIsJudged4.dev.nextDesc 1 opStart).get (by decide +kernel)), (startIsJudged4.dev.startOfDesc 1 ((startIsJudged4.dev.nextDesc 1 opStart).get (by decide +kernel)) false), (Option.some_get _).symm, by decide +kernel, rfl, by decide +kernel⟩,
   ⟨startIsJudged5, (1 : Fin 64), ((startIsJudged5.dev.nextDesc 1 opStart).get (by decide +kernel)), (startIsJudged5.dev.startOfDesc 1 ((startIsJudged5.dev.nextDesc 1 opStart).get (by decide +kernel)) false), (Option.some_get _).symm, by decide +kernel, rfl, by unfold State.Inv; decide +kernel, by decide +kernel, by decide +kernel⟩,
   ⟨startIsJudged6, (1 : Fin 64), ((startIsJudged6.dev.nextDesc 1 opStart).get (by decide +kernel)), (startIsJudged6.dev.startOfDesc 1 ((startIsJudged6.dev.nextDesc 1 opStart).get (by decide +kernel)) false), (Option.some_get _).symm, by decide +kernel, rfl, by decide +kernel, by decide +kernel, by decide +kernel⟩,
   ⟨startIsJudged6, (1 : Fin 64), ((startIsJudged6.dev.nextDesc 1 opStart).get (by decide +kernel)), (startIsJudged6.dev.startOfDesc 1 ((startIsJudged6.dev.nextDesc 1 opStart).get (by decide +kernel)) false), 1, (Option.some_get _).symm, by decide +kernel, rfl, by decide +kernel, by decide +kernel, by decide +kernel⟩⟩

/-- The hypotheses of the clauses of `Obligations.RunsEnd` are met. -/
theorem test_witness_RunsEnd :
    (∃ (s : State) (n : Fin 64) (q : Desc) (rest : List Desc) (hit : List Nat), (s.dev.ring ↑n).immediate = q :: rest ∧ hit = List.filter (fun x => (s.dev.site x).st == RunState.starting || (s.dev.site x).st == RunState.running) (q.mask 16 32)) ∧
    (∃ (s : State) (x : Fin 256) (r : Start), s.dev.startOf ↑x = some r ∧ r.sites.all s.dev.drained = true ∧ (s.dev.ownerCut r.ring = false ∨ s.dev.ringState r.ring = rsDisabled)) ∧
    (∃ (s : State) (x : Fin 256) (r : Start), s.dev.startOf ↑x = some r ∧ r.sites.all s.dev.drained = true ∧ s.dev.ownerCut r.ring = true ∧ s.dev.ringState r.ring ≠ rsDisabled ∧ (s.dev.ring r.ring).faultErr ≠ reWriteDenied ∧ r.ring < 64) ∧
    (∃ (s : State) (x : Fin 256) (r : Start), s.dev.startOf ↑x = some r ∧ r.sites.all s.dev.drained = false) :=
  ⟨⟨runsEnd1, (1 : Fin 64), (((runsEnd1.dev.ring ↑(1 : Fin 64)).immediate).head (by decide +kernel)), ((runsEnd1.dev.ring ↑(1 : Fin 64)).immediate).tail, [3], by decide +kernel⟩,
   ⟨runsEnd2, (3 : Fin 256), ((runsEnd2.dev.startOf ↑(3 : Fin 256)).get (by decide +kernel)), (Option.some_get _).symm, by decide +kernel, by decide +kernel⟩,
   ⟨runsEnd3, (3 : Fin 256), ((runsEnd3.dev.startOf ↑(3 : Fin 256)).get (by decide +kernel)), (Option.some_get _).symm, by decide +kernel⟩,
   ⟨runsEnd1, (3 : Fin 256), ((runsEnd1.dev.startOf ↑(3 : Fin 256)).get (by decide +kernel)), (Option.some_get _).symm, by decide +kernel⟩⟩

/-- The hypotheses of the clauses of `Obligations.VectorsAndGranules` are met. -/
theorem test_witness_VectorsAndGranules :
    (∃ (s : State) (x : Fin 256) (b : Binding) (img : Image) (r : SiteRun) (pq : Nat), (s.dev.site ↑x).st = RunState.running ∧ (s.dev.site ↑x).run.vec < 64 ∧ s.dev.binding ↑x = some b ∧ s.dev.image b.image = some img ∧ r = (s.dev.site ↑x).run ∧ pq = (s.dev.timSet (homeHearth ↑x) ((runAt (img.z.gran r.flow.pc).body r.vec).ctrl % 32)).pq) ∧
    (∃ (s : State), s.dev.flue.known = true) ∧
    (∃ (s : State) (u : Fin 64) (k : Nat) (n : Nat) (g : Group) (i : Image), s.Inv ∧ (s.dev.engine ↑u).group = some k ∧ s.dev.group k = some g ∧ s.dev.groupImage g = some i ∧ (s.dev.engineWalk (↑u) g i ((s.dev.site g.lead).run.flowIn i.z)).next = some n ∧ ringUse i.z (s.dev.engine ↑u).ring + (i.z.gran n).len ≤ s.dev.ringBytes ↑u) ∧
    (∃ (s : State) (u : Fin 64) (k : Nat) (n : Nat) (g : Group) (i : Image), s.Inv ∧ (s.dev.engine ↑u).group = some k ∧ s.dev.group k = some g ∧ s.dev.groupImage g = some i ∧ (s.dev.engineWalk (↑u) g i ((s.dev.site g.lead).run.flowIn i.z)).next = some n ∧ s.dev.ringBytes ↑u < ringUse i.z (s.dev.engine ↑u).ring + (i.z.gran n).len) :=
  ⟨⟨vectorsAndGranules1, (3 : Fin 256), ((vectorsAndGranules1.dev.binding ↑(3 : Fin 256)).get (by decide +kernel)), ((vectorsAndGranules1.dev.image ((vectorsAndGranules1.dev.binding ↑(3 : Fin 256)).get (by decide +kernel)).image).get (by decide +kernel)), ((vectorsAndGranules1.dev.site ↑(3 : Fin 256)).run), 10240, by decide +kernel, by decide +kernel, (Option.some_get _).symm, (Option.some_get _).symm, rfl, by decide +kernel⟩,
   ⟨vectorsAndGranules1, by decide +kernel⟩,
   ⟨vectorsAndGranules1, (0 : Fin 64), 0, 0, ((vectorsAndGranules1.dev.group 0).get (by decide +kernel)), ((vectorsAndGranules1.dev.groupImage ((vectorsAndGranules1.dev.group 0).get (by decide +kernel))).get (by decide +kernel)), by unfold State.Inv; decide +kernel, by decide +kernel, (Option.some_get _).symm, (Option.some_get _).symm, by decide +kernel, by decide +kernel⟩,
   ⟨vectorsAndGranules2, (0 : Fin 64), 0, 0, ((vectorsAndGranules2.dev.group 0).get (by decide +kernel)), ((vectorsAndGranules2.dev.groupImage ((vectorsAndGranules2.dev.group 0).get (by decide +kernel))).get (by decide +kernel)), by unfold State.Inv; decide +kernel, by decide +kernel, (Option.some_get _).symm, (Option.some_get _).symm, by decide +kernel, by decide +kernel⟩⟩

/-- The hypotheses of the clauses of `Obligations.HoldReports` are met. -/
theorem test_witness_HoldReports :
    (∃ (s : State) (x : HoldReport) (rest : List HoldReport) (pi : Nat) (size : Nat) (a : Nat), s.Inv ∧ s.dev.seq.reports = x :: rest ∧ pi = BitVec.toNat (s.dev.reg R.HRT_HOLD_PI) ∧ size = 2 ^ s.dev.getF R.HRT_HOLD_CTRL F.HRT_HOLD_CTRL_LOG2 ∧ a = 4096 * BitVec.toNat (s.dev.reg R.HRT_HOLD_BASE) + 32 * (pi % size) ∧ sub32 pi (BitVec.toNat (s.dev.reg R.HRT_HOLD_CI)) < size) ∧
    (∃ (s : State) (x : HoldReport) (rest : List HoldReport) (pi : Nat) (size : Nat) (a : Nat), s.Inv ∧ s.dev.seq.reports = x :: rest ∧ pi = BitVec.toNat (s.dev.reg R.HRT_HOLD_PI) ∧ size = 2 ^ s.dev.getF R.HRT_HOLD_CTRL F.HRT_HOLD_CTRL_LOG2 ∧ a = 4096 * BitVec.toNat (s.dev.reg R.HRT_HOLD_BASE) + 32 * (pi % size) ∧ size ≤ sub32 pi (BitVec.toNat (s.dev.reg R.HRT_HOLD_CI))) ∧
    (∃ (s : State) (o : Origin) (w : Word), s.Inv ∧ Accepts s.dev o R.HRT_HOLD_CI w) ∧
    (∃ (s : State) (o : Origin) (w : Word), Accepts s.dev o R.HRT_HOLD_CTRL w ∧ s.dev.flag R.HRT_HOLD_CTRL F.HRT_HOLD_CTRL_ENABLE = false ∧ getBits w F.HRT_HOLD_CTRL_ENABLE = 1) :=
  ⟨⟨holdReports1, ((holdReports1.dev.seq.reports).head (by decide +kernel)), (holdReports1.dev.seq.reports).tail, 0, 16, 65536, by unfold State.Inv; decide +kernel⟩,
   ⟨holdReports2, ((holdReports2.dev.seq.reports).head (by decide +kernel)), (holdReports2.dev.seq.reports).tail, 20, 16, 65664, by unfold State.Inv; decide +kernel⟩,
   ⟨holdReports1, .supervisor, 0, by unfold Accepts State.Inv; decide +kernel⟩,
   ⟨holdReports3, .supervisor, 0x80000004, by unfold Accepts; decide +kernel⟩⟩

/-- The hypotheses of the clauses of `Obligations.SynthClocks` are met. -/
theorem test_witness_SynthClocks :
    (∃ (s : State) (u : Fin 64) (c : LiveClaim), List.find? (fun c => c.kind == 1 && c.unit == ↑u) s.dev.seq.claims = some c ∧ (s.dev.site c.site).st = RunState.running ∧ (s.dev.ddsUnit ↑u).ftw ≠ 0) ∧
    (∃ (s : State), s.Inv) :=
  ⟨⟨synthClocks1, (1 : Fin 64), ((List.find? (fun c ↦ c.kind == 1 && c.unit == ↑(1 : Fin 64)) synthClocks1.dev.seq.claims).get (by decide +kernel)), (Option.some_get _).symm, by decide +kernel, by decide +kernel⟩,
   ⟨synthClocks1, by unfold State.Inv; decide +kernel⟩⟩

/-- The hypotheses of the clauses of `Obligations.SequencerInstructions` are met. -/
theorem test_witness_SequencerInstructions :
    (∃ (s : State) (x : Fin 256) (k : Nat) (g : Group) (i : Image) (r : SiteRun) (f : Flow), r = (s.dev.site ↑x).run ∧ f = r.flow ∧ AtEnd s.dev (↑x) k g i ZIns.nop) ∧
    (∃ (s : State) (x : Fin 256) (k : Nat) (g : Group) (i : Image) (r : SiteRun) (f : Flow) (n : Nat), r = (s.dev.site ↑x).run ∧ f = r.flow ∧ AtEnd s.dev (↑x) k g i (ZIns.rep n) ∧ r.rep + 1 < n) ∧
    (∃ (s : State) (x : Fin 256) (k : Nat) (g : Group) (i : Image) (r : SiteRun) (f : Flow) (n : Nat), r = (s.dev.site ↑x).run ∧ f = r.flow ∧ AtEnd s.dev (↑x) k g i (ZIns.rep n) ∧ n ≤ r.rep + 1) ∧
    (∃ (s : State) (x : Fin 256) (k : Nat) (g : Group) (i : Image) (r : SiteRun) (f : Flow) (n : Nat), r = (s.dev.site ↑x).run ∧ f = r.flow ∧ AtEnd s.dev (↑x) k g i (ZIns.loopBegin n) ∧ f.back = true) ∧
    (∃ (s : State) (x : Fin 256) (k : Nat) (g : Group) (i : Image) (r : SiteRun) (f : Flow) (n : Nat), r = (s.dev.site ↑x).run ∧ f = r.flow ∧ AtEnd s.dev (↑x) k g i (ZIns.loopBegin n) ∧ f.back = false ∧ f.loops.length < 8) ∧
    (∃ (s : State) (x : Fin 256) (k : Nat) (g : Group) (i : Image) (r : SiteRun) (f : Flow) (n : Nat), r = (s.dev.site ↑x).run ∧ f = r.flow ∧ AtEnd s.dev (↑x) k g i (ZIns.loopBegin n) ∧ f.back = false ∧ 8 ≤ f.loops.length) ∧
    (∃ (s : State) (x : Fin 256) (k : Nat) (g : Group) (i : Image) (r : SiteRun) (f : Flow), r = (s.dev.site ↑x).run ∧ f = r.flow ∧ AtEnd s.dev (↑x) k g i ZIns.loopEnd ∧ f.loops = []) ∧
    (∃ (s : State) (x : Fin 256) (k : Nat) (g : Group) (i : Image) (r : SiteRun) (f : Flow) (l : LoopEnt) (t : List LoopEnt), r = (s.dev.site ↑x).run ∧ f = r.flow ∧ AtEnd s.dev (↑x) k g i ZIns.loopEnd ∧ f.loops = l :: t ∧ 1 < l.remaining) ∧
    (∃ (s : State) (x : Fin 256) (k : Nat) (g : Group) (i : Image) (r : SiteRun) (f : Flow) (l : LoopEnt) (t : List LoopEnt), r = (s.dev.site ↑x).run ∧ f = r.flow ∧ AtEnd s.dev (↑x) k g i ZIns.loopEnd ∧ f.loops = l :: t ∧ l.remaining ≤ 1) ∧
    (∃ (s : State) (x : Fin 256) (k : Nat) (g : Group) (i : Image) (r : SiteRun) (f : Flow) (target : Nat) (below : Nat), r = (s.dev.site ↑x).run ∧ f = r.flow ∧ AtEnd s.dev (↑x) k g i (ZIns.call target below) ∧ f.calls.length < 16) ∧
    (∃ (s : State) (x : Fin 256) (k : Nat) (g : Group) (i : Image) (r : SiteRun) (f : Flow) (target : Nat) (below : Nat), r = (s.dev.site ↑x).run ∧ f = r.flow ∧ AtEnd s.dev (↑x) k g i (ZIns.call target below) ∧ 16 ≤ f.calls.length) ∧
    (∃ (s : State) (x : Fin 256) (k : Nat) (g : Group) (i : Image) (r : SiteRun) (f : Flow), r = (s.dev.site ↑x).run ∧ f = r.flow ∧ AtEnd s.dev (↑x) k g i ZIns.ret ∧ f.calls = []) ∧
    (∃ (s : State) (x : Fin 256) (k : Nat) (g : Group) (i : Image) (r : SiteRun) (f : Flow) (c : Nat) (t : List Nat), r = (s.dev.site ↑x).run ∧ f = r.flow ∧ AtEnd s.dev (↑x) k g i ZIns.ret ∧ f.calls = c :: t) ∧
    (∃ (s : State) (x : Fin 256) (k : Nat) (g : Group) (i : Image) (r : SiteRun) (f : Flow) (target : Nat) (lpop : Nat), r = (s.dev.site ↑x).run ∧ f = r.flow ∧ AtEnd s.dev (↑x) k g i (ZIns.jump target lpop) ∧ lpop ≤ f.loops.length) ∧
    (∃ (s : State) (x : Fin 256) (k : Nat) (g : Group) (i : Image) (r : SiteRun) (f : Flow) (target : Nat) (lpop : Nat), r = (s.dev.site ↑x).run ∧ f = r.flow ∧ AtEnd s.dev (↑x) k g i (ZIns.jump target lpop) ∧ f.loops.length < lpop) ∧
    (∃ (s : State) (x : Fin 256) (k : Nat) (g : Group) (i : Image) (r : SiteRun) (f : Flow) (target : Nat) (lpop : Nat) (vec : Nat) (cond : Nat) (neg : Bool) (clear : Bool) (pin : Nat), r = (s.dev.site ↑x).run ∧ f = r.flow ∧ AtEnd s.dev (↑x) k g i (ZIns.jumpIf target lpop vec cond neg clear pin) ∧ r.condTrue = false) ∧
    (∃ (s : State) (x : Fin 256) (k : Nat) (g : Group) (i : Image) (r : SiteRun) (f : Flow) (target : Nat) (lpop : Nat) (vec : Nat) (cond : Nat) (neg : Bool) (clear : Bool) (pin : Nat), r = (s.dev.site ↑x).run ∧ f = r.flow ∧ AtEnd s.dev (↑x) k g i (ZIns.jumpIf target lpop vec cond neg clear pin) ∧ r.condTrue = true ∧ vec ≤ 48 ∧ lpop ≤ f.loops.length) ∧
    (∃ (s : State) (x : Fin 256) (k : Nat) (g : Group) (i : Image) (r : SiteRun) (f : Flow) (target : Nat) (lpop : Nat) (vec : Nat) (cond : Nat) (neg : Bool) (clear : Bool) (pin : Nat), r = (s.dev.site ↑x).run ∧ f = r.flow ∧ AtEnd s.dev (↑x) k g i (ZIns.jumpIf target lpop vec cond neg clear pin) ∧ r.condTrue = true ∧ 49 ≤ vec ∧ lpop ≤ f.loops.length) ∧
    (∃ (s : State) (x : Fin 256) (k : Nat) (g : Group) (i : Image) (r : SiteRun) (f : Flow) (target : Nat) (lpop : Nat) (vec : Nat) (cond : Nat) (neg : Bool) (clear : Bool) (pin : Nat), r = (s.dev.site ↑x).run ∧ f = r.flow ∧ AtEnd s.dev (↑x) k g i (ZIns.jumpIf target lpop vec cond neg clear pin) ∧ r.condTrue = true ∧ f.loops.length < lpop) ∧
    (∃ (s : State) (x : Fin 256) (k : Nat) (g : Group) (i : Image) (r : SiteRun) (f : Flow) (j : LateJump), r = (s.dev.site ↑x).run ∧ f = r.flow ∧ s.dev.atBoundary ↑x = some (k, g, i) ∧ g.members.Nodup ∧ s.dev.lateDue g = true ∧ r.stop = false ∧ r.smother = [] ∧ r.wait = none ∧ r.late = some j ∧ (∀ (v reg : Nat), s.dev.groupIns g i ≠ ZIns.setreg v reg)) ∧
    (∃ (s : State) (x : Fin 256) (k : Nat) (g : Group) (i : Image) (r : SiteRun) (f : Flow), r = (s.dev.site ↑x).run ∧ f = r.flow ∧ AtEnd s.dev (↑x) k g i ZIns.halt) ∧
    (∃ (s : State) (x : Fin 256) (k : Nat) (g : Group) (i : Image) (r : SiteRun) (f : Flow) (v : Nat) (reg : Nat), r = (s.dev.site ↑x).run ∧ f = r.flow ∧ AtEnd s.dev (↑x) k g i (ZIns.setreg v reg) ∧ reg ≤ 3) ∧
    (∃ (s : State) (x : Fin 256) (k : Nat) (g : Group) (i : Image) (r : SiteRun) (f : Flow) (v : Nat) (reg : Nat), r = (s.dev.site ↑x).run ∧ f = r.flow ∧ AtEnd s.dev (↑x) k g i (ZIns.setreg v reg) ∧ reg = 4) ∧
    (∃ (s : State) (x : Fin 256) (k : Nat) (g : Group) (i : Image) (r : SiteRun) (f : Flow) (v : Nat) (reg : Nat), r = (s.dev.site ↑x).run ∧ f = r.flow ∧ AtEnd s.dev (↑x) k g i (ZIns.setreg v reg) ∧ reg = 5) ∧
    (∃ (s : State) (x : Fin 256) (k : Nat) (g : Group) (i : Image) (r : SiteRun) (f : Flow) (v : Nat) (reg : Nat), r = (s.dev.site ↑x).run ∧ f = r.flow ∧ AtEnd s.dev (↑x) k g i (ZIns.setreg v reg) ∧ reg = 6) ∧
    (∃ (s : State) (x : Fin 256) (k : Nat) (g : Group) (i : Image) (r : SiteRun) (f : Flow) (v : Nat) (reg : Nat), r = (s.dev.site ↑x).run ∧ f = r.flow ∧ AtEnd s.dev (↑x) k g i (ZIns.setreg v reg) ∧ reg = 7) ∧
    (∃ (s : State) (x : Fin 256) (k : Nat) (g : Group) (i : Image) (r : SiteRun) (f : Flow) (ev : Nat) (pin : Nat) (level : Nat) (m : Nat), r = (s.dev.site ↑x).run ∧ f = r.flow ∧ AtEnd s.dev (↑x) k g i (ZIns.wait ev pin level m) ∧ r.waitMore = true) ∧
    (∃ (s : State) (x : Fin 256) (k : Nat) (g : Group) (i : Image) (r : SiteRun) (f : Flow) (ev : Nat) (pin : Nat) (level : Nat) (m : Nat) (v : Nat), r = (s.dev.site ↑x).run ∧ f = r.flow ∧ AtEnd s.dev (↑x) k g i (ZIns.wait ev pin level m) ∧ r.waitMore = false ∧ r.waitHit = some v ∧ v ≤ 48) ∧
    (∃ (s : State) (x : Fin 256) (k : Nat) (g : Group) (i : Image) (r : SiteRun) (f : Flow) (ev : Nat) (pin : Nat) (level : Nat) (m : Nat) (v : Nat), r = (s.dev.site ↑x).run ∧ f = r.flow ∧ AtEnd s.dev (↑x) k g i (ZIns.wait ev pin level m) ∧ r.waitMore = false ∧ r.waitHit = some v ∧ 48 < v) ∧
    (∃ (s : State) (x : Fin 256) (k : Nat) (g : Group) (i : Image) (r : SiteRun) (f : Flow) (ev : Nat) (pin : Nat) (level : Nat) (m : Nat), r = (s.dev.site ↑x).run ∧ f = r.flow ∧ AtEnd s.dev (↑x) k g i (ZIns.wait ev pin level m) ∧ r.waitMore = false ∧ r.waitHit = none ∧ r.rep + 1 < maxRep m) ∧
    (∃ (s : State) (x : Fin 256) (k : Nat) (g : Group) (i : Image) (r : SiteRun) (f : Flow) (ev : Nat) (pin : Nat) (level : Nat) (m : Nat), r = (s.dev.site ↑x).run ∧ f = r.flow ∧ AtEnd s.dev (↑x) k g i (ZIns.wait ev pin level m) ∧ r.waitMore = false ∧ r.waitHit = none ∧ maxRep m ≤ r.rep + 1) :=
  ⟨⟨sequencerInstructions1, (3 : Fin 256), 0, ((sequencerInstructions1.dev.atBoundary ↑(3 : Fin 256)).get (by decide +kernel)).2.1, ((sequencerInstructions1.dev.atBoundary ↑(3 : Fin 256)).get (by decide +kernel)).2.2, ((sequencerInstructions1.dev.site ↑(3 : Fin 256)).run), (((sequencerInstructions1.dev.site ↑(3 : Fin 256)).run).flow), rfl, rfl, by unfold AtEnd; decide +kernel⟩,
   ⟨sequencerInstructions2, (3 : Fin 256), 0, ((sequencerInstructions2.dev.atBoundary ↑(3 : Fin 256)).get (by decide +kernel)).2.1, ((sequencerInstructions2.dev.atBoundary ↑(3 : Fin 256)).get (by decide +kernel)).2.2, ((sequencerInstructions2.dev.site ↑(3 : Fin 256)).run), (((sequencerInstructions2.dev.site ↑(3 : Fin 256)).run).flow), 2, rfl, rfl, by unfold AtEnd; decide +kernel, by decide +kernel⟩,
   ⟨sequencerInstructions3, (3 : Fin 256), 0, ((sequencerInstructions3.dev.atBoundary ↑(3 : Fin 256)).get (by decide +kernel)).2.1, ((sequencerInstructions3.dev.atBoundary ↑(3 : Fin 256)).get (by decide +kernel)).2.2, ((sequencerInstructions3.dev.site ↑(3 : Fin 256)).run), (((sequencerInstructions3.dev.site ↑(3 : Fin 256)).run).flow), 2, rfl, rfl, by unfold AtEnd; decide +kernel, by decide +kernel⟩,
   ⟨sequencerInstructions4, (3 : Fin 256), 0, ((sequencerInstructions4.dev.atBoundary ↑(3 : Fin 256)).get (by decide +kernel)).2.1, ((sequencerInstructions4.dev.atBoundary ↑(3 : Fin 256)).get (by decide +kernel)).2.2, ((sequencerInstructions4.dev.site ↑(3 : Fin 256)).run), (((sequencerInstructions4.dev.site ↑(3 : Fin 256)).run).flow), 5, rfl, rfl, by unfold AtEnd; decide +kernel, by decide +kernel⟩,
   ⟨sequencerInstructions5, (3 : Fin 256), 0, ((sequencerInstructions5.dev.atBoundary ↑(3 : Fin 256)).get (by decide +kernel)).2.1, ((sequencerInstructions5.dev.atBoundary ↑(3 : Fin 256)).get (by decide +kernel)).2.2, ((sequencerInstructions5.dev.site ↑(3 : Fin 256)).run), (((sequencerInstructions5.dev.site ↑(3 : Fin 256)).run).flow), 5, rfl, rfl, by unfold AtEnd; decide +kernel, by decide +kernel, by decide +kernel⟩,
   ⟨sequencerInstructions6, (3 : Fin 256), 0, ((sequencerInstructions6.dev.atBoundary ↑(3 : Fin 256)).get (by decide +kernel)).2.1, ((sequencerInstructions6.dev.atBoundary ↑(3 : Fin 256)).get (by decide +kernel)).2.2, ((sequencerInstructions6.dev.site ↑(3 : Fin 256)).run), (((sequencerInstructions6.dev.site ↑(3 : Fin 256)).run).flow), 5, rfl, rfl, by unfold AtEnd; decide +kernel, by decide +kernel, by decide +kernel⟩,
   ⟨sequencerInstructions7, (3 : Fin 256), 0, ((sequencerInstructions7.dev.atBoundary ↑(3 : Fin 256)).get (by decide +kernel)).2.1, ((sequencerInstructions7.dev.atBoundary ↑(3 : Fin 256)).get (by decide +kernel)).2.2, ((sequencerInstructions7.dev.site ↑(3 : Fin 256)).run), (((sequencerInstructions7.dev.site ↑(3 : Fin 256)).run).flow), rfl, rfl, by unfold AtEnd; decide +kernel, by decide +kernel⟩,
   ⟨sequencerInstructions8, (3 : Fin 256), 0, ((sequencerInstructions8.dev.atBoundary ↑(3 : Fin 256)).get (by decide +kernel)).2.1, ((sequencerInstructions8.dev.atBoundary ↑(3 : Fin 256)).get (by decide +kernel)).2.2, ((sequencerInstructions8.dev.site ↑(3 : Fin 256)).run), (((sequencerInstructions8.dev.site ↑(3 : Fin 256)).run).flow), (((((sequencerInstructions8.dev.site ↑(3 : Fin 256)).run).flow).loops).head (by decide +kernel)), ((((sequencerInstructions8.dev.site ↑(3 : Fin 256)).run).flow).loops).tail, rfl, rfl, by unfold AtEnd; decide +kernel, by decide +kernel, by decide +kernel⟩,
   ⟨sequencerInstructions9, (3 : Fin 256), 0, ((sequencerInstructions9.dev.atBoundary ↑(3 : Fin 256)).get (by decide +kernel)).2.1, ((sequencerInstructions9.dev.atBoundary ↑(3 : Fin 256)).get (by decide +kernel)).2.2, ((sequencerInstructions9.dev.site ↑(3 : Fin 256)).run), (((sequencerInstructions9.dev.site ↑(3 : Fin 256)).run).flow), (((((sequencerInstructions9.dev.site ↑(3 : Fin 256)).run).flow).loops).head (by decide +kernel)), ((((sequencerInstructions9.dev.site ↑(3 : Fin 256)).run).flow).loops).tail, rfl, rfl, by unfold AtEnd; decide +kernel, by decide +kernel, by decide +kernel⟩,
   ⟨sequencerInstructions10, (3 : Fin 256), 0, ((sequencerInstructions10.dev.atBoundary ↑(3 : Fin 256)).get (by decide +kernel)).2.1, ((sequencerInstructions10.dev.atBoundary ↑(3 : Fin 256)).get (by decide +kernel)).2.2, ((sequencerInstructions10.dev.site ↑(3 : Fin 256)).run), (((sequencerInstructions10.dev.site ↑(3 : Fin 256)).run).flow), 1, 0, rfl, rfl, by unfold AtEnd; decide +kernel, by decide +kernel⟩,
   ⟨sequencerInstructions11, (3 : Fin 256), 0, ((sequencerInstructions11.dev.atBoundary ↑(3 : Fin 256)).get (by decide +kernel)).2.1, ((sequencerInstructions11.dev.atBoundary ↑(3 : Fin 256)).get (by decide +kernel)).2.2, ((sequencerInstructions11.dev.site ↑(3 : Fin 256)).run), (((sequencerInstructions11.dev.site ↑(3 : Fin 256)).run).flow), 1, 0, rfl, rfl, by unfold AtEnd; decide +kernel, by decide +kernel⟩,
   ⟨sequencerInstructions12, (3 : Fin 256), 0, ((sequencerInstructions12.dev.atBoundary ↑(3 : Fin 256)).get (by decide +kernel)).2.1, ((sequencerInstructions12.dev.atBoundary ↑(3 : Fin 256)).get (by decide +kernel)).2.2, ((sequencerInstructions12.dev.site ↑(3 : Fin 256)).run), (((sequencerInstructions12.dev.site ↑(3 : Fin 256)).run).flow), rfl, rfl, by unfold AtEnd; decide +kernel, by decide +kernel⟩,
   ⟨sequencerInstructions13, (3 : Fin 256), 0, ((sequencerInstructions13.dev.atBoundary ↑(3 : Fin 256)).get (by decide +kernel)).2.1, ((sequencerInstructions13.dev.atBoundary ↑(3 : Fin 256)).get (by decide +kernel)).2.2, ((sequencerInstructions13.dev.site ↑(3 : Fin 256)).run), (((sequencerInstructions13.dev.site ↑(3 : Fin 256)).run).flow), 2, [3], rfl, rfl, by unfold AtEnd; decide +kernel, by decide +kernel⟩,
   ⟨sequencerInstructions14, (3 : Fin 256), 0, ((sequencerInstructions14.dev.atBoundary ↑(3 : Fin 256)).get (by decide +kernel)).2.1, ((sequencerInstructions14.dev.atBoundary ↑(3 : Fin 256)).get (by decide +kernel)).2.2, ((sequencerInstructions14.dev.site ↑(3 : Fin 256)).run), (((sequencerInstructions14.dev.site ↑(3 : Fin 256)).run).flow), 1, 1, rfl, rfl, by unfold AtEnd; decide +kernel, by decide +kernel⟩,
   ⟨sequencerInstructions15, (3 : Fin 256), 0, ((sequencerInstructions15.dev.atBoundary ↑(3 : Fin 256)).get (by decide +kernel)).2.1, ((sequencerInstructions15.dev.atBoundary ↑(3 : Fin 256)).get (by decide +kernel)).2.2, ((sequencerInstructions15.dev.site ↑(3 : Fin 256)).run), (((sequencerInstructions15.dev.site ↑(3 : Fin 256)).run).flow), 1, 1, rfl, rfl, by unfold AtEnd; decide +kernel, by decide +kernel⟩,
   ⟨sequencerInstructions16, (3 : Fin 256), 0, ((sequencerInstructions16.dev.atBoundary ↑(3 : Fin 256)).get (by decide +kernel)).2.1, ((sequencerInstructions16.dev.atBoundary ↑(3 : Fin 256)).get (by decide +kernel)).2.2, ((sequencerInstructions16.dev.site ↑(3 : Fin 256)).run), (((sequencerInstructions16.dev.site ↑(3 : Fin 256)).run).flow), 1, 1, 0, 0, false, false, 0, rfl, rfl, by unfold AtEnd; decide +kernel, by decide +kernel⟩,
   ⟨sequencerInstructions17, (3 : Fin 256), 0, ((sequencerInstructions17.dev.atBoundary ↑(3 : Fin 256)).get (by decide +kernel)).2.1, ((sequencerInstructions17.dev.atBoundary ↑(3 : Fin 256)).get (by decide +kernel)).2.2, ((sequencerInstructions17.dev.site ↑(3 : Fin 256)).run), (((sequencerInstructions17.dev.site ↑(3 : Fin 256)).run).flow), 1, 0, 0, 0, false, false, 0, rfl, rfl, by unfold AtEnd; decide +kernel, by decide +kernel, by decide +kernel, by decide +kernel⟩,
   ⟨sequencerInstructions18, (3 : Fin 256), 0, ((sequencerInstructions18.dev.atBoundary ↑(3 : Fin 256)).get (by decide +kernel)).2.1, ((sequencerInstructions18.dev.atBoundary ↑(3 : Fin 256)).get (by decide +kernel)).2.2, ((sequencerInstructions18.dev.site ↑(3 : Fin 256)).run), (((sequencerInstructions18.dev.site ↑(3 : Fin 256)).run).flow), 1, 1, 49, 0, false, false, 0, rfl, rfl, by unfold AtEnd; decide +kernel, by decide +kernel, by decide +kernel, by decide +kernel⟩,
   ⟨sequencerInstructions19, (3 : Fin 256), 0, ((sequencerInstructions19.dev.atBoundary ↑(3 : Fin 256)).get (by decide +kernel)).2.1, ((sequencerInstructions19.dev.atBoundary ↑(3 : Fin 256)).get (by decide +kernel)).2.2, ((sequencerInstructions19.dev.site ↑(3 : Fin 256)).run), (((sequencerInstructions19.dev.site ↑(3 : Fin 256)).run).flow), 1, 1, 0, 0, false, false, 0, rfl, rfl, by unfold AtEnd; decide +kernel, by decide +kernel, by decide +kernel⟩,
   ⟨seqLate, (3 : Fin 256), 0, (((seqLate.dev.atBoundary 3).get (by decide +kernel)).2.1), (((seqLate.dev.atBoundary 3).get (by decide +kernel)).2.2), (seqLate.dev.site 3).run, _, ⟨3, 1⟩, rfl, rfl, by decide +kernel, by decide +kernel, by decide +kernel, by decide +kernel, by decide +kernel, by decide +kernel, by decide +kernel, fun v reg h => ZIns.noConfusion ((show seqLate.dev.groupIns _ _ = ZIns.nop by decide +kernel).symm.trans h)⟩,
   ⟨sequencerInstructions20, (3 : Fin 256), 0, ((sequencerInstructions20.dev.atBoundary ↑(3 : Fin 256)).get (by decide +kernel)).2.1, ((sequencerInstructions20.dev.atBoundary ↑(3 : Fin 256)).get (by decide +kernel)).2.2, ((sequencerInstructions20.dev.site ↑(3 : Fin 256)).run), (((sequencerInstructions20.dev.site ↑(3 : Fin 256)).run).flow), rfl, rfl, by unfold AtEnd; decide +kernel⟩,
   ⟨sequencerInstructions21, (3 : Fin 256), 0, ((sequencerInstructions21.dev.atBoundary ↑(3 : Fin 256)).get (by decide +kernel)).2.1, ((sequencerInstructions21.dev.atBoundary ↑(3 : Fin 256)).get (by decide +kernel)).2.2, ((sequencerInstructions21.dev.site ↑(3 : Fin 256)).run), (((sequencerInstructions21.dev.site ↑(3 : Fin 256)).run).flow), 77, 0, rfl, rfl, by unfold AtEnd; decide +kernel, by decide +kernel⟩,
   ⟨sequencerInstructions22, (3 : Fin 256), 0, ((sequencerInstructions22.dev.atBoundary ↑(3 : Fin 256)).get (by decide +kernel)).2.1, ((sequencerInstructions22.dev.atBoundary ↑(3 : Fin 256)).get (by decide +kernel)).2.2, ((sequencerInstructions22.dev.site ↑(3 : Fin 256)).run), (((sequencerInstructions22.dev.site ↑(3 : Fin 256)).run).flow), 77, 4, rfl, rfl, by unfold AtEnd; decide +kernel, by decide +kernel⟩,
   ⟨sequencerInstructions23, (3 : Fin 256), 0, ((sequencerInstructions23.dev.atBoundary ↑(3 : Fin 256)).get (by decide +kernel)).2.1, ((sequencerInstructions23.dev.atBoundary ↑(3 : Fin 256)).get (by decide +kernel)).2.2, ((sequencerInstructions23.dev.site ↑(3 : Fin 256)).run), (((sequencerInstructions23.dev.site ↑(3 : Fin 256)).run).flow), 77, 5, rfl, rfl, by unfold AtEnd; decide +kernel, by decide +kernel⟩,
   ⟨sequencerInstructions24, (3 : Fin 256), 0, ((sequencerInstructions24.dev.atBoundary ↑(3 : Fin 256)).get (by decide +kernel)).2.1, ((sequencerInstructions24.dev.atBoundary ↑(3 : Fin 256)).get (by decide +kernel)).2.2, ((sequencerInstructions24.dev.site ↑(3 : Fin 256)).run), (((sequencerInstructions24.dev.site ↑(3 : Fin 256)).run).flow), 77, 6, rfl, rfl, by unfold AtEnd; decide +kernel, by decide +kernel⟩,
   ⟨sequencerInstructions25, (3 : Fin 256), 0, ((sequencerInstructions25.dev.atBoundary ↑(3 : Fin 256)).get (by decide +kernel)).2.1, ((sequencerInstructions25.dev.atBoundary ↑(3 : Fin 256)).get (by decide +kernel)).2.2, ((sequencerInstructions25.dev.site ↑(3 : Fin 256)).run), (((sequencerInstructions25.dev.site ↑(3 : Fin 256)).run).flow), 0, 7, rfl, rfl, by unfold AtEnd; decide +kernel, by decide +kernel⟩,
   ⟨sequencerInstructions26, (3 : Fin 256), 0, ((sequencerInstructions26.dev.atBoundary ↑(3 : Fin 256)).get (by decide +kernel)).2.1, ((sequencerInstructions26.dev.atBoundary ↑(3 : Fin 256)).get (by decide +kernel)).2.2, ((sequencerInstructions26.dev.site ↑(3 : Fin 256)).run), (((sequencerInstructions26.dev.site ↑(3 : Fin 256)).run).flow), 0, 0, 0, 5, rfl, rfl, by unfold AtEnd; decide +kernel, by decide +kernel⟩,
   ⟨sequencerInstructions27, (3 : Fin 256), 0, ((sequencerInstructions27.dev.atBoundary ↑(3 : Fin 256)).get (by decide +kernel)).2.1, ((sequencerInstructions27.dev.atBoundary ↑(3 : Fin 256)).get (by decide +kernel)).2.2, ((sequencerInstructions27.dev.site ↑(3 : Fin 256)).run), (((sequencerInstructions27.dev.site ↑(3 : Fin 256)).run).flow), 0, 0, 0, 5, 3, rfl, rfl, by unfold AtEnd; decide +kernel, by decide +kernel, by decide +kernel, by decide +kernel⟩,
   ⟨sequencerInstructions28, (3 : Fin 256), 0, ((sequencerInstructions28.dev.atBoundary ↑(3 : Fin 256)).get (by decide +kernel)).2.1, ((sequencerInstructions28.dev.atBoundary ↑(3 : Fin 256)).get (by decide +kernel)).2.2, ((sequencerInstructions28.dev.site ↑(3 : Fin 256)).run), (((sequencerInstructions28.dev.site ↑(3 : Fin 256)).run).flow), 0, 0, 0, 5, 60, rfl, rfl, by unfold AtEnd; decide +kernel, by decide +kernel, by decide +kernel, by decide +kernel⟩,
   ⟨sequencerInstructions29, (3 : Fin 256), 0, ((sequencerInstructions29.dev.atBoundary ↑(3 : Fin 256)).get (by decide +kernel)).2.1, ((sequencerInstructions29.dev.atBoundary ↑(3 : Fin 256)).get (by decide +kernel)).2.2, ((sequencerInstructions29.dev.site ↑(3 : Fin 256)).run), (((sequencerInstructions29.dev.site ↑(3 : Fin 256)).run).flow), 0, 0, 0, 5, rfl, rfl, by unfold AtEnd; decide +kernel, by decide +kernel, by decide +kernel, by decide +kernel⟩,
   ⟨sequencerInstructions30, (3 : Fin 256), 0, ((sequencerInstructions30.dev.atBoundary ↑(3 : Fin 256)).get (by decide +kernel)).2.1, ((sequencerInstructions30.dev.atBoundary ↑(3 : Fin 256)).get (by decide +kernel)).2.2, ((sequencerInstructions30.dev.site ↑(3 : Fin 256)).run), (((sequencerInstructions30.dev.site ↑(3 : Fin 256)).run).flow), 0, 0, 0, 5, rfl, rfl, by unfold AtEnd; decide +kernel, by decide +kernel, by decide +kernel, by decide +kernel⟩⟩

/-- The hypotheses of the clauses of `Obligations.HoldsAndRendezvous` are met. -/
theorem test_witness_HoldsAndRendezvous :
    (∃ (s : State) (x : Fin 256) (k : Nat) (g : Group) (i : Image) (r : SiteRun) (f : Flow) (n : Nat), r = (s.dev.site ↑x).run ∧ f = r.flow ∧ AtEnd s.dev (↑x) k g i (ZIns.holdPoint n) ∧ (s.dev.site g.lead).run.idle = false ∧ g.hasEngine = true ∧ g.refill = false) ∧
    (∃ (s : State) (x : Fin 256) (k : Nat) (g : Group) (i : Image) (r : SiteRun) (f : Flow) (n : Nat), r = (s.dev.site ↑x).run ∧ f = r.flow ∧ AtEnd s.dev (↑x) k g i (ZIns.holdPoint n) ∧ (s.dev.site g.lead).run.idle = false ∧ (g.hasEngine = false ∨ g.refill = true) ∧ s.dev.isMulti g.lead = false ∧ i.z.noHolds = false ∧ (∃ h, i.z.holds[n]? = some h ∧ h.neutral = true)) ∧
    (∃ (s : State) (x : Fin 256) (k : Nat) (g : Group) (i : Image) (r : SiteRun) (f : Flow) (n : Nat) (w : IdleWait), r = (s.dev.site ↑x).run ∧ f = r.flow ∧ s.dev.atBoundary ↑x = some (k, g, i) ∧ g.members.Nodup ∧ s.dev.groupIns g i = ZIns.holdPoint n ∧ (s.dev.site g.lead).run.idle = true ∧ r.wait = some w ∧ w.rdv = false ∧ r.stop = false ∧ r.smother = [] ∧ g.hasEngine = true ∧ i.z.windowGuard ≤ s.dev.groupMargin k g i (s.dev.site g.lead).run.flow.succ) ∧
    (∃ (s : State) (x : Fin 256) (k : Nat) (g : Group) (i : Image) (r : SiteRun) (f : Flow) (n : Nat) (w : IdleWait), r = (s.dev.site ↑x).run ∧ f = r.flow ∧ s.dev.atBoundary ↑x = some (k, g, i) ∧ g.members.Nodup ∧ s.dev.groupIns g i = ZIns.holdPoint n ∧ (s.dev.site g.lead).run.idle = true ∧ r.wait = some w ∧ w.rdv = false ∧ r.stop = false ∧ r.smother = [] ∧ g.hasEngine = false) ∧
    (∃ (s : State) (x : Fin 256) (k : Nat) (g : Group) (i : Image) (r : SiteRun) (f : Flow) (n : Nat), r = (s.dev.site ↑x).run ∧ f = r.flow ∧ AtEnd s.dev (↑x) k g i (ZIns.rendezvous n) ∧ (s.dev.site g.lead).run.idle = false) ∧
    (∃ (s : State) (x : Fin 256) (k : Nat) (g : Group) (i : Image) (r : SiteRun) (f : Flow) (n : Nat) (p : RdvPt) (w : IdleWait), r = (s.dev.site ↑x).run ∧ f = r.flow ∧ s.dev.atBoundary ↑x = some (k, g, i) ∧ g.members.Nodup ∧ s.dev.groupIns g i = ZIns.rendezvous n ∧ g.lead = ↑x ∧ r.idle = true ∧ i.z.rdvs[n]? = some p ∧ r.wait = some w ∧ r.stop = false ∧ r.smother = [] ∧ s.dev.rdvFree ↑x = true) ∧
    (∃ (s : State) (x : Fin 256) (r : SiteRun) (f : Flow) (w : IdleWait) (max_ : Nat), r = (s.dev.site ↑x).run ∧ f = r.flow ∧ s.dev.rdvWait ↑x = some w ∧ max_ = s.dev.getF R.HRT_SEQ_CFG F.HRT_SEQ_CFG_RDV_MAX_EPOCHS ∧ max_ ≠ 0 ∧ s.dev.flue.known = true ∧ w.epoch + max_ + 1 ≤ s.dev.flue.epoch) ∧
    (∃ (s : State) (x : Fin 256) (r : SiteRun) (f : Flow) (w : IdleWait) (max_ : Nat), r = (s.dev.site ↑x).run ∧ f = r.flow ∧ s.dev.rdvWait ↑x = some w ∧ max_ = s.dev.getF R.HRT_SEQ_CFG F.HRT_SEQ_CFG_RDV_MAX_EPOCHS ∧ s.Inv ∧ (max_ = 0 ∨ s.dev.flue.epoch < w.epoch + max_ + 1)) :=
  ⟨⟨holdsAndRendezvous1, (3 : Fin 256), 0, ((holdsAndRendezvous1.dev.atBoundary ↑(3 : Fin 256)).get (by decide +kernel)).2.1, ((holdsAndRendezvous1.dev.atBoundary ↑(3 : Fin 256)).get (by decide +kernel)).2.2, ((holdsAndRendezvous1.dev.site ↑(3 : Fin 256)).run), (((holdsAndRendezvous1.dev.site ↑(3 : Fin 256)).run).flow), 0, rfl, rfl, by unfold AtEnd; decide +kernel, by decide +kernel, by decide +kernel, by decide +kernel⟩,
   ⟨holdsAndRendezvous2, (3 : Fin 256), 0, ((holdsAndRendezvous2.dev.atBoundary ↑(3 : Fin 256)).get (by decide +kernel)).2.1, ((holdsAndRendezvous2.dev.atBoundary ↑(3 : Fin 256)).get (by decide +kernel)).2.2, ((holdsAndRendezvous2.dev.site ↑(3 : Fin 256)).run), (((holdsAndRendezvous2.dev.site ↑(3 : Fin 256)).run).flow), 0, rfl, rfl, by unfold AtEnd; decide +kernel, by decide +kernel, by decide +kernel, by decide +kernel, by decide +kernel, by decide +kernel⟩,
   ⟨holdsAndRendezvous3, (3 : Fin 256), 0, ((holdsAndRendezvous3.dev.atBoundary ↑(3 : Fin 256)).get (by decide +kernel)).2.1, ((holdsAndRendezvous3.dev.atBoundary ↑(3 : Fin 256)).get (by decide +kernel)).2.2, ((holdsAndRendezvous3.dev.site ↑(3 : Fin 256)).run), (((holdsAndRendezvous3.dev.site ↑(3 : Fin 256)).run).flow), 0, ((((holdsAndRendezvous3.dev.site ↑(3 : Fin 256)).run).wait).get (by decide +kernel)), rfl, rfl, by decide +kernel, by decide +kernel, by decide +kernel, by decide +kernel, (Option.some_get _).symm, by decide +kernel, by decide +kernel, by decide +kernel, by decide +kernel, by decide +kernel⟩,
   ⟨holdsAndRendezvous4, (3 : Fin 256), 0, ((holdsAndRendezvous4.dev.atBoundary ↑(3 : Fin 256)).get (by decide +kernel)).2.1, ((holdsAndRendezvous4.dev.atBoundary ↑(3 : Fin 256)).get (by decide +kernel)).2.2, ((holdsAndRendezvous4.dev.site ↑(3 : Fin 256)).run), (((holdsAndRendezvous4.dev.site ↑(3 : Fin 256)).run).flow), 0, ((((holdsAndRendezvous4.dev.site ↑(3 : Fin 256)).run).wait).get (by decide +kernel)), rfl, rfl, by decide +kernel, by decide +kernel, by decide +kernel, by decide +kernel, (Option.some_get _).symm, by decide +kernel, by decide +kernel, by decide +kernel, by decide +kernel⟩,
   ⟨holdsAndRendezvous5, (3 : Fin 256), 0, ((holdsAndRendezvous5.dev.atBoundary ↑(3 : Fin 256)).get (by decide +kernel)).2.1, ((holdsAndRendezvous5.dev.atBoundary ↑(3 : Fin 256)).get (by decide +kernel)).2.2, ((holdsAndRendezvous5.dev.site ↑(3 : Fin 256)).run), (((holdsAndRendezvous5.dev.site ↑(3 : Fin 256)).run).flow), 0, rfl, rfl, by unfold AtEnd; decide +kernel, by decide +kernel⟩,
   ⟨holdsAndRendezvous6, (3 : Fin 256), 0, ((holdsAndRendezvous6.dev.atBoundary ↑(3 : Fin 256)).get (by decide +kernel)).2.1, ((holdsAndRendezvous6.dev.atBoundary ↑(3 : Fin 256)).get (by decide +kernel)).2.2, ((holdsAndRendezvous6.dev.site ↑(3 : Fin 256)).run), (((holdsAndRendezvous6.dev.site ↑(3 : Fin 256)).run).flow), 0, ((((holdsAndRendezvous6.dev.atBoundary ↑(3 : Fin 256)).get (by decide +kernel)).2.2.z.rdvs[0]?).get (by decide +kernel)), ((((holdsAndRendezvous6.dev.site ↑(3 : Fin 256)).run).wait).get (by decide +kernel)), rfl, rfl, by decide +kernel, by decide +kernel, by decide +kernel, by decide +kernel, by decide +kernel, (Option.some_get _).symm, (Option.some_get _).symm, by decide +kernel, by decide +kernel, by decide +kernel⟩,
   ⟨holdsAndRendezvous7, (3 : Fin 256), ((holdsAndRendezvous7.dev.site ↑(3 : Fin 256)).run), (((holdsAndRendezvous7.dev.site ↑(3 : Fin 256)).run).flow), ((holdsAndRendezvous7.dev.rdvWait ↑(3 : Fin 256)).get (by decide +kernel)), 10, rfl, rfl, (Option.some_get _).symm, by decide +kernel, by decide +kernel, by decide +kernel, by decide +kernel⟩,
   ⟨holdsAndRendezvous8, (3 : Fin 256), ((holdsAndRendezvous8.dev.site ↑(3 : Fin 256)).run), (((holdsAndRendezvous8.dev.site ↑(3 : Fin 256)).run).flow), ((holdsAndRendezvous8.dev.rdvWait ↑(3 : Fin 256)).get (by decide +kernel)), 65535, rfl, rfl, (Option.some_get _).symm, by decide +kernel, by unfold State.Inv; decide +kernel, by decide +kernel⟩⟩

/-- The hypotheses of the clauses of `Obligations.EpochsAreCounted` are met. -/
theorem test_witness_EpochsAreCounted :
    (∃ (s : State) (a : Nat), s.dev.running = true ∧ s.dev.flue.assign = some a ∧ (s.dev.flue.known = false ∨ a ≠ s.dev.flue.epoch)) ∧
    (∃ (s : State), s.dev.running = true ∧ s.dev.flue.assign = none ∧ s.dev.flue.known = true ∧ s.dev.role = 2) ∧
    (∃ (s : State), s.Inv ∧ s.dev.flag R.CLK_SYNC_STATUS F.CLK_SYNC_STATUS_GEN = true ∧ s.dev.role ≠ 2) :=
  ⟨⟨epochsAreCounted1, 101, by decide +kernel⟩,
   ⟨epochsAreCounted2, by decide +kernel⟩,
   ⟨epochsAreCounted3, by unfold State.Inv; decide +kernel⟩⟩

/-- The hypotheses of the clauses of `Obligations.OperandsBecomeEvents` are met. -/
theorem test_witness_OperandsBecomeEvents :
    (∃ (s : State) (x : Fin 256), (s.dev.site ↑x).st = RunState.stopping ∧ (s.dev.site ↑x).summary = 0 ∧ (s.dev.site ↑x).cap.results ≤ (s.dev.site ↑x).cap.posted ∧ ((s.dev.drt.offers.any fun o => o.site == ↑x && isRunSource o.source) = false)) ∧
    (∃ (s : State) (x : Fin 256) (p : CapPlan) (a : Nat), s.dev.plan ↑x = some p ∧ (s.dev.site ↑x).cap.posted < (s.dev.site ↑x).cap.results ∧ (s.dev.site ↑x).st.busy = true ∧ a = p.resBase + 64 * (s.dev.site ↑x).cap.posted) ∧
    (∃ (s : State) (x : Fin 256) (o : DrtOperand), s.dev.flag R.DRT_CFG F.DRT_CFG_ENABLE = true ∧ s.dev.running = true ∧ s.dev.nextOperand ↑x = some o ∧ s.dev.recipeOf o.source = none ∧ o.source ≠ srcSummary ∧ o.source ≠ 255 ∧ s.dev.drt.entries.length < 8192) ∧
    (∃ (s : State) (x : Fin 256) (o : DrtOperand), s.dev.flag R.DRT_CFG F.DRT_CFG_ENABLE = true ∧ s.dev.running = true ∧ s.dev.nextOperand ↑x = some o ∧ s.dev.recipeOf o.source = none ∧ o.source ≠ srcSummary ∧ o.source ≠ 255 ∧ 8192 ≤ s.dev.drt.entries.length ∧ o.held = false) ∧
    (∃ (s : State) (f : Fin 1024) (q : Nat) (y : DrtEntry), List.find? (fun e => e.flow == ↑f && e.eseq == q && e.st == DrtSt.opened) s.dev.drt.entries = some y ∧ s.dev.getF R.DRT_AGE F.DRT_AGE_AGE_US ≠ 0 ∧ y.sources.any isRunSource = false ∧ (s.dev.site (↑f / 4)).st.busy = false) :=
  ⟨⟨operandsBecomeEvents1, (3 : Fin 256), by decide +kernel⟩,
   ⟨operandsBecomeEvents2, (3 : Fin 256), ((operandsBecomeEvents2.dev.plan ↑(3 : Fin 256)).get (by decide +kernel)), 2097152, (Option.some_get _).symm, by decide +kernel, by decide +kernel, by decide +kernel⟩,
   ⟨operandsBecomeEvents3, (3 : Fin 256), ((operandsBecomeEvents3.dev.nextOperand ↑(3 : Fin 256)).get (by decide +kernel)), by decide +kernel, by decide +kernel, (Option.some_get _).symm, by decide +kernel, by decide +kernel, by decide +kernel, by decide +kernel⟩,
   ⟨operandsBecomeEvents4, (3 : Fin 256), ((operandsBecomeEvents4.dev.nextOperand ↑(3 : Fin 256)).get (by decide +kernel)), by decide +kernel, by decide +kernel, (Option.some_get _).symm, by decide +kernel, by decide +kernel, by decide +kernel, by decide +kernel, by decide +kernel⟩,
   ⟨operandsBecomeEvents5, (12 : Fin 1024), 0, ((List.find? (fun e ↦ e.flow == ↑(12 : Fin 1024) && e.eseq == 0 && e.st == DrtSt.opened) operandsBecomeEvents5.dev.drt.entries).get (by decide +kernel)), (Option.some_get _).symm, by decide +kernel, by decide +kernel, by decide +kernel⟩⟩

/-- The hypotheses of the clauses of `Obligations.EventsAreDispatchedAndReleased` are met. -/
theorem test_witness_EventsAreDispatchedAndReleased :
    (∃ (s : State) (e0 : DrtEntry) (t : List DrtEntry), s.Inv ∧ s.dev.running = true ∧ s.dev.dispatchable = e0 :: t ∧ s.dev.flag R.DRT_TRACE_CTRL F.DRT_TRACE_CTRL_ENABLE = false) ∧
    (∃ (s : State) (o : Origin) (c : Fin 8) (w : Word), Accepts s.dev o (R.DRT_Q_CI ↑c) w) ∧
    (∃ (s : State) (size : Nat) (pi : Nat), s.Inv ∧ s.dev.running = true ∧ size = 2 ^ s.dev.getF R.DRT_RES_SIZE F.DRT_RES_SIZE_LOG2 ∧ pi = BitVec.toNat (s.dev.reg R.DRT_RES_PI) ∧ ((s.dev.drt.entries.any fun y => y.relOrder != 0) = true) ∧ s.dev.flag R.DRT_TRACE_CTRL F.DRT_TRACE_CTRL_ENABLE = false ∧ sub32 pi (BitVec.toNat (s.dev.reg R.DRT_RES_CI)) < size) ∧
    (∃ (s : State) (size : Nat) (pi : Nat), s.Inv ∧ s.dev.running = true ∧ size = 2 ^ s.dev.getF R.DRT_RES_SIZE F.DRT_RES_SIZE_LOG2 ∧ pi = BitVec.toNat (s.dev.reg R.DRT_RES_PI) ∧ ((s.dev.drt.entries.any fun y => y.relOrder != 0) = true) ∧ s.dev.flag R.DRT_TRACE_CTRL F.DRT_TRACE_CTRL_ENABLE = false ∧ size ≤ sub32 pi (BitVec.toNat (s.dev.reg R.DRT_RES_CI))) ∧
    (∃ (s : State) (o : Origin) (w : Word), s.Inv ∧ Accepts s.dev o R.DRT_RES_CI w) ∧
    (∃ (s : State) (o : Origin) (w : Word), s.Inv ∧ Accepts s.dev o R.DRT_CFG w) :=
  ⟨⟨eventsAreDispatchedAndReleased1, ((eventsAreDispatchedAndReleased1.dev.dispatchable).head (by decide +kernel)), (eventsAreDispatchedAndReleased1.dev.dispatchable).tail, by unfold State.Inv; decide +kernel⟩,
   ⟨eventsAreDispatchedAndReleased1, .supervisor, (0 : Fin 8), 0, by unfold Accepts; decide +kernel⟩,
   ⟨eventsAreDispatchedAndReleased2, 4, 0, by unfold State.Inv; decide +kernel⟩,
   ⟨eventsAreDispatchedAndReleased3, 4, 4, by unfold State.Inv; decide +kernel⟩,
   ⟨eventsAreDispatchedAndReleased1, .supervisor, 0, by unfold Accepts State.Inv; decide +kernel⟩,
   ⟨eventsAreDispatchedAndReleased1, .supervisor, 0x80030305, by unfold Accepts State.Inv; decide +kernel⟩⟩

/-- The hypotheses of the clauses of `Obligations.PllStates` are met. -/
theorem test_witness_PllStates :
    (∃ (s : State) (p : Fin 6) (o : Origin) (w : Word) (b : Nat), Accepts s.dev o (R.CLK_PLL_CTRL ↑p) w ∧ getBits w F.CLK_PLL_CTRL_ENABLE = 1 ∧ s.dev.pllState ↑p = plOff ∧ s.dev.bandFrom (↑p) (getBits w F.CLK_PLL_CTRL_N) 0 = some b) ∧
    (∃ (s : State) (p : Fin 6) (o : Origin) (w : Word), Accepts s.dev o (R.CLK_PLL_CTRL ↑p) w ∧ getBits w F.CLK_PLL_CTRL_ENABLE = 1 ∧ s.dev.pllState ↑p = plOff ∧ s.dev.bandFrom (↑p) (getBits w F.CLK_PLL_CTRL_N) 0 = none) ∧
    (∃ (s : State) (p : Fin 6) (o : Origin) (w : Word), Accepts s.dev o (R.CLK_PLL_CTRL ↑p) w ∧ getBits w F.CLK_PLL_CTRL_ENABLE = 0 ∧ s.dev.pllState ↑p ≠ plOff) ∧
    (∃ (s : State) (p : Fin 6), s.Inv ∧ s.dev.pllState ↑p = plAcquire ∧ s.dev.board.refPresent = true) ∧
    (∃ (s : State) (p : Fin 6) (b : Nat), s.dev.pllState ↑p = plAcquire ∧ (s.dev.pll ↑p).retried = false ∧ s.dev.bandFrom (↑p) (s.dev.pll ↑p).n (s.dev.getF (R.CLK_PLL_CTRL ↑p) F.CLK_PLL_CTRL_BAND + 1) = some b) ∧
    (∃ (s : State) (p : Fin 6), s.dev.pllState ↑p = plAcquire ∧ (s.dev.pll ↑p).retried = true) ∧
    (∃ (s : State) (p : Fin 6), s.dev.pllState ↑p = plSettle ∧ s.dev.board.refPresent = true) ∧
    (∃ (s : State) (p : Fin 6), s.dev.pllState ↑p = plAcquire ∧ s.dev.clk.cut.contains ↑p = true) ∧
    (∃ (s : State) (p : Fin 6), s.Inv ∧ s.dev.pllState ↑p = plSettle) ∧
    (∃ (s : State) (p : Fin 6), s.dev.pllState ↑p = plLocked ∧ s.dev.flag (R.CLK_PLL_CTRL ↑p) F.CLK_PLL_CTRL_AUTO_RELOCK = false) ∧
    (∃ (s : State) (p : Fin 6), s.Inv ∧ s.dev.pllState ↑p = plLocked) :=
  ⟨⟨pllStates1, (2 : Fin 6), .supervisor, 0x80000228, 1, by unfold Accepts; decide +kernel⟩,
   ⟨pllStates1, (0 : Fin 6), .supervisor, 0x80000028, by unfold Accepts; decide +kernel⟩,
   ⟨pllStates2, (2 : Fin 6), .supervisor, 0x00000228, by unfold Accepts; decide +kernel⟩,
   ⟨pllStates3, (2 : Fin 6), by unfold State.Inv; decide +kernel⟩,
   ⟨pllStates3, (2 : Fin 6), 1, by decide +kernel⟩,
   ⟨pllStates4, (2 : Fin 6), by decide +kernel⟩,
   ⟨pllStates5, (2 : Fin 6), by decide +kernel⟩,
   ⟨pllStates8, (2 : Fin 6), by decide +kernel⟩,
   ⟨pllStates5, (2 : Fin 6), by unfold State.Inv; decide +kernel⟩,
   ⟨pllStates2, (0 : Fin 6), by decide +kernel⟩,
   ⟨pllStates7, (0 : Fin 6), by unfold State.Inv; decide +kernel⟩⟩

/-- The hypotheses of the clauses of `Obligations.ReferenceAndClocks` are met. -/
theorem test_witness_ReferenceAndClocks :
    (∃ (s : State), s.dev.board.refPresent = false) ∧
    (∃ (s : State) (o : Origin) (w : Word), Accepts s.dev o R.CLK_BAND_SEL (setBits w F.CLK_BAND_SEL_MEASURE 1) ∧ s.dev.clk.measuring = none ∧ s.dev.board.refPresent = true) ∧
    (∃ (s : State) (k : Nat), s.Inv ∧ s.dev.clk.measuring = some k) ∧
    (∃ (s : State) (c : Nat) (t : Nat), s.dev.pllState pllGrid = plLocked ∧ c = s.dev.getF R.CLK_GRID_PHASE F.CLK_GRID_PHASE_CURRENT ∧ t = s.dev.getF R.CLK_GRID_PHASE F.CLK_GRID_PHASE_TARGET) ∧
    (∃ (s : State) (o : Origin) (n : Fin 4) (w : Word), s.Inv ∧ Accepts s.dev o (R.CLK_OUT_CFG ↑n) w) ∧
    (∃ (s : State), s.dev.flag R.CLK_EMBER_STATUS F.CLK_EMBER_STATUS_ON_BACKUP = false) ∧
    (∃ (s : State), s.Inv ∧ s.dev.flag R.CLK_EMBER_STATUS F.CLK_EMBER_STATUS_ON_BACKUP = true) :=
  ⟨⟨referenceAndClocks1, by decide +kernel⟩,
   ⟨referenceAndClocks2, .supervisor, 0, by unfold Accepts; decide +kernel⟩,
   ⟨referenceAndClocks3, 131, by unfold State.Inv; decide +kernel⟩,
   ⟨referenceAndClocks4, 0, 0, by decide +kernel⟩,
   ⟨referenceAndClocks2, .supervisor, (0 : Fin 4), 0x80000028, by unfold Accepts State.Inv; decide +kernel⟩,
   ⟨referenceAndClocks2, by decide +kernel⟩,
   ⟨referenceAndClocks5, by unfold State.Inv; decide +kernel⟩⟩

/-- The hypotheses of the clauses of `Obligations.MailboxesAndLocks` are met. -/
theorem test_witness_MailboxesAndLocks :
    (∃ (s : State) (n : Fin 16) (o : Origin) (x : Side) (m : Mbx) (w : Word), s.dev.mbxSide (↑n) o.id = some x ∧ m = s.dev.mbxBox ↑n ∧ Accepts s.dev o (R.MBX_TX ↑n) w) ∧
    (∃ (s : State) (n : Fin 16) (o : Origin) (x : Side) (m : Mbx) (c : MbxMsg) (t : List MbxMsg), s.dev.mbxSide (↑n) o.id = some x ∧ m = s.dev.mbxBox ↑n ∧ Grants s.dev o (R.MBX_RX_DATA ↑n) ∧ m.inQ x = c :: t) ∧
    (∃ (s : State) (n : Fin 16) (o : Origin) (x : Side) (m : Mbx) (w : Word), s.dev.mbxSide (↑n) o.id = some x ∧ m = s.dev.mbxBox ↑n ∧ Accepts s.dev o (R.MBX_WAIT ↑n) w ∧ getBits w F.MBX_WAIT_MODE = wmMessage) ∧
    (∃ (s : State) (n : Fin 16) (o : Origin) (x : Side) (m : Mbx), s.dev.mbxSide (↑n) o.id = some x ∧ m = s.dev.mbxBox ↑n ∧ (m.wait x).result = wrPending ∧ s.dev.getF (R.MBX_WAIT ↑n) { lsb := x.eventBit, width := 1 } = 1) ∧
    (∃ (s : State) (n : Fin 16) (o : Origin) (x : Side) (m : Mbx), s.dev.mbxSide (↑n) o.id = some x ∧ m = s.dev.mbxBox ↑n ∧ Accepts s.dev o (R.MBX_STATUS ↑n) (ownEvent (some x))) ∧
    (∃ (s : State) (n : Fin 16) (o : Origin) (x : Side) (m : Mbx) (c : ResetEnd), s.dev.mbxSide (↑n) o.id = some x ∧ m = s.dev.mbxBox ↑n ∧ c.ids.contains o.id = true ∧ (m.wait x).result = wrPending) ∧
    (∃ (s : State) (n : Fin 16) (o : Origin) (w : Word), Accepts s.dev o (R.MBX_CFG ↑n) w) ∧
    (∃ (s : State) (o : Origin) (k : Fin 32), s.Inv ∧ Grants s.dev o (R.MBX_LOCK ↑k) ∧ mapFind s.dev.mbx.locks ↑k = none) ∧
    (∃ (s : State) (o : Origin) (k : Fin 32) (owner : Nat) (epoch : Nat), s.Inv ∧ Grants s.dev o (R.MBX_LOCK ↑k) ∧ mapFind s.dev.mbx.locks ↑k = some (owner, epoch)) ∧
    (∃ (s : State) (o : Origin) (k : Fin 32) (owner : Nat) (epoch : Nat), s.Inv ∧ Accepts s.dev o (R.MBX_LOCK ↑k) (BitVec.ofNat 32 o.id) ∧ mapFind s.dev.mbx.locks ↑k = some (owner, epoch)) ∧
    (∃ (s : State) (o : Origin) (w : Word), s.Inv ∧ Accepts s.dev o R.MBX_LOCK_FREE w) :=
  ⟨⟨mailboxesAndLocks1, (1 : Fin 16), .supervisor, ((mailboxesAndLocks1.dev.mbxSide (↑(1 : Fin 16)) Origin.supervisor.id).get (by decide +kernel)), (mailboxesAndLocks1.dev.mbxBox ↑(1 : Fin 16)), 0, (Option.some_get _).symm, rfl, by unfold Accepts; decide +kernel⟩,
   ⟨mailboxesAndLocks2, (1 : Fin 16), .supervisor, ((mailboxesAndLocks2.dev.mbxSide (↑(1 : Fin 16)) Origin.supervisor.id).get (by decide +kernel)), (mailboxesAndLocks2.dev.mbxBox ↑(1 : Fin 16)), (((mailboxesAndLocks2.dev.mbxBox ↑(1 : Fin 16)).inQ ((mailboxesAndLocks2.dev.mbxSide (↑(1 : Fin 16)) Origin.supervisor.id).get (by decide +kernel))).head (by decide +kernel)), ((mailboxesAndLocks2.dev.mbxBox ↑(1 : Fin 16)).inQ ((mailboxesAndLocks2.dev.mbxSide (↑(1 : Fin 16)) Origin.supervisor.id).get (by decide +kernel))).tail, (Option.some_get _).symm, rfl, by unfold Grants; decide +kernel, by decide +kernel⟩,
   ⟨mailboxesAndLocks1, (1 : Fin 16), .supervisor, ((mailboxesAndLocks1.dev.mbxSide (↑(1 : Fin 16)) Origin.supervisor.id).get (by decide +kernel)), (mailboxesAndLocks1.dev.mbxBox ↑(1 : Fin 16)), 0x80000000, (Option.some_get _).symm, rfl, by unfold Accepts; decide +kernel, by decide +kernel⟩,
   ⟨mailboxesAndLocks3, (1 : Fin 16), .supervisor, ((mailboxesAndLocks3.dev.mbxSide (↑(1 : Fin 16)) Origin.supervisor.id).get (by decide +kernel)), (mailboxesAndLocks3.dev.mbxBox ↑(1 : Fin 16)), (Option.some_get _).symm, rfl, by decide +kernel, by decide +kernel⟩,
   ⟨mailboxesAndLocks1, (1 : Fin 16), .supervisor, ((mailboxesAndLocks1.dev.mbxSide (↑(1 : Fin 16)) Origin.supervisor.id).get (by decide +kernel)), (mailboxesAndLocks1.dev.mbxBox ↑(1 : Fin 16)), (Option.some_get _).symm, rfl, by unfold Accepts; decide +kernel⟩,
   ⟨mailboxesAndLocks4, (1 : Fin 16), .supervisor, ((mailboxesAndLocks4.dev.mbxSide (↑(1 : Fin 16)) Origin.supervisor.id).get (by decide +kernel)), (mailboxesAndLocks4.dev.mbxBox ↑(1 : Fin 16)), .supervisor, (Option.some_get _).symm, rfl, by decide +kernel, by decide +kernel⟩,
   ⟨mailboxesAndLocks1, (0 : Fin 16), .supervisor, 0, by unfold Accepts; decide +kernel⟩,
   ⟨mailboxesAndLocks1, .supervisor, (0 : Fin 32), by unfold Grants State.Inv; decide +kernel⟩,
   ⟨mailboxesAndLocks5, .supervisor, (0 : Fin 32), 32, 0, by unfold Grants State.Inv; decide +kernel⟩,
   ⟨mailboxesAndLocks5, .supervisor, (0 : Fin 32), 32, 0, by unfold Accepts State.Inv; decide +kernel⟩,
   ⟨mailboxesAndLocks1, .supervisor, 0, by unfold Accepts State.Inv; decide +kernel⟩⟩

/-- The hypotheses of the clauses of `Obligations.FluePorts` are met. -/
theorem test_witness_FluePorts :
    (∃ (s : State) (p : Fin 4) (o : Origin) (w : Word), Accepts s.dev o (R.FLU_PORT_CTRL ↑p) (setBits w F.FLU_PORT_CTRL_ENABLE 1) ∧ s.dev.portState ↑p = psDown ∧ s.dev.pllLocked pllFlue = true ∧ s.dev.role ≠ 0) ∧
    (∃ (s : State) (p : Fin 4) (o : Origin) (w : Word), Accepts s.dev o (R.FLU_PORT_CTRL ↑p) (setBits w F.FLU_PORT_CTRL_ENABLE 0) ∧ s.dev.portState ↑p = psActive) ∧
    (∃ (s : State) (p : Fin 4) (o : Origin) (w : Word), Accepts s.dev o (R.FLU_PORT_CTRL ↑p) (setBits w F.FLU_PORT_CTRL_RETRAIN 1) ∧ getBits w F.FLU_PORT_CTRL_ENABLE = 1 ∧ (s.dev.portState ↑p = psActive ∨ s.dev.portState ↑p = psIdle)) ∧
    (∃ (s : State) (p : Fin 4) (num : Nat) (role : Nat) (from_ : Nat) (lanes : List Word), s.dev.portState ↑p = psTrain ∧ ((lanes.any fun w => decide (maxSkewBlocks < getBits w F.FLU_PORT_LANE_SKEW_BLOCKS)) = false) ∧ s.dev.identErr (↑p) num role from_ = none) ∧
    (∃ (s : State) (p : Fin 4) (num : Nat) (role : Nat) (from_ : Nat) (lanes : List Word) (err : Nat), s.dev.portState ↑p = psTrain ∧ ((lanes.any fun w => decide (maxSkewBlocks < getBits w F.FLU_PORT_LANE_SKEW_BLOCKS)) = false) ∧ s.dev.identErr (↑p) num role from_ = some err) ∧
    (∃ (s : State) (p : Fin 4) (lanes : List Word), s.dev.portState ↑p = psTrain ∧ s.Inv ∧ ((lanes.any fun w => decide (maxSkewBlocks < getBits w F.FLU_PORT_LANE_SKEW_BLOCKS)) = true)) ∧
    (∃ (s : State) (p : Fin 4), s.dev.portState ↑p = psActive ∧ s.dev.flag (R.FLU_PORT_CTRL ↑p) F.FLU_PORT_CTRL_IDLE_ALLOWED = true ∧ (s.dev.port ↑p).queue = [] ∧ (s.dev.port ↑p).replay = [] ∧ s.dev.multiBusy = false) ∧
    (∃ (s : State) (p : Fin 4), s.dev.portState ↑p = psIdle) ∧
    (∃ (s : State) (p : Fin 4), s.dev.portState ↑p = psWake) ∧
    (∃ (s : State) (p : Fin 4), s.dev.portState ↑p = psActive ∧ (s.dev.port ↑p).replay ≠ [] ∧ (s.dev.port ↑p).replays < 8) ∧
    (∃ (s : State) (p : Fin 4), s.dev.portState ↑p = psActive ∧ (s.dev.port ↑p).replay ≠ [] ∧ 8 ≤ (s.dev.port ↑p).replays) ∧
    (∃ (s : State) (p : Fin 4) (t : Nat), s.Inv ∧ s.dev.portState ↑p = psActive ∧ blockTypes.contains t = false) ∧
    (∃ (s : State) (p : Fin 4) (h : Nat) (bs : List FlueBlock), s.Inv ∧ s.dev.portState ↑p = psActive ∧ (readWire (FlueBlock.ctl btStart h :: bs) = none ∨ ∃ k seq crcOk lenOk, readWire (FlueBlock.ctl btStart h :: bs) = some (k, seq, crcOk, lenOk) ∧ (crcOk = false ∨ seq ≠ (s.dev.port ↑p).rxSeq))) ∧
    (∃ (s : State) (p : Fin 4) (h : Nat) (bs : List FlueBlock) (k : Packet) (lenOk : Bool), s.Inv ∧ s.dev.portState ↑p = psActive ∧ readWire (FlueBlock.ctl btStart h :: bs) = some (k, (s.dev.port ↑p).rxSeq, true, lenOk) ∧ (lenOk = false ∨ k.fieldsOk = false)) ∧
    (∃ (s : State) (tag : Fin 1024) (dest : Nat) (high : Nat), s.Inv ∧ mapFind s.dev.flue.reads ↑tag = some (ReadFor.racc dest high)) ∧
    (∃ (s : State) (tag : Fin 1024) (n : Nat) (dest : Nat) (q : Desc), s.Inv ∧ mapFind s.dev.flue.reads ↑tag = some (ReadFor.dma n dest) ∧ (s.dev.ring n).current = some q) ∧
    (∃ (s : State) (o : Origin) (w : Word), Accepts s.dev o R.FLU_RACC_CTRL (setBits w F.FLU_RACC_CTRL_GO 1) ∧ s.dev.flag R.FLU_RACC_CTRL F.FLU_RACC_CTRL_BUSY = false ∧ (∀ (q : Nat), s.dev.route (getBits w F.FLU_RACC_CTRL_DEST) ≠ Route.port q)) ∧
    (∃ (s : State) (o : Origin) (w : Word) (q : Nat) (dest : Nat) (high : Nat), Accepts s.dev o R.FLU_RACC_CTRL (setBits w F.FLU_RACC_CTRL_GO 1) ∧ s.dev.flag R.FLU_RACC_CTRL F.FLU_RACC_CTRL_BUSY = false ∧ dest = getBits w F.FLU_RACC_CTRL_DEST ∧ high = s.dev.raccAddr / 4 % 2 ∧ s.dev.route dest = Route.port q ∧ getBits w F.FLU_RACC_CTRL_WRITE = 0) ∧
    (∃ (s : State) (o : Origin) (w : Word) (q : Nat) (dest : Nat) (high : Nat), Accepts s.dev o R.FLU_RACC_CTRL (setBits w F.FLU_RACC_CTRL_GO 1) ∧ s.dev.flag R.FLU_RACC_CTRL F.FLU_RACC_CTRL_BUSY = false ∧ dest = getBits w F.FLU_RACC_CTRL_DEST ∧ high = s.dev.raccAddr / 4 % 2 ∧ s.dev.route dest = Route.port q ∧ getBits w F.FLU_RACC_CTRL_WRITE = 1) ∧
    (∃ (s : State), s.dev.flue.joined = false ∧ s.dev.role = 1) ∧
    (∃ (s : State), s.dev.flue.joined = false ∧ s.Inv ∧ s.dev.role ≠ 0 ∧ s.dev.role ≠ 1) ∧
    (∃ (s : State) (o : Origin) (w : Word), Accepts s.dev o R.FLU_SKEW_CTRL (setBits w F.FLU_SKEW_CTRL_START 1) ∧ s.dev.flue.skew = none ∧ s.dev.role = 2 ∧ s.dev.portState 0 = psActive ∧ s.dev.flue.known = true) ∧
    (∃ (s : State) (k : Skew), s.dev.flue.skew = some k ∧ 64 ≤ k.twice.length ∧ s.dev.calPending 17 = false) ∧
    (∃ (s : State) (p : Fin 4), s.Inv ∧ s.dev.portState ↑p = psActive ∧ s.dev.flue.known = true ∧ ↑p ≠ 0) ∧
    (∃ (s : State) (p : Fin 4) (q : Nat), s.Inv ∧ s.dev.portState ↑p = psActive ∧ ↑p ≠ 0 ∧ s.dev.route (3 * s.dev.deviceNum + ↑p) = Route.port q) ∧
    (∃ (s : State) (p : Fin 4) (k : Skew), s.Inv ∧ s.dev.portState ↑p = psActive ∧ ↑p = 0 ∧ s.dev.flue.skew = some k ∧ k.t1 = none ∧ k.twice.length < skewPairs) :=
  ⟨⟨fluePorts1, (0 : Fin 4), .supervisor, 0, by unfold Accepts; decide +kernel⟩,
   ⟨fluePorts2, (1 : Fin 4), .supervisor, 0, by unfold Accepts; decide +kernel⟩,
   ⟨fluePorts2, (1 : Fin 4), .supervisor, 0x80000000, by unfold Accepts; decide +kernel⟩,
   ⟨fluePorts3, (1 : Fin 4), 1, 2, 0, [], by decide +kernel⟩,
   ⟨fluePorts3, (1 : Fin 4), 0, 0, 0, [], 2, by decide +kernel⟩,
   ⟨fluePorts3, (1 : Fin 4), [0x7F000000, 0xFFFFFFFF], by decide +kernel, by unfold State.Inv; decide +kernel, by decide +kernel⟩,
   ⟨fluePorts2, (1 : Fin 4), by decide +kernel⟩,
   ⟨fluePorts4, (1 : Fin 4), by decide +kernel⟩,
   ⟨fluePorts5, (1 : Fin 4), by decide +kernel⟩,
   ⟨fluePorts6, (1 : Fin 4), by decide +kernel⟩,
   ⟨fluePorts7, (1 : Fin 4), by decide +kernel⟩,
   ⟨fluePorts2, (1 : Fin 4), 0, by unfold State.Inv; decide +kernel⟩,
   ⟨fluePorts2, (1 : Fin 4), 0, [], by unfold State.Inv; decide +kernel, by decide +kernel, Or.inl (by decide +kernel)⟩,
   ⟨fluePorts2, (1 : Fin 4), badPacket.header, (badPacket.wire 0).tail, badPacket, true, by unfold State.Inv; decide +kernel, by decide +kernel, by decide +kernel, by decide +kernel⟩,
   ⟨fluePorts8, (5 : Fin 1024), 1, 0, by unfold State.Inv; decide +kernel⟩,
   ⟨fluePorts12, (7 : Fin 1024), 1, 1, dmaTo 0x20000 64 1 1, by unfold State.Inv; decide +kernel⟩,
   ⟨st id, .supervisor, 0, by unfold Accepts; decide +kernel, by decide +kernel, fun q h => Route.noConfusion ((show (st id).dev.route (getBits (0 : Word) F.FLU_RACC_CTRL_DEST) = Route.here by decide +kernel).symm.trans h)⟩,
   ⟨fluePorts2, .supervisor, 0x80000100, 1, 1, 0, by unfold Accepts; decide +kernel⟩,
   ⟨fluePorts2, .supervisor, setBits 0x80000100 F.FLU_RACC_CTRL_WRITE 1, 1, 1, 0, by unfold Accepts; decide +kernel⟩,
   ⟨fluePorts1, by decide +kernel⟩,
   ⟨fluePorts9, by unfold State.Inv; decide +kernel⟩,
   ⟨fluePorts9, .supervisor, 0, by unfold Accepts; decide +kernel⟩,
   ⟨fluePorts10, ((fluePorts10.dev.flue.skew).get (by decide +kernel)), (Option.some_get _).symm, by decide +kernel, by decide +kernel⟩,
   ⟨fluePorts2, (1 : Fin 4), by unfold State.Inv; decide +kernel⟩,
   ⟨fluePorts2, (1 : Fin 4), 1, by unfold State.Inv; decide +kernel⟩,
   ⟨fluePorts11, (0 : Fin 4), ((fluePorts11.dev.flue.skew).get (by decide +kernel)), by unfold State.Inv; decide +kernel, by decide +kernel, by decide +kernel, (Option.some_get _).symm, by decide +kernel, by decide +kernel⟩⟩

/-- The hypotheses of the clauses of `Obligations.Packets` are met. -/
theorem test_witness_Packets :
    (∃ (s : State) (p : Fin 4) (k : Packet) (q : Nat), Arrives s.dev (↑p) ptRead k ∧ inRegs k.addr = false ∧ s.dev.memRefusal (64 + ↑p) k.addr (8 * k.arg) false = none ∧ s.dev.poisoned k.addr (8 * k.arg) = false ∧ s.dev.route k.src = Route.port q) ∧
    (∃ (s : State) (p : Fin 4) (k : Packet), s.Inv ∧ Unwatched s.dev k.addr (8 * k.payload.length) ∧ Arrives s.dev (↑p) ptWrite k ∧ inRegs k.addr = false ∧ k.be = 255 ∧ s.dev.memRefusal (64 + ↑p) k.addr (8 * k.payload.length) true = none) ∧
    (∃ (s : State) (p : Fin 4) (k : Packet) (n : Fin 64), s.Inv ∧ Unwatched s.dev k.addr 8 ∧ Arrives s.dev (↑p) ptDoorbell k ∧ k.addr = s.dev.dbAddr ↑n ∧ k.be = 255 ∧ s.dev.memRefusal (64 + ↑p) k.addr 8 true = none) ∧
    (∃ (s : State) (p : Fin 4) (k : Packet) (dest : Nat) (high : Nat), Arrives s.dev (↑p) ptResponse k ∧ s.dev.flue.skew = none ∧ mapFind s.dev.flue.reads k.tag = some (ReadFor.racc dest high) ∧ (k.arg = 0 → k.payload.length = 1)) ∧
    (∃ (s : State) (p : Fin 4) (k : Packet) (n : Nat) (dest : Nat) (q : Desc), Arrives s.dev (↑p) ptResponse k ∧ s.dev.flue.skew = none ∧ mapFind s.dev.flue.reads k.tag = some (ReadFor.dma n dest) ∧ (s.dev.ring n).current = some q ∧ k.arg ≠ 0) ∧
    (∃ (s : State) (p : Fin 4) (k : Packet) (n : Nat) (dest : Nat) (q : Desc) (a : Nat), Arrives s.dev (↑p) ptResponse k ∧ s.dev.flue.skew = none ∧ mapFind s.dev.flue.reads k.tag = some (ReadFor.dma n dest) ∧ (s.dev.ring n).current = some q ∧ s.Inv ∧ k.arg = 0 ∧ k.payload.length = 8 ∧ s.dev.ringRemote n = false ∧ q.get 32 4 ≤ (s.dev.ring n).dmaMoved + 64 ∧ a = q.get 16 8 + (s.dev.ring n).dmaMoved ∧ Unwatched s.dev a 64) ∧
    (∃ (s : State) (p : Fin 4) (k : Packet) (n : Nat), Arrives s.dev (↑p) ptResponse k ∧ s.dev.flue.skew = none ∧ mapFind s.dev.flue.reads k.tag = some (ReadFor.fetch n) ∧ (s.dev.ring n).fetching = true ∧ k.arg = 0 ∧ k.payload.length = 8) ∧
    (∃ (s : State) (p : Fin 4) (k : Packet), Arrives s.dev (↑p) ptResponse k ∧ s.dev.flue.skew = none ∧ mapFind s.dev.flue.reads k.tag = none) ∧
    (∃ (s : State) (p : Fin 4) (k : Packet) (x : Side) (b : Nat), Arrives s.dev (↑p) ptMessage k ∧ k.payload = [b] ∧ b < 2 ^ 40 ∧ s.dev.permReg (64 + ↑p) (R.MBX_TX k.arg) true = true ∧ s.dev.mbxSide k.arg (64 + ↑p) = some x ∧ s.dev.mbxFull k.arg x = false) ∧
    (∃ (s : State) (p : Fin 4) (k : Packet) (q : Nat), s.dev.ours k = false ∧ s.dev.portState ↑p = psActive ∧ k.fieldsOk = true ∧ s.dev.route k.dest = Route.port q) ∧
    (∃ (s : State) (a : Nat), a = s.dev.flue.epoch + 1 ∧ s.dev.role = 1 ∧ s.dev.flue.known = true ∧ s.dev.flue.marked ≠ some a ∧ (s.dev.flue.joinDue = true ∨ a % s.dev.getF R.FLU_CFG F.FLU_CFG_MARKER_EVERY = 0)) ∧
    (∃ (s : State) (a : Nat), a = s.dev.flue.epoch + 1 ∧ s.Inv ∧ (s.dev.flue.marked = some a ∨ s.dev.flue.joinDue = false ∧ a % s.dev.getF R.FLU_CFG F.FLU_CFG_MARKER_EVERY ≠ 0)) ∧
    (∃ (s : State) (p : Fin 4) (k : Packet) (a : Nat), Arrives s.dev (↑p) ptMarker k ∧ k.payload = [a] ∧ (s.dev.flue.known = false ∨ s.dev.flue.epoch < a)) ∧
    (∃ (s : State) (p : Fin 4) (k : Packet) (a : Nat), Arrives s.dev (↑p) ptMarker k ∧ k.payload = [a] ∧ s.dev.flue.known = true ∧ a ≤ s.dev.flue.epoch) ∧
    (∃ (s : State) (p : Fin 4) (k : Packet) (q : Desc) (r : Start), Arrives s.dev (↑p) ptEvent k ∧ k.evKind = evStart ∧ k.src ≠ s.dev.deviceNum ∧ q = { bytes := slice k.evBody 0 64, origin := s.dev.ringOrigin k.arg, slot := 0 } ∧ r = s.dev.startOfDesc k.arg q true ∧ s.dev.running = false) ∧
    (∃ (s : State) (p : Fin 4) (k : Packet) (q : Desc) (r : Start) (c : Nat), Arrives s.dev (↑p) ptEvent k ∧ k.evKind = evStart ∧ k.src ≠ s.dev.deviceNum ∧ q = { bytes := slice k.evBody 0 64, origin := s.dev.ringOrigin k.arg, slot := 0 } ∧ r = s.dev.startOfDesc k.arg q true ∧ s.dev.running = true ∧ s.dev.judgeEvent k.arg q = some (DescEnd.refused c)) ∧
    (∃ (s : State) (p : Fin 4) (k : Packet) (q : Desc) (r : Start) (kind : Nat), Arrives s.dev (↑p) ptEvent k ∧ k.evKind = evStart ∧ k.src ≠ s.dev.deviceNum ∧ q = { bytes := slice k.evBody 0 64, origin := s.dev.ringOrigin k.arg, slot := 0 } ∧ r = s.dev.startOfDesc k.arg q true ∧ s.dev.running = true ∧ s.dev.judgeEvent k.arg q = some (DescEnd.denied kind)) ∧
    (∃ (s : State) (p : Fin 4) (k : Packet) (q : Desc) (r : Start), Arrives s.dev (↑p) ptEvent k ∧ k.evKind = evStart ∧ k.src ≠ s.dev.deviceNum ∧ q = { bytes := slice k.evBody 0 64, origin := s.dev.ringOrigin k.arg, slot := 0 } ∧ r = s.dev.startOfDesc k.arg q true ∧ s.dev.running = true ∧ s.dev.judgeEvent k.arg q = none ∧ (s.dev.ring k.arg).events = [] ∧ s.dev.judgeStart r.sites r.epoch r.unadmitted = StartEnd.held) ∧
    (∃ (s : State) (p : Fin 4) (k : Packet) (q : Desc) (r : Start), Arrives s.dev (↑p) ptEvent k ∧ k.evKind = evStart ∧ k.src ≠ s.dev.deviceNum ∧ q = { bytes := slice k.evBody 0 64, origin := s.dev.ringOrigin k.arg, slot := 0 } ∧ r = s.dev.startOfDesc k.arg q true ∧ s.dev.running = true ∧ s.dev.judgeEvent k.arg q = none ∧ (s.dev.ring k.arg).events = [] ∧ s.dev.judgeStart r.sites r.epoch r.unadmitted = StartEnd.accepted ∧ (s.dev.takeGroups (s.dev.formGroups r.sites)).isSome = true ∧ s.dev.clocksHold r = true) ∧
    (∃ (s : State) (p : Fin 4) (k : Packet), Arrives s.dev (↑p) ptEvent k ∧ k.src ≠ s.dev.deviceNum ∧ k.evKind = evStop) ∧
    (∃ (s : State) (p : Fin 4) (k : Packet), Arrives s.dev (↑p) ptEvent k ∧ k.src ≠ s.dev.deviceNum ∧ k.evKind = evFail) ∧
    (∃ (s : State) (p : Fin 4) (k : Packet) (r : Start) (t : List Start), Arrives s.dev (↑p) ptEvent k ∧ k.src ≠ s.dev.deviceNum ∧ k.evKind = evReport ∧ s.dev.isManager = true ∧ s.dev.eventStarts k ++ List.filter (fun r => r.ring == k.arg && r.hostSeq == k.evSeq) s.dev.seq.met = r :: t ∧ (((s.dev.startDevices r).any fun v => v != k.src && !(s.dev.meet r.id).reports.any fun y => y.device == v) = true)) ∧
    (∃ (s : State) (p : Fin 4) (k : Packet) (r : Start) (t : List Start), Arrives s.dev (↑p) ptEvent k ∧ k.src ≠ s.dev.deviceNum ∧ k.evKind = evRelease ∧ s.dev.eventStarts k = r :: t ∧ (s.dev.flue.known = false ∨ s.dev.flue.epoch + 1 < k.evEpoch)) :=
  ⟨⟨packets1, (1 : Fin 4), (pkt 0 0 1 5 255 2 0x100 []), 1, by unfold Arrives; decide +kernel⟩,
   ⟨packets1, (1 : Fin 4), (pkt 1 0 1 0 255 0 0x100 [7, 8]), by unfold Arrives Unwatched State.Inv; decide +kernel⟩,
   ⟨packets2, (1 : Fin 4), (pkt 2 0 1 0 255 0 0x3000 [0x0000000200000001]), (1 : Fin 64), by unfold Arrives Unwatched State.Inv; decide +kernel⟩,
   ⟨packets3, (1 : Fin 4), (pkt 3 0 1 5 0 0 0 [9]), 1, 0, by unfold Arrives; decide +kernel⟩,
   ⟨packets7, (1 : Fin 4), (pkt 3 0 1 5 0 1 0 []), 1, 1, dmaTo 0x20000 64 1 1, by unfold Arrives; decide +kernel⟩,
   ⟨packets7, (1 : Fin 4), (pkt 3 0 1 5 0 0 0 [1, 2, 3, 4, 5, 6, 7, 8]), 1, 1, dmaTo 0x20000 64 1 1, 0x8000, by unfold Arrives Unwatched State.Inv; decide +kernel⟩,
   ⟨packets8, (0 : Fin 4), (pkt 3 1 0 5 0 0 0 [1, 2, 3, 4, 5, 6, 7, 8]), 1, by unfold Arrives; decide +kernel⟩,
   ⟨packets1, (1 : Fin 4), (pkt 3 0 1 5 0 0 0 [9]), by unfold Arrives; decide +kernel⟩,
   ⟨packets4, (1 : Fin 4), (pkt 4 0 1 0 0 1 0 [5 * 2 ^ 32 + 77]), ((packets4.dev.mbxSide (pkt 4 0 1 0 0 1 0 [5 * 2 ^ 32 + 77]).arg (64 + ↑(1 : Fin 4))).get (by decide +kernel)), 21474836557, by unfold Arrives; decide +kernel, by decide +kernel, by decide +kernel, by decide +kernel, (Option.some_get _).symm, by decide +kernel⟩,
   ⟨packets1, (1 : Fin 4), (pkt 1 1 2 0 255 0 0x100 [7]), 1, by decide +kernel⟩,
   ⟨packets9, 101, by decide +kernel⟩,
   ⟨packets10, 101, by unfold State.Inv; decide +kernel⟩,
   ⟨packets1, (1 : Fin 4), (pkt 6 0x7F 0 0 0 0 0 [101]), 101, by unfold Arrives; decide +kernel⟩,
   ⟨packets1, (1 : Fin 4), (pkt 6 0x7F 0 0 0 0 0 [100]), 100, by unfold Arrives; decide +kernel⟩,
   ⟨packets11, (0 : Fin 4), ev12, evDesc packets11.dev ev12, _, by unfold Arrives; decide +kernel, by decide +kernel, by decide +kernel, rfl, rfl, by decide +kernel⟩,
   ⟨packets5, (0 : Fin 4), ev13, evDesc packets5.dev ev13, _, 128, by unfold Arrives; decide +kernel, by decide +kernel, by decide +kernel, rfl, rfl, by decide +kernel, by decide +kernel⟩,
   ⟨packets12, (0 : Fin 4), ev12, evDesc packets12.dev ev12, _, 0, by unfold Arrives; decide +kernel, by decide +kernel, by decide +kernel, rfl, rfl, by decide +kernel, by decide +kernel⟩,
   ⟨packets13, (0 : Fin 4), ev12, evDesc packets13.dev ev12, _, by unfold Arrives; decide +kernel, by decide +kernel, by decide +kernel, rfl, rfl, by decide +kernel, by decide +kernel, by decide +kernel, by decide +kernel⟩,
   ⟨packets5, (0 : Fin 4), ev12, evDesc packets5.dev ev12, _, by unfold Arrives; decide +kernel, by decide +kernel, by decide +kernel, rfl, rfl, by decide +kernel, by decide +kernel, by decide +kernel, by decide +kernel, by decide +kernel, by decide +kernel⟩,
   ⟨packets1, (1 : Fin 4), (evp 1 1 130 2 (9 * 2 ^ 32) [8, 0, 0, 0]), by unfold Arrives; decide +kernel⟩,
   ⟨packets5, (0 : Fin 4), (evp 0 1 100 3 (3 * 16 + 9 * 2 ^ 32) []), by unfold Arrives; decide +kernel⟩,
   ⟨packets6, (1 : Fin 4), (evp 1 1 100 4 (9 * 2 ^ 32) [8,0,0,0]), ((packets6.dev.eventStarts (evp 1 1 100 4 (9 * 2 ^ 32) [8,0,0,0]) ++ packets6.dev.seq.met.filter (fun r => r.ring == ((evp 1 1 100 4 (9 * 2 ^ 32) [8,0,0,0])).arg && r.hostSeq == ((evp 1 1 100 4 (9 * 2 ^ 32) [8,0,0,0])).evSeq)).head (by decide +kernel)), (packets6.dev.eventStarts (evp 1 1 100 4 (9 * 2 ^ 32) [8,0,0,0]) ++ packets6.dev.seq.met.filter (fun r => r.ring == ((evp 1 1 100 4 (9 * 2 ^ 32) [8,0,0,0])).arg && r.hostSeq == ((evp 1 1 100 4 (9 * 2 ^ 32) [8,0,0,0])).evSeq)).tail, by unfold Arrives; decide +kernel⟩,
   ⟨packets6, (1 : Fin 4), (evp 1 1 130 5 (9 * 2 ^ 32 + 7 * 2 ^ 12) [0,0,0,0]), ((packets6.dev.eventStarts (evp 1 1 130 5 (9 * 2 ^ 32 + 7 * 2 ^ 12) [0,0,0,0])).head (by decide +kernel)), (packets6.dev.eventStarts (evp 1 1 130 5 (9 * 2 ^ 32 + 7 * 2 ^ 12) [0,0,0,0])).tail, by unfold Arrives; decide +kernel⟩⟩

/-- The hypotheses of the clauses of `Obligations.StampsAreTaken` are met. -/
theorem test_witness_StampsAreTaken :
    (∃ (s : State) (n : Fin 32) (tick : Nat) (code : Nat) (tb : Nat) (rise : Bool) (c : TmuCh), c = s.dev.tmuCh ↑n ∧ tb = max tick s.dev.tmu.tb ∧ s.dev.tmuSelected (↑n) rise = true ∧ s.dev.tmuLive ↑n = true ∧ c.st = tmArmed ∧ s.dev.tbValid = true ∧ s.dev.tmuDiff ↑n = false ∧ (∀ (t : Nat), c.lastAt = some t → t + 20 * 64000 ≤ 64000 * tb + s.dev.rawFine (↑n) code)) ∧
    (∃ (s : State) (n : Fin 32) (tick : Nat) (tb : Nat) (rise : Bool) (c : TmuCh), c = s.dev.tmuCh ↑n ∧ tb = max tick s.dev.tmu.tb ∧ s.dev.tmuSelected (↑n) rise = true ∧ s.dev.tmuLive ↑n = true ∧ c.st = tmSuspended ∧ (c.byReg = true ∨ c.claimRun = true) ∧ s.dev.tmuDiff ↑n = false ∧ (∀ (t : Nat), c.lastAt = some t → t + 20 * 64000 ≤ 64000 * tb)) ∧
    (∃ (s : State) (n : Fin 32) (tick : Nat) (code : Nat) (tb : Nat) (rise : Bool) (c : TmuCh) (t : Nat), c = s.dev.tmuCh ↑n ∧ tb = max tick s.dev.tmu.tb ∧ s.dev.tmuSelected (↑n) rise = true ∧ s.dev.tmuLive ↑n = true ∧ c.st = tmArmed ∧ s.dev.tbValid = true ∧ s.dev.tmuDiff ↑n = false ∧ c.lastAt = some t ∧ 64000 * tb + s.dev.rawFine (↑n) code < t + 20 * 64000) ∧
    (∃ (s : State) (n : Fin 32) (tick : Nat) (tb : Nat) (rise : Bool) (c : TmuCh), c = s.dev.tmuCh ↑n ∧ tb = max tick s.dev.tmu.tb ∧ s.dev.tmuSelected (↑n) rise = true ∧ s.dev.tmuLive ↑n = true ∧ c.st = tmArmed ∧ s.dev.tbValid = true ∧ s.dev.tmuDiff ↑n = true ∧ c.interval = none ∧ c.lastAt = none) ∧
    (∃ (s : State) (n : Fin 32) (tick : Nat) (tb : Nat) (rise : Bool) (c : TmuCh) (o : TmuOpen) (m : Nat), c = s.dev.tmuCh ↑n ∧ tb = max tick s.dev.tmu.tb ∧ s.dev.tmuSelected (↑n) rise = true ∧ s.dev.tmuLive ↑n = true ∧ ↑n % 2 = 1 ∧ c.st = tmPaired ∧ (s.dev.tmuCh (↑n - 1)).st = tmArmed ∧ (s.dev.tmuCh (↑n - 1)).interval = some o ∧ s.dev.tbValid = true ∧ c.lastAt = none ∧ m = BitVec.toNat (s.dev.reg (R.TMU_CH_DIFF_MAX (↑n - 1))) ∧ (m = 0 ∨ tb ≤ o.tick + m)) ∧
    (∃ (s : State) (n : Fin 32) (x : TmuStamp) (rest : List TmuStamp) (dst : Nat) (item : TmuItem), (s.dev.tmuCh ↑n).held = x :: rest ∧ (x.closes = none → dst = ↑n ∧ item = { gap := (s.dev.tmuCh dst).fifoGap, stamp := true, seq := x.seq, tb := x.tb, bytes := x.record ↑n }) ∧ (∀ (o : TmuOpen), x.closes = some o → dst = ↑n - 1 ∧ item = { gap := (s.dev.tmuCh dst).fifoGap, stamp := true, seq := x.seq, tb := x.tb, bytes := differenceRecord dst x.seq (x.time - o.start) o.code x.code false (x.unref || o.unref) x.rise }) ∧ s.dev.tmuRecords dst = true ∧ (s.dev.tmuCh dst).fifo.length < 1024) ∧
    (∃ (s : State) (n : Fin 32) (x : TmuStamp) (rest : List TmuStamp) (dst : Nat) (item : TmuItem), (s.dev.tmuCh ↑n).held = x :: rest ∧ (x.closes = none → dst = ↑n ∧ item = { gap := (s.dev.tmuCh dst).fifoGap, stamp := true, seq := x.seq, tb := x.tb, bytes := x.record ↑n }) ∧ (∀ (o : TmuOpen), x.closes = some o → dst = ↑n - 1 ∧ item = { gap := (s.dev.tmuCh dst).fifoGap, stamp := true, seq := x.seq, tb := x.tb, bytes := differenceRecord dst x.seq (x.time - o.start) o.code x.code false (x.unref || o.unref) x.rise }) ∧ s.dev.tmuRecords dst = true ∧ 1024 ≤ (s.dev.tmuCh dst).fifo.length) ∧
    (∃ (s : State) (n : Fin 32) (x : TmuItem) (rest : List TmuItem) (len : Nat) (wr : Nat) (a : Nat), s.Inv ∧ (s.dev.tmuCh ↑n).fifo = x :: rest ∧ len = 4096 * s.dev.getF (R.TMU_CH_BUF_SIZE ↑n) F.TMU_CH_BUF_SIZE_BUF_4K ∧ wr = BitVec.toNat (s.dev.reg (R.TMU_CH_WR ↑n)) ∧ a = 4096 * BitVec.toNat (s.dev.reg (R.TMU_CH_BUF_BASE ↑n)) + wr ∧ s.dev.tmuFull ↑n = false ∧ gapJoin (s.dev.tmuCh ↑n).bufGap x.gap = none) ∧
    (∃ (s : State) (n : Fin 32) (x : TmuItem) (rest : List TmuItem) (len : Nat) (wr : Nat) (a : Nat) (g : TmuGap), s.Inv ∧ (s.dev.tmuCh ↑n).fifo = x :: rest ∧ len = 4096 * s.dev.getF (R.TMU_CH_BUF_SIZE ↑n) F.TMU_CH_BUF_SIZE_BUF_4K ∧ wr = BitVec.toNat (s.dev.reg (R.TMU_CH_WR ↑n)) ∧ a = 4096 * BitVec.toNat (s.dev.reg (R.TMU_CH_BUF_BASE ↑n)) + wr ∧ s.dev.tmuFull ↑n = false ∧ gapJoin (s.dev.tmuCh ↑n).bufGap x.gap = some g ∧ wr % 16 = 0 ∧ wr < len ∧ x.bytes.length = 16) ∧
    (∃ (s : State) (n : Fin 32) (x : TmuItem) (rest : List TmuItem) (len : Nat) (wr : Nat) (a : Nat), s.Inv ∧ (s.dev.tmuCh ↑n).fifo = x :: rest ∧ len = 4096 * s.dev.getF (R.TMU_CH_BUF_SIZE ↑n) F.TMU_CH_BUF_SIZE_BUF_4K ∧ wr = BitVec.toNat (s.dev.reg (R.TMU_CH_WR ↑n)) ∧ a = 4096 * BitVec.toNat (s.dev.reg (R.TMU_CH_BUF_BASE ↑n)) + wr ∧ s.dev.tmuFull ↑n = true) ∧
    (∃ (s : State) (n : Fin 32) (o : TmuOpen), (s.dev.tmuCh ↑n).interval = some o ∧ BitVec.toNat (s.dev.reg (R.TMU_CH_DIFF_MAX ↑n)) ≠ 0 ∧ s.dev.tmuDiff ↑n = true ∧ (s.dev.tmuCh (↑n + 1)).held = [] ∧ s.dev.tmuRecords ↑n = true ∧ (s.dev.tmuCh ↑n).fifo.length < 1024) ∧
    (∃ (s : State) (n : Fin 32) (o : TmuOpen) (front : List TmuStamp) (last : TmuStamp), (s.dev.tmuCh ↑n).interval = some o ∧ BitVec.toNat (s.dev.reg (R.TMU_CH_DIFF_MAX ↑n)) ≠ 0 ∧ s.dev.tmuDiff ↑n = true ∧ (s.dev.tmuCh (↑n + 1)).held = front ++ [last]) ∧
    (∃ (s : State) (n : Fin 32) (c : TmuCh), c = s.dev.tmuCh ↑n ∧ s.dev.tmuSource ↑n = 3 ∧ (∀ (k : Nat), k < 32 → k ≠ ↑n → s.dev.tmuSource k ≠ 3) ∧ s.dev.tmuSelected (↑n) true = true ∧ s.dev.tmuLive ↑n = true ∧ c.st = tmArmed ∧ s.dev.tbValid = true ∧ s.dev.tmuDiff ↑n = false ∧ c.lastAt = none) :=
  ⟨⟨stampsAreTaken1, (3 : Fin 32), 0, 0, _, false, _, rfl, rfl, by decide +kernel, by decide +kernel, by decide +kernel, by decide +kernel, by decide +kernel, by decide +kernel⟩,
   ⟨stampsAreTaken8, (3 : Fin 32), 0, _, false, _, rfl, rfl, by decide +kernel, by decide +kernel, by decide +kernel, by decide +kernel, by decide +kernel, by decide +kernel⟩,
   ⟨stampsAreTaken3, (3 : Fin 32), 0, 0, _, false, _, 6400000, rfl, rfl, by decide +kernel, by decide +kernel, by decide +kernel, by decide +kernel, by decide +kernel, by decide +kernel, by decide +kernel⟩,
   ⟨stampsAreTaken9, (0 : Fin 32), 0, _, false, _, rfl, rfl, by decide +kernel, by decide +kernel, by decide +kernel, by decide +kernel, by decide +kernel, by decide +kernel, by decide +kernel⟩,
   ⟨stampsAreTaken10, (1 : Fin 32), 0, _, false, _, ⟨5, 6, 7, false⟩, _, rfl, rfl, by decide +kernel, by decide +kernel, by decide +kernel, by decide +kernel, by decide +kernel, by decide +kernel, by decide +kernel, by decide +kernel, rfl, by decide +kernel⟩,
   ⟨stampsAreTaken4, (3 : Fin 32), stamp0, [], 3, _, by decide +kernel, fun _ => ⟨rfl, rfl⟩, fun o h => absurd (show none = some o from h) (by simp), by decide +kernel, by decide +kernel⟩,
   ⟨stampsAreTaken5, (3 : Fin 32), stamp0, [], 3, _, by decide +kernel, fun _ => ⟨rfl, rfl⟩, fun o h => absurd (show none = some o from h) (by simp), by decide +kernel, by decide +kernel⟩,
   ⟨stampsAreTaken5, (3 : Fin 32), (((stampsAreTaken5.dev.tmuCh ↑(3 : Fin 32)).fifo).head (by decide +kernel)), ((stampsAreTaken5.dev.tmuCh ↑(3 : Fin 32)).fifo).tail, 4096, 0, 65536, by unfold State.Inv; decide +kernel⟩,
   ⟨stampsAreTaken12, (3 : Fin 32), item0 true, [], 4096, 0, 65536, ⟨some 2, 1, 0⟩, by unfold State.Inv; decide +kernel⟩,
   ⟨stampsAreTaken6, (3 : Fin 32), (((stampsAreTaken6.dev.tmuCh ↑(3 : Fin 32)).fifo).head (by decide +kernel)), ((stampsAreTaken6.dev.tmuCh ↑(3 : Fin 32)).fifo).tail, 4096, 4080, 69616, by unfold State.Inv; decide +kernel⟩,
   ⟨stampsAreTaken7, (0 : Fin 32), (((stampsAreTaken7.dev.tmuCh ↑(0 : Fin 32)).interval).get (by decide +kernel)), (Option.some_get _).symm, by decide +kernel, by decide +kernel, by decide +kernel, by decide +kernel, by decide +kernel⟩,
   ⟨stampsAreTaken11, (0 : Fin 32), ⟨5, 6, 7, false⟩, [], stamp0, by decide +kernel⟩,
   ⟨stampsAreTaken1, (3 : Fin 32), (stampsAreTaken1.dev.tmuCh ↑(3 : Fin 32)), rfl, by decide +kernel, by decide +kernel, by decide +kernel, by decide +kernel, by decide +kernel, by decide +kernel, by decide +kernel, by decide +kernel⟩⟩

/-- The hypotheses of the clauses of `Obligations.ChannelsAreArmed` are met. -/
theorem test_witness_ChannelsAreArmed :
    (∃ (s : State) (o : Origin) (n : Fin 32) (w : Word), Accepts s.dev o (R.TMU_CH_CTRL ↑n) (setBits w F.TMU_CH_CTRL_ARM 1) ∧ getBits w F.TMU_CH_CTRL_DISARM = 0 ∧ s.dev.armErr ↑n = 0 ∧ s.dev.tmuGroup (↑n / 16) = Dom.on ∧ s.dev.getF (R.TMU_CH_CFG ↑n) F.TMU_CH_CFG_MODE = 0) ∧
    (∃ (s : State) (o : Origin) (n : Fin 32) (w : Word), Accepts s.dev o (R.TMU_CH_CTRL ↑n) (setBits w F.TMU_CH_CTRL_ARM 1) ∧ getBits w F.TMU_CH_CTRL_DISARM = 0 ∧ s.dev.armErr ↑n = 0 ∧ s.dev.tmuGroup (↑n / 16) ≠ Dom.on ∧ s.dev.getF (R.TMU_CH_CFG ↑n) F.TMU_CH_CFG_MODE = 0) ∧
    (∃ (s : State) (o : Origin) (n : Fin 32) (w : Word), Accepts s.dev o (R.TMU_CH_CTRL ↑n) (setBits w F.TMU_CH_CTRL_ARM 1) ∧ getBits w F.TMU_CH_CTRL_DISARM = 0 ∧ s.dev.armErr ↑n ≠ 0) ∧
    (∃ (s : State) (o : Origin) (n : Fin 32) (w : Word), Accepts s.dev o (R.TMU_CH_CTRL ↑n) (setBits w F.TMU_CH_CTRL_DISARM 1) ∧ getBits w F.TMU_CH_CTRL_ARM = 0 ∧ (s.dev.tmuCh ↑n).byReg = true ∧ (s.dev.tmuCh ↑n).calWant = false ∧ (s.dev.tmuClaim ↑n = none ∨ s.dev.tbValid = true)) ∧
    (∃ (s : State) (o : Origin) (w : Word) (n : Nat), Accepts s.dev o R.TMU_CAL_CTRL (setBits w F.TMU_CAL_CTRL_START 1) ∧ s.dev.flag R.TMU_CAL_CTRL F.TMU_CAL_CTRL_BUSY = false ∧ n < 32 ∧ s.dev.bitOf R.TMU_CAL_MASK n = true) ∧
    (∃ (s : State) (n : Fin 32) (counts : List Nat), (s.dev.tmuCh ↑n).st = tmCalibrating ∧ (((List.range 128).any fun i => decide (nth counts i 0 < 2048) || decide (nth counts i 0 > 16384)) = true)) ∧
    (∃ (s : State) (n : Fin 32) (counts : List Nat), (s.dev.tmuCh ↑n).st = tmCalibrating ∧ (((List.range 128).any fun i => decide (nth counts i 0 < 2048) || decide (nth counts i 0 > 16384)) = false)) ∧
    (∃ (s : State) (g : Fin 2), s.dev.tmuGroup ↑g = Dom.waking) :=
  ⟨⟨channelsAreArmed1, .supervisor, (0 : Fin 32), 0, by unfold Accepts; decide +kernel⟩,
   ⟨channelsAreArmed1, .supervisor, (16 : Fin 32), 0, by unfold Accepts; decide +kernel⟩,
   ⟨channelsAreArmed2, .supervisor, (3 : Fin 32), 0, by unfold Accepts; decide +kernel⟩,
   ⟨channelsAreArmed3, .supervisor, (3 : Fin 32), 0, by unfold Accepts; decide +kernel⟩,
   ⟨channelsAreArmed4, .supervisor, 0, 0, by unfold Accepts; decide +kernel⟩,
   ⟨channelsAreArmed5, (3 : Fin 32), [], by decide +kernel⟩,
   ⟨channelsAreArmed5, (3 : Fin 32), (List.replicate 128 8192), by decide +kernel⟩,
   ⟨channelsAreArmed1, (1 : Fin 2), by decide +kernel⟩⟩

/-- The hypotheses of the clauses of `Obligations.Descents` are met. -/
theorem test_witness_Descents :
    (∃ (s : State) (o : Origin), Accepts s.dev o R.EMB_PSTATE_REQ (setBits (0#32) F.EMB_PSTATE_REQ_TARGET 1) ∧ (s.dev.pstate = devGlow ∨ s.dev.pstate = devBlaze) ∧ s.dev.descentRefusal ≠ 0) ∧
    (∃ (s : State) (o : Origin), Accepts s.dev o R.EMB_PSTATE_REQ (setBits (0#32) F.EMB_PSTATE_REQ_TARGET 1) ∧ (s.dev.pstate = devGlow ∨ s.dev.pstate = devBlaze) ∧ s.dev.descentRefusal = 0) ∧
    (∃ (s : State) (o : Origin) (cold : Bool), Accepts s.dev o R.EMB_PSTATE_REQ (setBits (0#32) F.EMB_PSTATE_REQ_COLD (bit cold)) ∧ (s.dev.pstate = devSmoulder ∨ s.dev.pstate = devGlow ∨ s.dev.pstate = devBlaze) ∧ s.dev.descentRefusal = 0) ∧
    (∃ (s : State) (cold : Bool) (target : Nat) (old : Nat), s.dev.power.descent = some (target, cold, old) ∧ s.dev.power.wakePending = false ∧ s.dev.alarmDue = false ∧ target = devSmoulder) ∧
    (∃ (s : State) (cold : Bool) (target : Nat) (old : Nat), s.dev.power.descent = some (target, cold, old) ∧ s.dev.power.wakePending = false ∧ s.dev.alarmDue = false ∧ target = devBanked) :=
  ⟨⟨descents1, .supervisor, by unfold Accepts; decide +kernel⟩,
   ⟨descents2, .supervisor, by unfold Accepts; decide +kernel⟩,
   ⟨descents2, .supervisor, false, by unfold Accepts; decide +kernel⟩,
   ⟨descents3, false, 1, 2, by decide +kernel⟩,
   ⟨descents4, true, 0, 2, by decide +kernel⟩⟩

/-- The hypotheses of the clauses of `Obligations.WakesAndAscents` are met. -/
theorem test_witness_WakesAndAscents :
    (∃ (s : State), s.dev.board.stopped = false ∧ s.dev.bitOf R.EMB_WAKE_CFG wkWakeN = true ∧ (s.dev.getF R.EMB_PSTATE F.EMB_PSTATE_STATE = devSmoulder ∨ s.dev.getF R.EMB_PSTATE F.EMB_PSTATE_STATE = devBanked)) ∧
    (∃ (s : State), s.dev.board.stopped = false ∧ s.dev.bitOf R.EMB_WAKE_CFG wkWakeN = true ∧ s.dev.getF R.EMB_PSTATE F.EMB_PSTATE_STATE = devDescending) ∧
    (∃ (s : State), s.dev.board.stopped = false ∧ s.dev.bitOf R.EMB_WAKE_CFG wkAlarm = true ∧ s.dev.alarmDue = true ∧ (s.dev.getF R.EMB_PSTATE F.EMB_PSTATE_STATE = devSmoulder ∨ s.dev.getF R.EMB_PSTATE F.EMB_PSTATE_STATE = devBanked)) ∧
    (∃ (s : State), Accepts s.dev Origin.supervisor R.EMB_PSTATE_REQ (setBits (0#32) F.EMB_PSTATE_REQ_TARGET 2) ∧ s.dev.board.stopped = false ∧ s.dev.bitOf R.EMB_WAKE_CFG wkRequest = true ∧ s.dev.getF R.EMB_PSTATE F.EMB_PSTATE_STATE = devSmoulder) ∧
    (∃ (s : State), s.dev.power.ascent = some devSmoulder) ∧
    (∃ (s : State), s.dev.power.ascent = some devBanked ∧ s.dev.flag R.EMB_PSTATE F.EMB_PSTATE_COLD = true) ∧
    (∃ (s : State), s.dev.power.restoring = true) ∧
    (∃ (s : State) (from_ : Nat), s.dev.power.ascent = some from_) ∧
    (∃ (s : State) (o : Origin) (w : Word), Accepts s.dev o R.PWR_DOMAIN_CTRL w) :=
  ⟨⟨wakesAndAscents1, by decide +kernel⟩,
   ⟨wakesAndAscents2, by decide +kernel⟩,
   ⟨wakesAndAscents3, by decide +kernel⟩,
   ⟨wakesAndAscents1, by unfold Accepts; decide +kernel⟩,
   ⟨wakesAndAscents4, by decide +kernel⟩,
   ⟨wakesAndAscents5, by decide +kernel⟩,
   ⟨wakesAndAscents6, by decide +kernel⟩,
   ⟨wakesAndAscents4, 1, by decide +kernel⟩,
   ⟨wakesAndAscents1, .supervisor, 1, by unfold Accepts; decide +kernel⟩⟩

/-- The hypotheses of the clauses of `Obligations.SupplySequences` are met. -/
theorem test_witness_SupplySequences :
    (∃ (s : State) (o : Origin) (w : Word) (bad : Bool) (x : SupStep) (rest : List SupStep), Accepts s.dev o R.PWR_SUP_CTRL (setBits w F.PWR_SUP_CTRL_UP 1) ∧ s.dev.supTableBad true = false ∧ s.dev.supTable true = x :: rest ∧ (bad && s.dev.supPmb x.supply) = false) ∧
    (∃ (s : State) (o : Origin) (w : Word) (x : SupStep) (rest : List SupStep), Accepts s.dev o R.PWR_SUP_CTRL (setBits (setBits w F.PWR_SUP_CTRL_UP 0) F.PWR_SUP_CTRL_DOWN 1) ∧ s.dev.supTableBad false = false ∧ s.dev.supTable false = x :: rest) ∧
    (∃ (s : State) (pg : Word) (q : SupSeq) (x : SupStep), s.dev.power.seq = some q ∧ (s.dev.supTable q.up)[q.step]? = some x ∧ q.waitPg = true ∧ tbit (BitVec.toNat pg) x.supply = false) ∧
    (∃ (s : State) (bad : Bool) (q : SupSeq) (x : SupStep) (y : SupStep), s.dev.power.seq = some q ∧ (s.dev.supTable q.up)[q.step]? = some x ∧ q.waitPg = false ∧ q.up = true ∧ (s.dev.supTable true)[q.step + 1]? = some y ∧ (bad && s.dev.supPmb y.supply) = false) ∧
    (∃ (s : State) (q : SupSeq) (x : SupStep), s.dev.power.seq = some q ∧ (s.dev.supTable q.up)[q.step]? = some x ∧ q.waitPg = false ∧ q.pmbErr = none ∧ (s.dev.supTable q.up)[q.step + 1]? = none) ∧
    (∃ (s : State) (q : SupSeq), s.dev.power.seq = some q ∧ q.up = true ∧ q.waitPg = true) ∧
    (∃ (s : State) (n : Fin 32), s.dev.supOn ↑n = true ∧ s.dev.power.seq = none) ∧
    (∃ (s : State) (o : Origin) (w : Word), Accepts s.dev o R.PWR_SUP_READ (setBits w F.PWR_SUP_READ_GO 1)) ∧
    (∃ (s : State), s.Inv ∧ s.dev.banked = false) :=
  ⟨⟨supplySequences1, .supervisor, 0, false, ((supplySequences1.dev.supTable true).head (by decide +kernel)), (supplySequences1.dev.supTable true).tail, by unfold Accepts; decide +kernel⟩,
   ⟨supplySequences1, .supervisor, 0, ((supplySequences1.dev.supTable false).head (by decide +kernel)), (supplySequences1.dev.supTable false).tail, by unfold Accepts; decide +kernel⟩,
   ⟨supplySequences2, 0, ((supplySequences2.dev.power.seq).get (by decide +kernel)), (((supplySequences2.dev.supTable ((supplySequences2.dev.power.seq).get (by decide +kernel)).up)[((supplySequences2.dev.power.seq).get (by decide +kernel)).step]?).get (by decide +kernel)), (Option.some_get _).symm, (Option.some_get _).symm, by decide +kernel, by decide +kernel⟩,
   ⟨supplySequences3, false, ((supplySequences3.dev.power.seq).get (by decide +kernel)), (((supplySequences3.dev.supTable ((supplySequences3.dev.power.seq).get (by decide +kernel)).up)[((supplySequences3.dev.power.seq).get (by decide +kernel)).step]?).get (by decide +kernel)), (((supplySequences3.dev.supTable true)[((supplySequences3.dev.power.seq).get (by decide +kernel)).step + 1]?).get (by decide +kernel)), (Option.some_get _).symm, (Option.some_get _).symm, by decide +kernel, by decide +kernel, (Option.some_get _).symm, by decide +kernel⟩,
   ⟨supplySequences4, ((supplySequences4.dev.power.seq).get (by decide +kernel)), (((supplySequences4.dev.supTable ((supplySequences4.dev.power.seq).get (by decide +kernel)).up)[((supplySequences4.dev.power.seq).get (by decide +kernel)).step]?).get (by decide +kernel)), (Option.some_get _).symm, (Option.some_get _).symm, by decide +kernel, by decide +kernel, by decide +kernel⟩,
   ⟨supplySequences2, ((supplySequences2.dev.power.seq).get (by decide +kernel)), (Option.some_get _).symm, by decide +kernel, by decide +kernel⟩,
   ⟨supplySequences5, (3 : Fin 32), by decide +kernel⟩,
   ⟨supplySequences1, .supervisor, 0, by unfold Accepts; decide +kernel⟩,
   ⟨supplySequences1, by unfold State.Inv; decide +kernel⟩⟩

/-- The hypotheses of the clauses of `Obligations.DramController` are met. -/
theorem test_witness_DramController :
    (∃ (s : State) (c : Fin 8) (rt : Bool), s.dev.dramState ↑c = dsActive ∧ (rt = true ∨ (s.dev.dramCh ↑c).realTime = true) ∧ s.dev.postponed ↑c < s.dev.allow ↑c) ∧
    (∃ (s : State) (c : Fin 8) (rt : Bool), s.dev.dramState ↑c = dsActive ∧ (rt = true ∨ (s.dev.dramCh ↑c).realTime = true) ∧ s.dev.allow ↑c ≤ s.dev.postponed ↑c) ∧
    (∃ (s : State) (c : Fin 8), s.dev.dramState ↑c = dsParked) ∧
    (∃ (s : State) (c : Fin 8), s.Inv ∧ (s.dev.dramCh ↑c).realTime = true) ∧
    (∃ (s : State) (c : Fin 8), s.dev.dramState ↑c = dsActive ∧ 0 < s.dev.postponed ↑c ∧ (s.dev.dramCh ↑c).realTime = false) ∧
    (∃ (s : State) (c : Fin 8), s.dev.dramState ↑c = dsActive ∧ s.dev.postponed ↑c = 0) ∧
    (∃ (s : State) (c : Fin 8), s.dev.dramState ↑c ≠ dsOff) ∧
    (∃ (s : State) (c : Fin 8) (line : Nat) (a : Nat), line = (s.dev.dramCh ↑c).scrub ∧ a = s.dev.dramLine (↑c) line ∧ s.dev.flag R.DMC_SCRUB F.DMC_SCRUB_ENABLE = true ∧ s.dev.dramState ↑c = dsActive) ∧
    (∃ (s : State) (c : Fin 8) (line : Nat) (a : Nat), line = (s.dev.dramCh ↑c).scrub ∧ a = s.dev.dramLine (↑c) line ∧ s.Inv ∧ (s.dev.flag R.DMC_SCRUB F.DMC_SCRUB_ENABLE = false ∨ s.dev.dramState ↑c ≠ dsActive)) ∧
    (∃ (s : State) (c : Fin 8) (arrivals : List DramReq) (d : Dev), d = List.foldl (fun d q => d.dramArrive q) s.dev arrivals ∧ (s.dev.dramState ↑c ≠ dsActive ∨ (d.dramCh ↑c).reqs = [])) ∧
    (∃ (s : State) (c : Fin 8) (arrivals : List DramReq) (now : Nat) (d : Dev) (w : DramWait) (l : List DramWait) (v : DramWait), d = List.foldl (fun d q => d.dramArrive q) s.dev arrivals ∧ s.dev.dramState ↑c = dsActive ∧ d.dramNext (↑c) now = some w ∧ l = dramEligible [] (d.dramCh ↑c).reqs ∧ v ∈ l) ∧
    (∃ (s : State) (bytes : List Nat) (busy : List Nat) (total : Nat) (hot : Nat → Prop), total = (List.map (fun c => nth bytes c 0) (List.range 8)).sum ∧ (∀ (c : Nat), hot c ↔ s.dev.getF R.DMC_HOT_CFG F.DMC_HOT_CFG_THRESH * total < 256 * nth bytes c 0 ∧ 1000 * s.dev.getF R.DMC_HOT_CFG F.DMC_HOT_CFG_WINDOW_US < 2 * nth busy c 0)) :=
  ⟨⟨dramController1, (0 : Fin 8), true, by decide +kernel⟩,
   ⟨dramController2, (0 : Fin 8), true, by decide +kernel⟩,
   ⟨dramController3, (0 : Fin 8), by decide +kernel⟩,
   ⟨dramController4, (0 : Fin 8), by unfold State.Inv; decide +kernel⟩,
   ⟨dramController2, (0 : Fin 8), by decide +kernel⟩,
   ⟨dramController1, (0 : Fin 8), by decide +kernel⟩,
   ⟨dramController1, (0 : Fin 8), by decide +kernel⟩,
   ⟨dramController1, (0 : Fin 8), _, _, rfl, rfl, by decide +kernel, by decide +kernel⟩,
   ⟨st id, (0 : Fin 8), _, _, rfl, rfl, by unfold State.Inv; decide +kernel, by decide +kernel⟩,
   ⟨dramController1, (0 : Fin 8), [], _, rfl, by decide +kernel⟩,
   ⟨dramController4, (0 : Fin 8), [], 1000, _, ⟨req0, 4100⟩, _, ⟨req0, 4100⟩, rfl, by decide +kernel, by decide +kernel, rfl, by decide +kernel⟩,
   ⟨dramController1, List.replicate 8 5, List.replicate 8 9, _, fun c => dramController1.dev.getF R.DMC_HOT_CFG F.DMC_HOT_CFG_THRESH * ((List.range 8).map (fun c => nth (List.replicate 8 5) c 0)).sum < 256 * nth (List.replicate 8 5) c 0 ∧ 1000 * dramController1.dev.getF R.DMC_HOT_CFG F.DMC_HOT_CFG_WINDOW_US < 2 * nth (List.replicate 8 9) c 0, rfl, fun _ => Iff.rfl⟩⟩

/-- The hypotheses of the clauses of `Obligations.RefusedAccesses` are met. -/
theorem test_witness_RefusedAccesses :
    (∃ (s : State) (o : Origin) (off : Nat) (v : Nat) (k : Nat), s.dev.board.stopped = false ∧ off < regSize ∧ s.dev.judgeWrite o.id off (BitVec.ofNat 32 v) = some k) ∧
    (∃ (s : State) (o : Origin) (off : Nat) (v : Nat), s.Inv ∧ off < regSize ∧ s.dev.judgeWrite o.id off (BitVec.ofNat 32 v) = none ∧ regRow (regCanon off) = none) ∧
    (∃ (s : State) (a : Nat) (size : Nat), s.dev.board.stopped = false ∧ regBase ≤ a ∧ a < regBase + regSize ∧ size ≠ 4) ∧
    (∃ (s : State) (o : Origin) (a : Nat) (size : Nat) (k : Nat), s.dev.board.stopped = false ∧ (¬(regBase ≤ a ∧ a < regBase + regSize)) ∧ s.dev.memRefusal o.id a size true = some k) ∧
    (∃ (s : State) (o : Origin) (a : Nat) (size : Nat), s.Inv ∧ s.dev.board.stopped = false ∧ Unwatched s.dev a size ∧ (¬(regBase ≤ a ∧ a < regBase + regSize)) ∧ s.dev.memRefusal o.id a size true = none) ∧
    (∃ (s : State), s.Inv ∧ s.dev.board.stopped = true) :=
  ⟨⟨refusedAccesses1, .supervisor, 1, 0, 1, by decide +kernel⟩,
   ⟨refusedAccesses1, .supervisor, 0x200, 0, by unfold State.Inv; decide +kernel⟩,
   ⟨refusedAccesses1, (regBase + 16), 0, by decide +kernel⟩,
   ⟨refusedAccesses1, .supervisor, 0, (regBase + 16), 2, by decide +kernel⟩,
   ⟨refusedAccesses1, .supervisor, 0, 8, by unfold Unwatched State.Inv; decide +kernel⟩,
   ⟨refusedAccesses2, by unfold State.Inv; decide +kernel⟩⟩

def calibrationNoRef : State :=
  { calibrationProcedures3 with dev := { calibrationProcedures3.dev with board := { calibrationProcedures3.dev.board with refPresent := false } } }

/-- The hypotheses of the clauses of `Obligations.CalibrationProcedures` are met. -/
theorem test_witness_CalibrationProcedures :
    (∃ (s : State) (o : Origin) (hearths : Nat) (p : Nat) (c : Instr) (h : Nat), (c, p) ∈ [(Instr.linearity o hearths, 1), (Instr.levels o hearths, 2), (Instr.deskew o hearths, 3)] ∧ Accepts s.dev o R.CAL_PROC (setBits (setBits (setBits (0#32) F.CAL_PROC_PROC p) F.CAL_PROC_HEARTHS hearths) F.CAL_PROC_GO 1) ∧ hearths % 2 ^ 16 ≠ 0 ∧ (List.find? (fun h => (List.range 8).any fun k => s.dev.policy (8 * h + k) == polOff) (bitList hearths 16) = some h)) ∧
    (∃ (s : State) (o : Origin) (hearths : Nat) (p : Nat) (c : Instr), (c, p) ∈ [(Instr.linearity o hearths, 1), (Instr.levels o hearths, 2), (Instr.deskew o hearths, 3)] ∧ Accepts s.dev o R.CAL_PROC (setBits (setBits (setBits (0#32) F.CAL_PROC_PROC p) F.CAL_PROC_HEARTHS hearths) F.CAL_PROC_GO 1) ∧ hearths % 2 ^ 16 ≠ 0 ∧ (((bitList hearths 16).any fun h => (List.range 8).any fun k => s.dev.policy (8 * h + k) == polOff) = false) ∧ (∀ (h : Nat), h ∈ bitList hearths 16 → s.dev.procBar p h = none)) ∧
    (∃ (s : State) (h : Fin 16) (p : CalProc) (x : Nat × Nat), s.dev.cal.proc = some p ∧ List.find? (fun y => y.fst == ↑h) p.running = some x ∧ (p.proc = 2 ∨ s.dev.board.refPresent = true)) ∧
    (∃ (s : State) (h : Fin 16) (p : CalProc) (x : Nat × Nat), s.dev.cal.proc = some p ∧ List.find? (fun y => y.fst == ↑h) p.running = some x ∧ p.proc ≠ 2 ∧ s.dev.board.refPresent = false ∧ s.dev.getF R.CAL_PROC_STATUS F.CAL_PROC_STATUS_OUTCOME = 0) :=
  ⟨⟨calibrationProcedures1, .supervisor, 1, 1, (Instr.linearity .supervisor 1), 0, by unfold Accepts; decide +kernel⟩,
   ⟨calibrationProcedures2, .supervisor, 1, 1, (Instr.linearity .supervisor 1), by unfold Accepts; decide +kernel⟩,
   ⟨calibrationProcedures3, (3 : Fin 16), ((calibrationProcedures3.dev.cal.proc).get (by decide +kernel)), ((List.find? (fun y ↦ y.fst == ↑(3 : Fin 16)) ((calibrationProcedures3.dev.cal.proc).get (by decide +kernel)).running).get (by decide +kernel)), (Option.some_get _).symm, (Option.some_get _).symm, by decide +kernel⟩,
   ⟨calibrationNoRef, (3 : Fin 16), ((calibrationNoRef.dev.cal.proc).get (by decide +kernel)), ((List.find? (fun y ↦ y.fst == ↑(3 : Fin 16)) ((calibrationNoRef.dev.cal.proc).get (by decide +kernel)).running).get (by decide +kernel)), (Option.some_get _).symm, (Option.some_get _).symm, by decide +kernel, by decide +kernel, by decide +kernel⟩⟩

def deviceTimeSynced : State := { deviceTimeRuns2 with dev := tm (fun t => { t with syncs := [[1, 2, 3], [0, 0, 0]] }) deviceTimeRuns2.dev }

/-- The hypotheses of the clauses of `Obligations.DeviceTimeRuns` are met. -/
theorem test_witness_DeviceTimeRuns :
    (∃ (s : State) (v : Nat) (q : Nat) (a : Int), s.dev.banked = false ∧ v = s.dev.time.incPend.getD s.dev.time.inc ∧ a = List.foldl (fun x1 x2 => x1 + x2) 0 s.dev.time.adjPend ∧ (s.dev.bypassSrc pllFabric = 0 ∧ q = v ∨ s.dev.bypassSrc pllFabric = 1 ∧ 2 * q = 5 * v ∨ s.dev.bypassSrc pllFabric = 2 ∧ q = 5 * v) ∧ s.dev.time.setPend = none ∧ s.dev.time.ns < 10 ^ 9 ∧ s.dev.time.frac < 2 ^ 32 ∧ s.dev.time.units + q < 2 ^ 48 * secUnits ∧ 0 ≤ ↑s.dev.time.units + ↑q + a * 2 ^ 32 ∧ ↑s.dev.time.units + ↑q + a * 2 ^ 32 < 2 ^ 48 * ↑secUnits) ∧
    (∃ (s : State) (v : Nat), s.dev.banked = false ∧ s.dev.time.setPend = some v ∧ s.dev.time.adjPend = [] ∧ v < 2 ^ 48) ∧
    (∃ (s : State) (o : Origin) (w : Word), Accepts s.dev o R.MGT_TIME_INC_HI w ∧ s.dev.time.master ∈ s.dev.time.syncs ∧ s.dev.onOsc = false) ∧
    (∃ (s : State) (o : Origin) (w : Word), Accepts s.dev o R.MGT_TIME_ADJ w) ∧
    (∃ (s : State) (o : Origin) (w : Word), Accepts s.dev o R.MGT_TIME_SET_SEC_HI w) ∧
    (∃ (s : State) (o : Origin) (w : Word) (m : List Nat), Accepts s.dev o (R.MGT_PTP_MASTER 2) w ∧ m = [BitVec.toNat (s.dev.reg (R.MGT_PTP_MASTER 0)), BitVec.toNat (s.dev.reg (R.MGT_PTP_MASTER 1)), BitVec.toNat w % 65536]) :=
  ⟨⟨timeRuns, 5 * 2 ^ 30, 5 * 2 ^ 30, 2, by decide +kernel⟩,
   ⟨deviceTimeRuns1, 12884901893, by decide +kernel⟩,
   ⟨deviceTimeSynced, .supervisor, 4, by unfold Accepts; decide +kernel⟩,
   ⟨deviceTimeRuns2, .supervisor, 0, by unfold Accepts; decide +kernel⟩,
   ⟨deviceTimeRuns2, .supervisor, 0, by unfold Accepts; decide +kernel⟩,
   ⟨deviceTimeRuns2, .supervisor, 0, [0, 0, 0], by unfold Accepts; decide +kernel⟩⟩

/-- The hypotheses of the clauses of `Obligations.ManagementPorts` are met. -/
theorem test_witness_ManagementPorts :
    (∃ (s : State) (p : Fin 2) (tx : Bool) (m : PtpMsg) (delta : Int) (now : Int) (f : List PtpStamp) (seen : List (List Nat)), f = mapGet s.dev.time.tsFifo ↑p [] ∧ now = (((s.dev.time.secs * 10 ^ 9 + s.dev.time.ns) * 65536 + s.dev.time.frac / 65536 : Nat) : Int) + max (-262144) (min 262144 delta) ∧ 0 ≤ now ∧ now < 2 ^ 48 * 10 ^ 9 * 65536 ∧ seen = (if tx = false ∧ m.type = 0 ∧ m.source ∉ s.dev.time.syncs then s.dev.time.syncs ++ [m.source] else s.dev.time.syncs) ∧ m.domain = s.dev.getF R.MGT_PTP_CFG F.MGT_PTP_CFG_DOMAIN ∧ m.type ≤ 1 ∧ f.length < 16) ∧
    (∃ (s : State) (p : Fin 2) (tx : Bool) (m : PtpMsg) (delta : Int) (now : Int) (f : List PtpStamp) (seen : List (List Nat)), f = mapGet s.dev.time.tsFifo ↑p [] ∧ now = (((s.dev.time.secs * 10 ^ 9 + s.dev.time.ns) * 65536 + s.dev.time.frac / 65536 : Nat) : Int) + max (-262144) (min 262144 delta) ∧ 0 ≤ now ∧ now < 2 ^ 48 * 10 ^ 9 * 65536 ∧ seen = (if tx = false ∧ m.type = 0 ∧ m.source ∉ s.dev.time.syncs then s.dev.time.syncs ++ [m.source] else s.dev.time.syncs) ∧ m.domain = s.dev.getF R.MGT_PTP_CFG F.MGT_PTP_CFG_DOMAIN ∧ m.type ≤ 1 ∧ 16 ≤ f.length) ∧
    (∃ (s : State) (p : Fin 2) (tx : Bool) (m : PtpMsg) (delta : Int) (now : Int) (f : List PtpStamp) (seen : List (List Nat)), f = mapGet s.dev.time.tsFifo ↑p [] ∧ now = (((s.dev.time.secs * 10 ^ 9 + s.dev.time.ns) * 65536 + s.dev.time.frac / 65536 : Nat) : Int) + max (-262144) (min 262144 delta) ∧ 0 ≤ now ∧ now < 2 ^ 48 * 10 ^ 9 * 65536 ∧ seen = (if tx = false ∧ m.type = 0 ∧ m.source ∉ s.dev.time.syncs then s.dev.time.syncs ++ [m.source] else s.dev.time.syncs) ∧ s.Inv ∧ (m.domain ≠ s.dev.getF R.MGT_PTP_CFG F.MGT_PTP_CFG_DOMAIN ∨ 1 < m.type)) ∧
    (∃ (s : State) (o : Origin) (p : Fin 2) (x : PtpStamp) (t : List PtpStamp), Grants s.dev o (R.MGT_TS_INFO ↑p) ∧ mapGet s.dev.time.tsFifo ↑p [] = x :: t) ∧
    (∃ (s : State) (o : Origin) (p : Fin 2), Grants s.dev o (R.MGT_TS_INFO ↑p) ∧ mapGet s.dev.time.tsFifo ↑p [] = []) ∧
    (∃ (s : State) (p : Fin 2) (bytes : List Byte) (ok : Bool) (dest : Nat) (group : Bool), s.Inv ∧ dest = natBE (slice bytes 0 6) ∧ group = (fieldAt bytes 0 1 % 2 == 1) ∧ (ok = false ∨ 1518 < bytes.length ∨ s.dev.banked = true ∨ s.dev.mgtUp ↑p = false)) ∧
    (∃ (s : State) (p : Fin 2) (bytes : List Byte) (ok : Bool) (dest : Nat) (group : Bool), s.Inv ∧ dest = natBE (slice bytes 0 6) ∧ group = (fieldAt bytes 0 1 % 2 == 1) ∧ ok = true ∧ bytes.length ≤ 1518 ∧ s.dev.banked = false ∧ s.dev.mgtUp ↑p = true ∧ dest = s.dev.portMac ↑p) ∧
    (∃ (s : State) (p : Fin 2) (bytes : List Byte) (ok : Bool) (dest : Nat) (group : Bool), s.Inv ∧ dest = natBE (slice bytes 0 6) ∧ group = (fieldAt bytes 0 1 % 2 == 1) ∧ ok = true ∧ bytes.length ≤ 1518 ∧ s.dev.banked = false ∧ s.dev.mgtUp ↑p = true ∧ dest ≠ s.dev.portMac ↑p ∧ s.dev.mgtForwards ↑p = false) ∧
    (∃ (s : State) (p : Fin 2) (bytes : List Byte) (ok : Bool) (dest : Nat) (group : Bool), s.Inv ∧ dest = natBE (slice bytes 0 6) ∧ group = (fieldAt bytes 0 1 % 2 == 1) ∧ ok = true ∧ bytes.length ≤ 1518 ∧ s.dev.banked = false ∧ s.dev.mgtUp ↑p = true ∧ dest ≠ s.dev.portMac ↑p ∧ s.dev.mgtForwards ↑p = true) :=
  ⟨⟨managementPorts1, (0 : Fin 2), true, ⟨0, 0, 5, []⟩, 9, _, _, _, rfl, rfl, by decide +kernel, by decide +kernel, rfl, by decide +kernel, by decide +kernel, by decide +kernel⟩,
   ⟨managementPorts2, (1 : Fin 2), false, ⟨0, 0, 5, []⟩, 0, _, _, _, rfl, rfl, by decide +kernel, by decide +kernel, rfl, by decide +kernel, by decide +kernel, by decide +kernel⟩,
   ⟨managementPorts1, (0 : Fin 2), true, ⟨3, 1, 7, []⟩, 9, _, _, _, rfl, rfl, by decide +kernel, by decide +kernel, rfl, by unfold State.Inv; decide +kernel, by decide +kernel⟩,
   ⟨managementPorts2, .supervisor, (0 : Fin 2), ((mapGet managementPorts2.dev.time.tsFifo ↑(0 : Fin 2) []).head (by decide +kernel)), (mapGet managementPorts2.dev.time.tsFifo ↑(0 : Fin 2) []).tail, by unfold Grants; decide +kernel⟩,
   ⟨managementPorts1, .supervisor, (0 : Fin 2), by unfold Grants; decide +kernel⟩,
   ⟨managementPorts1, (0 : Fin 2), [], false, 0, false, by unfold State.Inv; decide +kernel⟩,
   ⟨managementPorts3, (0 : Fin 2), [0, 0, 0, 0, 0, 2] ++ by3, true, 2, false, by unfold State.Inv; decide +kernel⟩,
   ⟨managementPorts3, (0 : Fin 2), [], true, 0, false, by unfold State.Inv; decide +kernel⟩,
   ⟨managementPorts4, (0 : Fin 2), [], true, 0, false, by unfold State.Inv; decide +kernel⟩⟩

/-- The hypotheses of the clauses of `Obligations.LedgerIsKept` are met. -/
theorem test_witness_LedgerIsKept :
    (∃ (s : State) (o : Origin) (w : Word) (k : Nat), Accepts s.dev o R.LDG_SERVICE (setBits w F.LDG_SERVICE_GO 1) ∧ k = getBits w F.LDG_SERVICE_INDEX ∧ k < 144) ∧
    (∃ (s : State) (o : Origin) (w : Word) (k : Nat), Accepts s.dev o R.LDG_SERVICE (setBits w F.LDG_SERVICE_GO 1) ∧ k = getBits w F.LDG_SERVICE_INDEX ∧ 144 ≤ k) ∧
    (∃ (s : State), s.dev.banked = false ∧ s.dev.time.ckptIn = 0) ∧
    (∃ (s : State), s.dev.banked = false ∧ s.Inv ∧ s.dev.time.ckptIn ≠ 0) :=
  ⟨⟨ledgerIsKept1, .supervisor, 0, 0, by unfold Accepts; decide +kernel⟩,
   ⟨ledgerIsKept1, .supervisor, 144, 144, by unfold Accepts; decide +kernel⟩,
   ⟨ledgerIsKept2, by decide +kernel⟩,
   ⟨ledgerIsKept1, by unfold State.Inv; decide +kernel⟩⟩

/-- The hypotheses of the clauses of `Obligations.AuditLogIsKept` are met. -/
theorem test_witness_AuditLogIsKept :
    (∃ (s : State) (n : Nat) (h : List Byte) (t : List (Nat × List Byte)), s.Inv ∧ s.dev.audit.heads = (n, h) :: t) ∧
    (∃ (s : State) (o : Origin) (w : Word) (i : Nat) (bs : List Byte), Accepts s.dev o R.AUD_RD_CTRL (setBits w F.AUD_RD_CTRL_GO 1) ∧ i = BitVec.toNat (s.dev.reg R.AUD_RD_INDEX_LO) + 2 ^ 32 * BitVec.toNat (s.dev.reg R.AUD_RD_INDEX_HI) ∧ getBits w F.AUD_RD_CTRL_CHECKPOINT = 0 ∧ mapFind s.dev.audit.flash i = some bs) ∧
    (∃ (s : State) (o : Origin) (w : Word) (i : Nat) (bs : List Byte), Accepts s.dev o R.AUD_RD_CTRL (setBits w F.AUD_RD_CTRL_GO 1) ∧ i = BitVec.toNat (s.dev.reg R.AUD_RD_INDEX_LO) + 2 ^ 32 * BitVec.toNat (s.dev.reg R.AUD_RD_INDEX_HI) ∧ getBits w F.AUD_RD_CTRL_CHECKPOINT = 0 ∧ mapFind s.dev.audit.flash i = none ∧ mapFind s.dev.audit.buffer i = some bs) ∧
    (∃ (s : State) (o : Origin) (w : Word) (i : Nat), Accepts s.dev o R.AUD_RD_CTRL (setBits w F.AUD_RD_CTRL_GO 1) ∧ i = BitVec.toNat (s.dev.reg R.AUD_RD_INDEX_LO) + 2 ^ 32 * BitVec.toNat (s.dev.reg R.AUD_RD_INDEX_HI) ∧ getBits w F.AUD_RD_CTRL_CHECKPOINT = 0 ∧ mapFind s.dev.audit.flash i = none ∧ mapFind s.dev.audit.buffer i = none ∧ (i < s.dev.audit.count ∨ s.dev.audit.count + 2 * s.dev.audit.folding.length + 2 ≤ i)) ∧
    (∃ (s : State) (o : Origin) (w : Word) (i : Nat) (bs : List Byte), Accepts s.dev o R.AUD_RD_CTRL (setBits w F.AUD_RD_CTRL_GO 1) ∧ i = BitVec.toNat (s.dev.reg R.AUD_RD_INDEX_LO) + 2 ^ 32 * BitVec.toNat (s.dev.reg R.AUD_RD_INDEX_HI) ∧ getBits w F.AUD_RD_CTRL_CHECKPOINT = 1 ∧ mapFind s.dev.audit.ckpts i = some bs) ∧
    (∃ (s : State) (o : Origin) (w : Word) (i : Nat), Accepts s.dev o R.AUD_RD_CTRL (setBits w F.AUD_RD_CTRL_GO 1) ∧ i = BitVec.toNat (s.dev.reg R.AUD_RD_INDEX_LO) + 2 ^ 32 * BitVec.toNat (s.dev.reg R.AUD_RD_INDEX_HI) ∧ getBits w F.AUD_RD_CTRL_CHECKPOINT = 1 ∧ mapFind s.dev.audit.ckpts i = none) ∧
    (∃ (s : State) (o : Origin) (b : Option (Fin 32)) (w : Word) (off : Nat), (off = match b with | some i => R.AUD_PERM_REG ↑i | none => R.AUD_PERM_DESC) ∧ s.Inv ∧ Accepts s.dev o off w) ∧
    (∃ (s : State) (o : Origin) (b : Option (Fin 32)) (off : Nat), (off = match b with | some i => R.AUD_PERM_REG ↑i | none => R.AUD_PERM_DESC) ∧ (o ≠ Origin.supervisor ∧ o ≠ Origin.factory ∨ s.dev.flag R.AUD_PERM_DESC F.AUD_PERM_DESC_LOCK = true)) :=
  ⟨⟨auditLogIsKept1, 4096, ((auditLogIsKept1.dev.audit.heads).head (by decide +kernel)).2, (auditLogIsKept1.dev.audit.heads).tail, by unfold State.Inv; decide +kernel⟩,
   ⟨auditLogIsKept1, .supervisor, 0, 0, ((mapFind auditLogIsKept1.dev.audit.flash 0).get (by decide +kernel)), by unfold Accepts; decide +kernel, by decide +kernel, by decide +kernel, (Option.some_get _).symm⟩,
   ⟨auditLogIsKept2, .supervisor, 0, 1, ((mapFind auditLogIsKept2.dev.audit.buffer 1).get (by decide +kernel)), by unfold Accepts; decide +kernel, by decide +kernel, by decide +kernel, by decide +kernel, (Option.some_get _).symm⟩,
   ⟨auditLogIsKept3, .supervisor, 0, 0, by unfold Accepts; decide +kernel⟩,
   ⟨auditLogIsKept1, .supervisor, 1, 0, ((mapFind auditLogIsKept1.dev.audit.ckpts 0).get (by decide +kernel)), by unfold Accepts; decide +kernel, by decide +kernel, by decide +kernel, (Option.some_get _).symm⟩,
   ⟨auditLogIsKept4, .supervisor, 1, 0, by unfold Accepts; decide +kernel⟩,
   ⟨auditLogIsKept4, .supervisor, none, 0, 950912, by unfold Accepts State.Inv; decide +kernel⟩,
   ⟨auditLogIsKept4, (.user 3), none, 950912, by decide +kernel⟩⟩

/-- The hypotheses of the clauses of `Obligations.SecurityOperations` are met. -/
theorem test_witness_SecurityOperations :
    (∃ (s : State) (o : Origin) (arg : Nat), Accepts s.dev o R.SEC_CTRL (secWord 1 arg) ∧ s.Inv ∧ s.dev.inHost s.dev.secAddr 544 = true) ∧
    (∃ (s : State) (o : Origin) (arg : Nat), Accepts s.dev o R.SEC_CTRL (secWord 1 arg) ∧ s.dev.inHost s.dev.secAddr 544 = false) ∧
    (∃ (s : State) (o : Origin) (arg : Nat), Accepts s.dev o R.SEC_CTRL (secWord 2 arg)) ∧
    (∃ (s : State) (o : Origin) (arg : Nat), Accepts s.dev o R.SEC_CTRL (secWord 3 arg)) ∧
    (∃ (s : State) (o : Origin) (arg : Nat), Accepts s.dev o R.SEC_CTRL (secWord 4 arg) ∧ s.dev.board.otp.customerKey (arg % 4) = none) ∧
    (∃ (s : State) (o : Origin) (arg : Nat), Accepts s.dev o R.SEC_CTRL (secWord 4 arg) ∧ s.dev.board.otp.customerKey (arg % 4) ≠ none) ∧
    (∃ (s : State) (o : Origin) (arg : Nat), Accepts s.dev o R.SEC_CTRL (secWord 5 arg) ∧ ((s.dev.board.running.any fun r => 4 * r.signer + r.key == arg % 8) = true)) ∧
    (∃ (s : State) (o : Origin) (arg : Nat), Accepts s.dev o R.SEC_CTRL (secWord 5 arg) ∧ ((s.dev.board.running.any fun r => 4 * r.signer + r.key == arg % 8) = false)) ∧
    (∃ (s : State) (o : Origin) (arg : Nat), Accepts s.dev o R.SEC_CTRL (secWord 6 arg) ∧ s.dev.banked = false ∧ ((s.dev.faults.douses.any fun x => x.scope == allChannels) = false)) ∧
    (∃ (s : State) (o : Origin) (arg : Nat), Accepts s.dev o R.SEC_CTRL (secWord 6 arg) ∧ s.dev.banked = false ∧ ((s.dev.faults.douses.any fun x => x.scope == allChannels) = true)) ∧
    (∃ (s : State) (o : Origin) (arg : Nat), Accepts s.dev o R.SEC_CTRL (secWord 6 arg) ∧ s.dev.banked = true) :=
  ⟨⟨securityOperations1, .supervisor, 0, by unfold Accepts State.Inv; decide +kernel⟩,
   ⟨securityOperations2, .supervisor, 0, by unfold Accepts; decide +kernel⟩,
   ⟨securityOperations1, .supervisor, 0, by unfold Accepts; decide +kernel⟩,
   ⟨securityOperations1, .supervisor, 0, by unfold Accepts; decide +kernel⟩,
   ⟨securityOperations1, .supervisor, 0, by unfold Accepts; decide +kernel⟩,
   ⟨securityOperations3, .supervisor, 1, by unfold Accepts; decide +kernel⟩,
   ⟨securityOperations2, .supervisor, 0, by unfold Accepts; decide +kernel⟩,
   ⟨securityOperations1, .supervisor, 0, by unfold Accepts; decide +kernel⟩,
   ⟨securityOperations1, .supervisor, 0, by unfold Accepts; decide +kernel⟩,
   ⟨securityOperations4, .supervisor, 0, by unfold Accepts; decide +kernel⟩,
   ⟨securityOperations5, .supervisor, 0, by unfold Accepts; decide +kernel⟩⟩

/-! ### Well-formedness: one ill-formed command for each check -/

/-- What kindling meets, well formed with strap 0 to 3, a temperature of 16 bits, 32 rows of counts and exponent bytes. -/
def envOf (strap fail temp : Nat) (counts : List (List Nat)) (exps : List (Nat × Nat)) : KindleEnv := { kenv strap with dramFail := fail, counts := counts, temp := temp, voutExp := exps }
def counts0 : List (List Nat) := List.replicate 32 (List.replicate 128 0)
def llkOf (port dest src version seq arg serial : Nat) : LlkFrame := ⟨port, dest, src, version, seq, arg, serial, 0⟩
def pktOf (type dest src tag be arg addr : Nat) (pl : List Nat) : Packet := ⟨type, dest, src, tag, be, arg, addr, pl⟩

theorem test_wf_refuses_board : ([.powerOn (envOf 4 2 400 counts0 []), .powerOn (envOf 0 256 400 counts0 []), .powerOn (envOf 0 2 65536 counts0 []),
    .powerOn (envOf 0 2 400 [] []), .powerOn (envOf 0 2 400 (List.replicate 32 [1]) []), .powerOn (envOf 0 2 400 counts0 [(32, 0)]),
    .powerOn (envOf 0 2 400 counts0 [(0, 256)]), .deviceResetAfterDouse (envOf 4 2 400 counts0 []), .faultLineAssert [], .faultLineAssert [(22, 0)],
    .faultLineAssert [(0, 65536)], .douseSupplyStep [32], .bypass 256, .leloiskDiscard (llkOf 0 0 0 1 0 0 0) 256,
    .leloiskWake (llkOf 2 0 0 1 0 0 0), .leloiskDouse (llkOf 0 (2 ^ 48) 0 1 0 0 0), .readFault (llkOf 0 0 (2 ^ 48) 1 0 0 0),
    .readLedger (llkOf 0 0 0 256 0 0 0), .leloiskWake (llkOf 0 0 0 1 65536 0 0), .leloiskWake (llkOf 0 0 0 1 0 (2 ^ 32) 0),
    .leloiskWake (llkOf 0 0 0 1 0 0 (2 ^ 64))] : List Instr).all (fun i => !i.wf) = true := by decide +kernel

theorem test_wf_refuses_runs : ([.calCommit 0 [19], .vector 0 [⟨1024, .low, []⟩], .ageOut 0 (2 ^ 32),
    .bandMeasureDone 4096 0, .bandMeasureDone 0 4096, .tmuEdge 0 0 128 true, .tmuCalDone 0 [1], .linearity .supervisor 65536, .levels .supervisor 65536,
    .deskew .supervisor 65536, .calProcDone 0 (some (2, 0)) [], .calProcDone 0 (some (3, 64)) []] : List Instr).all
      (fun i => !i.wf) = true := by decide +kernel

theorem test_wf_refuses_long (b : List Byte) (h : 65535 < b.length) : Instr.wf (.mgtFrameReceive 0 b true 0) = false := decide_eq_false (Nat.not_le.mpr h)

theorem test_wf_refuses_links : ([.ident 0 128 0 0 0 ⟨[0, 0, 0, 0], true⟩, .ident 0 0 4 0 0 ⟨[0, 0, 0, 0], true⟩, .ident 0 0 0 4 0 ⟨[0, 0, 0, 0], true⟩,
    .ident 0 0 0 0 16 ⟨[0, 0, 0, 0], true⟩, .ident 0 0 0 0 0 ⟨[0], false⟩, .link 0 4096 false true 0 0 0, .joinTimeout [121], .read 0 (pktOf 1 0 0 0 0 0 0 []),
    .write 0 (pktOf 0 0 0 0 0 0 0 []), .fluePacketDiscard 0 [.ctl 256 0], .fluePacketDiscard 0 [.ctl 0 (2 ^ 56)], .fluePacketDiscard 0 [.data (2 ^ 64)],
    .doorbell 0 (pktOf 1 0 0 0 0 0 0 []), .response 0 (pktOf 1 0 0 0 0 0 0 []), .message 0 (pktOf 1 0 0 0 0 0 0 []), .epochMarker 0 (pktOf 1 0 0 0 0 0 0 []),
    .startEvent 0 (pktOf 1 0 0 0 0 0 0 []), .stopEvent 0 (pktOf 1 0 0 0 0 0 0 []), .failEvent 0 (pktOf 1 0 0 0 0 0 0 []),
    .rdvReport 0 (pktOf 1 0 0 0 0 0 0 []), .rdvRelease 0 (pktOf 1 0 0 0 0 0 0 []), .packetForward 0 (pktOf 16 0 0 0 0 0 0 []),
    .packetForward 0 (pktOf 0 128 0 0 0 0 0 []), .packetForward 0 (pktOf 0 0 128 0 0 0 0 []), .packetForward 0 (pktOf 0 0 0 1024 0 0 0 []),
    .packetForward 0 (pktOf 0 0 0 0 256 0 0 []), .packetForward 0 (pktOf 0 0 0 0 0 65536 0 []), .packetForward 0 (pktOf 0 0 0 0 0 0 (2 ^ 44) []),
    .packetForward 0 (pktOf 0 0 0 0 0 0 0 (List.replicate 16 0)), .packetForward 0 (pktOf 0 0 0 0 0 0 0 [2 ^ 64])] : List Instr).all
      (fun i => !i.wf) = true := by decide +kernel

theorem test_wf_refuses_power_and_memory : ([.ascent 32768 [] false, .railPgTimeout 8, .pwrSupReadGo .supervisor 0 ⟨65536, 0, 0, false⟩,
    .pwrSupReadGo .supervisor 0 ⟨0, 65536, 0, false⟩, .pwrSupReadGo .supervisor 0 ⟨0, 0, 65536, false⟩, .pmbAlert (some 128), .tempSample [0], .mr4Poll 0 256 false false,
    .dramReadComplete 0 [⟨37, false, false, 0, 0, false⟩] 1 .good, .dramReadComplete 0 [⟨0, false, false, 2 ^ 41, 0, false⟩] 1 .good,
    .dramReadComplete 0 [⟨0, false, false, 0, 2, false⟩] 1 .good,
    .alertNParity 0 [64], .hotWindowEnd [0] (List.replicate 8 0), .hotWindowEnd (List.replicate 8 0) [0]] : List Instr).all
      (fun i => !i.wf) = true := by decide +kernel

theorem test_wf_refuses_services : ([.ptpTimestamp 0 true 2 0 ⟨0, [0, 0, 0]⟩ 0, .ptpTimestamp 0 true 0 0 ⟨0, []⟩ 0,
    .ptpTimestamp 0 true 0 0 ⟨0, [0, 0, 0]⟩ 262145, .ptpTimestamp 0 true 0 0 ⟨0, [0, 0, 0]⟩ (-262145),
    .attest .supervisor 65536, .confirm .supervisor 65536, .raise .supervisor 65536, .keyProgram .supervisor 65536, .keyRevoke .supervisor 65536,
    .deviceReset .supervisor 65536, .flashErase .supervisor 65536, .flashProgram .supervisor 65536, .flashRead .supervisor 65536,
    .registerWrite .supervisor (2 ^ 44) 4 0, .registerWrite .supervisor 0 3 0, .registerWrite .supervisor 0 4 (2 ^ 32)] : List Instr).all
      (fun i => !i.wf) = true := by decide +kernel

theorem test_wf_accepts : ([.powerOn (envOf 3 2 400 counts0 [(31, 255)]), .faultLineAssert [(21, 65535)], .ident 3 127 3 3 15 ⟨[0, 0, 0, 0], true⟩,
    .read 0 (pktOf 0 127 127 1023 255 65535 (2 ^ 44 - 1) [2 ^ 64 - 1]), .dramReadComplete 7 [⟨36, true, true, 2 ^ 41 - 1, 5, true⟩] 5 .good,
    .registerWrite .supervisor (2 ^ 44 - 4) 4 (2 ^ 32 - 1), .tmuEdge 31 0 127 true, .dispatch] : List Instr).all (fun i => i.wf) = true := by decide +kernel

/-! ### Single steps -/

/-- What a command leaves, as a test of it. -/
def gives (c : Instr) (s : State) (f : Dev → Bool) : Bool := match devAfter c s with | some e => f e | none => false

/-- The table gives no row bits (spec/opcode_table.json): no word spells a command, and a state takes none. -/
theorem test_decode_nothing : decodeTableWord 32 0 = none ∧ State.reset.withFetchWord 32 0 = State.reset := ⟨rfl, rfl⟩

/-- After reset nothing is latched, sent, waiting or stored. -/
theorem test_reset : State.reset.dev.reg R.FLT_WORD_LO = 0 ∧ State.reset.dev.outbox = [] ∧ State.reset.pending = [] ∧ State.reset.dev.mem = [] := by decide +kernel

/-- A step takes the front of the queue and leaves the rest. -/
theorem test_step_takes_the_front :
    (match step { State.reset with pending := [.wakeN, .dispatch] } with | .next t => t.pending == [.dispatch] | _ => false) = true := by decide +kernel

/-- R59: less than 5 ns of DOUSE_N do nothing. -/
theorem test_douseN : gives (.douseN 4) (st id) (fun e => e.faults.douses.isEmpty) = true := by decide +kernel

/-- R470: bit 20 of FLT_WORD, ACCESS, is set by a write that is refused; a 1 written to it clears it. -/
theorem test_access_fault :
    gives (.registerWrite (.user 3) (regBase + R.SEC_WDOG) 4 5) (st id) (fun e => e.bitOf R.FLT_WORD_LO 20 && e.reg R.SEC_WDOG == State.reset.dev.reg R.SEC_WDOG) = true ∧
    gives (.registerWrite .supervisor (regBase + R.FLT_WORD_LO) 4 0x100000) (st (regs [(R.FLT_WORD_LO, 0x300000)])) (fun e => e.reg R.FLT_WORD_LO == 0x200000) = true := by
  decide +kernel

/-- R6: memory is little-endian. -/
theorem test_memory_write :
    gives (.registerWrite .supervisor 0x2000 4 0x04030201) (st id) (fun e => e.read 0x2000 4 == [1, 2, 3, 4] && e.mem.length == 4) = true := by decide +kernel

/-- R358, R369: a NOP completes with status 0 and the descriptor's SEQ. -/
theorem test_nop : gives (.nop 1) (st (waits 1 (mkq 0 1 5 []))) (fun e =>
    (e.ring 1).waiting.isEmpty && ((e.ring 1).held.map (fun c => (c.hostSeq, c.status))) == [(5, 0)]) = true := by decide +kernel

/-- R503: a tick off the locked fabric PLL adds INC, 4 ns after reset; off OSC50, five times as much. -/
theorem test_time_tick : gives .deviceTimeTick (st ready) (fun e => e.time.ns == 4) = true ∧
    gives .deviceTimeTick (st (fun d => { d with board := { d.board with refPresent := false } })) (fun e => e.time.ns == 20) = true := by decide +kernel

/-- R416: a free lock goes to the reader, and only its owner frees it. -/
theorem test_lock : gives (.lockRead .supervisor 5) (st id) (fun e => e.mbx.locks == [(5, (0x20, 0))]) = true ∧
    gives (.lockRelease (.user 3) 5) (st (fun d => { d with mbx := { d.mbx with locks := [(5, (0x20, 0))] } })) (fun e => e.mbx.locks.length == 1) = true := by
  decide +kernel

/-- R431: a refresh is postponed while the allowance lasts, and made at once when it is used up. -/
theorem test_refresh : gives (.refreshDue 7 true) (st (regs [(R.DMC_CH_STATUS 7, 0x00400002)])) (fun e => e.postponed 7 == 1) = true ∧
    gives (.refreshDue 7 true) (st (regs [(R.DMC_CH_STATUS 7, 0x00440002)])) (fun e => e.postponed 7 == 0) = true := by decide +kernel

/-- R459: a down step takes its supply down, and the sequence is busy. -/
theorem test_supply_down : gives (.down .supervisor 0 false) (st (regs [(R.PWR_SEQ_DOWN 0, 0x00040085), (R.PWR_SUP_EN, 0x28)])) (fun e =>
    !(e.supOn 5) && e.supOn 3 && e.flag R.PWR_SUP_CTRL F.PWR_SUP_CTRL_BUSY) = true := by decide +kernel


/-- The hypotheses of the statements over every command, of the field types and of the reset values are met. -/
theorem test_witness_every_command :
    (∃ (s : State) (c : Instr) (rest : List Instr), s.pending = c :: rest) ∧ (∃ s : State, s.pending = []) ∧
    (∃ s t : State, s.Inv ∧ step s = .next t) ∧ (∃ (r : RDesc) (f : RField), r ∈ regTable ∧ f ∈ r.fields ∧ f.ty = RTy.wo) ∧
    (∃ x : Nat × Nat, x ∈ [(R.EMB_PSTATE, 37), (R.CLK_PLL_CTRL 0, 1073741864)]) :=
  ⟨⟨{ State.reset with pending := [.wakeN] }, .wakeN, [], rfl⟩, ⟨State.reset, rfl⟩, ⟨State.reset, State.reset, rfl, rfl⟩, by
    have h : regTable.any (fun r => r.fields.any (fun f => f.ty == .wo)) = true := by decide +kernel
    obtain ⟨r, hr, h⟩ := List.any_eq_true.mp h
    obtain ⟨f, hf, h⟩ := List.any_eq_true.mp h
    exact ⟨r, f, hr, hf, eq_of_beq h⟩, ⟨_, List.mem_cons_self ..⟩⟩

/-! ### Tests whose evaluation is deep, checked in threads of their own -/


set_option maxRecDepth 100000 in
theorem image_loads : loadImage (slice (img 0) 0 544) 544 = Sum.inr image0.z := by decide +kernel


set_option maxRecDepth 100000 in
/-- The hypotheses of the clauses of `Obligations.ImageLoads` are met. -/
theorem test_witness_ImageLoads :
    (∃ (s : State) (n : Fin 64) (remote : RemoteRead) (q : Desc) (f : LoadFail), s.dev.nextDesc (↑n) opImageLoad = some q ∧ Readable s.dev (↑n) (q.get 16 8) (q.get 24 8) remote ∧ loadImage (s.dev.ownerRead (↑n) (q.get 16 8) (q.get 24 8) remote) (q.get 24 8) = Sum.inl f) ∧
    (∃ (s : State) (n : Fin 64) (remote : RemoteRead) (q : Desc) (z : ZImage), s.dev.nextDesc (↑n) opImageLoad = some q ∧ Readable s.dev (↑n) (q.get 16 8) (q.get 24 8) remote ∧ loadImage (s.dev.ownerRead (↑n) (q.get 16 8) (q.get 24 8) remote) (q.get 24 8) = Sum.inr z ∧ s.dev.placeImage z.bytes = none) ∧
    (∃ (s : State) (n : Fin 64) (remote : RemoteRead) (q : Desc) (z : ZImage) (base : Nat), s.dev.nextDesc (↑n) opImageLoad = some q ∧ Readable s.dev (↑n) (q.get 16 8) (q.get 24 8) remote ∧ s.Inv ∧ s.dev.seq.images.length < 65535 ∧ loadImage (s.dev.ownerRead (↑n) (q.get 16 8) (q.get 24 8) remote) (q.get 24 8) = Sum.inr z ∧ s.dev.placeImage z.bytes = some base) ∧
    (∃ (s : State) (n : Fin 64) (q : Desc), s.dev.nextDesc (↑n) opImageUnload = some q ∧ ((s.dev.seq.commits.any fun c => c.setUp.binds.any fun b => b.snd.image == q.get 16 2) = false) ∧ s.dev.image (q.get 16 2) = none) ∧
    (∃ (s : State) (n : Fin 64) (q : Desc) (x : Nat), s.dev.nextDesc (↑n) opImageUnload = some q ∧ ((s.dev.seq.commits.any fun c => c.setUp.binds.any fun b => b.snd.image == q.get 16 2) = false) ∧ s.dev.image (q.get 16 2) ≠ none ∧ listMin? (s.dev.imageSites (q.get 16 2)) = some x) ∧
    (∃ (s : State) (n : Fin 64) (q : Desc), s.dev.nextDesc (↑n) opImageUnload = some q ∧ ((s.dev.seq.commits.any fun c => c.setUp.binds.any fun b => b.snd.image == q.get 16 2) = false) ∧ s.Inv ∧ s.dev.image (q.get 16 2) ≠ none ∧ listMin? (s.dev.imageSites (q.get 16 2)) = none) :=
  ⟨⟨imageRemote, (1 : Fin 64), ⟨[], .done⟩, imageDesc, (loadImage (slice [] 0 544) 544).getLeft (by decide +kernel), by decide +kernel, by unfold Readable; decide +kernel, by decide +kernel⟩,
   ⟨imageSmall, (1 : Fin 64), ⟨img 0, .done⟩, imageDesc, image0.z, by decide +kernel, by unfold Readable; decide +kernel, image_loads, by decide +kernel⟩,
   ⟨imageRemote, (1 : Fin 64), ⟨img 0, .done⟩, imageDesc, image0.z, 1073741824, by decide +kernel, by unfold Readable; decide +kernel, by unfold State.Inv; decide +kernel, by decide +kernel, image_loads, by decide +kernel⟩,
   ⟨imageLoads1, (1 : Fin 64), ((imageLoads1.dev.nextDesc (↑(1 : Fin 64)) opImageUnload).get (by decide +kernel)), (Option.some_get _).symm, by decide +kernel, by decide +kernel⟩,
   ⟨imageLoads2, (1 : Fin 64), ((imageLoads2.dev.nextDesc (↑(1 : Fin 64)) opImageUnload).get (by decide +kernel)), 3, (Option.some_get _).symm, by decide +kernel, by decide +kernel, by decide +kernel⟩,
   ⟨imageLoads3, (1 : Fin 64), ((imageLoads3.dev.nextDesc (↑(1 : Fin 64)) opImageUnload).get (by decide +kernel)), (Option.some_get _).symm, by decide +kernel, by unfold State.Inv; decide +kernel, by decide +kernel, by decide +kernel⟩⟩

set_option maxRecDepth 100000 in
/-- The hypotheses of the clauses of `Obligations.FlashAndWatchdog` are met. -/
theorem test_witness_FlashAndWatchdog :
    (∃ (s : State) (o : Origin) (arg : Nat) (off : Nat) (n : Nat) (r : Nat), off = s.dev.secOff ∧ n = arg % 8192 ∧ Accepts s.dev o R.SEC_CTRL (secWord 7 arg) ∧ off % sectorBytes = 0 ∧ s.dev.flashFree off sectorBytes = some r) ∧
    (∃ (s : State) (o : Origin) (arg : Nat) (off : Nat) (n : Nat), off = s.dev.secOff ∧ n = arg % 8192 ∧ Accepts s.dev o R.SEC_CTRL (secWord 7 arg) ∧ (off % sectorBytes ≠ 0 ∨ s.dev.flashFree off sectorBytes = none)) ∧
    (∃ (s : State) (o : Origin) (arg : Nat) (off : Nat) (n : Nat) (r : Nat), off = s.dev.secOff ∧ n = arg % 8192 ∧ Accepts s.dev o R.SEC_CTRL (secWord 8 arg) ∧ off % 256 = 0 ∧ n ≠ 0 ∧ n ≤ 4096 ∧ s.dev.inHost s.dev.secAddr n = true ∧ s.dev.flashFree off n = some r) ∧
    (∃ (s : State) (o : Origin) (arg : Nat) (off : Nat) (n : Nat), off = s.dev.secOff ∧ n = arg % 8192 ∧ Accepts s.dev o R.SEC_CTRL (secWord 8 arg) ∧ (off % 256 ≠ 0 ∨ n = 0 ∨ 4096 < n ∨ s.dev.inHost s.dev.secAddr n = false ∨ s.dev.flashFree off n = none)) ∧
    (∃ (s : State) (o : Origin) (arg : Nat) (off : Nat) (n : Nat) (r : Nat), off = s.dev.secOff ∧ n = arg % 8192 ∧ Accepts s.dev o R.SEC_CTRL (secWord 9 arg) ∧ s.Inv ∧ n ≠ 0 ∧ n ≤ 4096 ∧ s.dev.inHost s.dev.secAddr n = true ∧ s.dev.regionOf off n = some r ∧ (r < 11 ∨ r = 15)) ∧
    (∃ (s : State) (o : Origin) (arg : Nat) (off : Nat) (n : Nat), off = s.dev.secOff ∧ n = arg % 8192 ∧ Accepts s.dev o R.SEC_CTRL (secWord 9 arg) ∧ (n = 0 ∨ 4096 < n ∨ s.dev.inHost s.dev.secAddr n = false ∨ s.dev.regionOf off n = none)) ∧
    (∃ (s : State) (o : Origin) (w : Word), s.Inv ∧ Accepts s.dev o R.SEC_WDOG (setBits w F.SEC_WDOG_KICK 1)) ∧
    (∃ (s : State), s.dev.getF R.SEC_WDOG F.SEC_WDOG_TIMEOUT_MS ≠ 0 ∧ s.dev.banked = false) ∧
    (∃ (s : State), s.Inv ∧ s.dev.getF R.SEC_WDOG F.SEC_WDOG_TIMEOUT_MS = 0) :=
  ⟨⟨flashAndWatchdog1, .supervisor, 0, 3014656, 0, 15, by unfold Accepts; decide +kernel⟩,
   ⟨flashAndWatchdog2, .supervisor, 0, 0, 0, by unfold Accepts; decide +kernel⟩,
   ⟨flashAndWatchdog1, .supervisor, 1, 3014656, 1, 15, by unfold Accepts; decide +kernel⟩,
   ⟨flashAndWatchdog2, .supervisor, 0, 0, 0, by unfold Accepts; decide +kernel⟩,
   ⟨flashAndWatchdog1, .supervisor, 1, 3014656, 1, 15, by unfold Accepts State.Inv; decide +kernel⟩,
   ⟨flashAndWatchdog2, .supervisor, 0, 0, 0, by unfold Accepts; decide +kernel⟩,
   ⟨flashAndWatchdog2, .supervisor, 0, by unfold Accepts State.Inv; decide +kernel⟩,
   ⟨flashAndWatchdog2, by decide +kernel⟩,
   ⟨flashAndWatchdog1, by unfold State.Inv; decide +kernel⟩⟩

/-! ### A flash that boots -/

def pubKey : List Byte := bytesOf 57 93334585588832242132938002888246748016590970580543995849626514109763603893548227440926180799151574908655079699801813567306329349536330279
def stageB (s sig : Nat) : List Byte :=
  [0x53#8, 0x54#8, 0x47#8, 0x1A#8] ++ bytesOf 1 s ++ bytesOf 1 (stageSigner s) ++ bytesOf 34 0 ++
  bytesOf 32 21468664885170662639985957090336418708702569955620632736621138429888230701382 ++ pubKey ++ bytesOf 15 0 ++ bytesOf 114 sig ++ bytesOf 30 0
def stageSig : Nat → Nat
  | 0 => 25668265378642155174128427501346274028817744149011816472822922993756160389491231754090411727961171847622085698893900806373168804386356071788054531351422762110813827230309678908327759666929110651129652794963806506478878397855382690330004125935617501508561141641459194267214
  | 1 => 33334799979817626835325579981696783840669822728987468471437263020923784064757552388968784442651064912124988464107289804844250777091418095858038627414793981186314569126725185119176106902984641870838986548664904054261894510258656257381011538629924300123627682367701439153936
  | 2 => 11127552454197098728710143937350735981622290742087373895218316982720769503474950331103630987736794156831798898816601479811194485741677896743313149421997350937390563081164539890752445937925767887926437585744532288454487088824940541776390046866478457831302119350334510066925
  | 3 => 16896408366764366072192738712100012776550311102690480638745940716699677044696804678816202089714868560889761346711374401860075584320542052989713138144742723071417336730480607851322660875198885081539122600393645586304213599410814900002377202150666449363262160934580051054425
  | _ => 7890084755777695429910185640980216907925709629700971276857832038670529181790869677876728903980045540855636689976686483779994050688505030854644392194480157134694633351763823378319278583214437465817940139615771662026201989407556741333417641055698414676930874173252601474024
def stagePut (m : List Host.Cell) (s : Nat) : List Host.Cell := flashPut m (regAt (slotRegion s 0)) (stageB s (stageSig s))
/-- A flash with a directory and in slot A of every stage a signed stage without a body; OTP holds the digest of its key. -/
def bootable : State :=
  { State.reset with dev := { State.reset.dev with board := { State.reset.dev.board with flash := [3, 0, 1, 2, 4].foldl stagePut (flashPut [] 0 dirB), resetDue := true, otp := { Otp.blank with rhokemund := #v[some (bytesOf 32 76065161143992091877941896986759776057467783204476373584235681459050953302893), none, none, none] } } } }

set_option maxRecDepth 100000 in
theorem stage_len (s : Nat) : (stageB s (stageSig s)).length = 288 := rfl

set_option maxRecDepth 100000 in
theorem boot_reads (b n : Nat) : ∀ l : List Nat, (∀ s ∈ l, b + n ≤ regAt (slotRegion s 0) ∨ regAt (slotRegion s 0) + 288 ≤ b) → ∀ m,
    (List.range n).map (fun i => flashByteOf (l.foldl stagePut m) (b + i)) = (List.range n).map (fun i => flashByteOf m (b + i)) := by
  intro l
  induction l with
  | nil => intro _ m; rfl
  | cons s t ih =>
    intro h m
    rw [List.foldl_cons, ih (fun x hx => h x (List.mem_cons_of_mem _ hx)), stagePut, flashPut_reads_else]
    have := h s (List.mem_cons_self ..)
    rwa [stage_len]

set_option maxRecDepth 100000 in
theorem boot_header (s : Nat) (h : s < 5) : bootable.dev.flashRead (regAt (slotRegion s 0)) 288 = stageB s (stageSig s) := by
  have go : ∀ l r : List Nat, (∀ x ∈ r, regAt (slotRegion s 0) + 288 ≤ regAt (slotRegion x 0) ∨ regAt (slotRegion x 0) + 288 ≤ regAt (slotRegion s 0)) →
      (List.range 288).map (fun i => flashByteOf ((l ++ s :: r).foldl stagePut (flashPut [] 0 dirB)) (regAt (slotRegion s 0) + i)) = stageB s (stageSig s) := by
    intro l r hr
    rw [List.foldl_append, List.foldl_cons, boot_reads _ _ r hr, stagePut]
    exact flashPut_reads _ _ _ _ (stage_len s)
  match s, h with
  | 0, _ => exact go [3] [1, 2, 4] (by decide)
  | 1, _ => exact go [3, 0] [2, 4] (by decide)
  | 2, _ => exact go [3, 0, 1] [4] (by decide)
  | 3, _ => exact go [] [0, 1, 2, 4] (by decide)
  | 4, _ => exact go [3, 0, 1, 2] [] (by decide)

set_option maxRecDepth 100000 in
theorem dir_len : dirB.length = 268 := by decide +kernel

set_option maxRecDepth 100000 in
theorem boot_empty (b n : Nat) (h : 268 ≤ b) (o : ∀ s ∈ [3, 0, 1, 2, 4], b + n ≤ regAt (slotRegion s 0) ∨ regAt (slotRegion s 0) + 288 ≤ b) :
    bootable.dev.flashRead b n = List.replicate n flashErased := by
  refine ((boot_reads b n _ o _).trans (flashPut_reads_else [] dirB 0 b n (Or.inr (by rw [dir_len]; omega)))).trans ?_
  exact List.eq_replicate_iff.mpr ⟨by simp, by simp [flashByteOf]⟩

set_option maxRecDepth 100000 in
theorem boot_dir : bootable.dev.directory = some ((List.range 16).map (fun r => (regAt r, 0x20000))) := by
  have h0 : bootable.dev.flashRead 0 268 = dirB := (boot_reads 0 268 _ (by decide +kernel) _).trans (flashPut_reads _ _ _ _ dir_len)
  have h1 := boot_empty 0x10000 268 (by decide) (by decide +kernel)
  unfold Dev.directory Dev.directoryAt
  simp only [h0, h1]
  decide +kernel

set_option maxRecDepth 100000 in
theorem boot_record : bootable.dev.bootRecord = ⟨1, 0, List.replicate 5 0, List.replicate 5 0xFF⟩ := by
  have h0 := boot_empty (bootAt 0) 64 (by decide) (by decide +kernel)
  have h1 := boot_empty (bootAt 1) 64 (by decide) (by decide +kernel)
  unfold Dev.bootRecord Dev.bootCopy
  simp only [h0, h1]
  decide +kernel

set_option maxRecDepth 100000 in
theorem boot_key : bootable.dev.board.otp.keyDigest 0 0 = some (shake256 32 pubKey) := by decide +kernel

set_option maxRecDepth 100000 in
theorem boot_body : bytesOf 32 21468664885170662639985957090336418708702569955620632736621138429888230701382 = shake256 32 [] := by decide +kernel

set_option maxRecDepth 100000 in
theorem boot_slot (s : Nat) (hs : s < 5) : bootable.dev.slotOk s 0 = some ⟨⟨s, 0, 0, 0, 0, shake256 32 (slice (stageB s (stageSig s)) 0 144)⟩, 0, 0, regAt (slotRegion s 0) + 288, 0⟩ := by
  have hr : bootable.dev.region (slotRegion s 0) = (regAt (slotRegion s 0), 0x20000) := by
    have : ∀ s, s < 5 → nth ((List.range 16).map (fun r => (regAt r, 0x20000))) (slotRegion s 0) (0, 0) = (regAt (slotRegion s 0), 0x20000) := by decide +kernel
    rw [Dev.region, boot_dir]; exact this s hs
  have he : ∀ s, s < 5 → (fun h => slice h 0 4 = [0x53, 0x54, 0x47, 0x1A] ∧ fieldAt h 4 1 = s ∧ fieldAt h 5 1 = stageSigner s ∧
      (zeroAt h 7 1 && zeroAt h 10 6 && zeroAt h 129 15 && zeroAt h 258 30) = true ∧ fieldAt h 6 1 = 0 ∧ fieldAt h 8 2 = 0 ∧ fieldAt h 16 8 = 0 ∧ fieldAt h 24 8 = 0 ∧ fieldAt h 32 8 = 0 ∧
      bootable.dev.board.otp.signerSlot s = 0 ∧ bootable.dev.board.otp.counter s = 0 ∧
      slice h 72 57 = pubKey ∧ edVerify pubKey stageContext (slice h 0 144) (slice h 144 114) = true ∧
      slice h 40 32 = bytesOf 32 21468664885170662639985957090336418708702569955620632736621138429888230701382) (stageB s (stageSig s)) := by decide +kernel
  obtain ⟨h1, h2, h3, h4, h5, h6, h7, h8, h9, h10, h11, h12, h13, h14⟩ := he s hs
  have h0 : bootable.dev.flashRead (regAt (slotRegion s 0) + 288) 0 = [] := rfl
  unfold Dev.slotOk
  rw [hr]
  simp only [boot_header s hs, h1, h2, h3, h4, h5, h6, h7, h8, h9, h10, h11, h12, h13, h14, h0, boot_key, boot_body]
  simp

set_option maxRecDepth 100000 in
theorem boot_ready (e : KindleEnv) (lost : Bool) (h : e.strap % 4 ≠ 3) (g : configGib (bootable.dev.profiled e lost).dramConfig = some 16) :
    KindlesReady bootable.dev e lost 16 := by
  refine ⟨h, by rw [boot_dir]; rfl, fun s hs => ?_, g⟩
  have : ∀ s, s < 5 → nth (List.replicate 5 255) s 0xFF = 0xFF ∧ nth (List.replicate 5 0) s 0 % 2 = 0 := by decide
  rw [Dev.preferred, boot_record, (this s hs).2, boot_slot s hs]
  exact ⟨(this s hs).1, rfl⟩

/-- The environment of the witnesses: no strap, and the channels of `n` fail their DRAM training. -/
def bootEnv (n : Nat) : KindleEnv := { kenv 0 with dramFail := n }
set_option maxRecDepth 100000 in
theorem boot_env (n : Nat) (lost : Bool) (h : n < 2) : configGib (bootable.dev.profiled (bootEnv n) lost).dramConfig = some 16 := by
  have go : ∀ d : Dev, d.board.flash = bootable.dev.board.flash → d.board.otp = bootable.dev.board.otp → ∀ s, s < 5 →
      d.selectStage s = (some ⟨⟨s, 0, 0, 0, 0, shake256 32 (slice (stageB s (stageSig s)) 0 144)⟩, 0, 0, regAt (slotRegion s 0) + 288, 0⟩, d) := by
    intro d f o s hs
    have : ∀ s, s < 5 → nth (List.replicate 5 255) s 0xFF = 0xFF ∧ nth (List.replicate 5 0) s 0 % 2 = 0 := by decide
    refine selectStage_confirmed ?_ ?_
    · rw [bootRecord_congr f, boot_record]; exact (this s hs).1
    · rw [bootRecord_congr f, boot_record, slotOk_congr f o, (this s hs).2, boot_slot s hs]
  unfold Dev.profiled Dev.kindle3
  rw [if_neg (show ¬ (bootEnv n).strap % 4 = 3 from (by decide : ¬ (0 : Nat) % 4 = 3)), directory_congr (d := bootable.dev) (by cases lost <;> rfl), boot_dir]
  simp only []
  rw [go _ (by cases lost <;> rfl) (by cases lost <;> rfl) _ (by decide)]
  simp only []
  rw [go _ (by cases lost <;> rfl) (by cases lost <;> rfl) _ (by decide)]
  obtain rfl | rfl : n = 0 ∨ n = 1 := by omega
  all_goals cases lost <;> rfl

theorem factoryFill_nothing (d : Dev) (e : KindleEnv) (o : e.otp = none) (f : e.flash = none) : d.factoryFill e = d := by
  unfold Dev.factoryFill
  rw [o, f]
  cases d.board.fused <;> rfl
set_option maxRecDepth 100000 in
/-- The hypotheses of the clauses of `Obligations.KindlingEndsReadyOrStopped` are met. -/
theorem test_witness_KindlingEndsReadyOrStopped :
    (∃ (s : State) (e : KindleEnv) (gib : Nat), KindlesReady (s.dev.factoryFill e) e true gib ∧ e.dramFail % 256 = 0) ∧
    (∃ (s : State) (e : KindleEnv) (gib : Nat), KindlesReady (s.dev.factoryFill e) e true gib ∧ e.dramFail % 256 ≠ 0) ∧
    (∃ (s : State) (e : KindleEnv) (gib : Nat), s.dev.board.resetDue = true ∧ KindlesReady s.dev e false gib ∧ e.dramFail % 256 = 0) ∧
    (∃ (s : State) (e : KindleEnv) (gib : Nat), s.dev.board.resetDue = true ∧ KindlesReady s.dev e false gib ∧ e.dramFail % 256 ≠ 0) ∧
    (∃ (s : State), s.Inv ∧ s.dev.board.resetDue = false) :=
  ⟨⟨bootable, bootEnv 0, 16, (factoryFill_nothing bootable.dev (bootEnv 0) rfl rfl).symm ▸ boot_ready _ true (by decide) (boot_env 0 true (by decide)), by decide⟩,
   ⟨bootable, bootEnv 1, 16, (factoryFill_nothing bootable.dev (bootEnv 1) rfl rfl).symm ▸ boot_ready _ true (by decide) (boot_env 1 true (by decide)), by decide⟩,
   ⟨bootable, bootEnv 0, 16, by decide +kernel, boot_ready _ false (by decide) (boot_env 0 false (by decide)), by decide⟩,
   ⟨bootable, bootEnv 1, 16, by decide +kernel, boot_ready _ false (by decide) (boot_env 1 false (by decide)), by decide⟩,
   ⟨State.reset, by unfold State.Inv; decide +kernel⟩⟩

/-! ### Functions of public standards: their published check values (log entries 9 and 10) -/

/-- The check value of CRC-32C over "123456789". -/
theorem test_crc32c : crc32c [0x31, 0x32, 0x33, 0x34, 0x35, 0x36, 0x37, 0x38, 0x39] = 0xE3069283 := by decide +kernel

/-- The check value of the CRC-32 of IEEE 802.3 over "123456789". -/
theorem test_crc32 : crc32 [0x31, 0x32, 0x33, 0x34, 0x35, 0x36, 0x37, 0x38, 0x39] = 0xCBF43926 := by decide +kernel

/-- SHAKE256 of the empty string (FIPS 202). -/
theorem test_shake256 : shake256 32 [] = (bytesOf 32 0x46b9dd2b0ba88d13233b3feb743eeb243fcd52ea62b81b82b50c27646ed5762f).reverse := by decide +kernel

/-- The first Ed448 vector of RFC 8032, 7.4: an empty message verifies, another does not decode to it. -/
theorem test_ed448 : edVerify (bytesOf 57 0x5fd7449b59b461fd2ce787ec616ad46a1da1342485a70e1f8a0ea75d80e96778edf124769b46c7061bd6783df1e50f6cd1fa1abeafe8256180).reverse [] []
    (bytesOf 114 0x533a37f6bbe457251f023c0d88f976ae2dfb504a843e34d2074fd823d41a591f2b233f034f628281f2fd7a22ddd47d7828c59bd0a21bfd3980ff0d2028d4b18a9df63e006c5d1c2d345b925d8dc00b4104852db99ac5c7cdda8530a113a0f4dbb61149f05a7363268c71d95808ff2e652600).reverse = true := by
  decide +kernel


end Sys2Proof.Tests
end

section
/-! PROOFS. Register writes field by field, and the state after reset (spec/00 R9, R10, R12). -/

namespace Sys2Proof.Proofs

open Sys2Proof Sys2Proof.Machine

/-! ### Fields of a number and of a word -/

/-- A field that another, disjoint field's setting leaves. -/
theorem natField_natSetField_other (n v : Nat) {f g : Fld} (h : f.lsb + f.width ≤ g.lsb ∨ g.lsb + g.width ≤ f.lsb) :
    natField (natSetField n f v) g = natField n g := by
  refine Nat.eq_of_testBit_eq fun i => ?_
  rw [testBit_natField, testBit_natField, testBit_natSetField]
  by_cases hi : i < g.width
  · rw [if_neg (by omega)]
  · simp [hi]

theorem natField_lt (n : Nat) (f : Fld) : natField n f < 2 ^ f.width := Nat.mod_lt _ (Nat.two_pow_pos _)

theorem natField_and (m n : Nat) (f : Fld) : natField (m &&& n) f = natField m f &&& natField n f := by
  refine Nat.eq_of_testBit_eq fun i => ?_
  simp only [testBit_natField, Nat.testBit_and]
  cases decide (i < f.width) <;> simp

/-- A field of 32 bits is not cut when a number becomes a word. -/
theorem getBits_ofNat (n : Nat) {f : Fld} (h : f.lsb + f.width ≤ 32) : getBits (BitVec.ofNat 32 n) f = natField n f := by
  refine Nat.eq_of_testBit_eq fun i => ?_
  rw [getBits, BitVec.toNat_ofNat, testBit_natField, testBit_natField, Nat.testBit_mod_two_pow]
  by_cases hi : i < f.width
  · simp [show f.lsb + i < 32 by omega]
  · simp [hi]

/-- A fold each of whose steps keeps a field keeps it. -/
theorem natField_foldl {α : Type} {step : Nat → α → Nat} {l : Fld} (xs : List α) (acc : Nat)
    (h : ∀ x ∈ xs, ∀ n, natField (step n x) l = natField n l) : natField (xs.foldl step acc) l = natField acc l :=
  List.foldlRecOn xs step (motive := fun n => natField n l = natField acc l) rfl (fun n hn x hx => (h x hx n).trans hn)

/-! ### The register table (R10) -/

/-- Two fields of a register share no bit. -/
def Apart (f g : RField) : Prop := f.lsb + f.width ≤ g.lsb ∨ g.lsb + g.width ≤ f.lsb

theorem apart_symm : Std.Symm Apart := ⟨fun _ _ h => h.symm⟩

/-- Every field of the table lies in its register's 32 bits, and no two fields of a register overlap. -/
theorem regTable_fields : ∀ r ∈ regTable, (∀ f ∈ r.fields, f.lsb + f.width ≤ 32) ∧ r.fields.Pairwise Apart := by
  unfold Apart
  decide +kernel

theorem regTable_apart {r : RDesc} (hr : r ∈ regTable) {f g : RField} (hf : f ∈ r.fields) (hg : g ∈ r.fields) (hne : f ≠ g) : Apart f g :=
  have := apart_symm
  (regTable_fields r hr).2.forall hf hg hne

/-! ### What a write stores in a field (R10) -/

section
variable (f : RField) (old w acc : Nat)

theorem store_apart {g : RField} (h : Apart g f) : natField (g.store old w acc) ⟨f.lsb, f.width⟩ = natField acc ⟨f.lsb, f.width⟩ := by
  unfold RField.store
  cases g.ty
  case rw | w1c | w1s => exact natField_natSetField_other _ _ h
  case ro | wo | rl => rfl

theorem store_rw (h : f.ty = .rw) : natField (f.store old w acc) ⟨f.lsb, f.width⟩ = natField w ⟨f.lsb, f.width⟩ := by
  simp only [RField.store, h]
  rw [natField_natSetField_same, Nat.mod_eq_of_lt (natField_lt w _)]

theorem store_w1c (h : f.ty = .w1c) : natField (f.store old w acc) ⟨f.lsb, f.width⟩ =
    natField old ⟨f.lsb, f.width⟩ &&& ((2 ^ f.width - 1) ^^^ natField w ⟨f.lsb, f.width⟩) := by
  simp only [RField.store, h]
  rw [natField_natSetField_same, Nat.mod_eq_of_lt (Nat.and_le_left.trans_lt (natField_lt old _))]

theorem store_w1s (h : f.ty = .w1s) : natField (f.store old w acc) ⟨f.lsb, f.width⟩ =
    natField old ⟨f.lsb, f.width⟩ ||| natField w ⟨f.lsb, f.width⟩ := by
  simp only [RField.store, h]
  rw [natField_natSetField_same, Nat.mod_eq_of_lt (Nat.or_lt_two_pow (natField_lt old _) (natField_lt w _))]

end

/-- Of a register's write a field sees its own store alone, made to a word that still holds the field's old value. -/
theorem getBits_store {r : RDesc} (hr : r ∈ regTable) {f : RField} (hf : f ∈ r.fields) (old w : Word) :
    ∃ acc, natField acc ⟨f.lsb, f.width⟩ = getBits old ⟨f.lsb, f.width⟩ ∧
      getBits (r.store old w) ⟨f.lsb, f.width⟩ = natField (f.store old.toNat w.toNat acc) ⟨f.lsb, f.width⟩ := by
  obtain ⟨hwidth, hpair⟩ := regTable_fields r hr
  obtain ⟨before, after, hsplit⟩ := List.append_of_mem hf
  rw [hsplit, List.pairwise_append, List.pairwise_cons] at hpair
  obtain ⟨-, ⟨hafter, -⟩, hbefore⟩ := hpair
  refine ⟨before.foldl (fun acc g => g.store old.toNat w.toNat acc) old.toNat, ?_, ?_⟩
  · exact natField_foldl _ _ fun g hg n => store_apart f _ _ n (hbefore g hg f (List.mem_cons_self ..))
  · rw [RDesc.store, getBits_ofNat _ (hwidth f hf), hsplit, List.foldl_append, List.foldl_cons]
    exact natField_foldl _ _ fun g hg n => store_apart f _ _ n (apart_symm.symm _ _ (hafter g hg))

/-- The bits of a WO field are not among those that read (R9, R10). -/
theorem natField_readMask_wo {r : RDesc} (hr : r ∈ regTable) {f : RField} (hf : f ∈ r.fields) (hwo : f.ty = .wo) :
    natField r.readMask ⟨f.lsb, f.width⟩ = 0 := by
  have hzero : natField 0 ⟨f.lsb, f.width⟩ = 0 := by simp [natField]
  refine (natField_foldl _ _ fun g hg n => ?_).trans hzero
  by_cases hg_wo : g.ty = .wo
  · rw [if_pos hg_wo]
  · have hne : g ≠ f := fun e => hg_wo (e ▸ hwo)
    rw [if_neg hg_wo]
    exact natField_natSetField_other _ _ (regTable_apart hr hg hf hne)

/-- Settles O53, field by field of the table: a field's bits see its own store alone, and the mask of what reads leaves out the WO fields. -/
theorem fieldTypes : Obligations.FieldTypes := by
  unfold Obligations.FieldTypes
  intro r hr f hf old w
  obtain ⟨acc, hacc, hstore⟩ := getBits_store hr hf old w
  refine ⟨?_, fun hwo => ?_⟩
  · rw [hstore]
    cases hty : f.ty with
    | rw => exact store_rw f _ _ _ hty
    | w1c => exact store_w1c f _ _ _ hty
    | w1s => exact store_w1s f _ _ _ hty
    | ro | wo | rl =>
      rw [RField.store, hty]
      exact hacc
  · have hmask : getBits (BitVec.ofNat 32 r.readMask) ⟨f.lsb, f.width⟩ = 0 := by
      rw [getBits_ofNat _ ((regTable_fields r hr).1 f hf), natField_readMask_wo hr hf hwo]
    rw [getBits, BitVec.toNat_and, natField_and]
    exact (congrArg _ hmask).trans (Nat.and_zero _)

/-! ### The state after reset (R12) -/

/-- Settles O5: nothing of DRAM is listed and no command waits. -/
theorem resetMeetsTheInvariant : Obligations.ResetMeetsTheInvariant := ⟨rfl, rfl⟩

/-- Settles O6: each register of the sample, read in the reset state. -/
theorem resetValues : Obligations.ResetValues := by
  unfold Obligations.ResetValues
  decide +kernel

end Sys2Proof.Proofs
end

section
/-! PROOFS. Functions of the end of a run that write no register at all. -/

namespace Sys2Proof.Proofs

open Sys2Proof Sys2Proof.Machine

theorem foldl_regs {α : Type} {f : Dev → α → Dev} (xs : List α) (d : Dev) (h : ∀ d x, (f d x).regs = d.regs) : (xs.foldl f d).regs = d.regs :=
  List.foldlRecOn xs f (motive := fun e => e.regs = d.regs) rfl (fun e he x _ => (h e x).trans he)

theorem ite_regs {c : Prop} [Decidable c] {a b d : Dev} (ha : a.regs = d.regs) (hb : b.regs = d.regs) : (if c then a else b).regs = d.regs := by
  split <;> assumption

/-! Pins and DDS units. -/

@[simp] theorem toggle_regs (d : Dev) (ch : Nat) : (d.toggle ch).regs = d.regs := by
  unfold Dev.toggle
  dsimp only
  split <;> rfl

@[simp] theorem drive_regs (d : Dev) (ch : Nat) (v : Drv) (t : Nat) : (d.drive ch v t).regs = d.regs := by
  unfold Dev.drive
  dsimp only
  split
  · rfl
  · exact toggle_regs _ ch

@[simp] theorem pinsSafe_regs (d : Dev) (chs : List Nat) : (d.pinsSafe chs).regs = d.regs := by
  refine foldl_regs chs d fun d ch => ?_
  split
  · rfl
  · exact toggle_regs d ch

@[simp] theorem ddsStop_regs (d : Dev) (s : Nat) : (d.ddsStop s).regs = d.regs := by
  unfold Dev.ddsStop
  dsimp only
  split
  all_goals
    refine foldl_regs _ d fun d c => ?_
    split <;> rfl

/-! Flue packets. -/

@[simp] theorem pump_regs (d : Dev) (p fuel : Nat) : (d.pump p fuel).regs = d.regs := by
  induction fuel generalizing d with
  | zero => rfl
  | succ fuel ih =>
    unfold Dev.pump
    split
    · rfl
    split
    · rfl
    dsimp only
    split
    · rfl
    · exact ih _

@[simp] theorem enqueue_regs (d : Dev) (p : Nat) (k : Packet) : (d.enqueue p k).regs = d.regs := pump_regs _ p _

/-! Capture units. -/

@[simp] theorem modCap_regs (d : Dev) (s : Nat) (f : CapRun → CapRun) : (d.modCap s f).regs = d.regs := rfl

@[simp] theorem capPut_regs (d : Dev) (s : Nat) (p : CapPlan) (r : List Byte) : (d.capPut s p r).regs = d.regs := rfl

@[simp] theorem capStop_regs (d : Dev) (s : Nat) (p : CapPlan) (vc cause : Nat) : (d.capStop s p vc cause).regs = d.regs := by
  unfold Dev.capStop
  dsimp only
  split <;> rfl

@[simp] theorem capResult_regs (d : Dev) (s : Nat) (p : CapPlan) (i : WinInst) : (d.capResult s p i).regs = d.regs := by
  unfold Dev.capResult
  dsimp only
  split <;> rfl

@[simp] theorem fineRef_regs (d : Dev) (n : Nat) (stamp : Option (Nat × Nat)) (place : Nat) : (d.fineRef n stamp place).regs = d.regs := by
  cases stamp <;> rfl

@[simp] theorem capTry_regs (d : Dev) (s : Nat) (p : CapPlan) (vc : Nat) (r : List Byte) : (d.capTry s p vc r).2.regs = d.regs := by
  unfold Dev.capTry
  dsimp only
  split
  · rfl
  split
  · exact capStop_regs d s p vc 1
  split <;> rfl

/-- What a record's offer leaves has the registers that were there, whatever became of the record. -/
theorem capTry_eq_regs {d e : Dev} {s : Nat} {p : CapPlan} {vc : Nat} {r : List Byte} {t : CapTry} (h : d.capTry s p vc r = (t, e)) : e.regs = d.regs := by
  have := capTry_regs d s p vc r
  rwa [h] at this

@[simp] theorem capSample_regs (d : Dev) (s : Nat) (p : CapPlan) (v : VecRec) (mode : Nat) (x : Samp) : (d.capSample s p v mode x).regs = d.regs := by
  unfold Dev.capSample
  dsimp only
  split
  · rfl
  refine ite_regs ?_ (ite_regs rfl rfl)
  split
  all_goals
    next h =>
      have tried := capTry_eq_regs h
      simpa [apply_ite Dev.regs] using tried

@[simp] theorem capWindows_regs (d : Dev) (s : Nat) (p : CapPlan) (v : VecRec) : (d.capWindows s p v).regs = d.regs :=
  foldl_regs _ _ fun d i => capResult_regs d s p i

@[simp] theorem capDamper_regs (d : Dev) (s : Nat) (p : CapPlan) (v : VecRec) : (d.capDamper s p v).regs = d.regs := by
  unfold Dev.capDamper
  dsimp only
  split
  · split <;> next h => simpa using capTry_eq_regs h
  · rfl

@[simp] theorem capLate_regs (d : Dev) (s : Nat) (p : CapPlan) (v : VecRec) : (d.capLate s p v).regs = d.regs := by
  unfold Dev.capLate
  split
  · rfl
  split <;> next h => simpa using capTry_eq_regs h

@[simp] theorem capTake_regs (d : Dev) (s : Nat) (v : VecRec) : (d.capTake s v).regs = d.regs := by
  unfold Dev.capTake
  split
  · rfl
  next p _ =>
    have samples : ∀ d : Dev, (v.samps.foldl (fun d x =>
        let m := nth p.modes x.pin 0; if m = 1 ∨ m = 2 then d.capSample s p v m x else d) d).regs = d.regs :=
      fun d => foldl_regs _ d fun d x => by dsimp only; split <;> simp
    dsimp only
    split <;> split <;> simp [samples]

@[simp] theorem capDecide_regs (d : Dev) (s : Nat) : (d.capDecide s).regs = d.regs := by
  unfold Dev.capDecide
  split <;> rfl

@[simp] theorem capDrain_regs (d : Dev) (s : Nat) (l : List CapItem) : (d.capDrain s l).regs = d.regs := by
  induction l generalizing d with
  | nil => rfl
  | cons x t ih =>
    cases x with
    | boundary => simp [Dev.capDrain, ih]
    | vec v p j =>
      unfold Dev.capDrain
      split
      · rfl
      · simp [ih]

@[simp] theorem capFlush_regs (d : Dev) (s : Nat) (atOnce : Bool) : (d.capFlush s atOnce).regs = d.regs := capDrain_regs d s _

@[simp] theorem capBegin_regs (d : Dev) (s : Nat) : (d.capBegin s).regs = d.regs := by
  unfold Dev.capBegin
  dsimp only
  split <;> rfl

@[simp] theorem capFinish_regs (d : Dev) (s : Nat) : (d.capFinish s).regs = d.regs := by
  unfold Dev.capFinish
  dsimp only
  split
  · rfl
  · have results : ∀ (l : List WinInst) (p : CapPlan) (d : Dev), (l.foldl (fun d i => d.capResult s p i) d).regs = d.regs :=
      fun l p d => foldl_regs l d fun d i => capResult_regs d s p i
    split <;> simp [results]

/-! Sites, groups, rendezvous, plans. -/

@[simp] theorem lastEvents_regs (d : Dev) (s : Nat) (atOnce : Bool) : (d.lastEvents s atOnce).regs = d.regs := by
  have events : ∀ (l : List Spill) (d : Dev), (l.foldl (fun (d : Dev) x => d.drive x.ch x.drv x.t) d).regs = d.regs :=
    fun l d => foldl_regs l d fun d x => drive_regs d _ _ _
  unfold Dev.lastEvents
  dsimp only
  split <;> simp [events]

@[simp] theorem addReason_regs (d : Dev) (s r : Nat) : (d.addReason s r).regs = d.regs := by
  unfold Dev.addReason
  exact ite_regs rfl (ite_regs rfl rfl)

@[simp] theorem holdCause_regs (d : Dev) (k : Nat) : (d.holdCause k).regs = d.regs := by
  unfold Dev.holdCause
  split
  · rfl
  split
  · rfl
  split
  · exact foldl_regs _ d fun _ _ => rfl
  · rfl

@[simp] theorem freeEngine_regs (d : Dev) (e : Nat) : (d.freeEngine e).regs = d.regs := by
  unfold Dev.freeEngine
  split
  · rfl
  dsimp only
  split
  · exact holdCause_regs _ _
  · rfl

@[simp] theorem leaveGroup_regs (d : Dev) (s : Nat) : (d.leaveGroup s).regs = d.regs := by
  unfold Dev.leaveGroup
  split
  · rfl
  dsimp only
  split
  · exact foldl_regs _ _ freeEngine_regs
  · unfold Dev.nameGroup
    split
    · rfl
    · exact foldl_regs _ _ fun _ _ => rfl

@[simp] theorem ppmuFinish_regs (d : Dev) : d.ppmuFinish.regs = d.regs := foldl_regs _ _ fun _ _ => rfl

@[simp] theorem douseEntry_regs (d : Dev) (cause scope b : Nat) : (d.douseEntry cause scope b).regs = d.regs := by
  unfold Dev.douseEntry
  split <;> rfl

end Sys2Proof.Proofs
end

section
/-! PROOFS. What the end of a run, a douse and a fault line leave of the ledger, audit and security windows: the frames of Laws/Keeps.lean
say nothing of these. -/

namespace Sys2Proof.Proofs

open Sys2Proof Sys2Proof.Machine

/-- Registers of the ledger, audit and security windows (R46), but for offsets that TMU_CH_LOST would have for channel numbers that do not exist. -/
def ledgerReg (off : Nat) : Bool := decide (0xE0000 ≤ off ∧ off < 0x100000) && off % 64 != 32

/-- The registers of these windows hold what they held. -/
def KeepsLedger (d e : Dev) : Prop := ∀ off, ledgerReg off = true → e.reg off = d.reg off

namespace KeepsLedger

theorem refl (d : Dev) : KeepsLedger d d := fun _ _ => rfl

theorem trans {d e f : Dev} (h : KeepsLedger d e) (g : KeepsLedger e f) : KeepsLedger d f := fun off hoff => (g off hoff).trans (h off hoff)

theorem of_regs {d e : Dev} (h : e.regs = d.regs) : KeepsLedger d e := fun off _ => by rw [Dev.reg, h]; rfl

/-- A further operation that writes no register. -/
theorem then_regs {d e f : Dev} (h : KeepsLedger d e) (g : f.regs = e.regs) : KeepsLedger d f := h.trans (of_regs g)

theorem foldl {α : Type} {f : Dev → α → Dev} (xs : List α) (d : Dev) (h : ∀ d x, KeepsLedger d (f d x)) : KeepsLedger d (xs.foldl f d) :=
  List.foldlRecOn xs f (motive := KeepsLedger d) (refl d) (fun e he x _ => he.trans (h e x))

theorem ite {c : Prop} [Decidable c] {d a b : Dev} (ha : KeepsLedger d a) (hb : KeepsLedger d b) : KeepsLedger d (if c then a else b) := by
  split <;> assumption

theorem setReg (d : Dev) {off : Nat} (w : Word) (h : ledgerReg off = false) : KeepsLedger d (d.setReg off w) :=
  fun o ho => reg_setReg_other d off o w (fun e => by rw [e, h] at ho; cases ho)

theorem setF (d : Dev) {off : Nat} (f : Fld) (v : Nat) (h : ledgerReg off = false) : KeepsLedger d (d.setF off f v) := setReg d _ h
theorem latch (d : Dev) {off : Nat} (f : Fld) (h : ledgerReg off = false) : KeepsLedger d (d.latch off f) := setReg d _ h
theorem bump (d : Dev) {off : Nat} (f : Fld) (n : Nat) (h : ledgerReg off = false) : KeepsLedger d (d.bump off f n) := setReg d _ h

theorem ledgerReg_tmuLost (n : Nat) : ledgerReg (R.TMU_CH_LOST n) = false := by
  simp [ledgerReg, R.TMU_CH_LOST]

theorem ledgerReg_hearthInt (h : Nat) : ledgerReg (R.HRT_INT_STATUS h) = false := by
  simp [ledgerReg, R.HRT_INT_STATUS]
  omega

/-! TMU channels. -/

theorem tmuQueue (d : Dev) (n : Nat) (x : TmuItem) : KeepsLedger d (d.tmuQueue n x) := by
  unfold Dev.tmuQueue
  refine ite (refl d) (ite (ite ?_ (of_regs rfl)) (of_regs rfl))
  exact (of_regs rfl).trans (bump (d.modTmu n _) _ _ (ledgerReg_tmuLost n))

theorem tmuMark (d : Dev) (n event : Nat) : KeepsLedger d (d.tmuMark n event) := by
  unfold Dev.tmuMark Dev.tmuAfter
  split
  · exact refl d
  · split
    · exact tmuQueue d n _
    · exact of_regs rfl

theorem tmuStop (d : Dev) (s : Nat) : KeepsLedger d (d.tmuStop s) := by
  have tb : KeepsLedger d d.tbNow := of_regs rfl
  exact ite (refl d) (tb.trans (foldl _ _ fun d c => (ite (refl d) (tmuMark d _ 1)).trans (of_regs rfl)))

/-! Packets and rendezvous. -/

theorem sendPacket (d : Dev) (k : Packet) : KeepsLedger d (d.sendPacket k) := by
  unfold Dev.sendPacket
  split
  · exact foldl _ _ fun d p => of_regs (enqueue_regs d p k)
  · split
    · exact of_regs (enqueue_regs d _ k)
    · exact refl d
    · exact ite ((bump d _ _ (by decide)).trans (latch _ _ (by decide))) (bump d _ _ (by decide))

theorem sendEvent (d : Dev) (ring epoch kind site rdvId : Nat) (withdrawn : Bool) (startSeq : Nat) (more : List Nat) :
    KeepsLedger d (d.sendEvent ring epoch kind site rdvId withdrawn startSeq more) := ite (refl d) (sendPacket d _)

theorem takeRelease (d : Dev) (r : Start) (x epoch : Nat) (fails : List Nat) : KeepsLedger d (d.takeRelease r x epoch fails) := by
  unfold Dev.takeRelease
  dsimp only
  split
  · refine KeepsLedger.trans ?_ (foldl _ _ fun _ _ => of_regs rfl)
    exact ((of_regs rfl).trans (bump (d.setMeet _) _ _ (by decide))).trans (latch _ _ (by decide))
  · exact (of_regs rfl : KeepsLedger d (d.setMeet _)).trans (foldl _ _ fun _ _ => of_regs rfl)

theorem gather (d : Dev) (r : Start) (rep : RdvReport) : KeepsLedger d (d.gather r rep) := by
  unfold Dev.gather
  dsimp only
  split
  · exact of_regs rfl
  split
  · exact of_regs rfl
  · refine KeepsLedger.trans ?_ (takeRelease _ _ _ _ _)
    exact ite ((of_regs rfl).trans (sendEvent ((d.setMeet _).setMeet _) _ _ _ _ _ _ _ _)) (of_regs rfl)

theorem rdvCheck (d : Dev) (id : Nat) : KeepsLedger d (d.rdvCheck id) := by
  have met : ∀ m, KeepsLedger d (d.setMeet m) := fun _ => of_regs rfl
  unfold Dev.rdvCheck
  split
  · exact refl d
  · exact ite (refl d) (ite (of_regs rfl) (ite ((met _).trans (gather _ _ _)) (ite ((met _).trans (sendPacket _ _)) ((met _).trans (gather _ _ _)))))

theorem sendFail (d : Dev) (s : Nat) : KeepsLedger d (d.sendFail s) := by
  unfold Dev.sendFail
  split
  · exact refl d
  · exact ite (refl d) (ite (foldl _ _ fun d p => of_regs (enqueue_regs d p _)) (sendEvent d _ _ _ _ _ _ _ _))

/-! The end of a run. -/

theorem endWait (d : Dev) (s endCode : Nat) : KeepsLedger d (d.endWait s endCode) := by
  have report : ∀ (d : Dev) (b : List Byte), KeepsLedger d (d.postReport s b) := fun d b =>
    ite (of_regs rfl) ((of_regs rfl).trans (bump { d with seq := { d.seq with reportSeq := (d.seq.reportSeq + 1) % 2 ^ 32 } } _ _ (by decide)))
  unfold Dev.endWait
  dsimp only
  split
  · exact refl d
  · exact (of_regs rfl).trans (report (d.modSite s _) _)

theorem endSite (d : Dev) (s : Nat) (cause : EndCause) (reason : Nat) (fromFail : Bool) : KeepsLedger d (d.endSite s cause reason fromFail) := by
  unfold Dev.endSite
  refine ite (refl d) ?_
  have intr : ∀ (d : Dev) (f : Fld), KeepsLedger d (d.latch (R.HRT_INT_STATUS (homeHearth s)) f) := fun d f => latch d f (ledgerReg_hearthInt _)
  have reasons : ∀ (l : List Nat) (d : Dev), KeepsLedger d (l.foldl (fun d r => d.addReason s r) d) :=
    fun l d => foldl l d fun d r => of_regs (addReason_regs d s r)
  -- from the last operation back to the first
  refine KeepsLedger.trans ?_ (rdvCheck _ _)
  refine KeepsLedger.trans ?_ (ite (sendFail _ _) (refl _))
  refine ((KeepsLedger.trans ?_ (tmuStop _ _)).then_regs (capFinish_regs _ _)).then_regs (leaveGroup_regs _ _)
  refine (KeepsLedger.then_regs ?_ (pinsSafe_regs _ _)).then_regs (ddsStop_regs _ _)
  refine KeepsLedger.trans ?_ (ite (intr _ _) (refl _))
  refine KeepsLedger.trans ?_ (ite (intr _ _) (refl _))
  refine (KeepsLedger.then_regs ?_ (addReason_regs _ _ _)).trans ((of_regs rfl).trans (ite (refl (Dev.modSite _ s _)) (of_regs (capBegin_regs _ _))))
  exact ((endWait d s 1).trans (ite (of_regs (lastEvents_regs _ s _)) (refl _))).trans (ite (reasons _ _) (refl _))

/-! Douses and fault lines. -/

theorem ownerWrite (d : Dev) (ring a : Nat) (bs : List Byte) : KeepsLedger d (d.ownerWrite ring a bs) := ite (sendPacket d _) (of_regs rfl)

theorem ppmuEndStep (d : Dev) (p : PpmuPlan) (s : PpmuStep) (code flags : Nat) : KeepsLedger d (d.ppmuEndStep p s code flags) :=
  (ownerWrite d p.ring _ _).trans (of_regs rfl)

theorem ppmuDouse (d : Dev) (g scope : Nat) : KeepsLedger d (d.ppmuDouse g scope) := by
  have forceOff : KeepsLedger d (match d.staticPin g with
      | some p => if tbit scope (8 * g + p.pin) then d.modGrate g (fun x => { x with forceOff := true }) else d
      | none => d) := by
    split
    · exact ite (of_regs rfl) (refl d)
    · exact refl d
  unfold Dev.ppmuDouse
  dsimp only
  split
  · exact forceOff
  · refine KeepsLedger.trans ?_ (of_regs (ppmuFinish_regs _))
    refine KeepsLedger.trans ?_ (foldl _ _ fun d x => (of_regs rfl).trans (ppmuEndStep d.drawNat.2 _ _ _ _))
    exact forceOff.trans ((of_regs rfl).trans (ppmuEndStep (Dev.drawNat _).2 _ _ _ _))

theorem calEnd (d : Dev) (h code pin : Nat) : KeepsLedger d (d.calEnd h (some (code, pin))) := by
  have cal : ∀ (d : Dev) (f : Fld) (v : Nat), KeepsLedger d (d.setF R.CAL_PROC_STATUS f v) := fun d f v => setF d f v (by decide)
  unfold Dev.calEnd
  split
  · exact refl d
  · refine ite (refl d) ?_
    have outcome := fun n => (ite (c := d.getF R.CAL_PROC_STATUS F.CAL_PROC_STATUS_OUTCOME = 0)
      ((cal d F.CAL_PROC_STATUS_PIN pin).trans (cal _ F.CAL_PROC_STATUS_HEARTH h)) (refl d)).trans (cal _ F.CAL_PROC_STATUS_OUTCOME n)
    have last : ∀ (e : Dev) (c : CalState) (n : Nat), KeepsLedger e (((({ e with cal := c }).setF R.CAL_PROC_STATUS F.CAL_PROC_STATUS_BUSY 0).setF
        R.CAL_PROC_STATUS F.CAL_PROC_STATUS_OUTCOME n).latch R.CAL_INT_STATUS F.CAL_INT_STATUS_PROC_DONE) := fun e c n =>
      (of_regs rfl : KeepsLedger e { e with cal := c }).trans (((cal _ _ _).trans (cal _ _ _)).trans (latch _ _ (by decide)))
    exact ite ((outcome _).trans (last _ _ _)) ((outcome _).trans (of_regs rfl))

theorem douseHalt (d : Dev) (scope : Nat) : KeepsLedger d (d.douseHalt scope) := by
  unfold Dev.douseHalt
  dsimp only
  refine KeepsLedger.trans ?_ (foldl _ _ fun d h => calEnd d h 5 0)
  refine KeepsLedger.trans ?_ (foldl _ _ fun d g => ppmuDouse d g scope)
  exact (foldl _ _ fun d s => endSite d s .douse 0 false).then_regs (pinsSafe_regs _ _)

theorem supSeqEnd (d : Dev) (outcome step : Nat) : KeepsLedger d (d.supSeqEnd outcome step) := by
  have ctrl : ∀ (d : Dev) (f : Fld) (v : Nat), KeepsLedger d (d.setF R.PWR_SUP_CTRL f v) := fun d f v => setF d f v (by decide)
  have idle : KeepsLedger d { d with power := { d.power with seq := none } } := of_regs rfl
  exact idle.trans ((((ctrl _ _ _).trans (ctrl _ _ _)).trans (ctrl _ _ _)).trans (latch _ _ (by decide)))

theorem douse (d : Dev) (cause source faultBit : Nat) (resetAfter : Bool) : KeepsLedger d (d.douse cause source faultBit resetAfter) := by
  have status : ∀ (d : Dev) (f : Fld) (v : Nat), KeepsLedger d (d.setF R.FLT_DOUSE_STATUS f v) := fun d f v => setF d f v (by decide)
  have seqEnd : ∀ (d : Dev) (scope : Nat), KeepsLedger d (d.douseSeq scope) := fun d scope => by
    unfold Dev.douseSeq
    split
    · exact ite (refl d) (supSeqEnd d _ _)
    · exact refl d
  unfold Dev.douse
  refine ite (of_regs (douseEntry_regs _ _ _ _)) ?_
  have halted := ((douseHalt d (d.closed source)).trans (seqEnd _ (d.closed source))).then_regs (douseEntry_regs _ cause (d.closed source) faultBit)
  refine KeepsLedger.trans ?_ ((status _ _ _).trans (status _ _ _))
  refine KeepsLedger.trans ?_ ((status _ _ _).trans (status _ _ _))
  exact halted.then_regs rfl

theorem latchFault (d : Dev) (b unit : Nat) : KeepsLedger d (d.latchFault b unit) := by
  have held : ∀ f, KeepsLedger d { d.setBit R.FLT_WORD_LO b true with faults := f } :=
    fun f => (setF d ⟨b, 1⟩ (bit true) (by decide : ledgerReg R.FLT_WORD_LO = false)).trans (of_regs rfl)
  exact (held _).trans (ite (refl _) (setReg _ _ (by decide)))

theorem faultSmother (d : Dev) (b unit : Nat) : KeepsLedger d (d.faultSmother b unit) := by
  have smother : ∀ (d : Dev) (s : Nat), KeepsLedger d (d.smother s 3) := fun d s =>
    ite (endSite d s _ _ _) (ite (of_regs rfl) (refl d))
  unfold Dev.faultSmother
  refine ite ?_ (refl d)
  split
  · exact foldl _ _ smother
  · exact refl d

theorem raise (d : Dev) (b unit : Nat) : KeepsLedger d (d.raise b unit) :=
  ite (refl d) (ite (faultSmother d b unit)
    (((latchFault d b unit).trans (ite (douse _ _ _ _ _) (ite (douse _ _ _ _ _) (refl _)))).trans (faultSmother _ b unit)))

end KeepsLedger

end Sys2Proof.Proofs
end

section
/-! PROOFS. Refused and accepted accesses of a core (spec/00 R7, R8, spec/20 R516, R518). -/

namespace Sys2Proof.Proofs

open Sys2Proof Sys2Proof.Machine

/-! ### Fault lines -/

theorem bitOf_eq_of_reg {d e : Dev} {off : Nat} (i : Nat) (h : e.reg off = d.reg off) : e.bitOf off i = d.bitOf off i := by
  rw [Dev.bitOf, Dev.getF, h]; rfl

theorem getF_eq_of_reg {d e : Dev} {off : Nat} (f : Fld) (h : e.reg off = d.reg off) : e.getF off f = d.getF off f := by
  rw [Dev.getF, h]; rfl

theorem latchFault_reg_other (d : Dev) (b unit : Nat) {off : Nat} (hw : off ≠ R.FLT_WORD_LO) (hf : off ≠ R.FLT_FIRST) :
    (d.latchFault b unit).reg off = d.reg off := by
  have word : ∀ f : Faults, ({ d.setBit R.FLT_WORD_LO b true with faults := f } : Dev).reg off = d.reg off :=
    fun _ => reg_setF_other d R.FLT_WORD_LO off _ _ hw
  unfold Dev.latchFault
  dsimp only
  split
  · exact word _
  · exact (reg_setReg_other _ _ _ _ hf).trans (word _)

/-- A latched bit is set (R464). -/
theorem latchFault_bitOf (d : Dev) {b : Nat} (unit : Nat) (hb : b < 32) : (d.latchFault b unit).bitOf R.FLT_WORD_LO b = true := by
  have word : (d.setBit R.FLT_WORD_LO b true).bitOf R.FLT_WORD_LO b = true := by
    rw [Dev.bitOf, Dev.setBit, getF_setF_same _ _ _ _ (by simpa using hb)]; rfl
  refine (bitOf_eq_of_reg b ?_).trans word
  unfold Dev.latchFault
  dsimp only
  split
  · rfl
  · exact reg_setReg_other _ _ _ _ (by decide)

/-- A line that asserts leaves its bit set, whatever its reaction (R464, R465). -/
theorem raise_bitOf (d : Dev) {b : Nat} (unit : Nat) (hb : b < faultBits) : (d.raise b unit).bitOf R.FLT_WORD_LO b = true := by
  have smothered : ∀ d : Dev, (d.faultSmother b unit).bitOf R.FLT_WORD_LO b = d.bitOf R.FLT_WORD_LO b :=
    fun d => bitOf_eq_of_reg b ((Spares.faultSmother (l := []) d b unit).reg _ (by decide) (by decide) (by decide))
  have doused : ∀ (d : Dev) (source : Nat), (d.douse dcFault source b).bitOf R.FLT_WORD_LO b = d.bitOf R.FLT_WORD_LO b :=
    fun d source => bitOf_eq_of_reg b ((Spares.douse d dcFault source b false).reg _ (by decide) (by decide) (by decide))
  have latched : (d.latchFault b unit).bitOf R.FLT_WORD_LO b = true := latchFault_bitOf d unit (by unfold faultBits at hb; omega)
  unfold Dev.raise
  rw [if_neg (by omega)]
  by_cases hset : d.bitOf R.FLT_WORD_LO b = true
  · rw [if_pos hset, smothered, hset]
  · rw [if_neg hset]
    dsimp only
    rw [smothered]
    split
    · rw [doused, latched]
    split
    · rw [doused, latched]
    · exact latched

/-- A line latched while its bit was clear reacts as FLT_CFGk says (R465). -/
theorem latchFault_faultReact (d : Dev) {b : Nat} (unit : Nat) (hb : b < 32) : (d.latchFault b unit).faultReact b = d.cfgReact b := by
  have cfg : (d.setBit R.FLT_WORD_LO b true).cfgReact b = d.cfgReact b :=
    getF_eq_of_reg _ (reg_setF_other d _ _ _ _ (by simp only [R.FLT_CFG, R.FLT_WORD_LO]; omega))
  have held : mapGet (d.latchFault b unit).faults.held b ((d.latchFault b unit).cfgClass b, (d.latchFault b unit).cfgReact b) =
      ((d.setBit R.FLT_WORD_LO b true).cfgClass b, (d.setBit R.FLT_WORD_LO b true).cfgReact b) := by
    unfold Dev.latchFault
    dsimp only
    split <;> exact mapGet_mapSet_same _ _ _ _
  rw [Dev.faultReact, if_pos (latchFault_bitOf d unit hb), held, cfg]


/-- The ACCESS line has no unit with sites: its assertion smothers none (R465, R468). -/
theorem faultSmother_access (d : Dev) (origin : Nat) : d.faultSmother 20 origin = d := ite_self d

/-- An ACCESS line under a reaction that douses nothing is latched, once (R464, R465). -/
theorem raise_access_quiet (d : Dev) (origin : Nat) (h : d.faultReact 20 < 2) :
    d.raise 20 origin = if d.bitOf R.FLT_WORD_LO 20 = true then d else d.latchFault 20 origin := by
  unfold Dev.raise
  rw [if_neg (by decide)]
  simp only [faultSmother_access]
  by_cases hset : d.bitOf R.FLT_WORD_LO 20 = true
  · rw [if_pos hset, if_pos hset]
  · have react : (d.latchFault 20 origin).faultReact 20 < 2 := by
      rw [latchFault_faultReact d origin (by decide)]
      rwa [Dev.faultReact, if_neg hset] at h
    rw [if_neg hset, if_neg hset, if_neg (by omega), if_neg (by omega)]

/-! ### Refused accesses (R518) -/

/-- The registers of a violation: what it notes and counts. -/
def violRegs : List Nat := [R.AUD_VIOL_INFO, R.AUD_VIOL_ADDR_LO, R.AUD_VIOL_ADDR_HI]

/-- The device with a refusal noted, when it is the first, and counted; the ACCESS line has not asserted yet. -/
def violNoted (d : Dev) (origin addr kind : Nat) : Dev :=
  (if d.flag R.AUD_VIOL_INFO F.AUD_VIOL_INFO_VALID then d
  else ((((d.setReg R.AUD_VIOL_ADDR_LO (BitVec.ofNat 32 addr)).setReg R.AUD_VIOL_ADDR_HI (BitVec.ofNat 32 (addr / 2 ^ 32 % 4096))).setF
    R.AUD_VIOL_INFO F.AUD_VIOL_INFO_KIND kind).setF R.AUD_VIOL_INFO F.AUD_VIOL_INFO_ORIGIN origin).latch R.AUD_VIOL_INFO F.AUD_VIOL_INFO_VALID).bump
    R.AUD_VIOL_INFO F.AUD_VIOL_INFO_COUNT

section
variable (d : Dev) (origin addr kind : Nat)

theorem refuse_eq : d.refuse origin addr kind =
    ((((violNoted d origin addr kind).logViolation origin addr kind).raise 20 origin).out (.busError origin addr)) := rfl

theorem violNoted_rest : (violNoted d origin addr kind).mem = d.mem ∧ (violNoted d origin addr kind).seq = d.seq ∧
    (violNoted d origin addr kind).faults = d.faults := by
  unfold violNoted
  split <;> exact ⟨rfl, rfl, rfl⟩

theorem violNoted_reg_other {off : Nat} (h : off ∉ violRegs) : (violNoted d origin addr kind).reg off = d.reg off := by
  simp only [violRegs, List.mem_cons, List.not_mem_nil, or_false, not_or] at h
  obtain ⟨hinfo, hlo, hhi⟩ := h
  unfold violNoted
  rw [reg_bump_other _ _ _ _ _ hinfo]
  split
  · rfl
  · rw [reg_latch_other _ _ _ _ hinfo, reg_setF_other _ _ _ _ _ hinfo, reg_setF_other _ _ _ _ _ hinfo, reg_setReg_other _ _ _ _ hhi,
      reg_setReg_other _ _ _ _ hlo]

theorem violNoted_count : (violNoted d origin addr kind).getF R.AUD_VIOL_INFO F.AUD_VIOL_INFO_COUNT =
    capAt (d.getF R.AUD_VIOL_INFO F.AUD_VIOL_INFO_COUNT + 1) 65535 := by
  have bumped : ∀ e : Dev, (e.bump R.AUD_VIOL_INFO F.AUD_VIOL_INFO_COUNT).getF R.AUD_VIOL_INFO F.AUD_VIOL_INFO_COUNT =
      capAt (e.getF R.AUD_VIOL_INFO F.AUD_VIOL_INFO_COUNT + 1) 65535 := fun e => by
    rw [Dev.bump, getF_setF_same _ _ _ _ (by decide)]
    refine Nat.mod_eq_of_lt (?_ : capAt _ 65535 < 65536)
    unfold capAt
    split <;> omega
  unfold violNoted
  rw [bumped]
  split
  · rfl
  · rw [Dev.latch, getF_setF_disjoint _ _ _ _ _ (by decide) (by decide), getF_setF_disjoint _ _ _ _ _ (by decide) (by decide),
      getF_setF_disjoint _ _ _ _ _ (by decide) (by decide), getF_eq_of_reg _ (reg_setReg_other _ _ _ _ (by decide)),
      getF_eq_of_reg _ (reg_setReg_other _ _ _ _ (by decide))]

theorem violNoted_first (h : d.flag R.AUD_VIOL_INFO F.AUD_VIOL_INFO_VALID = false) :
    (violNoted d origin addr kind).flag R.AUD_VIOL_INFO F.AUD_VIOL_INFO_VALID = true ∧
    (violNoted d origin addr kind).getF R.AUD_VIOL_INFO F.AUD_VIOL_INFO_KIND = kind % 8 ∧
    (violNoted d origin addr kind).getF R.AUD_VIOL_INFO F.AUD_VIOL_INFO_ORIGIN = origin % 256 ∧
    (violNoted d origin addr kind).reg R.AUD_VIOL_ADDR_LO = BitVec.ofNat 32 addr := by
  unfold violNoted
  rw [if_neg (by simp [h])]
  refine ⟨?_, ?_, ?_, ?_⟩
  · rw [Dev.flag, Dev.bump, getF_setF_disjoint _ _ _ _ _ (by decide) (by decide), Dev.latch, getF_setF_same _ _ _ _ (by decide)]
    rfl
  · rw [Dev.bump, getF_setF_disjoint _ _ _ _ _ (by decide) (by decide), Dev.latch, getF_setF_disjoint _ _ _ _ _ (by decide) (by decide),
      getF_setF_disjoint _ _ _ _ _ (by decide) (by decide), getF_setF_same _ _ _ _ (by decide)]
    rfl
  · rw [Dev.bump, getF_setF_disjoint _ _ _ _ _ (by decide) (by decide), Dev.latch, getF_setF_disjoint _ _ _ _ _ (by decide) (by decide),
      getF_setF_same _ _ _ _ (by decide)]
    rfl
  · rw [reg_bump_other _ _ _ _ _ (by decide), reg_latch_other _ _ _ _ (by decide), reg_setF_other _ _ _ _ _ (by decide),
      reg_setF_other _ _ _ _ _ (by decide), reg_setReg_other _ _ _ _ (by decide), reg_setReg_same]

/-- The violation registers after a refusal hold what it noted, whatever the ACCESS fault then does. -/
theorem refuse_reg_violRegs {off : Nat} (h : off ∈ violRegs) : (d.refuse origin addr kind).reg off = (violNoted d origin addr kind).reg off := by
  have hledger : ledgerReg off = true := (by decide : ∀ x ∈ violRegs, ledgerReg x = true) off h
  exact KeepsLedger.raise ((violNoted d origin addr kind).logViolation origin addr kind) 20 origin off hledger

/-- Every refusal is counted, up to 65,535. -/
theorem refuse_count : (d.refuse origin addr kind).getF R.AUD_VIOL_INFO F.AUD_VIOL_INFO_COUNT =
    capAt (d.getF R.AUD_VIOL_INFO F.AUD_VIOL_INFO_COUNT + 1) 65535 := by
  rw [getF_eq_of_reg _ (refuse_reg_violRegs d origin addr kind (by decide)), violNoted_count]

/-- The first refusal is noted: VALID, its kind, who made it and where. -/
theorem refuse_first (h : d.flag R.AUD_VIOL_INFO F.AUD_VIOL_INFO_VALID = false) :
    (d.refuse origin addr kind).flag R.AUD_VIOL_INFO F.AUD_VIOL_INFO_VALID = true ∧
    (d.refuse origin addr kind).getF R.AUD_VIOL_INFO F.AUD_VIOL_INFO_KIND = kind % 8 ∧
    (d.refuse origin addr kind).getF R.AUD_VIOL_INFO F.AUD_VIOL_INFO_ORIGIN = origin % 256 ∧
    (d.refuse origin addr kind).reg R.AUD_VIOL_ADDR_LO = BitVec.ofNat 32 addr := by
  have info := refuse_reg_violRegs d origin addr kind (off := R.AUD_VIOL_INFO) (by decide)
  rw [Dev.flag, getF_eq_of_reg _ info, getF_eq_of_reg _ info, getF_eq_of_reg _ info, refuse_reg_violRegs d origin addr kind (by decide)]
  exact violNoted_first d origin addr kind h

/-- A refusal sets the ACCESS fault (R464). -/
theorem refuse_bitOf : (d.refuse origin addr kind).bitOf R.FLT_WORD_LO 20 = true :=
  raise_bitOf ((violNoted d origin addr kind).logViolation origin addr kind) origin (by decide)

/-- A refusal of a core's access answers a bus error (R7). -/
theorem busError_mem_refuse : Output.busError origin addr ∈ (d.refuse origin addr kind).outbox := by
  rw [refuse_eq, out_outbox]
  exact List.mem_append_right _ (List.mem_singleton_self _)

/-- Where the ACCESS fault douses nothing, a refusal leaves memory and runs, and every register but those of the violation, FLT_WORD and
FLT_FIRST. -/
theorem refuse_quiet (h : d.faultReact 20 < 2) :
    (d.refuse origin addr kind).mem = d.mem ∧ (d.refuse origin addr kind).seq = d.seq ∧
    RegsBut [R.AUD_VIOL_INFO, R.AUD_VIOL_ADDR_LO, R.AUD_VIOL_ADDR_HI, R.FLT_WORD_LO, R.FLT_FIRST] d (d.refuse origin addr kind) := by
  have noted_reg : ∀ {off}, off ∉ violRegs → ((violNoted d origin addr kind).logViolation origin addr kind).reg off = d.reg off :=
    fun hoff => violNoted_reg_other d origin addr kind hoff
  have noted_rest : ((violNoted d origin addr kind).logViolation origin addr kind).mem = d.mem ∧
      ((violNoted d origin addr kind).logViolation origin addr kind).seq = d.seq ∧
      ((violNoted d origin addr kind).logViolation origin addr kind).faults = d.faults := violNoted_rest d origin addr kind
  rw [refuse_eq]
  generalize (violNoted d origin addr kind).logViolation origin addr kind = n at noted_reg noted_rest
  obtain ⟨hmem, hseq, hfaults⟩ := noted_rest
  have react : n.faultReact 20 < 2 := by
    have hreact : n.faultReact 20 = d.faultReact 20 := by
      rw [Dev.faultReact, Dev.faultReact, Dev.cfgReact, Dev.cfgReact, Dev.cfgClass, Dev.cfgClass, hfaults, bitOf_eq_of_reg 20 (noted_reg (by decide)),
        getF_eq_of_reg _ (noted_reg (by decide)), getF_eq_of_reg _ (noted_reg (by decide))]
    rwa [hreact]
  have latched : (n.latchFault 20 origin).mem = n.mem ∧ (n.latchFault 20 origin).seq = n.seq := by
    unfold Dev.latchFault
    dsimp only
    split <;> exact ⟨rfl, rfl⟩
  rw [raise_access_quiet n origin react]
  refine ⟨?_, ?_, fun off hoff => ?_⟩
  · split
    · exact hmem
    · exact latched.1.trans hmem
  · split
    · exact hseq
    · exact latched.2.trans hseq
  · have hviol : off ∉ violRegs := fun hin => hoff (List.mem_append_left [R.FLT_WORD_LO, R.FLT_FIRST] hin)
    simp only [List.mem_cons, not_or] at hoff
    obtain ⟨-, -, -, hword, hfirst, -⟩ := hoff
    split
    · exact noted_reg hviol
    · exact (latchFault_reg_other n 20 origin hword hfirst).trans (noted_reg hviol)

end

/-! ### Accesses of a core -/

theorem origin_id_lt (o : Origin) : o.id < 256 := by
  cases o <;> simp only [Origin.id] <;> omega

theorem inRegs_iff (a : Nat) : inRegs a = true ↔ regBase ≤ a ∧ a < regBase + regSize := by
  simp [inRegs]

/-- What a refused write does to a mailbox leaves the ledger, audit and security windows (R408). -/
theorem keepsLedger_refusedWrite (d : Dev) (origin off kind : Nat) : KeepsLedger d (d.refusedWrite origin off kind) := by
  unfold Dev.refusedWrite
  refine KeepsLedger.ite ?_ (KeepsLedger.refl d)
  unfold Dev.mbxRefused
  split
  · next n hbox =>
    have hn : n < 16 := by
      unfold mbxOf at hbox
      split at hbox
      · simp only [Option.some.injEq, Prod.mk.injEq] at hbox
        omega
      · cases hbox
    split
    · refine KeepsLedger.ite (KeepsLedger.setF d _ _ ?_) (KeepsLedger.refl d)
      simp [ledgerReg, R.MBX_STATUS]
      omega
    · exact KeepsLedger.refl d
  · exact KeepsLedger.refl d

section
variable (d : Dev) (o : Origin)

/-- A device that kindling has stopped answers no access (R29). -/
theorem coreWrite_stopped (a size v : Nat) (hs : d.board.stopped = true) : d.coreWrite o.id a size v = d := if_pos hs

/-- In register space only 32 bits are taken (R7). -/
theorem coreWrite_narrow {a size : Nat} (v : Nat) (hs : d.board.stopped = false) (ha : regBase ≤ a ∧ a < regBase + regSize) (hsize : size ≠ 4) :
    d.coreWrite o.id a size v = d.refuse o.id a vkAlignment := by
  rw [Dev.coreWrite, if_neg (by simp [hs]), if_pos ((inRegs_iff a).mpr ha), if_pos hsize]

/-- 32 bits in register space are a register write. -/
theorem coreWrite_reg {off : Nat} (v : Nat) (hs : d.board.stopped = false) (hoff : off < regSize) :
    d.coreWrite o.id (regBase + off) 4 v = d.writeReg o.id off (BitVec.ofNat 32 v) := by
  rw [Dev.coreWrite, if_neg (by simp [hs]), if_pos ((inRegs_iff _).mpr ⟨by omega, by omega⟩), if_neg (by simp), Nat.add_sub_cancel_left]

/-- Outside register space the map judges: it refuses (R43, R44, R423). -/
theorem coreWrite_mem_refused {a size k : Nat} (v : Nat) (hs : d.board.stopped = false) (ha : ¬(regBase ≤ a ∧ a < regBase + regSize))
    (hk : d.memRefusal o.id a size true = some k) : d.coreWrite o.id a size v = d.refuse o.id a k := by
  simp [Dev.coreWrite, hs, mt (inRegs_iff a).mp ha, hk]

/-- Outside register space the map judges: it lets the bytes through (R43, R44, R423). -/
theorem coreWrite_mem_accepted {a size : Nat} (v : Nat) (hs : d.board.stopped = false) (ha : ¬(regBase ≤ a ∧ a < regBase + regSize))
    (hk : d.memRefusal o.id a size true = none) : d.coreWrite o.id a size v = d.writeMem a (bytesOf size v) := by
  simp [Dev.coreWrite, hs, mt (inRegs_iff a).mp ha, hk]

end

/-! ### Memory -/

@[simp] theorem length_bytesOf (n v : Nat) : (bytesOf n v).length = n := by
  induction n generalizing v with
  | zero => rfl
  | succ n ih => simp [bytesOf, ih]

/-- Bytes that no ring watches are written alone (R355). -/
theorem writeMem_unwatched {d : Dev} {a : Nat} {bs : List Byte} (h : Unwatched d a bs.length) : d.writeMem a bs = d.write a bs := by
  unfold Dev.writeMem Dev.watchLines
  refine List.foldlRecOn (List.range 64) _ (motive := fun e => e = d.write a bs) rfl fun e he i hi => ?_
  rw [he]
  refine if_neg ?_
  rintro ⟨hon, hbefore, hafter⟩
  have hline : (d.write a bs).dbAddr i = d.dbAddr i := rfl
  rw [hline] at hbefore hafter
  rcases h i (List.mem_range.mp hi) with hoff | hend | hstart
  · exact hon hoff
  · omega
  · omega

/-- What was written reads back. -/
theorem read_write_same (d : Dev) (a : Nat) (bs : List Byte) : (d.write a bs).read a bs.length = bs := by
  refine List.ext_getElem (by simp [Dev.read]) fun i _ hi => ?_
  simpa [Dev.read] using memByte_memWrite_same d.mem a bs i hi

/-! ### The obligation -/

/-- A command that leaves a canonical device leaves the state. -/
theorem exec_eq_self {c : Instr} {s : State} {f : Dev → Dev} (h : exec c s = s.act f) (hf : f s.dev = s.dev) (hinv : s.Inv) : exec c s = .next s := by
  rw [h, act_eq, hf, State.put, canon_of_wf hinv]

theorem exec_registerWrite (o : Origin) (a size v : Nat) (s : State) :
    exec (.registerWrite o a size v) s = s.act (fun d => d.coreWrite o.id a size v) := rfl

/-- Whatever refuses an access of a core, it sets the ACCESS fault and gets a bus error. -/
theorem completes_refused {s : State} {o : Origin} {a size v k : Nat} (h : s.dev.coreWrite o.id a size v = s.dev.refuse o.id a k) :
    Completes (.registerWrite o a size v) s (fun e => e.bitOf R.FLT_WORD_LO 20 = true ∧ Output.busError o.id a ∈ e.outbox) := by
  refine completes_act (exec_registerWrite o a size v s) ?_
  rw [h]
  exact ⟨refuse_bitOf s.dev o.id a k, busError_mem_refuse s.dev o.id a k⟩

/-- Settles O52: a refusal notes, counts, faults and answers, by the lemmas on `Dev.refuse`; what is let through is `Dev.write` of unwatched bytes. -/
theorem refusedAccesses : Obligations.RefusedAccesses := by
  unfold Obligations.RefusedAccesses
  refine ⟨?_, ?_, ?_, ?_, ?_, ?_⟩
  · intro s o off v k hs hoff hk
    refine completes_act (exec_registerWrite o _ 4 v s) ?_
    rw [coreWrite_reg s.dev o v hs hoff, Dev.writeReg, writeVia_refused hs hk]
    have mailbox := keepsLedger_refusedWrite s.dev o.id off k
    have info : (s.dev.refusedWrite o.id off k).reg R.AUD_VIOL_INFO = s.dev.reg R.AUD_VIOL_INFO :=
      keepsLedger_refusedWrite s.dev o.id off k _ (by decide)
    refine ⟨refuse_bitOf _ _ _ _, busError_mem_refuse _ _ _ _, ?_, fun hfirst => ?_, fun hreact hkind => ?_⟩
    · rw [canon_getF, refuse_count, getF_eq_of_reg _ info]
    · rw [Dev.flag, ← getF_eq_of_reg _ info] at hfirst
      have first := refuse_first (s.dev.refusedWrite o.id off k) o.id (regBase + off) k hfirst
      rwa [Nat.mod_eq_of_lt (origin_id_lt o)] at first
    · have alone : s.dev.refusedWrite o.id off k = s.dev := if_neg hkind
      rw [alone]
      obtain ⟨hmem, hseq, hregs⟩ := refuse_quiet s.dev o.id (regBase + off) k hreact
      exact ⟨congrArg memCanon hmem, hseq, hregs⟩
  · intro s o off v hinv hoff haccept hrow
    refine exec_eq_self (exec_registerWrite o _ 4 v s) ?_ hinv
    cases hs : s.dev.board.stopped
    · rw [coreWrite_reg s.dev o v hs hoff, Dev.writeReg, writeVia_unnamed hs haccept hrow]
    · exact coreWrite_stopped s.dev o _ _ _ hs
  · intro s o a size v hs hbase htop hsize
    exact completes_refused (coreWrite_narrow s.dev o v hs ⟨hbase, htop⟩ hsize)
  · intro s o a size v k hs ha hk
    exact completes_refused (coreWrite_mem_refused s.dev o v hs ha hk)
  · intro s o a size v hinv hs hwatch ha hk
    have stored : s.dev.coreWrite o.id a size v = s.dev.write a (bytesOf size v) := by
      rw [coreWrite_mem_accepted s.dev o v hs ha hk]
      exact writeMem_unwatched (by rwa [length_bytesOf])
    refine completes_act (exec_registerWrite o a size v s) ?_
    rw [stored, canon_of_wf (write_wf _ _ _ hinv)]
    refine ⟨?_, rfl, fun b hb => ?_⟩
    · simpa using read_write_same s.dev a (bytesOf size v)
    · exact memByte_memWrite_other _ _ _ _ (by simpa using hb)
  · intro s o a size v hinv hs
    exact exec_eq_self (exec_registerWrite o a size v s) (coreWrite_stopped s.dev o a size v hs) hinv

end Sys2Proof.Proofs
end

section
/-! PROOFS. The canonical form of DRAM through every step (spec/01 R43, R44). -/

namespace Sys2Proof.Proofs

open Sys2Proof Sys2Proof.Machine

set_option Elab.async false

/-- Every command, whatever its operands, answers by `State.put`: it moves the device and leaves the queue. -/
theorem exec_eq_put (c : Instr) (s : State) : ∃ d : Dev, exec c s = .next (s.put d) := by
  cases c <;> exact ⟨_, rfl⟩

/-- A state in which a device is put holds its memory in canonical form, whatever the device's memory was. -/
theorem inv_put (s : State) (d : Dev) : (s.put d).Inv := memCanon_wf d.mem

/-- A command leaves memory in canonical form, even from a state that does not hold it so. -/
theorem inv_of_exec {c : Instr} {s t : State} (h : exec c s = .next t) : t.Inv := by
  obtain ⟨d, hput⟩ := exec_eq_put c s
  rw [← Host.Outcome.next.inj (hput.symm.trans h)]
  exact inv_put s d

/-- Settles O4: an idle step leaves the state, and any other is a command, which puts memory in canonical form. -/
theorem stepKeepsTheInvariant : Obligations.StepKeepsTheInvariant := by
  unfold Obligations.StepKeepsTheInvariant
  intro s t hinv hstep
  unfold step at hstep
  split at hstep
  case h_1 => exact Host.Outcome.next.inj hstep ▸ hinv
  case h_2 c rest hpending => exact inv_of_exec hstep

end Sys2Proof.Proofs
end

section
/-! PROOFS. What the taking and the completion of a descriptor do to its ring (spec/13 R362, R367). -/

namespace Sys2Proof.Proofs

open Sys2Proof Sys2Proof.Machine

set_option Elab.async false

@[simp] theorem ring_modRing_same (d : Dev) (n : Nat) (f : RingSt → RingSt) : (d.modRing n f).ring n = f (d.ring n) :=
  mapGet_mapSet_same _ _ _ _

theorem ring_modRing_other (d : Dev) {n m : Nat} (f : RingSt → RingSt) (h : m ≠ n) : (d.modRing n f).ring m = d.ring m :=
  mapGet_mapSet_other _ _ _ _ _ h

theorem beginDesc_seq (d : Dev) (n : Nat) (q : Desc) (keep : Bool) : (d.beginDesc n q keep).seq = d.seq := by
  rw [beginDesc_only]

theorem beginDesc_regs (d : Dev) (n : Nat) (q : Desc) (keep : Bool) : (d.beginDesc n q keep).regs = d.regs := by
  rw [beginDesc_only]

/-- The descriptor has left the waiting list of its ring, and is the current one if it stays in progress. -/
theorem beginDesc_ring (d : Dev) (n : Nat) (q : Desc) (keep : Bool) :
    (d.beginDesc n q keep).ring n = { d.ring n with waiting := (d.ring n).waiting.tail, current := if keep then some q else none } := by
  rw [← ring_modRing_same d n (fun r => { r with waiting := r.waiting.tail, current := if keep then some q else none })]
  unfold Dev.beginDesc Dev.logDesc
  split <;> rfl

/-- The completion with which a descriptor ends (R367, R369). -/
def ending (q : Desc) (status arg0 arg1 : Nat) : Completion := ⟨q.hostSeq, q.opcode, status, 8 * bit q.irq, arg0, arg1, true⟩

/-- A completion waits behind the others of its ring, and nothing else of the ring moves. -/
theorem complete_ring (d : Dev) (n : Nat) (q : Desc) (status arg0 arg1 : Nat) :
    (d.complete n q status arg0 arg1).ring n = { d.ring n with held := (d.ring n).held ++ [ending q status arg0 arg1] } := by
  refine (ring_modRing_same d n _).trans ?_
  simp [ending, bit]

/-- What a completion posted on a ring, whose current descriptor ends with it, leaves waiting on any ring. -/
theorem held_post_endCurrent (d : Dev) (r n : Nat) (c : Completion) :
    (((d.post r c).endCurrent r).ring n).held = (d.ring n).held ++ if r = n then [c] else [] := by
  unfold Dev.post Dev.endCurrent
  by_cases h : r = n
  · simp [h]
  · simp [h, ring_modRing_other _ _ (Ne.symm h)]

/-- Completions posted in turn join those that wait on their rings; none is lost. -/
theorem mem_held_foldl_post {α : Type} (ring : α → Nat) (comp : α → Completion) (cs : List α) (d : Dev) (n : Nat) (x : Completion) :
    x ∈ ((cs.foldl (fun (d : Dev) c => (d.post (ring c) (comp c)).endCurrent (ring c)) d).ring n).held ↔
      x ∈ (d.ring n).held ∨ ∃ c ∈ cs, ring c = n ∧ comp c = x := by
  induction cs generalizing d with
  | nil => simp
  | cons c t ih =>
    rw [List.foldl_cons, ih, held_post_endCurrent]
    by_cases h : ring c = n
    · simp [h, or_assoc, eq_comm]
    · simp [h]

end Sys2Proof.Proofs
end

section
/-! PROOFS. COMMIT is judged against the set-up that it would make live, and pends (spec/01 R20, R22, R561). -/

namespace Sys2Proof.Proofs

open Sys2Proof Sys2Proof.Machine

set_option Elab.async false

/-! ### What the checks of a commit latch -/

/-- Only registers moved, and HRT_STR_CFG of no hearth among them. -/
structure Latched (d e : Dev) : Prop where
  only : OnlyRegs d e
  cfg : ∀ h, e.reg (R.HRT_STR_CFG h) = d.reg (R.HRT_STR_CFG h)

namespace Latched

theorem refl (d : Dev) : Latched d d := ⟨rfl, fun _ => rfl⟩

theorem trans {d e f : Dev} (h : Latched d e) (g : Latched e f) : Latched d f :=
  ⟨g.only.trans (congrArg (fun x : Dev => { x with regs := f.regs }) h.only), fun i => (g.cfg i).trans (h.cfg i)⟩

theorem foldl {α : Type} {f : Dev → α → Dev} (xs : List α) (d : Dev) (h : ∀ d x, Latched d (f d x)) : Latched d (xs.foldl f d) :=
  List.foldlRecOn xs f (motive := Latched d) (refl d) (fun e he x _ => he.trans (h e x))

/-- A register that HRT_STR_CFG of no hearth is: its place in a hearth's window is another. -/
theorem setReg (d : Dev) {off : Nat} (w : Word) (h : off % 65536 ≠ 0x600) : Latched d (d.setReg off w) :=
  ⟨rfl, fun i => reg_setReg_other d off _ w fun e => h (by rw [← e]; simp [R.HRT_STR_CFG])⟩

theorem seqRefuse (d : Dev) (check site pin : Nat) : Latched d (d.latchSeqRefuse check site pin) := setReg d _ (by simp [R.HRT_SEQ_REFUSE])
theorem capRefuse (d : Dev) (check site win pin : Nat) : Latched d (d.latchCapRefuse check site win pin) := setReg d _ (by simp [R.HRT_CAP_REFUSE])
theorem ddsRefuse (d : Dev) (check site pin : Nat) : Latched d (d.latchDdsRefuse check site pin) := setReg d _ (by simp [R.HRT_DDS_REFUSE])
theorem strRefuse (d : Dev) (h check image : Nat) : Latched d (d.latchStr h check image) := setReg d _ (by simp [R.HRT_STR_REFUSE])
theorem timRefuse (d : Dev) (h : Nat) (w : Word) : Latched d (d.setReg (R.HRT_TIM_REFUSE h) w) := setReg d _ (by simp [R.HRT_TIM_REFUSE])

section
variable (d : Dev) (u : SetUp) (named : List Nat)

theorem judgeImages : Latched d (d.judgeImages u named).1 := foldl _ d fun d x => seqRefuse d _ x.2 0

theorem judgeTiming : Latched d (d.judgeTiming u named).1 := by
  unfold Dev.judgeTiming
  dsimp only
  split
  · exact foldl _ d fun d x => timRefuse d x.1 _
  · refine foldl _ d fun d x => ?_
    split
    · exact seqRefuse d _ _ 0
    · exact timRefuse d x.1 _

theorem judgeStatic : Latched d (d.judgeStatic u named).1 := refl d

variable (claims : List LiveClaim)

theorem judgePlans : Latched d (d.judgePlans u claims).1 := foldl _ d fun d _ => capRefuse d _ _ 0 0

theorem judgeDds : Latched d (d.judgeDds u claims).1 := foldl _ d fun d _ => ddsRefuse d _ _ _

theorem judgeStreams : Latched d (d.judgeStreams u claims named).1 := by
  unfold Dev.judgeStreams
  dsimp only
  split
  · exact foldl _ d fun d x => strRefuse d _ _ _
  · exact foldl _ d fun d x => strRefuse d _ _ _

end

/-- A check group's device, whatever it answers. -/
theorem of_eq {d e : Dev} {j : Judged} {f : Option CommitFail} (h : Latched d j.1) (heq : j = (e, f)) : Latched d e := by
  rwa [heq] at h

/-- The checks of a commit latch, whether it fails or not. -/
theorem judgeCommit (d : Dev) (named : List Nat) : Latched d (d.judgeCommit named).1 := by
  unfold Dev.judgeCommit
  dsimp only
  -- each group in turn either ends the checks or hands on to the next
  split
  · exact refl d
  split
  · next h => exact of_eq (judgeImages d _ named) h
  next d1 h =>
  have images : Latched d d1 := of_eq (judgeImages d _ named) h
  split
  · next h => exact images.trans (of_eq (judgeTiming d1 _ named) h)
  next d2 h =>
  have timing : Latched d d2 := images.trans (of_eq (judgeTiming d1 _ named) h)
  split
  · next h => exact timing.trans (of_eq (judgeStatic d2 _ named) h)
  next d3 h =>
  have static : Latched d d3 := timing.trans (of_eq (judgeStatic d2 _ named) h)
  split
  · exact static
  split
  · exact static
  split
  · exact static
  next claims _ =>
  split
  · exact static
  split
  · next h => exact static.trans (of_eq (judgePlans d3 _ claims) h)
  next d4 h =>
  have plans : Latched d d4 := static.trans (of_eq (judgePlans d3 _ claims) h)
  split
  · next h => exact plans.trans (of_eq (judgeDds d4 _ claims) h)
  next d5 h =>
  have dds : Latched d d5 := plans.trans (of_eq (judgeDds d4 _ claims) h)
  split
  all_goals
    next h => exact dds.trans (of_eq (judgeStreams d5 _ named claims) h)

end Latched

/-! ### The obligation -/

/-- Settles O28: the checks of a commit latch registers only, so a refused one leaves what is live as it was, and one that passes joins those that
pend with the shadow state it was judged with. -/
theorem commitPends : Obligations.CommitPends := by
  unfold Obligations.CommitPends
  intro s n q d hnext
  have commits : exec (.commit n) s = s.act (fun d => d.commitTake n) := rfl
  have judged : ∀ {x}, (s.dev.beginDesc n q true).judgeCommit (q.mask 16 2) = (d, x) → Latched (s.dev.beginDesc n q true) d := fun h => by
    have := Latched.judgeCommit (s.dev.beginDesc n q true) (q.mask 16 2)
    rwa [h] at this
  have seq : Latched (s.dev.beginDesc n q true) d → d.seq = s.dev.seq := fun h => by
    rw [h.only]
    exact beginDesc_seq s.dev n q true
  have ring : Latched (s.dev.beginDesc n q true) d →
      d.ring n = { s.dev.ring n with waiting := (s.dev.ring n).waiting.tail, current := some q } := fun h => by
    rw [h.only]
    exact beginDesc_ring s.dev n q true
  refine ⟨fun f hf => ?_, fun claims hclaims => ?_⟩
  · have taken : s.dev.commitTake n = (d.complete n q f.status f.arg0 f.arg1).endCurrent n := by
      simp only [Dev.commitTake, hnext, hf]
    have ended : ((d.complete n q f.status f.arg0 f.arg1).endCurrent n).ring n =
        { (d.complete n q f.status f.arg0 f.arg1).ring n with current := none } := ring_modRing_same _ n _
    rw [complete_ring, ring (judged hf)] at ended
    refine completes_act commits ?_
    rw [taken]
    exact ⟨⟨congrArg RingSt.held ended, congrArg RingSt.waiting ended, congrArg RingSt.current ended⟩, seq (judged hf)⟩
  · have engines : d.enginesCfg = s.dev.enginesCfg := funext fun h => getF_eq_of_reg _ <|
      ((judged hclaims).cfg h).trans (by rw [Dev.reg, beginDesc_regs]; rfl)
    refine completes_act commits ?_
    simp only [Dev.commitTake, hnext, hclaims, engines]
    refine ⟨?_, ?_, ?_⟩
    · exact congrArg RingSt.current (ring (judged hclaims))
    · exact (congrArg RingSt.held (ring (judged hclaims)) :)
    · rw [canon_seq, seq (judged hclaims)]

end Sys2Proof.Proofs
end

section
/-! PROOFS. A commit applies at a run boundary, and completes when it has settled (spec/01 R20, R21, spec/03 R82, spec/04 R122). -/

namespace Sys2Proof.Proofs

open Sys2Proof Sys2Proof.Machine

set_option Elab.async false

/-! ### Copies between sparse maps -/

section
variable {α : Type} (m src dst : List (Nat × α)) (i : Nat)

theorem mapFind_mapErase_same : mapFind (mapErase m i) i = none := by
  induction m with
  | nil => rfl
  | cons c t ih =>
    obtain ⟨k, w⟩ := c
    by_cases hk : k = i
    · simpa [mapErase, hk] using ih
    · simpa [mapErase, mapFind, hk] using ih

theorem mapFind_mapErase_other {j : Nat} (h : j ≠ i) : mapFind (mapErase m i) j = mapFind m j := by
  induction m with
  | nil => rfl
  | cons c t ih =>
    obtain ⟨k, w⟩ := c
    by_cases hk : k = i
    · simpa [mapErase, mapFind, hk, h.symm] using ih
    · simp only [mapErase, List.filter_cons, bne_iff_ne, ne_eq, hk, not_false_eq_true, if_true, mapFind] at ih ⊢
      rw [ih]

/-- A copied key holds what the source holds for it, or nothing. -/
theorem mapFind_mapCopy_same : mapFind (mapCopy src dst i) i = mapFind src i := by
  unfold mapCopy
  split
  · next v hv => rw [mapFind_mapSet_same, hv]
  · next hv => rw [mapFind_mapErase_same, hv]

theorem mapFind_mapCopy_other {j : Nat} (h : j ≠ i) : mapFind (mapCopy src dst i) j = mapFind dst j := by
  unfold mapCopy
  split
  · exact mapFind_mapSet_other _ _ _ _ h
  · exact mapFind_mapErase_other _ _ h

/-- Of several keys copied, each holds what the source holds; the other keys are untouched. -/
theorem mapFind_foldl_mapCopy (keys : List Nat) (j : Nat) :
    mapFind (keys.foldl (fun m k => mapCopy src m k) dst) j = if j ∈ keys then mapFind src j else mapFind dst j := by
  induction keys generalizing dst with
  | nil => simp
  | cons k t ih =>
    rw [List.foldl_cons, ih]
    by_cases hk : j = k
    · simp [hk, mapFind_mapCopy_same]
    · simp [hk, mapFind_mapCopy_other src dst k hk]

end

/-- The grates of a hearth are its eight (R81). -/
theorem mem_grates_iff (g h : Nat) : g ∈ (List.range 8).map (8 * h + ·) ↔ g / 8 = h := by
  simp only [List.mem_map, List.mem_range]
  constructor
  · rintro ⟨k, hk, rfl⟩
    omega
  · intro hg
    exact ⟨g % 8, Nat.mod_lt _ (by decide), by omega⟩

/-! ### Which parts of the live set-up an application takes (R20, R360) -/

section
variable (live taken : SetUp)

theorem takeHearth_timing (h k : Nat) :
    mapFind (live.takeHearth taken h).timing k = if k = h then mapFind taken.timing k else mapFind live.timing k := by
  by_cases hk : k = h
  · rw [if_pos hk, hk]
    exact mapFind_mapCopy_same _ _ _
  · rw [if_neg hk]
    exact mapFind_mapCopy_other _ _ _ hk

theorem takeHearth_levels (h g : Nat) :
    mapFind (live.takeHearth taken h).levels g = if g / 8 = h then mapFind taken.levels g else mapFind live.levels g := by
  rw [← if_congr (mem_grates_iff g h) rfl rfl]
  exact mapFind_foldl_mapCopy _ _ _ g

end

/-! ### Operations that leave the live set-up -/

theorem foldl_live {β : Type} {f : Dev → β → Dev} (xs : List β) (d : Dev) (h : ∀ d x, (f d x).seq.live = d.seq.live) :
    (xs.foldl f d).seq.live = d.seq.live :=
  List.foldlRecOn xs f (motive := fun e => e.seq.live = d.seq.live) rfl (fun e he x _ => (h e x).trans he)

theorem ite_live {c : Prop} [Decidable c] {a b d : Dev} (ha : a.seq.live = d.seq.live) (hb : b.seq.live = d.seq.live) :
    (if c then a else b).seq.live = d.seq.live := by
  split <;> assumption

section
variable (d : Dev)

@[simp] theorem modGrate_live (g : Nat) (f : Grate → Grate) : (d.modGrate g f).seq.live = d.seq.live := rfl

@[simp] theorem modHearth_live (h : Nat) (f : Hearth → Hearth) : (d.modHearth h f).seq.live = d.seq.live := rfl

@[simp] theorem startSettle_live (x : Settle) : (d.startSettle x).seq.live = d.seq.live := ite_live rfl rfl

@[simp] theorem relayActuate_live (k : Nat) : (d.relayActuate k).seq.live = d.seq.live := ite_live rfl rfl

@[simp] theorem wakeGrate_live (g : Nat) : (d.wakeGrate g).seq.live = d.seq.live := ite_live rfl rfl

@[simp] theorem peakLook_live (h : Nat) : (d.peakLook h).seq.live = d.seq.live := ite_live rfl rfl

@[simp] theorem applyRelays_live (h : Nat) : (d.applyRelays h).seq.live = d.seq.live := by
  unfold Dev.applyRelays
  have grates := foldl_live ((List.range 8).map (8 * h + ·)) d (f := fun (d : Dev) g =>
    let want := (d.liveLevel g).relay
    if (d.grate g).relay = want then d
    else
      let d := (d.modGrate g (fun x => { x with relay := want })).startSettle (.relay g)
      if want then d.relayActuate g else d) fun d g => by
    dsimp only
    split
    · rfl
    · split <;> simp
  dsimp only at grates ⊢
  split
  · exact grates
  · split <;> simp [grates]

@[simp] theorem closeEntry_live (e : DrtEntry) (close stamp : Nat) : (d.closeEntry e close stamp).seq.live = d.seq.live := by
  unfold Dev.closeEntry Dev.trace
  dsimp only
  split <;> rfl

@[simp] theorem drtBind_live (s : Nat) (live : Bool) : (d.drtBind s live).seq.live = d.seq.live := by
  have closed : ∀ (l : List DrtEntry) (stamp : Nat) (e : Dev), (l.foldl (fun d e => d.closeEntry e clClosed stamp) e).seq.live = e.seq.live :=
    fun l stamp e => foldl_live l e fun d x => closeEntry_live d x _ _
  unfold Dev.drtBind
  dsimp only
  split
  · rw [setDrt_seq, closed]
    rfl
  · refine (foldl_live _ _ fun d k => ?_).trans ?_
    · split <;> rfl
    · rw [setDrt_seq, closed]
      rfl

@[simp] theorem streamView_live : d.streamView.seq.live = d.seq.live := by
  unfold Dev.streamView
  dsimp only
  exact foldl_live _ d fun _ _ => rfl

@[simp] theorem tmuClaims_live : d.tmuClaims.seq.live = d.seq.live := by
  unfold Dev.tmuClaims
  refine foldl_live _ d fun d n => ?_
  dsimp only
  split
  · exact (Keeps.tmuMark (d.modTmu n _) n 2).binds
  · exact ite_live rfl rfl

@[simp] theorem tmuPower_live : d.tmuPower.seq.live = d.seq.live := by
  unfold Dev.tmuPower
  exact foldl_live _ d fun _ _ => ite_live rfl (ite_live rfl rfl)

@[simp] theorem tmuCalKick_live : d.tmuCalKick.seq.live = d.seq.live := by
  unfold Dev.tmuCalKick
  exact (tmuPower_live _).trans (foldl_live _ d fun _ _ => ite_live rfl rfl)

@[simp] theorem ppmuKick_live : d.ppmuKick.seq.live = d.seq.live := by
  unfold Dev.ppmuKick
  dsimp only
  exact foldl_live _ _ fun d _ => foldl_live _ d fun d g => wakeGrate_live d g

@[simp] theorem armKick_live : d.armKick.seq.live = d.seq.live := foldl_live _ d fun _ _ => ite_live rfl rfl

@[simp] theorem commitKick_live : d.commitKick.seq.live = d.seq.live := foldl_live _ _ fun _ _ => rfl

end

/-! ### Application at a run boundary -/

/-- A site takes its part of the commit's set-up; the rest of the live set-up is untouched. -/
theorem applySite_live (d : Dev) (c : PendCommit) (s : Nat) : (d.applySite c s).seq.live = d.seq.live.takeSite c.setUp s := by
  have units : ∀ (l : List LiveClaim) (live : SetUp) (d : Dev), (l.foldl (fun (d : Dev) x => match ddsIn live x with
      | some l => d.modDds x.unit (fun u => { (DdsUnit.reset.load l 0 0 0) with steps := u.steps, aligns := u.aligns, delayed := u.delayed })
      | none => d) d).seq.live = d.seq.live := fun l live d => foldl_live l d fun d x => by dsimp only; split <;> rfl
  unfold Dev.applySite
  dsimp only
  split
  · exact units _ _ _
  · exact (drtBind_live _ _ _).trans (units _ _ _)

/-- The sites that are due take the commit's bindings; timing and level sets are not theirs. -/
theorem foldl_applySite (c : PendCommit) (due : List Nat) (d : Dev) :
    let live := (due.foldl (fun (d : Dev) s => d.applySite c s) d).seq.live
    live.timing = d.seq.live.timing ∧ live.levels = d.seq.live.levels ∧
      ∀ x, mapFind live.binds x = if x ∈ due then mapFind c.setUp.binds x else mapFind d.seq.live.binds x := by
  induction due generalizing d with
  | nil => simp
  | cons s t ih =>
    obtain ⟨timing, levels, binds⟩ := ih (d.applySite c s)
    simp only [applySite_live] at timing levels binds
    refine ⟨timing, levels, fun x => (binds x).trans ?_⟩
    by_cases hx : x = s
    · simp [hx, SetUp.takeSite, mapFind_mapCopy_same]
    · simp [hx, SetUp.takeSite, mapFind_mapCopy_other c.setUp.binds d.seq.live.binds s hx]

theorem peakLook_sitesDue (d : Dev) (c : PendCommit) (h k : Nat) : (d.peakLook k).sitesDue c h = d.sitesDue c h := by
  rw [Dev.sitesDue, peakLook_live]
  rfl

/-- What is live once a commit has applied in a hearth: the hearth's timing and level sets, then the parts of the sites due. -/
theorem applyCommit_live (d : Dev) (c : PendCommit) (h : Nat) :
    (d.applyCommit c h).seq.live = ((d.sitesDue c h).foldl (fun (d : Dev) s => d.applySite c s)
      { d.peakLook h with seq := { (d.peakLook h).seq with live := d.seq.live.takeHearth c.setUp h } }).seq.live := by
  have forced : ∀ (l : List Nat) (e : Dev),
      (l.foldl (fun (d : Dev) g => d.modGrate g (fun x => { x with forceOff := false })) e).seq.live = e.seq.live :=
    fun l e => foldl_live l e fun _ _ => rfl
  have levels : ∀ (l : List (Nat × Nat × Nat × Nat × List (Nat × Nat))) (e : Dev), (l.foldl (fun (d : Dev) x =>
      if d.gratePath x.1 != x.2 && (d.grate x.1).dom != .off then d.startSettle (.level x.1) else d) e).seq.live = e.seq.live :=
    fun l e => foldl_live l e fun d x => ite_live (startSettle_live d _) rfl
  have statics : ∀ (l : List (Nat × Option StaticPpmu)) (e : Dev), (l.foldl (fun (d : Dev) x =>
      if (d.staticPin x.1).isSome && d.staticPin x.1 != x.2 then d.wakeGrate x.1 else d) e).seq.live = e.seq.live :=
    fun l e => foldl_live l e fun d x => ite_live (wakeGrate_live d _) rfl
  unfold Dev.applyCommit
  dsimp only
  rw [modHearth_live, statics, applyRelays_live, levels, forced, peakLook_sitesDue, peakLook_live]

/-! ### Calibration procedures at a run boundary (R487) -/

/-- Sites, commits and what is live are as they were. -/
def SetUpKept (d e : Dev) : Prop := e.seq.live = d.seq.live ∧ e.seq.commits = d.seq.commits ∧ e.seq.sites = d.seq.sites

namespace SetUpKept

theorem refl (d : Dev) : SetUpKept d d := ⟨rfl, rfl, rfl⟩

theorem trans {d e f : Dev} (h : SetUpKept d e) (g : SetUpKept e f) : SetUpKept d f :=
  ⟨g.1.trans h.1, g.2.1.trans h.2.1, g.2.2.trans h.2.2⟩

theorem foldl {α : Type} {f : Dev → α → Dev} (xs : List α) (d : Dev) (h : ∀ d x, SetUpKept d (f d x)) : SetUpKept d (xs.foldl f d) :=
  List.foldlRecOn xs f (motive := SetUpKept d) (refl d) (fun e he x _ => he.trans (h e x))

theorem wakeGrate (d : Dev) (g : Nat) : SetUpKept d (d.wakeGrate g) := by
  unfold Dev.wakeGrate
  split
  · exact ⟨rfl, rfl, rfl⟩
  · exact refl d

theorem meanTemp (d : Dev) (sensors : List Nat) : SetUpKept d (d.meanTemp sensors).2 := by
  unfold Dev.meanTemp Dev.divFree
  dsimp only
  split <;> exact ⟨rfl, rfl, rfl⟩

theorem procKick (d : Dev) : SetUpKept d d.procKick := by
  unfold Dev.procKick
  split
  · exact refl d
  · refine foldl _ d fun d h => ?_
    split
    · exact refl d
    · dsimp only
      split
      · exact refl d
      · refine (meanTemp d [h]).trans (SetUpKept.trans ?_ (foldl _ _ fun d k => wakeGrate d _))
        exact ⟨rfl, rfl, rfl⟩

end SetUpKept

section
variable {d : Dev} {h : Nat} (hcal : d.rings.calCommits.any (fun c => c.tables.contains h && !(c.applied.contains h)) = false)
include hcal

/-- What is live after a run boundary is what the first commit that pends for the hearth makes live (R20). -/
theorem runBoundaryApply_live {c : PendCommit} (hboundary : d.noBoundary h = false)
    (hfirst : d.seq.commits.find? (fun c => c.hearths.contains h && !(c.applied.contains h)) = some c) :
    (d.runBoundaryApply h).seq.live = (d.applyCommit c h).seq.live := by
  have unlogged : ∀ (o k ob new : Nat) (old : List Byte), ((d.applyCommit c h).log o k ob old new).seq.live = (d.applyCommit c h).seq.live :=
    fun _ _ _ _ _ => rfl
  rw [Dev.runBoundaryApply, hcal, Bool.false_and, if_neg (by decide), (SetUpKept.procKick _).1]
  simp only [Dev.runBoundary, hboundary, hfirst, Bool.false_eq_true, if_false, commitKick_live, armKick_live, ppmuKick_live, tmuCalKick_live,
    tmuPower_live, tmuClaims_live, streamView_live, unlogged]

/-- Without a boundary, or a commit that pends for the hearth, nothing of a set-up moves. -/
theorem runBoundaryApply_idle
    (hidle : d.noBoundary h = true ∨ d.seq.commits.any (fun c => c.hearths.contains h && !(c.applied.contains h)) = false) :
    SetUpKept d (d.runBoundaryApply h) := by
  have stays : d.runBoundary h = d := by
    unfold Dev.runBoundary
    rcases hidle with hrun | hnone
    · rw [if_pos hrun]
    · have none : d.seq.commits.find? (fun c => c.hearths.contains h && !(c.applied.contains h)) = none :=
        List.find?_eq_none.mpr fun c hc => List.any_eq_false.mp hnone c hc
      rw [none]
      exact ite_self d
  rw [Dev.runBoundaryApply, hcal, Bool.false_and, if_neg (by decide), stays]
  exact SetUpKept.procKick d

end

/-! ### The end of a commit's settling (R21, R82, R209) -/

/-- Entry into ARMED moves sites only. -/
theorem armKick_only (d : Dev) : d.armKick = { d with seq := { d.seq with sites := d.armKick.seq.sites } } := by
  refine List.foldlRecOn _ _ (motive := fun e : Dev => e = { d with seq := { d.seq with sites := e.seq.sites } }) rfl fun e he s _ => ?_
  split
  · rw [he]
    rfl
  · exact he

/-- The completion of a commit (R21, R369). -/
def commitDone (c : PendCommit) : Completion := ⟨c.hostSeq, opCommit, stOk, 8 * bit c.irq, maskOf c.hearths, 0, true⟩

/-- The one commit that pends, applied everywhere and settled, is gone and its completion waits. -/
theorem commitKick_settled {d : Dev} {c : PendCommit} (hone : d.seq.commits = [c]) (happlied : c.hearths.all c.applied.contains = true)
    (hsettled : d.commitSettling c.hearths = false) :
    d.commitKick = (({ d with seq := { d.seq with commits := [] } }).post c.ring (commitDone c)).endCurrent c.ring := by
  simp [Dev.commitKick, hone, happlied, hsettled, commitDone]

/-- After its last settle time or pool load such a commit ends: what is live stays. -/
theorem armKick_commitKick_settled {d : Dev} {c : PendCommit} (hone : d.seq.commits = [c]) (happlied : c.hearths.all c.applied.contains = true)
    (hsettled : d.commitSettling c.hearths = false) :
    d.armKick.commitKick.seq = { d.seq with sites := d.armKick.seq.sites, commits := [] } ∧
      commitDone c ∈ (d.armKick.commitKick.ring c.ring).held := by
  have armed : d.armKick.commitKick = (({ d.armKick with seq := { d.armKick.seq with commits := [] } }).post c.ring (commitDone c)).endCurrent c.ring := by
    refine commitKick_settled ?_ happlied ?_
    · rw [armKick_only]
      exact hone
    · rw [armKick_only]
      exact hsettled
  rw [armed]
  refine ⟨?_, ?_⟩
  · have moved := congrArg (fun e : Dev => { e.seq with commits := [] }) (armKick_only d)
    exact moved
  · rw [held_post_endCurrent]
    simp

/-- Calibration commits that end move rings only, and no completion is lost. -/
theorem calKick_seq (d : Dev) : d.calKick.seq = d.seq := by
  unfold Dev.calKick
  exact List.foldlRecOn _ _ (motive := fun e : Dev => e.seq = d.seq) rfl (fun e he c _ => he)

theorem mem_held_calKick {d : Dev} {n : Nat} {x : Completion} (h : x ∈ (d.ring n).held) : x ∈ (d.calKick.ring n).held := by
  unfold Dev.calKick
  exact (mem_held_foldl_post CalCommit.ring _ _ _ n x).mpr (.inl h)

/-- A commit settles where none of its hearths loads and no settle time runs. -/
theorem commitSettling_of_none {d : Dev} {hs : List Nat} (hload : ∀ k ∈ hs, (d.hearth k).loading = false) (hsettles : d.seq.settles = []) :
    d.commitSettling hs = false := by
  simp only [Dev.commitSettling, hsettles, List.any_nil, Bool.or_false, List.any_eq_false]
  intro k hk
  simp [hload k hk]

@[simp] theorem hearth_modHearth_same (d : Dev) (h : Nat) (f : Hearth → Hearth) : (d.modHearth h f).hearth h = f (d.hearth h) :=
  mapGet_mapSet_same _ _ _ _

theorem hearth_modHearth_other (d : Dev) (h : Nat) (f : Hearth → Hearth) {k : Nat} (hk : k ≠ h) : (d.modHearth h f).hearth k = d.hearth k :=
  mapGet_mapSet_other _ _ _ _ _ hk

/-- Where a pool has loaded, what is poisoned of each of its images is noted, and nothing else of the images' state moves. -/
theorem poolDone_loading {d : Dev} {h : Nat} (hload : (d.hearth h).loading = true) :
    ∃ images, d.poolDone h =
      ((({ d with seq := { d.seq with images := images } }).modHearth h (fun x => { x with loading := false })).armKick).commitKick := by
  have noted : ∀ (l : List (Nat × Nat)), ∃ images, l.foldl (fun (d : Dev) x => match d.image x.1 with
      | none => d
      | some i => { d with seq := { d.seq with images := mapSet d.seq.images x.1 { i with poisoned := mapSet i.poisoned h (d.poolPoison i) } } }) d =
      { d with seq := { d.seq with images := images } } := fun l => by
    refine List.foldlRecOn l _ (motive := fun e : Dev => ∃ images, e = { d with seq := { d.seq with images := images } }) ⟨_, rfl⟩ ?_
    rintro _ ⟨images, rfl⟩ x _
    split
    · exact ⟨_, rfl⟩
    · exact ⟨_, rfl⟩
  obtain ⟨images, himages⟩ := noted (imagesIn d.seq.live h)
  refine ⟨images, ?_⟩
  unfold Dev.poolDone
  rw [hload, Bool.not_true, if_neg (by decide)]
  exact (congrArg (fun e : Dev => e.poolLoaded h) himages).trans (if_pos hload)

/-- The last settle time that an applied commit waits for ends it. -/
theorem settleTimeEnd_settled {d : Dev} {c : PendCommit} {x : Settle} (hone : d.seq.commits = [c]) (happlied : c.hearths.all c.applied.contains = true)
    (hx : d.seq.settles = [x]) (hload : c.hearths.any (fun h => (d.hearth h).loading) = false) :
    (d.settleTimeEnd x).seq.settles = [] ∧ (d.settleTimeEnd x).seq.commits = [] ∧
      commitDone c ∈ ((d.settleTimeEnd x).ring c.ring).held ∧ (d.settleTimeEnd x).seq.live = d.seq.live := by
  have ends : d.settleTimeEnd x = { d with seq := { d.seq with settles := [] } }.armKick.commitKick := by
    simp [Dev.settleTimeEnd, hx]
  have loaded : ∀ k ∈ c.hearths, (d.hearth k).loading = false := fun k hk => by
    simpa using List.any_eq_false.mp hload k hk
  obtain ⟨seq, done⟩ := armKick_commitKick_settled (d := { d with seq := { d.seq with settles := [] } }) hone happlied
    (commitSettling_of_none loaded rfl)
  rw [ends]
  exact ⟨by rw [seq], by rw [seq], done, by rw [seq]⟩

/-- The last pool load that an applied commit waits for ends it. -/
theorem poolDone_settled {d : Dev} {c : PendCommit} {h : Nat} (hone : d.seq.commits = [c]) (happlied : c.hearths.all c.applied.contains = true)
    (hsettles : d.seq.settles = []) (hload : (d.hearth h).loading = true)
    (hothers : c.hearths.all (fun k => k == h || !(d.hearth k).loading) = true) :
    ((d.poolDone h).hearth h).loading = false ∧ (d.poolDone h).seq.commits = [] ∧
      commitDone c ∈ ((d.poolDone h).ring c.ring).held ∧ (d.poolDone h).seq.live = d.seq.live := by
  obtain ⟨images, ends⟩ := poolDone_loading hload
  have loaded : ∀ k ∈ c.hearths,
      (({ d with seq := { d.seq with images := images } }.modHearth h (fun x => { x with loading := false })).hearth k).loading = false := fun k hk => by
    by_cases heq : k = h
    · rw [heq, hearth_modHearth_same]
    · rw [hearth_modHearth_other _ _ _ heq]
      have other := List.all_eq_true.mp hothers k hk
      simp only [heq, beq_iff_eq, Bool.or_eq_true, false_or, Bool.not_eq_true'] at other
      exact other
  obtain ⟨seq, done⟩ := armKick_commitKick_settled
    (d := { d with seq := { d.seq with images := images } }.modHearth h (fun x => { x with loading := false })) hone happlied
    (commitSettling_of_none loaded hsettles)
  rw [← ends] at seq done
  have stops : (d.poolDone h).hearth h = { d.hearth h with loading := false } := by
    rw [Dev.hearth, seq]
    exact mapGet_mapSet_same _ _ _ _
  exact ⟨by rw [stops], by rw [seq], done, by rw [seq]; rfl⟩

/-! ### The obligation -/

/-- Settles O29: what is live after a run boundary is followed through `Dev.applyCommit`; a commit that has settled is the one that `Dev.commitKick`
completes. -/
theorem commitApplies : Obligations.CommitApplies := by
  unfold Obligations.CommitApplies
  refine ⟨fun s h hcal => ⟨fun c hboundary hfirst => ?_, fun hidle => ?_⟩,
    fun s c hone happlied => ⟨fun x hx hload => ?_, fun h hsettles hload hothers => ?_⟩⟩
  · refine completes_act (f := fun d => d.runBoundaryApply h) rfl ?_
    obtain ⟨timing, levels, binds⟩ := foldl_applySite c (s.dev.sitesDue c h)
      { s.dev.peakLook h with seq := { (s.dev.peakLook h).seq with live := s.dev.seq.live.takeHearth c.setUp h } }
    rw [← applyCommit_live, ← runBoundaryApply_live hcal hboundary hfirst] at timing levels binds
    simp only [canon_seq, timing, levels, binds, takeHearth_timing, takeHearth_levels]
    refine ⟨?_, ?_, ?_, ?_, ?_, ?_⟩
    · exact if_pos trivial
    · exact fun g hg => if_pos hg
    · exact fun k hk => if_neg hk
    · exact fun g hg => if_neg hg
    · exact fun x hx => if_pos hx
    · exact fun x hx => if_neg hx
  · exact completes_act (f := fun d => d.runBoundaryApply h) rfl (runBoundaryApply_idle hcal hidle)
  · refine completes_act (f := fun d => d.settleEndAll x) rfl ?_
    obtain ⟨settles, commits, done, live⟩ := settleTimeEnd_settled hone happlied hx hload
    simp only [canon_seq, Dev.settleEndAll, calKick_seq]
    exact ⟨settles, commits, mem_held_calKick done, live⟩
  · refine completes_act (f := fun d => d.poolDone h) rfl ?_
    exact poolDone_settled hone happlied hsettles hload hothers

end Sys2Proof.Proofs
end

section
/-! PROOFS. What the sending of a packet moves: the port's queues and counters, the outbox, registers of the Flue window (spec/12 R331, R332, R335). -/

namespace Sys2Proof.Proofs

open Sys2Proof Sys2Proof.Machine

set_option Elab.async false

/-- A packet sent or waiting stays so under an operation that leaves outbox and ports alone. -/
theorem sent_congr {d e : Dev} {p : Nat} {k : Packet} (hout : e.outbox = d.outbox) (hports : e.flue.ports = d.flue.ports) (h : Sent p k d) :
    Sent p k e := by
  unfold Sent Dev.port
  rwa [hout, hports]

/-- What the judgement of a start looks at (R22, R24) is as it was. -/
structure SameView (d e : Dev) : Prop where
  seq : e.seq = d.seq := by rfl
  board : e.board = d.board := by rfl
  faults : e.faults = d.faults := by rfl
  power : e.power = d.power := by rfl
  cal : e.cal = d.cal := by rfl
  tmu : e.tmu = d.tmu := by rfl
  known : e.flue.known = d.flue.known := by rfl
  epoch : e.flue.epoch = d.flue.epoch := by rfl
  calCommits : e.rings.calCommits = d.rings.calCommits := by rfl
  plans : e.rings.plans = d.rings.plans := by rfl
  reg : ∀ off, off < 0xA0000 ∨ 0xB0000 ≤ off → e.reg off = d.reg off := by exact fun _ _ => rfl

/-- What this device sends moves ports, outbox, memory and registers of the Flue window; LATE stays latched, and nothing sent is lost. -/
structure Sends (d e : Dev) : Prop extends SameView d e where
  rings : e.rings = d.rings := by rfl
  late : d.flag R.FLU_INT_STATUS F.FLU_INT_STATUS_LATE = true → e.flag R.FLU_INT_STATUS F.FLU_INT_STATUS_LATE = true := by exact id
  sent : ∀ p k, Sent p k d → Sent p k e := by exact fun _ _ => id

theorem SameView.trans {d e f : Dev} (h : SameView d e) (g : SameView e f) : SameView d f :=
  ⟨g.seq.trans h.seq, g.board.trans h.board, g.faults.trans h.faults, g.power.trans h.power, g.cal.trans h.cal, g.tmu.trans h.tmu,
    g.known.trans h.known, g.epoch.trans h.epoch, g.calCommits.trans h.calCommits, g.plans.trans h.plans,
    fun o ho => (g.reg o ho).trans (h.reg o ho)⟩

theorem SameView.refl (d : Dev) : SameView d d := {}

theorem flag_setF_late {d : Dev} {off : Nat} {f : Fld} {v : Nat} (h : off ≠ R.FLU_INT_STATUS) :
    (d.setF off f v).flag R.FLU_INT_STATUS F.FLU_INT_STATUS_LATE = d.flag R.FLU_INT_STATUS F.FLU_INT_STATUS_LATE := by
  rw [Dev.flag, getF_setF_other _ _ _ _ _ _ h.symm]
  rfl

/-- LATE reads as latched. -/
theorem flag_latch_late (d : Dev) : (d.latch R.FLU_INT_STATUS F.FLU_INT_STATUS_LATE).flag R.FLU_INT_STATUS F.FLU_INT_STATUS_LATE = true := by
  rw [Dev.flag, Dev.latch, getF_setF_same _ _ _ _ (by decide)]
  decide

namespace Sends

theorem refl (d : Dev) : Sends d d := {}

theorem trans {d e f : Dev} (h : Sends d e) (g : Sends e f) : Sends d f :=
  ⟨h.toSameView.trans g.toSameView, g.rings.trans h.rings, fun hl => g.late (h.late hl), fun p k hs => g.sent p k (h.sent p k hs)⟩

theorem foldl {α : Type} {f : Dev → α → Dev} (xs : List α) (d : Dev) (h : ∀ d x, Sends d (f d x)) : Sends d (xs.foldl f d) :=
  List.foldlRecOn xs f (motive := Sends d) (refl d) fun e he x _ => he.trans (h e x)

theorem ite {c : Prop} [Decidable c] {d a b : Dev} (ha : Sends d a) (hb : Sends d b) : Sends d (if c then a else b) := by
  split <;> assumption

/-- A register of the Flue window other than FLU_INT_STATUS. -/
theorem setF (d : Dev) {off : Nat} (f : Fld) (v : Nat) (hw : 0xA0000 ≤ off ∧ off < 0xB0000) (h : off ≠ R.FLU_INT_STATUS) : 
    Sends d (d.setF off f v) where
  reg o _ := reg_setF_other d off o f v (by omega)
  late hl := (flag_setF_late h).trans hl

theorem latchLate (d : Dev) : Sends d (d.latch R.FLU_INT_STATUS F.FLU_INT_STATUS_LATE) where
  reg o _ := reg_latch_other d _ o _ (by simp only [R.FLU_INT_STATUS]; omega)
  late _ := flag_latch_late d

/-- What a port sends leaves its queue for the outbox, and nothing else of what was sent or waits is touched. -/
theorem emit (d : Dev) (p : Nat) (k : Packet) (f : FluePort → FluePort) (hf : (f (d.port p)).queue = (d.port p).queue.erase k) :
    Sends d ((d.out (.packet p (d.port p).txSeq k)).modPort p f) := by
  refine { sent := fun q x hs => ?_ }
  rcases hs with ⟨n, hout⟩ | hqueue
  · exact .inl ⟨n, List.mem_append_left _ hout⟩
  by_cases hq : q = p
  · subst hq
    by_cases hx : x = k
    · subst hx
      exact .inl ⟨_, List.mem_append_right _ (List.mem_singleton_self _)⟩
    · refine .inr ?_
      rw [Dev.port, Dev.modPort, mapGet_mapSet_same]
      exact hf ▸ (List.mem_erase_of_ne hx).mpr hqueue
  · refine .inr ?_
    rw [Dev.port, Dev.modPort, mapGet_mapSet_other _ _ _ _ _ hq]
    exact hqueue

theorem pump (d : Dev) (p fuel : Nat) : Sends d (d.pump p fuel) := by
  induction fuel generalizing d with
  | zero => exact refl d
  | succ fuel ih =>
    unfold Dev.pump
    split
    · exact refl d
    split
    · exact refl d
    · refine ite (refl d) (Sends.trans (emit d p _ _ ?_) (ih _))
      rfl

/-- A packet joins the queue of a port. -/
theorem queued (d : Dev) (p : Nat) (k : Packet) : Sends d (d.modPort p (fun q => { q with queue := q.queue ++ [k] })) := by
  refine { sent := fun q x hs => ?_ }
  rcases hs with hout | hqueue
  · exact .inl hout
  refine .inr ?_
  by_cases hq : q = p
  · subst hq
    rw [Dev.port, Dev.modPort, mapGet_mapSet_same]
    exact List.mem_append_left _ hqueue
  · rw [Dev.port, Dev.modPort, mapGet_mapSet_other _ _ _ _ _ hq]
    exact hqueue

theorem enqueue (d : Dev) (p : Nat) (k : Packet) : Sends d (d.enqueue p k) := (queued d p k).trans (pump _ p _)

/-- A packet queued on a port is sent by it, now or when credits allow. -/
theorem sent_enqueue (d : Dev) (p : Nat) (k : Packet) : Sent p k (d.enqueue p k) := by
  refine (pump _ p _).sent p k (.inr ?_)
  rw [Dev.port, Dev.modPort, mapGet_mapSet_same]
  exact List.mem_append_right _ (List.mem_singleton_self _)

theorem unroutable (d : Dev) (k : Packet) : Sends d (d.unroutable 0 k) :=
  ite ((setF d _ _ (by decide) (by decide)).trans (latchLate _)) (setF d _ _ (by decide) (by decide))

theorem sendPacket (d : Dev) (k : Packet) : Sends d (d.sendPacket k) := by
  unfold Dev.sendPacket
  refine ite (foldl _ _ fun d p => enqueue d p k) ?_
  split
  · exact enqueue d _ k
  · exact refl d
  · exact unroutable d k

theorem sendEvent (d : Dev) (ring epoch kind site rdvId : Nat) (withdrawn : Bool) (startSeq : Nat) (more : List Nat) :
    Sends d (d.sendEvent ring epoch kind site rdvId withdrawn startSeq more) := ite (refl d) (sendPacket d _)

theorem ownerWrite (d : Dev) (ring a : Nat) (bs : List Byte) : Sends d (d.ownerWrite ring a bs) :=
  ite (sendPacket d _) {}

/-- A broadcast leaves by every downstream port. -/
theorem sent_foldl_enqueue (ports : List Nat) (d : Dev) {p : Nat} (k : Packet) (hp : p ∈ ports) :
    Sent p k (ports.foldl (fun d p => d.enqueue p k) d) := by
  induction ports generalizing d with
  | nil => cases hp
  | cons q t ih =>
    rcases List.mem_cons.mp hp with rfl | ht
    · exact (foldl t _ fun d p => enqueue d p k).sent p k (sent_enqueue d p k)
    · exact ih _ ht

/-- An event of a device in a tree is sent by each port by which its events leave (R344). -/
theorem sent_sendEvent (d : Dev) (hrole : d.role ≠ 0) (r : Start) (epoch kind : Nat) (more : List Nat) {p : Nat} (hp : p ∈ d.eventPorts) :
    Sent p (d.tells r epoch kind more) (d.sendEvent r.ring epoch kind 0 0 false r.hostSeq more) := by
  rw [Dev.sendEvent, if_neg hrole]
  unfold Dev.eventPorts at hp
  by_cases hm : d.isManager = true
  · rw [if_pos hm] at hp
    simp only [Dev.sendPacket, Dev.tells, hm, if_true, eventPacket]
    exact sent_foldl_enqueue _ d _ hp
  · rw [if_neg hm] at hp
    simp only [Dev.sendPacket, Dev.tells, if_neg hm, eventPacket]
    rw [if_neg (by decide)]
    split at hp
    · next port hroute =>
      rw [hroute, List.mem_singleton.mp hp]
      exact sent_enqueue d _ _
    · cases hp

end Sends

end Sys2Proof.Proofs
end

section
/-! PROOFS. What the end of one site's run leaves of every run, of the starts and of the rings (spec/01 R26, R27, R35). -/

namespace Sys2Proof.Proofs

open Sys2Proof Sys2Proof.Machine

set_option Elab.async false

/-! ### Frames -/

/-- A site goes on as it was: its state, its start, how it ended, the reasons it was smothered for. -/
structure SameRun (x y : Site) : Prop where
  st : y.st = x.st := by rfl
  start : y.start = x.start := by rfl
  cause : y.endCause = x.endCause := by rfl
  reasons : ∀ r ∈ x.reasons, r ∈ y.reasons := by exact fun _ h => h

namespace SameRun

theorem refl (x : Site) : SameRun x x := {}

theorem trans {x y z : Site} (h : SameRun x y) (g : SameRun y z) : SameRun x z :=
  ⟨g.st.trans h.st, g.start.trans h.start, g.cause.trans h.cause, fun r hr => g.reasons r (h.reasons r hr)⟩

end SameRun

/-- Rings that are as they were hold what they held. -/
theorem waits_of_rings {d e : Dev} (h : e.rings = d.rings) (n : Nat) : (e.ring n).held = (d.ring n).held ∧ (e.ring n).waiting = (d.ring n).waiting := by
  simp only [Dev.ring, h, and_self]

/-- Starts, what is live, the descriptors and completions that wait on each ring are as they were, and nothing sent is lost. -/
structure Around (d e : Dev) : Prop where
  starts : e.seq.starts = d.seq.starts := by rfl
  live : e.seq.live = d.seq.live := by rfl
  ring : ∀ n, (e.ring n).held = (d.ring n).held ∧ (e.ring n).waiting = (d.ring n).waiting := by exact fun _ => ⟨rfl, rfl⟩
  sent : ∀ p k, Sent p k d → Sent p k e := by exact fun _ _ => id

theorem Around.trans {d e f : Dev} (h : Around d e) (g : Around e f) : Around d f :=
  ⟨g.starts.trans h.starts, g.live.trans h.live, fun n => ⟨(g.ring n).1.trans (h.ring n).1, (g.ring n).2.trans (h.ring n).2⟩,
    fun p k hs => g.sent p k (h.sent p k hs)⟩

theorem Around.refl (d : Dev) : Around d d := {}

/-- So is every run. -/
structure Leaves (d e : Dev) : Prop extends Around d e where
  site : ∀ x, SameRun (d.site x) (e.site x)

@[simp] theorem site_modSite_same (d : Dev) (s : Nat) (f : Site → Site) : (d.modSite s f).site s = f (d.site s) := mapGet_mapSet_same _ _ _ _

theorem site_modSite_other (d : Dev) {s x : Nat} (f : Site → Site) (h : x ≠ s) : (d.modSite s f).site x = d.site x :=
  mapGet_mapSet_other _ _ _ _ _ h

namespace Leaves

theorem refl (d : Dev) : Leaves d d := ⟨.refl d, fun _ => .refl _⟩

theorem trans {d e f : Dev} (h : Leaves d e) (g : Leaves e f) : Leaves d f :=
  ⟨h.toAround.trans g.toAround, fun x => (h.site x).trans (g.site x)⟩

theorem foldl {α : Type} {f : Dev → α → Dev} (xs : List α) (d : Dev) (h : ∀ d x, Leaves d (f d x)) : Leaves d (xs.foldl f d) :=
  List.foldlRecOn xs f (motive := Leaves d) (refl d) fun e he x _ => he.trans (h e x)

theorem ite {c : Prop} [Decidable c] {d a b : Dev} (ha : Leaves d a) (hb : Leaves d b) : Leaves d (if c then a else b) := by
  split <;> assumption

/-- What moves none of sites, starts, live set-up, rings, outbox and ports. -/
theorem upd {d e : Dev} (hs : e.seq.sites = d.seq.sites := by rfl) (ht : e.seq.starts = d.seq.starts := by rfl) (hl : e.seq.live = d.seq.live := by rfl)
    (hr : e.rings = d.rings := by rfl) (ho : e.outbox = d.outbox := by rfl) (hp : e.flue.ports = d.flue.ports := by rfl) : Leaves d e :=
  ⟨⟨ht, hl, waits_of_rings hr, fun _ _ => sent_congr ho hp⟩, fun x => by
    have same : e.site x = d.site x := congrArg (fun l => mapGet l x Site.reset) hs
    exact same ▸ .refl _⟩

theorem of_sends {d e : Dev} (h : Sends d e) : Leaves d e :=
  ⟨⟨by rw [h.seq], by rw [h.seq], waits_of_rings h.rings, h.sent⟩, fun x => by
    have same : e.site x = d.site x := by
      rw [Dev.site, Dev.site, h.seq]
    exact same ▸ .refl _⟩

/-- A site of which other fields change. -/
theorem modSite (d : Dev) (s : Nat) (f : Site → Site) (hf : ∀ x, SameRun x (f x) := by exact fun _ => {}) : Leaves d (d.modSite s f) := by
  refine ⟨{}, fun x => ?_⟩
  by_cases h : x = s
  · rw [h, site_modSite_same]
    exact hf _
  · rw [site_modSite_other _ _ h]
    exact .refl _

/-! ### Packets -/

theorem enqueue (d : Dev) (p : Nat) (k : Packet) : Leaves d (d.enqueue p k) := of_sends (.enqueue d p k)

theorem sendPacket (d : Dev) (k : Packet) : Leaves d (d.sendPacket k) := of_sends (.sendPacket d k)

theorem sendEvent (d : Dev) (ring epoch kind site rdvId : Nat) (withdrawn : Bool) (startSeq : Nat) (more : List Nat) :
    Leaves d (d.sendEvent ring epoch kind site rdvId withdrawn startSeq more) := of_sends (.sendEvent d ring epoch kind site rdvId withdrawn startSeq more)

/-! ### Pins, synthesizers, TMU channels -/

theorem toggle (d : Dev) (ch : Nat) : Leaves d (d.toggle ch) := by
  unfold Dev.toggle
  dsimp only
  split <;> exact upd

theorem drive (d : Dev) (ch : Nat) (v : Drv) (t : Nat) : Leaves d (d.drive ch v t) := ite (refl d) (Leaves.trans upd (toggle _ _))

theorem pinsSafe (d : Dev) (chs : List Nat) : Leaves d (d.pinsSafe chs) :=
  (foldl chs d fun d ch => ite (refl d) (toggle d ch)).trans upd

theorem ddsStop (d : Dev) (s : Nat) : Leaves d (d.ddsStop s) := by
  have units : Leaves d ((d.ddsClaims s).foldl (fun d c => match d.ddsList c with
      | some l => d.modDds c.unit (fun u => ({ u with connected := false }).load l 0 0 0)
      | none => d.modDds c.unit (fun u => { u with connected := false })) d) :=
    foldl _ d fun d c => by split <;> exact upd
  unfold Dev.ddsStop
  dsimp only
  split
  · exact units.trans upd
  · exact units

theorem tmuQueue (d : Dev) (n : Nat) (x : TmuItem) : Leaves d (d.tmuQueue n x) := by
  unfold Dev.tmuQueue
  dsimp only
  split
  · exact refl d
  · split
    · exact ite upd upd
    · exact upd

theorem tmuMark (d : Dev) (n ev : Nat) : Leaves d (d.tmuMark n ev) := by
  unfold Dev.tmuMark
  split
  · exact refl d
  · unfold Dev.tmuAfter
    split
    · exact tmuQueue d n _
    · exact upd

theorem tmuStop (d : Dev) (s : Nat) : Leaves d (d.tmuStop s) :=
  ite (refl d) ((upd : Leaves d d.tbNow).trans (foldl _ _ fun d c => (ite (refl d) (tmuMark d _ 1)).trans upd))

/-! ### Capture units -/

theorem modCap (d : Dev) (s : Nat) (f : CapRun → CapRun) : Leaves d (d.modCap s f) := modSite d s _

theorem write (d : Dev) (a : Nat) (bs : List Byte) : Leaves d (d.write a bs) := upd

theorem capPut (d : Dev) (s : Nat) (p : CapPlan) (r : List Byte) : Leaves d (d.capPut s p r) := by
  unfold Dev.capPut
  exact Leaves.trans upd (modCap _ s _)

theorem capStop (d : Dev) (s : Nat) (p : CapPlan) (vc cause : Nat) : Leaves d (d.capStop s p vc cause) :=
  ite ((modCap d s _).trans (capPut _ s p _)) (modCap d s _)

theorem capResult (d : Dev) (s : Nat) (p : CapPlan) (i : WinInst) : Leaves d (d.capResult s p i) :=
  ite (modCap d s _) ((write d _ _).trans (modCap _ s _))

theorem fineRef (d : Dev) (n : Nat) (stamp : Option (Nat × Nat)) (place : Nat) : Leaves d (d.fineRef n stamp place) := by
  cases stamp <;> exact upd

theorem capTry (d : Dev) (s : Nat) (p : CapPlan) (vc : Nat) (r : List Byte) : Leaves d (d.capTry s p vc r).2 := by
  unfold Dev.capTry
  dsimp only
  split
  · exact refl d
  split
  · exact capStop d s p vc 1
  split
  · exact refl d
  · exact capPut d s p r

/-- An offered record, whatever became of it. -/
theorem of_capTry {d e : Dev} {s : Nat} {p : CapPlan} {vc : Nat} {r : List Byte} {t : CapTry} (h : d.capTry s p vc r = (t, e)) : Leaves d e := by
  have tried := capTry d s p vc r
  rwa [h] at tried

theorem capSample (d : Dev) (s : Nat) (p : CapPlan) (v : VecRec) (mode : Nat) (x : Samp) : Leaves d (d.capSample s p v mode x) := by
  unfold Dev.capSample
  dsimp only
  split
  · exact refl d
  refine (modCap d s _).trans (ite ?_ (ite (modCap _ s _) (refl _)))
  split
  · next h => exact (of_capTry h).trans ((fineRef _ _ _ _).trans (modCap _ s _))
  · next h => exact (of_capTry h).trans (ite (modCap _ s _) (refl _))
  · next h => exact (of_capTry h).trans ((modCap _ s _).trans (ite (capStop _ s p _ 0) (refl _)))

theorem capWindows (d : Dev) (s : Nat) (p : CapPlan) (v : VecRec) : Leaves d (d.capWindows s p v) :=
  (modCap d s _).trans (foldl _ _ fun d i => capResult d s p i)

theorem capDamper (d : Dev) (s : Nat) (p : CapPlan) (v : VecRec) : Leaves d (d.capDamper s p v) := by
  unfold Dev.capDamper
  dsimp only
  refine ite ?_ (refl d)
  split
  · next h => exact (modCap d s _).trans ((of_capTry h).trans (modCap _ s _))
  · next h => exact (modCap d s _).trans ((of_capTry h).trans (modCap _ s _))
  · next h => exact (modCap d s _).trans (of_capTry h)

theorem capLate (d : Dev) (s : Nat) (p : CapPlan) (v : VecRec) : Leaves d (d.capLate s p v) := by
  unfold Dev.capLate
  split
  · exact refl d
  split
  · next h => exact (of_capTry h).trans (modCap _ s _)
  · next h => exact of_capTry h

theorem capTake (d : Dev) (s : Nat) (v : VecRec) : Leaves d (d.capTake s v) := by
  unfold Dev.capTake
  split
  · exact refl d
  · next p _ =>
    dsimp only
    refine (Leaves.trans ?_ (capWindows _ s p v)).trans (modCap _ s _)
    refine (Leaves.trans ?_ (capLate _ s p v)).trans (ite (capStop _ s p _ 0) (refl _))
    exact (capDamper d s p v).trans (ite (foldl _ _ fun d x => ite (capSample d s p v _ x) (refl d)) (refl _))

theorem capDecide (d : Dev) (s : Nat) : Leaves d (d.capDecide s) := by
  unfold Dev.capDecide
  split
  · exact refl d
  · exact modCap d s _

theorem capDrain (d : Dev) (s : Nat) (l : List CapItem) : Leaves d (d.capDrain s l) := by
  induction l generalizing d with
  | nil => exact modCap d s _
  | cons x t ih =>
    cases x with
    | boundary => exact (capDecide d s).trans (ih _)
    | vec v p j =>
      unfold Dev.capDrain
      exact ite (modCap d s _) ((capTake d s v).trans (ih _))

theorem capBegin (d : Dev) (s : Nat) : Leaves d (d.capBegin s) := by
  unfold Dev.capBegin
  dsimp only
  split
  · exact modSite d s _
  · exact (modSite d s _).trans (capPut _ s _ _)

theorem capFinish (d : Dev) (s : Nat) : Leaves d (d.capFinish s) := by
  unfold Dev.capFinish
  dsimp only
  split
  · exact modCap d s _
  · next p _ =>
    refine Leaves.trans ?_ (write _ _ _)
    refine (Leaves.trans ?_ (capPut _ s p _)).trans (capPut _ s p _)
    refine (Leaves.trans ?_ (modCap _ s _)).trans (foldl _ _ fun d i => capResult d s p i)
    split
    · exact (modCap d s _).trans (capStop _ s p _ 0)
    · exact modCap d s _

theorem lastEvents (d : Dev) (s : Nat) (atOnce : Bool) : Leaves d (d.lastEvents s atOnce) := by
  unfold Dev.lastEvents
  dsimp only
  refine (Leaves.trans ?_ (capDrain _ s _)).trans (modSite _ s _)
  split
  · exact modSite d s _
  · exact foldl _ d fun d x => drive d _ _ _

/-! ### Groups and engines -/

theorem nameGroup (d : Dev) (k : Nat) : Leaves d (d.nameGroup k) := by
  unfold Dev.nameGroup
  split
  · exact refl d
  · exact foldl _ d fun d s => modSite d s _

theorem holdCause (d : Dev) (k : Nat) : Leaves d (d.holdCause k) := by
  unfold Dev.holdCause
  split
  · exact refl d
  split
  · exact refl d
  · exact ite (foldl _ d fun d m => modSite d m _) (refl d)

theorem freeEngine (d : Dev) (e : Nat) : Leaves d (d.freeEngine e) := by
  unfold Dev.freeEngine
  split
  · exact upd
  dsimp only
  split
  · exact Leaves.trans upd (holdCause _ _)
  · exact upd

theorem leaveGroup (d : Dev) (s : Nat) : Leaves d (d.leaveGroup s) := by
  unfold Dev.leaveGroup
  split
  · exact refl d
  dsimp only
  split
  · exact Leaves.trans upd (foldl _ _ fun d e => freeEngine d e)
  · exact (upd : Leaves d (d.setGroup _ _)).trans (nameGroup _ _)

/-! ### Waits, rendezvous, reasons -/

theorem postReport (d : Dev) (s : Nat) (bytes : List Byte) : Leaves d (d.postReport s bytes) := by
  unfold Dev.postReport
  dsimp only
  split
  · exact Leaves.trans upd (modSite _ s _)
  · exact upd

theorem endWait (d : Dev) (s endCode : Nat) : Leaves d (d.endWait s endCode) := by
  unfold Dev.endWait
  dsimp only
  split
  · exact refl d
  · exact (modSite d s _).trans (postReport _ _ _)

theorem rdvRelease (d : Dev) (s epoch : Nat) (fails : List Nat) : Leaves d (d.rdvRelease s epoch fails) := by
  unfold Dev.rdvRelease
  exact modSite d s _

theorem takeRelease (d : Dev) (r : Start) (x epoch : Nat) (fails : List Nat) : Leaves d (d.takeRelease r x epoch fails) := by
  unfold Dev.takeRelease
  dsimp only
  split
  · exact (upd : Leaves d (((d.setMeet _).bump _ _).latch _ _)).trans (foldl _ _ fun d s => modSite d s _)
  · exact (upd : Leaves d (d.setMeet _)).trans (foldl _ _ fun d s => rdvRelease d s epoch fails)

theorem gather (d : Dev) (r : Start) (rep : RdvReport) : Leaves d (d.gather r rep) := by
  unfold Dev.gather
  dsimp only
  split
  · exact upd
  split
  · exact upd
  · refine Leaves.trans ?_ (takeRelease _ r _ _ _)
    exact ite ((upd : Leaves d ((d.setMeet _).setMeet _)).trans (sendEvent _ _ _ _ _ _ _ _ _)) upd

theorem rdvCheck (d : Dev) (id : Nat) : Leaves d (d.rdvCheck id) := by
  have met : ∀ m, Leaves d (d.setMeet m) := fun _ => upd
  unfold Dev.rdvCheck
  split
  · exact refl d
  · exact ite (refl d) (ite upd (ite ((met _).trans (gather _ _ _)) (ite ((met _).trans (sendPacket _ _)) ((met _).trans (gather _ _ _)))))

theorem sendFail (d : Dev) (s : Nat) : Leaves d (d.sendFail s) := by
  unfold Dev.sendFail
  split
  · exact refl d
  · exact ite (refl d) (ite (foldl _ d fun d p => enqueue d p _) (sendEvent d _ _ _ _ _ _ _ _))

theorem addReason (d : Dev) (s reason : Nat) : Leaves d (d.addReason s reason) :=
  ite (refl d) ((modSite d s _ fun _ => { reasons := fun _ h => List.mem_append_left _ h }).trans (ite (refl _) upd))

end Leaves

/-- A reason that smothers a site is among its reasons. -/
theorem mem_reasons_addReason (d : Dev) (s : Nat) {reason : Nat} (h : reason ≠ 0) : reason ∈ ((d.addReason s reason).site s).reasons := by
  unfold Dev.addReason
  dsimp only
  split
  · next hin =>
    rcases hin with hzero | hin
    · exact absurd hzero h
    · exact List.contains_iff_mem.mp hin
  · have added : ∀ (low : Nat), reason ∈ ((d.modSite s (fun x => { x with reason := low, reasons := x.reasons ++ [reason] })).site s).reasons :=
      fun low => by simp
    rw [apply_ite (fun e : Dev => e.site s)]
    exact (ite_self (c := _ = 0) _).symm ▸ added _

/-! ### The end of a run -/

/-- The run of one site has ended with a cause and a reason, if it is not 0; every other run, starts, live set-up and rings are as they were. -/
structure EndsRun (s : Nat) (cause : EndCause) (reason : Nat) (d e : Dev) : Prop extends Around d e where
  ended : RunEnds s cause e
  start : (e.site s).start = (d.site s).start
  reason : reason ≠ 0 → reason ∈ (e.site s).reasons
  other : ∀ x, x ≠ s → SameRun (d.site x) (e.site x)

section
variable {s : Nat} {cause : EndCause} {reason : Nat} {d e f : Dev}

theorem Leaves.trans_ends (h : Leaves d e) (g : EndsRun s cause reason e f) : EndsRun s cause reason d f :=
  ⟨h.toAround.trans g.toAround, g.ended, g.start.trans (h.site s).start, g.reason, fun x hx => (h.site x).trans (g.other x hx)⟩

theorem EndsRun.trans_leaves (h : EndsRun s cause reason d e) (g : Leaves e f) : EndsRun s cause reason d f :=
  ⟨h.toAround.trans g.toAround, ⟨(g.site s).st.trans h.ended.1, (g.site s).cause.trans h.ended.2⟩, (g.site s).start.trans h.start,
    fun hr => (g.site s).reasons _ (h.reason hr), fun x hx => (h.other x hx).trans (g.site x)⟩

/-- A site that has its reason passes to STOPPING. -/
theorem EndsRun.modSite (f : Site → Site) (hst : (f (d.site s)).st = .stopping) (hcause : (f (d.site s)).endCause = cause)
    (hstart : (f (d.site s)).start = (d.site s).start) (hreason : reason ≠ 0 → reason ∈ (f (d.site s)).reasons) :
    EndsRun s cause reason d (d.modSite s f) := by
  refine ⟨{}, ⟨?_, ?_⟩, ?_, ?_, fun x hx => ?_⟩
  · rwa [site_modSite_same]
  · rwa [site_modSite_same]
  · rwa [site_modSite_same]
  · rwa [site_modSite_same]
  · rw [site_modSite_other _ _ hx]
    exact .refl _

end

/-- A run in STARTING or RUNNING ends with its cause and its reason. -/
theorem endSite_ends (d : Dev) (s : Nat) (cause : EndCause) (reason : Nat) (fromFail : Bool)
    (hactive : (d.site s).st = .starting ∨ (d.site s).st = .running) :
    EndsRun s cause reason d (d.endSite s cause reason fromFail) := by
  unfold Dev.endSite
  rw [if_neg (not_and_or.mpr (hactive.imp not_not.mpr not_not.mpr))]
  dsimp only
  -- from the last operation back to the site's passage to STOPPING
  refine EndsRun.trans_leaves ?_ (.rdvCheck _ _)
  refine EndsRun.trans_leaves ?_ (.ite (.sendFail _ _) (.refl _))
  refine ((EndsRun.trans_leaves ?_ (.tmuStop _ _)).trans_leaves (.capFinish _ _)).trans_leaves (.leaveGroup _ _)
  refine (EndsRun.trans_leaves ?_ (.pinsSafe _ _)).trans_leaves (.ddsStop _ _)
  refine (EndsRun.trans_leaves ?_ (.ite .upd (.refl _))).trans_leaves (.ite .upd (.refl _))
  refine EndsRun.trans_leaves ?_ (.ite (.refl _) (.capBegin _ _))
  -- what comes before it
  refine Leaves.trans_ends ?_ (.modSite _ rfl rfl rfl (mem_reasons_addReason _ s))
  refine Leaves.trans ?_ (.addReason _ s reason)
  exact ((Leaves.endWait d s 1).trans (.ite (.lastEvents _ s _) (.refl _))).trans (.ite (.foldl _ _ fun d r => .addReason d s r) (.refl _))

end Sys2Proof.Proofs
end

section
/-! PROOFS. A start whose results cannot be routed puts its ring in FAULT, and the fault line may douse other runs (spec/13 R383, spec/18 R464,
R465, R469). -/

namespace Sys2Proof.Proofs

open Sys2Proof Sys2Proof.Machine

set_option Elab.async false

/-! ### A douse ends the runs that it hits -/

/-- A run that has ended stays so under the end of another. -/
theorem endSite_stays (d : Dev) (s : Nat) (cause : EndCause) (reason : Nat) (fromFail : Bool) {x : Nat} (h : (d.site x).st = .stopping) :
    ((d.endSite s cause reason fromFail).site x).st = .stopping := by
  by_cases hactive : (d.site s).st = .starting ∨ (d.site s).st = .running
  · have hx : x ≠ s := by
      rintro rfl
      simp [h] at hactive
    exact ((endSite_ends d s cause reason fromFail hactive).other x hx).st.trans h
  · unfold Dev.endSite
    rw [if_pos (not_or.mp hactive)]
    exact h

/-- Of runs that end in turn, each that was in STARTING or RUNNING has ended. -/
theorem foldl_endSite_stopping (hit : List Nat) (d : Dev) (cause : EndCause) {x : Nat} (hx : x ∈ hit)
    (hactive : (d.site x).st = .starting ∨ (d.site x).st = .running) :
    ((hit.foldl (fun d s => d.endSite s cause 0) d).site x).st = .stopping := by
  induction hit generalizing d with
  | nil => cases hx
  | cons s t ih =>
    rw [List.foldl_cons]
    by_cases hs : x = s
    · subst hs
      have rest : ∀ e : Dev, (e.site x).st = .stopping → ((t.foldl (fun d s => d.endSite s cause 0) e).site x).st = .stopping := fun e he =>
        List.foldlRecOn t _ (motive := fun e : Dev => (e.site x).st = .stopping) he fun e he y _ => endSite_stays e y cause 0 false he
      exact rest _ (endSite_ends d x cause 0 false hactive).ended.1
    · refine ih _ ((List.mem_cons.mp hx).resolve_left hs) ?_
      by_cases hother : (d.site s).st = .starting ∨ (d.site s).st = .running
      · rwa [((endSite_ends d s cause 0 false hother).other x hs).st]
      · unfold Dev.endSite
        rwa [if_pos (not_or.mp hother)]

/-! ### What else a douse does leaves the sites -/

theorem foldl_sites {α : Type} {f : Dev → α → Dev} (xs : List α) (d : Dev) (h : ∀ d x, (f d x).seq.sites = d.seq.sites) :
    (xs.foldl f d).seq.sites = d.seq.sites :=
  List.foldlRecOn xs f (motive := fun e => e.seq.sites = d.seq.sites) rfl fun e he x _ => (h e x).trans he

theorem ite_sites {c : Prop} [Decidable c] {a b d : Dev} (ha : a.seq.sites = d.seq.sites) (hb : b.seq.sites = d.seq.sites) :
    (if c then a else b).seq.sites = d.seq.sites := by
  split <;> assumption

theorem ppmuEndStep_sites (d : Dev) (p : PpmuPlan) (s : PpmuStep) (code flags : Nat) : (d.ppmuEndStep p s code flags).seq.sites = d.seq.sites :=
  congrArg SeqState.sites (Sends.ownerWrite d p.ring _ _).seq

theorem ppmuDouse_sites (d : Dev) (g scope : Nat) : (d.ppmuDouse g scope).seq.sites = d.seq.sites := by
  have finish : ∀ d : Dev, d.ppmuFinish.seq.sites = d.seq.sites := fun d => foldl_sites _ _ fun _ _ => rfl
  have force : (match d.staticPin g with
      | some p => if tbit scope (8 * g + p.pin) then d.modGrate g (fun x => { x with forceOff := true }) else d
      | none => d).seq.sites = d.seq.sites := by
    split
    · exact ite_sites rfl rfl
    · rfl
  unfold Dev.ppmuDouse
  dsimp only
  split
  · exact force
  · refine (finish _).trans ((foldl_sites _ _ fun d x => ?_).trans ((ppmuEndStep_sites _ _ _ _ _).trans force))
    exact ppmuEndStep_sites _ _ _ _ _

theorem calEnd_sites (d : Dev) (h : Nat) (fail : Option (Nat × Nat)) : (d.calEnd h fail).seq.sites = d.seq.sites := by
  have outcome : ∀ n : Nat → Nat, (match fail with
      | none => d.setBit R.CAL_PROC_STATUS h true
      | some (code, pin) =>
        (if d.getF R.CAL_PROC_STATUS F.CAL_PROC_STATUS_OUTCOME = 0 then
          (d.setF R.CAL_PROC_STATUS F.CAL_PROC_STATUS_PIN pin).setF R.CAL_PROC_STATUS F.CAL_PROC_STATUS_HEARTH h else d).setF R.CAL_PROC_STATUS
          F.CAL_PROC_STATUS_OUTCOME (n code)).seq.sites = d.seq.sites := fun n => by
    split
    · rfl
    · split <;> rfl
  unfold Dev.calEnd
  dsimp only
  split
  · rfl
  · exact ite_sites rfl (ite_sites (outcome _) (outcome _))

theorem douseSeq_sites (d : Dev) (scope : Nat) : (d.douseSeq scope).seq.sites = d.seq.sites := by
  unfold Dev.douseSeq
  split
  · exact ite_sites rfl rfl
  · rfl

theorem douseEntry_sites (d : Dev) (cause scope b : Nat) : (d.douseEntry cause scope b).seq.sites = d.seq.sites := ite_sites rfl rfl

/-- The sites that a douse over a closed scope hits (R469). -/
def doused (d : Dev) (scope : Nat) : List Nat :=
  d.activeSites.filter (fun s => match d.binding s with | some b => b.channels.any (fun c => tbit scope c) | none => false)

/-- A douse outside BANKED ends each run that it hits. -/
theorem douse_stopping (d : Dev) (cause source faultBit : Nat) {x : Nat} (hbanked : d.banked = false) (hx : x ∈ doused d (d.closed source))
    (hactive : (d.site x).st = .starting ∨ (d.site x).st = .running) : ((d.douse cause source faultBit).site x).st = .stopping := by
  have halted : ((d.douseHalt (d.closed source)).site x).st = .stopping := by
    have ended := foldl_endSite_stopping (doused d (d.closed source)) d .douse hx hactive
    unfold Dev.douseHalt Dev.site
    dsimp only
    rw [foldl_sites _ _ fun d h => calEnd_sites d h _, foldl_sites _ _ fun d g => ppmuDouse_sites d g _]
    exact ((Leaves.pinsSafe _ _).site x).st.trans ended
  have sites : (d.douse cause source faultBit).seq.sites = (d.douseHalt (d.closed source)).seq.sites := by
    unfold Dev.douse
    rw [hbanked]
    exact (douseEntry_sites _ _ _ _).trans (douseSeq_sites _ _)
  rwa [Dev.site, sites]

/-- A line of the RING bit whose reaction is the second douses over every channel. -/
theorem raise_ring_stopping (d : Dev) (n : Nat) {x : Nat} (hclear : d.bitOf R.FLT_WORD_LO 16 = false) (hreact : (d.latchFault 16 n).faultReact 16 = 2)
    (hbanked : (d.latchFault 16 n).banked = false) (hx : x ∈ doused (d.latchFault 16 n) ((d.latchFault 16 n).closed allChannels))
    (hactive : ((d.latchFault 16 n).site x).st = .starting ∨ ((d.latchFault 16 n).site x).st = .running) : ((d.raise 16 n).site x).st = .stopping := by
  have smothers : ∀ e : Dev, e.faultSmother 16 n = e := fun e => ite_self e
  unfold Dev.raise
  rw [if_neg (by decide), if_neg (by simp [hclear])]
  dsimp only
  rw [smothers, if_pos hreact]
  exact douse_stopping _ _ _ _ hbanked hx hactive

/-! ### A ring whose owner cannot be reached -/

/-- The device at the instant at which a ring whose owner cannot be reached raises its fault line (R383, R464). -/
def cutFaulting (d : Dev) (n : Nat) : Dev :=
  let d := (((d.modRing n (fun r => { r with faultErr := reWriteDenied })).dropFetch n).dropFetch n).modRing n
    (fun r => { r with blockDue := true, faultErr := reWriteDenied })
  ((d.setF (R.RING_STATUS n) F.RING_STATUS_STATE rsFault).setF (R.RING_STATUS n) F.RING_STATUS_ERR reWriteDenied).latch (R.RING_STATUS n)
    F.RING_STATUS_ERR_INT

theorem writeDenied_cut (d : Dev) (n : Nat) (hcut : d.ownerCut n = true) (hrunning : d.ringState n = rsRunning) :
    d.writeDenied n = (cutFaulting d n).raise 16 n := by
  have running : (d.modRing n (fun r => { r with faultErr := reWriteDenied })).ringState n ≠ rsDraining := by
    rw [show (d.modRing n (fun r => { r with faultErr := reWriteDenied })).ringState n = rsRunning from hrunning]
    decide
  have cut : ((d.modRing n (fun r => { r with faultErr := reWriteDenied })).dropFetch n).ownerCut n = true := hcut
  unfold Dev.writeDenied
  dsimp only
  rw [if_neg running]
  unfold Dev.ringEnter
  rw [if_neg (show rsFault ≠ rsRunning by decide)]
  dsimp only
  rw [if_pos cut, if_neg (show rsFault ≠ rsDisabled by decide), if_neg (show rsFault ≠ rsDraining by decide)]
  rfl

/-- A start whose results cannot be routed puts its ring in FAULT. -/
theorem siteComplete_cut {d : Dev} {x : Nat} {r : Start} (hstart : d.startOf x = some r) (hdrained : r.sites.all d.drained = true)
    (hcut : d.ownerCut r.ring = true) (hrunning : d.ringState r.ring = rsRunning) (hfirst : (d.ring r.ring).faultErr ≠ reWriteDenied) :
    d.siteComplete x = (cutFaulting d r.ring).raise 16 r.ring := by
  have enabled : (d.ownerCut r.ring && d.ringState r.ring != rsDisabled) = true := by
    rw [hcut, hrunning]
    rfl
  unfold Dev.siteComplete
  rw [hstart]
  dsimp only
  rw [hdrained, if_neg (by decide), if_pos enabled, if_neg hfirst, writeDenied_cut d r.ring hcut hrunning]

/-- Where SITE_COMPLETE leaves the sites as they were, so does `Dev.siteComplete`: the calibration procedures that may begin then leave them too. -/
theorem site_siteComplete {s : State} {x : Fin 256} {P : Dev → Prop} (h : Completes (.siteComplete x) s (fun e => e.seq.sites = s.dev.seq.sites ∧ P e))
    (y : Nat) : (s.dev.siteComplete x).site y = s.dev.site y := by
  have completes : exec (.siteComplete x) s = .next (s.put (s.dev.siteComplete x).procKick) := rfl
  obtain ⟨t, hexec, -, hsites, -⟩ := h
  rw [← Host.Outcome.next.inj (completes.symm.trans hexec)] at hsites
  exact congrArg (fun l => mapGet l y Site.reset) ((SetUpKept.procKick (s.dev.siteComplete x)).2.2.symm.trans hsites)

/-! ### The counterexample -/

/-- A worker whose upstream port is down, and whose fault lines of rings douse. The run of site 3, of a start of the remote ring 0, has drained;
site 5, of a start of ring 1, runs with channel 320. -/
def cutDev : Dev :=
  { Dev.blank with
    regs := [(R.GLB_ROLE, setBits (setBits 0 F.GLB_ROLE_ROLE 2) F.GLB_ROLE_DEVICE_NUM 1), (R.FLT_CFG 2, 0x00505559),
      (R.RING_CTRL 0, setBits 0 F.RING_CTRL_REMOTE 1), (R.RING_STATUS 0, setBits 0 F.RING_STATUS_STATE rsRunning)]
    seq := { SeqState.reset with
      sites := [(3, { Site.reset with st := .stopping, endCause := .halt, start := 1, summary := 2, cap := { CapRun.start with finished := true } }),
        (5, { Site.reset with st := .running, start := 2 })]
      starts := [⟨1, 0, 0, [3], 0, 0, false, false, false, false⟩, ⟨2, 1, 0, [5], 0, 0, false, false, false, false⟩]
      live := { SeqState.reset.live with binds := [(5, ⟨0, false, false, 0, [320]⟩)] } } }

/-- That start. -/
def cutStart : Start := ⟨1, 0, 0, [3], 0, 0, false, false, false, false⟩

theorem cutDev_startOf : cutDev.startOf 3 = some cutStart := by decide +kernel
theorem cutDev_drained : cutStart.sites.all cutDev.drained = true := by decide +kernel
theorem cutDev_ownerCut : cutDev.ownerCut cutStart.ring = true := by decide +kernel
theorem cutDev_ringState : cutDev.ringState cutStart.ring = rsRunning := by decide +kernel
theorem cutDev_faultErr : (cutDev.ring cutStart.ring).faultErr ≠ reWriteDenied := by decide +kernel
theorem cutDev_running : (cutDev.site 5).st = .running := by decide +kernel
theorem cutLatched_running : (((cutFaulting cutDev 0).latchFault 16 0).site 5).st = .running := by decide +kernel
theorem cutLatched_hits :
    5 ∈ doused ((cutFaulting cutDev 0).latchFault 16 0) (((cutFaulting cutDev 0).latchFault 16 0).closed allChannels) := by decide +kernel

/-- The end of site 3's run ends that of site 5. -/
theorem cutDev_stopping : ((cutDev.siteComplete 3).site 5).st = .stopping := by
  rw [siteComplete_cut cutDev_startOf cutDev_drained cutDev_ownerCut cutDev_ringState cutDev_faultErr]
  exact raise_ring_stopping (x := 5) (cutFaulting cutDev 0) 0 (by decide +kernel) (by decide +kernel) (by decide +kernel) cutLatched_hits
    (.inr cutLatched_running)

/-- Refutes O32: the results of site 3 cannot be routed, the fault line of its ring is set to douse (R465), and the douse ends the run of site 5. -/
theorem not_runsEnd : ¬ Obligations.RunsEnd := by
  unfold Obligations.RunsEnd
  rintro ⟨-, h⟩
  obtain ⟨-, hcut, -⟩ := h ⟨[], cutDev⟩ 3 cutStart cutDev_startOf
  have enabled : cutDev.ringState cutStart.ring ≠ rsDisabled := cutDev_ringState ▸ by decide
  have stays := site_siteComplete (hcut cutDev_drained cutDev_ownerCut enabled cutDev_faultErr (by decide)) 5
  have running := (congrArg Site.st stays).trans cutDev_running
  exact absurd (cutDev_stopping.symm.trans running) (by decide)

end Sys2Proof.Proofs
end

section
/-! PROOFS. What the judgement of a start and the groups that it forms depend on (spec/01 R22, R24, spec/06 R175, R176). -/

namespace Sys2Proof.Proofs

open Sys2Proof Sys2Proof.Machine

set_option Elab.async false

namespace SameView

section
variable {d e : Dev} (h : SameView d e)
include h

theorem site (x : Nat) : e.site x = d.site x := by rw [Dev.site, Dev.site, h.seq]
theorem binding (x : Nat) : e.binding x = d.binding x := by rw [Dev.binding, Dev.binding, h.seq]
theorem grate (g : Nat) : e.grate g = d.grate g := by rw [Dev.grate, Dev.grate, h.seq]

theorem getF (f : Fld) {off : Nat} (ho : off < 0xA0000 ∨ 0xB0000 ≤ off) : e.getF off f = d.getF off f := getF_eq_of_reg f (h.reg off ho)

theorem startPins (sites : List Nat) : e.startPins sites = d.startPins sites := by
  simp only [Dev.startPins, h.binding]

theorem siteHearths (x : Nat) : e.siteHearths x = d.siteHearths x := by
  simp only [Dev.siteHearths, h.binding]

theorem commitHolds (x : Nat) : e.commitHolds x = d.commitHolds x := by
  have hearth : ∀ k, e.hearth k = d.hearth k := fun k => by rw [Dev.hearth, Dev.hearth, h.seq]
  have concerns : ∀ y, e.settleConcerns y x = d.settleConcerns y x := fun y => by cases y <;> simp only [Dev.settleConcerns, h.binding]
  simp only [Dev.commitHolds, Dev.commitPending, h.siteHearths, h.seq, hearth, concerns]

theorem stepBusy (g : Nat) : e.stepBusy g = d.stepBusy g := by
  simp only [Dev.stepBusy, Dev.stepOn, h.plans]

theorem startHeld (x : Nat) : e.startHeld x = d.startHeld x := by
  have phase : ∀ f, e.getF R.CLK_GRID_PHASE f = d.getF R.CLK_GRID_PHASE f := fun f => h.getF f (by decide)
  have procs : e.procRuns = d.procRuns := funext fun k => by simp only [Dev.procRuns, h.cal]
  have tmu : ∀ n, e.tmuCh n = d.tmuCh n := fun n => by simp only [Dev.tmuCh, h.tmu]
  simp only [Dev.startHeld, Dev.calHolds, h.binding, h.power, h.commitHolds, h.seq, h.siteHearths, h.stepBusy, h.calCommits, phase, procs, tmu]

theorem pllLocked {p : Nat} (hp : p < 8) : e.pllLocked p = d.pllLocked p := by
  simp only [Dev.pllLocked, Dev.pllState, h.getF F.CLK_PLL_STATUS_STATE (off := R.CLK_PLL_STATUS p) (.inl (by simp only [R.CLK_PLL_STATUS]; omega))]

theorem policy (g : Nat) : e.policy g = d.policy g := h.getF _ (.inr (by simp only [R.HRT_GRT_PWR]; omega))

theorem closed (scope : Nat) : e.closed scope = d.closed scope := by
  have hearths : ∀ n ∈ List.range 32, e.supHearths n = d.supHearths n := fun n hn =>
    h.getF _ (.inl (by have := List.mem_range.mp hn; simp only [R.PWR_SUP_CFG]; omega))
  have reached : ∀ m, e.supReached m = d.supReached m := fun m => List.filter_congr fun n hn => by rw [hearths n hn]
  have round : ∀ m, e.scopeRound m = d.scopeRound m := fun m => by
    simp only [Dev.scopeRound, h.seq, reached]
    exact List.foldl_ext _ _ _ fun a n hn => by rw [hearths n (List.mem_filter.mp hn).1]
  have close : ∀ (fuel m : Nat), e.scopeClose m fuel = d.scopeClose m fuel := fun fuel => by
    induction fuel with
    | zero => exact fun _ => rfl
    | succ fuel ih => exact fun m => by simp only [Dev.scopeClose, round, ih]
  rw [Dev.closed, Dev.closed, close]

theorem faultBit {b : Nat} (hb : b < faultBits) :
    e.faultClass b = d.faultClass b ∧ e.faultReact b = d.faultReact b := by
  have off : R.FLT_CFG (b / 8) < 0xA0000 := by
    simp only [R.FLT_CFG, faultBits] at hb ⊢
    omega
  have word : e.bitOf R.FLT_WORD_LO b = d.bitOf R.FLT_WORD_LO b := by 
    rw [Dev.bitOf, Dev.bitOf, h.getF ⟨b, 1⟩ (off := R.FLT_WORD_LO) (.inl (by decide))]
  simp only [Dev.faultClass, Dev.faultReact, Dev.cfgClass, Dev.cfgReact, word, h.faults, h.getF _ (.inl off), and_self]

theorem unitScope (b unit : Nat) : e.unitScope b unit = d.unitScope b unit := by
  have supply : e.supHearths (unit % 32) = d.supHearths (unit % 32) := h.getF _ (.inl (by simp only [R.PWR_SUP_CFG]; omega))
  simp only [Dev.unitScope, supply]

theorem faultSet (chs : Nat) : e.faultSet chs = d.faultSet chs := by
  have word : e.faultWord = d.faultWord := by rw [Dev.faultWord, Dev.faultWord, h.reg _ (by decide), h.reg _ (by decide)]
  rw [Bool.eq_iff_iff]
  simp only [Dev.faultSet, List.any_eq_true, word]
  refine exists_congr fun b => and_congr_right fun hb => ?_
  obtain ⟨hclass, hreact⟩ := h.faultBit (List.mem_range.mp (List.mem_filter.mp hb).1)
  rw [hclass, hreact, h.closed, h.unitScope, h.faults]

end

/-- A start is judged alike. -/
theorem judgeStart {d e : Dev} (h : SameView d e) (sites : List Nat) (epoch : Nat) (unadmitted : Bool) :
    e.judgeStart sites epoch unadmitted = d.judgeStart sites epoch unadmitted := by
  have adm : e.flag R.HRT_STR_ADM_STATUS F.HRT_STR_ADM_STATUS_OVER = d.flag R.HRT_STR_ADM_STATUS F.HRT_STR_ADM_STATUS_OVER := by
    rw [Dev.flag, Dev.flag, h.getF _ (by decide)]
  have grid : e.pllLocked pllGrid = d.pllLocked pllGrid := h.pllLocked (by decide)
  have held : e.startHeld = d.startHeld := funext h.startHeld
  simp only [Dev.judgeStart, h.startPins, h.site, h.commitHolds, h.known, h.epoch, h.policy, h.board, h.faults, h.faultSet, h.grate, adm, grid, held]

/-- It forms the same groups. -/
theorem formGroups {d e : Dev} (h : SameView d e) (sites : List Nat) : e.formGroups sites = d.formGroups sites := by
  simp only [Dev.formGroups, h.binding]

end SameView

/-! ### Groups and their engines -/

section
variable {d e : Dev} {k : Nat}

theorem takeEngines_cons_none {h : Nat} (t : List Nat) (hfree : d.freeEngineOf h = none) : d.takeEngines k (h :: t) = none := by
  rw [Dev.takeEngines, List.foldl_cons]
  dsimp only
  rw [hfree]
  exact List.foldl_fixed' (fun _ => rfl) t

theorem takeEngines_cons_some {h n : Nat} (t : List Nat) (hfree : d.freeEngineOf h = some n) :
    d.takeEngines k (h :: t) = (d.modEngine n (fun _ => { group := some k, ring := [] })).takeEngines k t := by
  rw [Dev.takeEngines, List.foldl_cons]
  dsimp only
  rw [hfree]
  rfl

theorem takeGroups_cons_none {g : Group} (t : List Group) (hengines : d.takeEngines d.freshGroup g.hearths = none) : d.takeGroups (g :: t) = none := by
  rw [Dev.takeGroups, List.foldl_cons]
  dsimp only
  rw [hengines]
  exact List.foldl_fixed' (fun _ => rfl) t

theorem takeGroups_cons_some {g : Group} (t : List Group) (hengines : d.takeEngines d.freshGroup g.hearths = some e) :
    d.takeGroups (g :: t) = ((e.setGroup d.freshGroup g).nameGroup d.freshGroup).takeGroups t := by
  rw [Dev.takeGroups, List.foldl_cons]
  dsimp only
  rw [hengines]
  rfl

/-- The engines that a group takes depend on the sequencers alone. -/
theorem takeEngines_seq (hs : List Nat) (hseq : e.seq = d.seq) : (e.takeEngines k hs).map Dev.seq = (d.takeEngines k hs).map Dev.seq := by
  induction hs generalizing d e with
  | nil => exact congrArg some hseq
  | cons h t ih =>
    have free : e.freeEngineOf h = d.freeEngineOf h := by
      simp only [Dev.freeEngineOf, Dev.hearth, Dev.engine, hseq]
    cases hfree : d.freeEngineOf h with
    | none => rw [takeEngines_cons_none t hfree, takeEngines_cons_none t (free.trans hfree)]
    | some n =>
      rw [takeEngines_cons_some t hfree, takeEngines_cons_some t (free.trans hfree)]
      refine ih ?_
      simp only [Dev.modEngine, hseq]

theorem nameGroup_seq (k : Nat) (hseq : e.seq = d.seq) : (e.nameGroup k).seq = (d.nameGroup k).seq := by
  have members : ∀ (l : List Nat) (f : Site → Site) (d e : Dev), e.seq = d.seq →
      (l.foldl (fun d s => d.modSite s f) e).seq = (l.foldl (fun d s => d.modSite s f) d).seq := fun l f => by
    induction l with
    | nil => exact fun _ _ h => h
    | cons s t ih => exact fun d e h => ih _ _ (by simp only [Dev.modSite, Dev.setSite, Dev.site, h])
  have group : e.group k = d.group k := by rw [Dev.group, Dev.group, hseq]
  unfold Dev.nameGroup
  rw [group]
  split
  · exact hseq
  · exact members _ _ d e hseq

/-- So do the groups. -/
theorem takeGroups_seq (gs : List Group) (hseq : e.seq = d.seq) : (e.takeGroups gs).map Dev.seq = (d.takeGroups gs).map Dev.seq := by
  induction gs generalizing d e with
  | nil => exact congrArg some hseq
  | cons g t ih =>
    have fresh : e.freshGroup = d.freshGroup := by rw [Dev.freshGroup, Dev.freshGroup, hseq]
    have engines := takeEngines_seq (k := d.freshGroup) g.hearths hseq
    cases hd : d.takeEngines d.freshGroup g.hearths with
    | none =>
      rw [hd, Option.map_none, Option.map_eq_none_iff] at engines
      rw [takeGroups_cons_none t hd, takeGroups_cons_none t (fresh ▸ engines)]
    | some d' =>
      rw [hd, Option.map_some, Option.map_eq_some_iff] at engines
      obtain ⟨e', he, hseq'⟩ := engines
      rw [takeGroups_cons_some t hd, takeGroups_cons_some t (fresh.symm ▸ he), fresh]
      exact ih (nameGroup_seq _ (by simp only [Dev.setGroup, Dev.setGroups, hseq']))

/-- Engines are entered in the sequencers, and no run moves. -/
theorem takeEngines_leaves {hs : List Nat} (h : d.takeEngines k hs = some e) : Leaves d e ∧ e = { d with seq := e.seq } := by
  induction hs generalizing d with
  | nil => exact Option.some.inj h ▸ ⟨.refl d, rfl⟩
  | cons n t ih =>
    cases hfree : d.freeEngineOf n with
    | none =>
      rw [takeEngines_cons_none t hfree] at h
      cases h
    | some m =>
      rw [takeEngines_cons_some t hfree] at h
      obtain ⟨leaves, only⟩ := ih h
      exact ⟨Leaves.trans .upd leaves, only⟩

theorem nameGroup_only (d : Dev) (k : Nat) : d.nameGroup k = { d with seq := (d.nameGroup k).seq } := by
  unfold Dev.nameGroup
  split
  · rfl
  · next g _ =>
    exact List.foldlRecOn g.members _ (motive := fun e : Dev => e = { d with seq := e.seq }) rfl fun e he s _ =>
      congrArg (fun x : Dev => x.modSite s (fun x => { x with group := g.identity })) he

/-- So are groups. -/
theorem takeGroups_leaves {gs : List Group} (h : d.takeGroups gs = some e) : Leaves d e ∧ e = { d with seq := e.seq } := by
  induction gs generalizing d with
  | nil => exact Option.some.inj h ▸ ⟨.refl d, rfl⟩
  | cons g t ih =>
    cases hengines : d.takeEngines d.freshGroup g.hearths with
    | none =>
      rw [takeGroups_cons_none t hengines] at h
      cases h
    | some d' =>
      rw [takeGroups_cons_some t hengines] at h
      obtain ⟨engines, engines_only⟩ := takeEngines_leaves hengines
      obtain ⟨rest, rest_only⟩ := ih h
      refine ⟨(engines.trans (.trans .upd (.nameGroup _ _))).trans rest, ?_⟩
      rw [rest_only, nameGroup_only, engines_only]
      rfl

end

end Sys2Proof.Proofs
end

section
/-! PROOFS. What the acceptance of a start does to its sites, to every other run and to its ring (spec/01 R24, R32, R35, spec/12 R328). -/

namespace Sys2Proof.Proofs

open Sys2Proof Sys2Proof.Machine

set_option Elab.async false

/-! ### Waking ports and grates -/

/-- A status bit of another field of FLU_INT_STATUS leaves LATE. -/
theorem flag_latch_skewDone (d : Dev) :
    (d.latch R.FLU_INT_STATUS F.FLU_INT_STATUS_SKEW_DONE).flag R.FLU_INT_STATUS F.FLU_INT_STATUS_LATE = d.flag R.FLU_INT_STATUS F.FLU_INT_STATUS_LATE := by
  rw [Dev.flag, Dev.latch, getF_setF_disjoint _ _ _ _ _ (by decide) (by decide)]
  rfl

namespace Sends

theorem skewAbort (d : Dev) : Sends d d.skewAbort := by
  have ended : Sends d { d with flue := { d.flue with skew := none } } := {}
  have done : ∀ d : Dev, Sends d (d.flueInt F.FLU_INT_STATUS_SKEW_DONE) := fun d =>
    { reg := fun o _ => reg_latch_other d _ o _ (by simp only [R.FLU_INT_STATUS]; omega), late := (flag_latch_skewDone d).trans }
  exact ite (ended.trans (((setF _ _ _ (by decide) (by decide)).trans (setF _ _ _ (by decide) (by decide))).trans (done _))) (refl d)

theorem foldl_mem {α : Type} {f : Dev → α → Dev} (xs : List α) (d : Dev) (h : ∀ d, ∀ x ∈ xs, Sends d (f d x)) : Sends d (xs.foldl f d) :=
  List.foldlRecOn xs f (motive := Sends d) (refl d) fun e he x hx => he.trans (h e x hx)

/-- A port that wakes neither loses its link nor raises a fault (R327). -/
theorem portWake (d : Dev) {p : Nat} (hp : p < 4) : Sends d (d.portWake p) := by
  have status : ∀ (d : Dev) f v, Sends d (d.setF (R.FLU_PORT_STATUS p) f v) := fun d f v =>
    setF d f v (by simp only [R.FLU_PORT_STATUS]; omega) (by simp only [R.FLU_PORT_STATUS, R.FLU_INT_STATUS]; omega)
  have lane : ∀ (d : Dev) l f v, l < 4 → Sends d (d.setF (R.FLU_PORT_LANE p l) f v) := fun d l f v hl =>
    setF d f v (by simp only [R.FLU_PORT_LANE]; omega) (by simp only [R.FLU_PORT_LANE, R.FLU_INT_STATUS]; omega)
  have burst : ∀ d : Dev, Sends d (d.out (.block p .exitBurst)) := fun d =>
    { sent := fun _ _ hs => hs.imp_left fun ⟨n, hn⟩ => ⟨n, List.mem_append_left _ hn⟩ }
  refine ite ((Sends.trans ?_ (burst _))) (refl d)
  unfold Dev.portEnter
  have idle : psWake ≠ psIdle := by decide
  have down : psWake ≠ psDown := by decide
  have train : psWake ≠ psTrain := by decide
  have error : psWake ≠ psError := by decide
  have active : psWake ≠ psActive := by decide
  simp only [idle, down, train, error, active, or_self, false_and, if_false]
  refine Sends.trans ?_ (ite (skewAbort _) (refl _))
  refine Sends.trans ?_ (foldl_mem _ _ fun e l hl => (lane e l _ _ (List.mem_range.mp hl)).trans (lane _ l _ _ (List.mem_range.mp hl)))
  exact (status d _ _).trans (status _ _ _)

theorem wakePorts (d : Dev) : Sends d d.wakePorts :=
  foldl_mem _ d fun d _ hp => portWake d (List.mem_range.mp hp)

end Sends

/-- The grates of a start that wake, and nothing else, move. -/
theorem startWake_only (d : Dev) (sites : List Nat) : ∃ grates, d.startWake sites = { d with seq := { d.seq with grates := grates } } := by
  refine List.foldlRecOn _ _ (motive := fun e : Dev => ∃ grates, e = { d with seq := { d.seq with grates := grates } }) ⟨_, rfl⟩ ?_
  rintro _ ⟨grates, rfl⟩ g _
  unfold Dev.wakeGrate
  split
  · exact ⟨_, rfl⟩
  · exact ⟨_, rfl⟩

/-! ### The sites of a start -/

/-- A site that a start has taken (R24, R203). -/
def armed (r : Start) (x : Site) : Prop := x.st = .starting ∧ x.start = r.id ∧ x.endCause = .none ∧ x.reason = if r.unadmitted then 1 else 0

/-- Only registers of the hearths, sites and synthesizers move when a site is taken. -/
structure Arms (d e : Dev) : Prop extends Around d e where
  board : e.board = d.board := by rfl
  reg : ∀ off, off < 0xA0000 → e.reg off = d.reg off := by exact fun _ _ => rfl

theorem Arms.trans {d e f : Dev} (h : Arms d e) (g : Arms e f) : Arms d f :=
  ⟨h.toAround.trans g.toAround, g.board.trans h.board, fun o ho => (g.reg o ho).trans (h.reg o ho)⟩

theorem Arms.refl (d : Dev) : Arms d d := {}

section
variable (d : Dev) (r : Start) (s : Nat)

/-- The site taken; the others stay. -/
theorem armSite_sites : ∃ x, armed r x ∧ (d.armSite r s).seq.sites = mapSet d.seq.sites s x := by
  have units : ∀ (l : List LiveClaim) (d : Dev), (l.foldl (fun (d : Dev) (c : LiveClaim) =>
      d.modDds c.unit (fun u => { u with steps := 0, aligns := 0, delayed := 0 })) d).seq.sites = d.seq.sites := fun l d =>
    List.foldlRecOn l _ (motive := fun e : Dev => e.seq.sites = d.seq.sites) rfl fun e he _ _ => he
  unfold Dev.armSite
  dsimp only
  rw [units]
  cases hwaived : r.unadmitted <;> exact ⟨_, ⟨rfl, rfl, rfl, by simp [hwaived]⟩, rfl⟩

theorem armSite_arms : Arms d (d.armSite r s) := by
  have latched : ∀ d : Dev, Arms d (d.latch (R.HRT_INT_STATUS (homeHearth s)) F.HRT_INT_STATUS_SMOTHER) := fun d =>
    { reg := fun o ho => reg_latch_other d _ o _ (by simp only [R.HRT_INT_STATUS]; omega) }
  have units : ∀ (l : List LiveClaim) (d : Dev), Arms d (l.foldl (fun (d : Dev) (c : LiveClaim) =>
      d.modDds c.unit (fun u => { u with steps := 0, aligns := 0, delayed := 0 })) d) := fun l d =>
    List.foldlRecOn l _ (motive := Arms d) (.refl d) fun e he _ _ => he.trans {}
  have entered : ∀ f, Arms d (d.modSite s f) := fun f => {}
  unfold Dev.armSite
  dsimp only
  refine Arms.trans ?_ (units _ _)
  split
  · exact (entered _).trans (latched _)
  · exact entered _

variable (sites : List Nat)

theorem foldl_armSite_arms : Arms d (sites.foldl (fun d s => d.armSite r s) d) :=
  List.foldlRecOn sites _ (motive := Arms d) (.refl d) fun e he s _ => he.trans (armSite_arms e r s)

/-- Every site of the start is taken, and no other. -/
theorem foldl_armSite_site (x : Nat) : (x ∈ sites → armed r ((sites.foldl (fun d s => d.armSite r s) d).site x)) ∧
    (x ∉ sites → (sites.foldl (fun d s => d.armSite r s) d).site x = d.site x) := by
  have other : ∀ (l : List Nat) (e : Dev), x ∉ l → (l.foldl (fun d s => d.armSite r s) e).site x = e.site x := fun l e hl =>
    List.foldlRecOn l _ (motive := fun e' : Dev => e'.site x = e.site x) rfl fun e' he s hs => by
      obtain ⟨_, -, hsites⟩ := armSite_sites e' r s
      rw [← he, Dev.site, hsites]
      exact mapGet_mapSet_other _ _ _ _ _ fun hx => hl (hx ▸ hs)
  refine ⟨fun hx => ?_, other sites d⟩
  induction sites generalizing d with
  | nil => cases hx
  | cons s t ih =>
    by_cases ht : x ∈ t
    · exact ih _ ht
    · obtain rfl := (List.mem_cons.mp hx).resolve_right ht
      obtain ⟨y, hy, hsites⟩ := armSite_sites d r x
      rw [List.foldl_cons, other t _ ht, Dev.site, hsites, mapGet_mapSet_same]
      exact hy

end

/-! ### Sites that a start's clocks do not hold for -/

/-- A site smothered for clock loss (R35). -/
def clockLost (id : Nat) (e : Dev) (x : Nat) : Prop := RunEnds x .smother e ∧ (e.site x).start = id ∧ 2 ∈ (e.site x).reasons

theorem clockLost_of_sameRun {id : Nat} {d e : Dev} {x : Nat} (h : SameRun (d.site x) (e.site x)) (g : clockLost id d x) : clockLost id e x := by
  obtain ⟨⟨st, cause⟩, start, reason⟩ := g
  exact ⟨⟨h.st.trans st, h.cause.trans cause⟩, h.start.trans start, h.reasons _ reason⟩

/-- The smothering of a site in STARTING ends it; of one that has ended leaves all. -/
theorem smother_ends (d : Dev) (s : Nat) (h : (d.site s).st = .starting) : EndsRun s .smother 2 d (d.smother s 2) := by
  unfold Dev.smother
  dsimp only
  rw [if_pos (.inl h)]
  exact endSite_ends d s .smother 2 false (.inl h)

theorem smother_stopping (d : Dev) (s : Nat) (h : (d.site s).st = .stopping) : d.smother s 2 = d := by
  unfold Dev.smother
  simp [h]

/-- Sites that a start has taken, or that are smothered already, are all smothered; every other run, starts, live set-up and rings stay. -/
theorem smotherAll_ends (id : Nat) (sites : List Nat) (d : Dev)
    (h : ∀ x ∈ sites, (d.site x).st = .starting ∧ (d.site x).start = id ∨ clockLost id d x) :
    Around d (d.smotherAll sites 2) ∧
      ∀ x, if x ∈ sites then clockLost id (d.smotherAll sites 2) x else SameRun (d.site x) ((d.smotherAll sites 2).site x) := by
  induction sites generalizing d with
  | nil => exact ⟨.refl d, fun x => .refl _⟩
  | cons s t ih =>
    -- the first site ends, or has ended
    have first : Around d (d.smother s 2) ∧ clockLost id (d.smother s 2) s ∧ ∀ x, x ≠ s → SameRun (d.site x) ((d.smother s 2).site x) := by
      rcases h s List.mem_cons_self with ⟨hstarting, hid⟩ | hlost
      · have ends := smother_ends d s hstarting
        exact ⟨ends.toAround, ⟨ends.ended, ends.start.trans hid, ends.reason (by decide)⟩, ends.other⟩
      · rw [smother_stopping d s hlost.1.1]
        exact ⟨.refl d, hlost, fun _ _ => .refl _⟩
    obtain ⟨around, lost, other⟩ := first
    have rest : ∀ x ∈ t, ((d.smother s 2).site x).st = .starting ∧ ((d.smother s 2).site x).start = id ∨
        clockLost id (d.smother s 2) x := fun x hx => by
      by_cases hs : x = s
      · exact .inr (hs ▸ lost)
      · have same := other x hs
        exact (h x (List.mem_cons_of_mem s hx)).imp (fun ⟨st, start⟩ => ⟨same.st.trans st, same.start.trans start⟩) (clockLost_of_sameRun same)
    obtain ⟨around', sites'⟩ := ih _ rest
    refine ⟨around.trans around', fun x => ?_⟩
    have later := sites' x
    by_cases ht : x ∈ t
    · rw [if_pos ht] at later
      rw [if_pos (List.mem_cons_of_mem s ht)]
      exact later
    · rw [if_neg ht] at later
      by_cases hs : x = s
      · rw [if_pos (hs ▸ List.mem_cons_self)]
        exact clockLost_of_sameRun later (hs ▸ lost)
      · rw [if_neg (fun hx => (List.mem_cons.mp hx).elim hs ht)]
        exact (other x hs).trans later

end Sys2Proof.Proofs
end

section
/-! PROOFS. A start is accepted, refused, late or held (spec/01 R22, R24, R25, spec/12 R343, R344). -/

namespace Sys2Proof.Proofs

open Sys2Proof Sys2Proof.Machine

set_option Elab.async false

/-! ### Acceptance -/

/-- What waits on a ring does so whatever becomes of the sites that the rings own. -/
theorem waits_map_owned (l : List (Nat × RingSt)) (f : RingSt → List Nat) (n : Nat) :
    (mapGet (l.map fun x => (x.1, { x.2 with owned := f x.2 })) n RingSt.reset).held = (mapGet l n RingSt.reset).held ∧
      (mapGet (l.map fun x => (x.1, { x.2 with owned := f x.2 })) n RingSt.reset).waiting = (mapGet l n RingSt.reset).waiting := by
  induction l with
  | nil => exact ⟨rfl, rfl⟩
  | cons x t ih =>
    obtain ⟨k, v⟩ := x
    simp only [mapGet, List.map_cons, mapFind] at ih ⊢
    split
    · exact ⟨rfl, rfl⟩
    · exact ih

/-- The ring of a start takes its sites; completions and descriptors of every ring wait as they did. -/
theorem ownSites_ring (d : Dev) (r : Start) (n : Nat) :
    ((d.ownSites r).ring n).held = (d.ring n).held ∧ ((d.ownSites r).ring n).waiting = (d.ring n).waiting := by
  have others := waits_map_owned d.rings.rings (fun v => v.owned.filter fun s => !(r.sites.contains s)) n
  unfold Dev.ownSites
  dsimp only
  by_cases hn : n = r.ring
  · subst hn
    rw [ring_modRing_same]
    exact others
  · rw [ring_modRing_other _ _ hn]
    exact others

theorem ownSites_arms (d : Dev) (r : Start) : Arms d (d.ownSites r) := { ring := ownSites_ring d r }

theorem startWake_arms (d : Dev) (sites : List Nat) : Arms d (d.startWake sites) := by
  obtain ⟨_, h⟩ := startWake_only d sites
  rw [h]
  exact {}

theorem Sends.arms {d e : Dev} (h : Sends d e) : Arms d e := ⟨(Leaves.of_sends h).toAround, h.board, fun o ho => h.reg o (.inl ho)⟩

/-- A start that has its engines is kept, and takes its sites, its grates and, if it spans devices, its ports (R24, R99, R328). -/
def readied (d : Dev) (r : Start) : Dev :=
  let d := { d with seq := { d.seq with starts := d.seq.starts ++ [r], nextStart := r.id + 1 } }
  let d := r.sites.foldl (fun d s => d.armSite r s) d
  let d := (d.ownSites r).startWake r.sites
  if r.multi then d.wakePorts else d

section
variable (d : Dev) (r : Start)

theorem readied_arms : Arms { d with seq := { d.seq with starts := d.seq.starts ++ [r], nextStart := r.id + 1 } } (readied d r) := by
  unfold readied
  dsimp only
  have taken := ((foldl_armSite_arms { d with seq := { d.seq with starts := d.seq.starts ++ [r], nextStart := r.id + 1 } } r r.sites).trans
    (ownSites_arms _ r)).trans (startWake_arms _ r.sites)
  split
  · exact taken.trans (Sends.wakePorts _).arms
  · exact taken

theorem readied_site (x : Nat) : (x ∈ r.sites → armed r ((readied d r).site x)) ∧ (x ∉ r.sites → (readied d r).site x = d.site x) := by
  have later : ∀ e : Dev,
      (if r.multi then ((e.ownSites r).startWake r.sites).wakePorts else (e.ownSites r).startWake r.sites).site x = e.site x := fun e => by
    have woken : ((e.ownSites r).startWake r.sites).site x = e.site x := by
      obtain ⟨_, h⟩ := startWake_only (e.ownSites r) r.sites
      rw [h]
      rfl
    split
    · exact ((Sends.wakePorts _).site x).trans woken
    · exact woken
  obtain ⟨taken, other⟩ := foldl_armSite_site { d with seq := { d.seq with starts := d.seq.starts ++ [r], nextStart := r.id + 1 } } r r.sites x
  rw [readied, later]
  exact ⟨taken, other⟩

end

/-- The clocks that a start needs are judged by board and registers. -/
theorem clocksHold_congr {d e : Dev} (r : Start) (hboard : e.board = d.board) (hreg : ∀ off, off < 0xA0000 → e.reg off = d.reg off) :
    e.clocksHold r = d.clocksHold r := by
  have locked : ∀ p, p < 8 → e.pllLocked p = d.pllLocked p := fun p hp => by
    have status := hreg (R.CLK_PLL_STATUS p) (by simp only [R.CLK_PLL_STATUS]; omega)
    rw [Dev.pllLocked, Dev.pllLocked, Dev.pllState, Dev.pllState, getF_eq_of_reg _ status]
  simp only [Dev.clocksHold, hboard, List.all_cons, List.all_nil, locked pllGrid (by decide), locked pllFabric (by decide),
    locked pllDram0 (by decide), locked pllDram1 (by decide), locked pllFlue (by decide)]

/-- A start has been accepted (R24, R32). -/
structure Accepted (r : Start) (d e : Dev) : Prop where
  clocks : d.clocksHold r = true → ∀ x ∈ r.sites, armed r (e.site x)
  lost : d.clocksHold r = false → ∀ x ∈ r.sites, clockLost r.id e x
  other : ∀ x, x ∉ r.sites → (e.site x).st = (d.site x).st
  starts : e.seq.starts = d.seq.starts ++ [r]
  live : e.seq.live = d.seq.live
  ring : ∀ n, (e.ring n).held = (d.ring n).held ∧ (e.ring n).waiting = (d.ring n).waiting
  sent : ∀ p k, Sent p k d → Sent p k e

theorem acceptStart_some {d : Dev} {r : Start} (h : (d.takeGroups (d.formGroups r.sites)).isSome = true) :
    ∃ e, d.acceptStart r = some e ∧ Accepted r d e := by
  obtain ⟨g, hg⟩ := Option.isSome_iff_exists.mp h
  obtain ⟨leaves, only⟩ := takeGroups_leaves hg
  have arms := readied_arms g r
  have clocks : (readied g r).clocksHold r = d.clocksHold r :=
    clocksHold_congr r (arms.board.trans (by rw [only])) fun o ho => (arms.reg o ho).trans (by rw [only]; rfl)
  have starts : (readied g r).seq.starts = d.seq.starts ++ [r] := arms.starts.trans (congrArg (· ++ [r]) leaves.starts)
  have ring : ∀ n, ((readied g r).ring n).held = (d.ring n).held ∧ ((readied g r).ring n).waiting = (d.ring n).waiting := fun n =>
    ⟨(arms.ring n).1.trans (leaves.ring n).1, (arms.ring n).2.trans (leaves.ring n).2⟩
  have sent : ∀ p k, Sent p k d → Sent p k (readied g r) := fun p k hs => arms.sent p k (leaves.sent p k hs)
  have other : ∀ x, x ∉ r.sites → ((readied g r).site x).st = (d.site x).st := fun x hx => by
    rw [(readied_site g r x).2 hx]
    exact (leaves.site x).st
  have accepted : d.acceptStart r = some (if (readied g r).clocksHold r then readied g r else (readied g r).smotherAll r.sites 2) := by
    rw [Dev.acceptStart, hg]
    rfl
  refine ⟨_, accepted, ?_⟩
  cases hclocks : d.clocksHold r with
  | true =>
    rw [if_pos (clocks.trans hclocks)]
    exact ⟨fun _ x hx => (readied_site g r x).1 hx, fun hno => absurd (hclocks.symm.trans hno) (by decide), other, starts,
      arms.live.trans leaves.live, ring, sent⟩
  | false =>
    rw [if_neg (by rw [clocks, hclocks]; decide)]
    obtain ⟨around, sites⟩ := smotherAll_ends r.id r.sites (readied g r) fun x hx => by
      obtain ⟨st, start, -⟩ := (readied_site g r x).1 hx
      exact .inl ⟨st, start⟩
    refine ⟨fun hyes => absurd (hclocks.symm.trans hyes) (by decide), fun _ x hx => ?_, fun x hx => ?_, around.starts.trans starts,
      around.live.trans (arms.live.trans leaves.live), fun n => ⟨(around.ring n).1.trans (ring n).1, (around.ring n).2.trans (ring n).2⟩,
      fun p k hs => around.sent p k (sent p k hs)⟩
    · have ends := sites x
      rwa [if_pos hx] at ends
    · have same := sites x
      rw [if_neg hx] at same
      exact same.st.trans (other x hx)

theorem acceptStart_none {d : Dev} {r : Start} (h : d.takeGroups (d.formGroups r.sites) = none) : d.acceptStart r = none := by
  rw [Dev.acceptStart, h]

/-! ### Starts that do not run -/

namespace Sends

theorem declineStart (d : Dev) (r : Start) : Sends d (d.declineStart r) := foldl _ d fun d _ => sendEvent d _ _ _ _ _ _ _ _

theorem writeResults (d : Dev) (r : Start) (status : Dev → Nat → Nat) : Sends d (d.writeResults r status).1 := by
  unfold Dev.writeResults
  refine List.foldlRecOn _ _ (motive := fun x : Dev × Bool => Sends d x.1) (refl d) fun x hx s _ => ?_
  dsimp only
  split
  · exact hx
  · exact hx.trans (ownerWrite _ _ _ _)

theorem flueLate (d : Dev) (f : Fld) : Sends d (d.flueLate f) := (setF d f _ (by decide) (by decide)).trans (latchLate _)

end Sends

/-- A start that does not run is declined and completes (R346, R369). -/
def declined (d : Dev) (r : Start) (status arg0 arg1 : Nat) (lost : Bool) : Dev := (d.declineStart r).postStart r status arg0 arg1 lost

theorem declined_ring (d : Dev) (r : Start) (status arg0 arg1 : Nat) (lost : Bool) (hevent : r.event = false) :
    (declined d r status arg0 arg1 lost).ring r.ring =
      { d.ring r.ring with held := (d.ring r.ring).held ++ [⟨r.hostSeq, opStart, status, 4 * bit lost + 8 * bit r.irq, arg0, arg1, true⟩] } := by
  have rings : (d.declineStart r).ring r.ring = d.ring r.ring := by rw [Dev.ring, Dev.ring, (Sends.declineStart d r).rings]
  refine (ring_modRing_same _ _ _).trans ?_
  rw [rings, hevent]
  simp [bit]

/-- What has come too late is counted, and its sites' result entries say so (R24, R339, R371). -/
def lateWritten (d : Dev) (r : Start) : Dev × Bool := ((d.flueLate F.FLU_LATE_EVENTS).startWake r.sites).writeResults r (fun _ _ => stLate)

/-- It completes LATE with the present epoch and its own (R369). -/
def lateEnd (d : Dev) (r : Start) : Dev := declined (lateWritten d r).1 r stLate (lateWritten d r).1.flue.epoch r.epoch (lateWritten d r).2

/-- Beside the grates that wake, a late start moves nothing of the sequencers. -/
theorem lateEnd_seq (d : Dev) (r : Start) : ∃ grates, (lateEnd d r).seq = { d.seq with grates := grates } := by
  obtain ⟨grates, woken⟩ := startWake_only (d.flueLate F.FLU_LATE_EVENTS) r.sites
  refine ⟨grates, (Sends.declineStart _ r).seq.trans ((Sends.writeResults _ r _).seq.trans ?_)⟩
  rw [woken]
  exact congrArg (fun q : SeqState => { q with grates := grates }) (Sends.flueLate d _).seq

theorem lateEnd_ring (d : Dev) (r : Start) (hevent : r.event = false) : ∃ lost, (lateEnd d r).ring r.ring =
    { d.ring r.ring with
      held := (d.ring r.ring).held ++ [⟨r.hostSeq, opStart, stLate, 4 * bit lost + 8 * bit r.irq, d.flue.epoch, r.epoch, true⟩] } := by
  obtain ⟨_, woken⟩ := startWake_only (d.flueLate F.FLU_LATE_EVENTS) r.sites
  have written := Sends.writeResults ((d.flueLate F.FLU_LATE_EVENTS).startWake r.sites) r fun _ _ => stLate
  have rings : (lateWritten d r).1.ring r.ring = d.ring r.ring := by
    rw [Dev.ring, lateWritten, written.rings, woken]
    rfl
  have epoch : (lateWritten d r).1.flue.epoch = d.flue.epoch := by
    rw [lateWritten, written.epoch, woken]
    rfl
  refine ⟨(lateWritten d r).2, (declined_ring _ r _ _ _ _ hevent).trans ?_⟩
  rw [rings, epoch]

/-- LATE stays latched while results are written and partners are told, and nothing sent is lost. -/
theorem lateEnd_late (d : Dev) (r : Start) :
    (lateEnd d r).flag R.FLU_INT_STATUS F.FLU_INT_STATUS_LATE = true ∧ ∀ p k, Sent p k d → Sent p k (lateEnd d r) := by
  obtain ⟨_, woken⟩ := startWake_only (d.flueLate F.FLU_LATE_EVENTS) r.sites
  have later : Sends ((d.flueLate F.FLU_LATE_EVENTS).startWake r.sites) ((lateWritten d r).1.declineStart r) :=
    (Sends.writeResults ((d.flueLate F.FLU_LATE_EVENTS).startWake r.sites) r fun _ _ => stLate).trans (.declineStart _ r)
  rw [woken] at later
  exact ⟨later.late (flag_latch_late _), fun p k hs => later.sent p k ((Sends.flueLate d F.FLU_LATE_EVENTS).sent p k hs)⟩

/-! ### How a start is decided -/

section
variable {d : Dev} {r : Start}

theorem decideStart_held (h : d.judgeStart r.sites r.epoch r.unadmitted = .held) : d.decideStart r = none := by
  rw [Dev.decideStart, h]

theorem decideStart_refused {a : Nat} (h : d.judgeStart r.sites r.epoch r.unadmitted = .refused a) :
    d.decideStart r = some (declined d r stRefused a 0 false) := by
  rw [Dev.decideStart, h]
  rfl

theorem decideStart_late (h : d.judgeStart r.sites r.epoch r.unadmitted = .late) :
    d.decideStart r = some (lateEnd d r) := by
  rw [Dev.decideStart, h]
  rfl

theorem decideStart_accepted {e : Dev} (h : d.judgeStart r.sites r.epoch r.unadmitted = .accepted) (haccept : d.acceptStart r = some e) :
    d.decideStart r = some e := by
  rw [Dev.decideStart, h]
  dsimp only
  rw [haccept]

theorem decideStart_noEngine (h : d.judgeStart r.sites r.epoch r.unadmitted = .accepted) (hnone : d.acceptStart r = none) :
    d.decideStart r = some (declined d r stRefused (refuseArg 0x87) 0 false) := by
  rw [Dev.decideStart, h]
  dsimp only
  rw [hnone]
  rfl

/-- A start is decided unless it is held, and what was sent before stays sent. -/
theorem decideStart_decided (h : d.judgeStart r.sites r.epoch r.unadmitted ≠ .held) :
    ∃ e, d.decideStart r = some e ∧ ∀ p k, Sent p k d → Sent p k e := by
  have sent : ∀ (d : Dev) status a b lost p k, Sent p k d → Sent p k (declined d r status a b lost) := fun d _ _ _ _ => (Sends.declineStart d r).sent
  cases hjudge : d.judgeStart r.sites r.epoch r.unadmitted with
  | held => exact absurd hjudge h
  | refused a => exact ⟨_, decideStart_refused hjudge, sent _ _ _ _ _⟩
  | late => exact ⟨_, decideStart_late hjudge, (lateEnd_late d r).2⟩
  | accepted =>
    cases hgroups : d.takeGroups (d.formGroups r.sites) with
    | none => exact ⟨_, decideStart_noEngine hjudge (acceptStart_none hgroups), sent _ _ _ _ _⟩
    | some g =>
      obtain ⟨e, haccept, accepted⟩ := acceptStart_some (by rw [hgroups]; rfl : (d.takeGroups (d.formGroups r.sites)).isSome = true)
      exact ⟨e, decideStart_accepted hjudge haccept, accepted.sent⟩

end

/-! ### The START descriptor at the front of its ring -/

/-- The descriptor is taken, and its start may be sent again by the next one. -/
def taken (d : Dev) (n : Nat) (q : Desc) : Dev := (d.beginDesc n q).modRing n (fun x => { x with startSent := false })

section
variable {d : Dev} {n : Nat} {q : Desc} {r : Start}

theorem startSend_view (d : Dev) (n : Nat) (q : Desc) (r : Start) : SameView d (d.startSend n q r) := by
  unfold Dev.startSend
  split
  · exact .refl d
  · exact (Sends.sendEvent d _ _ _ _ _ _ _ _).toSameView.trans {}

theorem taken_view (d : Dev) (n : Nat) (q : Desc) : SameView d (taken d n q) := by
  unfold taken Dev.beginDesc Dev.logDesc
  split <;> exact {}

theorem taken_sent (d : Dev) (n : Nat) (q : Desc) {p : Nat} {k : Packet} (h : Sent p k d) : Sent p k (taken d n q) := by
  unfold taken Dev.beginDesc Dev.logDesc
  split <;> exact h

theorem startSend_ring (d : Dev) (n : Nat) (q : Desc) (r : Start) :
    (d.startSend n q r).ring n = { d.ring n with startSent := (d.ring n).startSent || r.multi } := by
  unfold Dev.startSend
  split
  · next h =>
    have same : ((d.ring n).startSent || r.multi) = (d.ring n).startSent := by
      cases hm : r.multi <;> simp_all
    rw [same]
  · next h =>
    have sent : ((d.ring n).startSent || r.multi) = true := by
      cases hm : r.multi <;> simp_all
    rw [sent, ring_modRing_same, Dev.ring, (Sends.sendEvent d _ _ _ _ _ _ _ _).rings]
    rfl

theorem startSend_stays (h : r.multi = false ∨ (d.ring n).startSent = true) : d.startSend n q r = d := by
  unfold Dev.startSend
  rw [if_pos]
  rcases h with h | h <;> simp [h]

/-- A start that spans devices and was not sent yet is sent to the tree (R343, R344). -/
theorem startSend_sent (hring : r.ring = n) (hrole : d.role ≠ 0) (hmulti : r.multi = true) (hunsent : (d.ring n).startSent = false) {p : Nat}
    (hp : p ∈ d.eventPorts) : Sent p (d.tells r r.epoch evStart ((List.range 8).map (fun i => fieldAt q.bytes (8 * i) 8))) (d.startSend n q r) := by
  have sent := Sends.sent_sendEvent d hrole r r.epoch evStart ((List.range 8).map (fun i => fieldAt q.bytes (8 * i) 8)) hp
  rw [hring] at sent
  unfold Dev.startSend
  rw [if_neg (by simp [hmulti, hunsent])]
  exact sent

/-- The descriptor's ring once it is taken. -/
theorem taken_ring (d : Dev) (n : Nat) (q : Desc) (r : Start) :
    (taken (d.startSend n q r) n q).ring n = { d.ring n with waiting := (d.ring n).waiting.tail, current := none, startSent := false } := by
  rw [taken, ring_modRing_same, beginDesc_ring, startSend_ring]
  rfl

/-- START with no start waiting that came as a Flue event: the start is sent where it spans devices, then decided, unless it is held. -/
theorem startTake_eq (hnext : d.nextDesc n opStart = some q) (hevents : (d.ring n).events = []) (hr : r = d.startOfDesc n q false) :
    d.startTake n = if ((d.startSend n q r).decideStart r).isNone then d.startSend n q r
      else ((taken (d.startSend n q r) n q).decideStart r).getD (taken (d.startSend n q r) n q) := by
  have noEvents : d.startEvents n = d := by
    rw [Dev.startEvents, hevents]
  rw [Dev.startTake, noEvents, Dev.startDesc, hnext, hr]
  rfl

theorem startTake_held (hnext : d.nextDesc n opStart = some q) (hevents : (d.ring n).events = []) (hr : r = d.startOfDesc n q false)
    (hheld : d.judgeStart r.sites r.epoch r.unadmitted = .held) : d.startTake n = d.startSend n q r := by
  have held := ((startSend_view d n q r).judgeStart r.sites r.epoch r.unadmitted).trans hheld
  rw [startTake_eq hnext hevents hr, decideStart_held held]
  rfl

/-- A start that is decided is decided once its descriptor is taken. -/
theorem startTake_decided {e : Dev} (hnext : d.nextDesc n opStart = some q) (hevents : (d.ring n).events = []) (hr : r = d.startOfDesc n q false)
    (hjudge : d.judgeStart r.sites r.epoch r.unadmitted ≠ .held) (hdecided : (taken (d.startSend n q r) n q).decideStart r = some e) :
    d.startTake n = e := by
  obtain ⟨_, sent, -⟩ := decideStart_decided (((startSend_view d n q r).judgeStart r.sites r.epoch r.unadmitted).symm ▸ hjudge)
  rw [startTake_eq hnext hevents hr, sent, hdecided]
  rfl

end

/-! ### The obligation -/

section
variable {d : Dev} {n : Nat} {q : Desc} {r : Start} (hr : r = d.startOfDesc n q false)
include hr

/-- A start that is refused leaves its ring with its completion, and the sequencers as they were. -/
theorem declined_ended (hnext : d.nextDesc n opStart = some q) (a : Nat) :
    Ended n q stRefused a 0 d (declined (taken (d.startSend n q r) n q) r stRefused a 0 false) ∧
    (declined (taken (d.startSend n q r) n q) r stRefused a 0 false).seq = d.seq := by
  have view := (startSend_view d n q r).trans (taken_view _ n q)
  obtain ⟨-, -, opcode⟩ := nextDesc_some hnext
  have ring := declined_ring (taken (d.startSend n q r) n q) r stRefused a 0 false (by rw [hr]; rfl)
  rw [show r.ring = n by rw [hr]; rfl, taken_ring] at ring
  refine ⟨⟨(congrArg RingSt.held ring).trans ?_, congrArg RingSt.waiting ring, congrArg RingSt.current ring⟩,
    ((Sends.declineStart _ r).seq).trans view.seq⟩
  rw [opcode, hr]
  simp [Dev.startOfDesc, bit]

/-- A start that comes too late leaves the sites, is counted, and completes LATE with the present epoch and its own. -/
theorem lateEnd_taken (e : Dev) (he : e = lateEnd (taken (d.startSend n q r) n q) r) :
    e.seq.sites = d.seq.sites ∧ e.seq.starts = d.seq.starts ∧ e.flag R.FLU_INT_STATUS F.FLU_INT_STATUS_LATE = true ∧
      (e.ring n).held.map (fun c => (c.hostSeq, c.opcode, c.status, c.arg0, c.arg1)) =
        (d.ring n).held.map (fun c => (c.hostSeq, c.opcode, c.status, c.arg0, c.arg1)) ++ [(q.hostSeq, opStart, stLate, d.flue.epoch, r.epoch)] := by
  have view := (startSend_view d n q r).trans (taken_view _ n q)
  obtain ⟨_, seq⟩ := lateEnd_seq (taken (d.startSend n q r) n q) r
  obtain ⟨_, ring⟩ := lateEnd_ring (taken (d.startSend n q r) n q) r (by rw [hr]; rfl)
  rw [← he, show r.ring = n by rw [hr]; rfl, taken_ring, view.epoch] at ring
  rw [← he, view.seq] at seq
  refine ⟨by rw [seq], by rw [seq], he ▸ (lateEnd_late _ r).1, ?_⟩
  rw [ring, hr]
  simp [Dev.startOfDesc]

end

/-- Settles O31: what the judgement looks at does not move while a start is sent and its descriptor taken, so each answer of `Dev.judgeStart` is the
one that decides it; an accepted start is followed through `Dev.acceptStart`. -/
theorem startIsJudged : Obligations.StartIsJudged := by
  unfold Obligations.StartIsJudged
  intro s n q r hnext hevents hr
  have start : exec (.start n) s = s.act (fun d => d.startTake n) := rfl
  have view := (startSend_view s.dev n q r).trans (taken_view _ n q)
  have ring := taken_ring s.dev n q r
  have judged := view.judgeStart r.sites r.epoch r.unadmitted
  have groups := takeGroups_seq ((taken (s.dev.startSend n q r) n q).formGroups r.sites) view.seq
  rw [view.formGroups r.sites] at groups
  have decided : ∀ {e : Dev}, s.dev.judgeStart r.sites r.epoch r.unadmitted ≠ .held →
      (taken (s.dev.startSend n q r) n q).decideStart r = some e → s.dev.startTake n = e := startTake_decided hnext hevents hr
  have ofRing : r.ring = n := by rw [hr]; rfl
  refine ⟨fun haccepted hgroups => ?_, fun haccepted hnone => ?_, fun a hrefused => ?_, fun hlate => ?_, fun hinv hheld hsent => ?_,
    fun hmulti hunsent => ⟨fun hheld => ?_, fun p hp => ?_⟩⟩
  · have engines := congrArg Option.isSome groups
    rw [Option.isSome_map, Option.isSome_map, hgroups, ← view.formGroups r.sites] at engines
    obtain ⟨e, haccept, accepted⟩ := acceptStart_some engines
    have clocks : (taken (s.dev.startSend n q r) n q).clocksHold r = s.dev.clocksHold r :=
      clocksHold_congr r view.board fun o ho => view.reg o (.inl ho)
    have waits := accepted.ring n
    rw [ring] at waits
    refine completes_act start ?_
    rw [decided (by rw [haccepted]; exact StartEnd.noConfusion) (decideStart_accepted (judged.trans haccepted) haccept)]
    refine ⟨fun h x hx => accepted.clocks (clocks.trans h) x hx, fun h x hx => ?_, fun x hx => ?_, ?_, waits.1, waits.2, ?_⟩
    · obtain ⟨ends, start, reason⟩ := accepted.lost (clocks.trans h) x hx
      exact ⟨ends, start, List.contains_iff_mem.mpr reason⟩
    · exact (accepted.other x hx).trans (congrArg Site.st (view.site x))
    · exact accepted.starts.trans (congrArg (fun q => q.starts ++ [r]) view.seq)
    · exact accepted.live.trans (congrArg SeqState.live view.seq)
  · rw [hnone, Option.map_none, Option.map_eq_none_iff] at groups
    have refused := decideStart_noEngine (judged.trans haccepted) (acceptStart_none (view.formGroups r.sites ▸ groups))
    refine completes_act start ?_
    rw [decided (by rw [haccepted]; exact StartEnd.noConfusion) refused]
    exact declined_ended hr hnext _
  · have refused := decideStart_refused (judged.trans hrefused)
    refine completes_act start ?_
    rw [decided (by rw [hrefused]; exact StartEnd.noConfusion) refused]
    exact declined_ended hr hnext a
  · refine completes_act start ?_
    rw [decided (by rw [hlate]; exact StartEnd.noConfusion) (decideStart_late (judged.trans hlate))]
    exact lateEnd_taken hr (lateEnd (taken (s.dev.startSend n q r) n q) r) rfl
  · refine exec_eq_self start ?_ hinv
    exact (startTake_held hnext hevents hr hheld).trans (startSend_stays hsent)
  · have ring := startSend_ring s.dev n q r
    refine completes_act start ?_
    rw [startTake_held hnext hevents hr hheld]
    refine ⟨(congrArg RingSt.startSent ring).trans ?_, (congrArg RingSt.waiting ring :), (congrArg RingSt.held ring :),
      (startSend_view s.dev n q r).seq⟩
    rw [hmulti, Bool.or_true]
  · have spans : (s.dev.role != 0 && (q.mask 16 32).any s.dev.isMulti) = true := by
      rw [hr] at hmulti
      exact hmulti
    have role : s.dev.role ≠ 0 := bne_iff_ne.mp (Bool.and_eq_true_iff.mp spans).1
    have sent := startSend_sent (q := q) ofRing role hmulti hunsent hp
    refine completes_act start ?_
    by_cases hheld : s.dev.judgeStart r.sites r.epoch r.unadmitted = .held
    · rw [startTake_held hnext hevents hr hheld]
      exact sent
    · obtain ⟨e, hdecided, stays⟩ := decideStart_decided (judged.symm ▸ hheld)
      rw [decided hheld hdecided]
      exact stays p _ (taken_sent _ n q sent)

end Sys2Proof.Proofs
end

section
/-! PROOFS. DOUSE_N and RESET_N: what a douse leaves, and when a pin starts one (spec/02 R59, R60, R61, spec/18 R467, R469, R473, R479). -/

namespace Sys2Proof.Proofs

open Sys2Proof Sys2Proof.Machine

/-! ### Bits of a mask -/

theorem tbit_eq_testBit (n i : Nat) : tbit n i = n.testBit i := Nat.testBit_eq_decide_div_mod_eq.symm

theorem tbit_or_of_left {m ch : Nat} (n : Nat) (h : tbit m ch = true) : tbit (m ||| n) ch = true := by
  rw [tbit_eq_testBit] at h ⊢
  rw [Nat.testBit_or, h, Bool.true_or]

/-- A number of `n` bits with one more of them set. -/
theorem add_two_pow_lt {m n i : Nat} (hm : m < 2 ^ n) (hi : i < n) (hclear : m / 2 ^ i % 2 = 0) : m + 2 ^ i < 2 ^ n := by
  obtain ⟨k, rfl⟩ := Nat.exists_eq_add_of_lt hi
  have hpow : 2 ^ (i + k + 1) = 2 * 2 ^ k * 2 ^ i := by ring
  rw [hpow, ← Nat.div_lt_iff_lt_mul (Nat.two_pow_pos i)] at hm ⊢
  rw [Nat.add_div_right _ (Nat.two_pow_pos i)]
  omega

theorem maskOf_lt {l : List Nat} {n : Nat} (h : ∀ i ∈ l, i < n) : maskOf l < 2 ^ n :=
  List.foldlRecOn l _ (motive := (· < 2 ^ n)) (Nat.two_pow_pos n) fun m hm i hi => by
    split
    · exact hm
    · next hclear => exact add_two_pow_lt hm (h i hi) (by simpa [tbit] using hclear)

/-- The hearths of a scope fit the field that tells of them. -/
theorem scopeHearths_lt (scope : Nat) : scopeHearths scope < 2 ^ 16 :=
  maskOf_lt fun _ hh => List.mem_range.mp (List.mem_filter.mp hh).1

/-! ### A closed scope holds its source (R467) -/

section
variable {scope ch : Nat} (h : tbit scope ch = true)
include h

theorem tbit_foldl {α : Type} {f : Nat → α → Nat} (xs : List α) (hf : ∀ m x, tbit m ch = true → tbit (f m x) ch = true) :
    tbit (xs.foldl f scope) ch = true :=
  List.foldlRecOn xs f (motive := fun m => tbit m ch = true) h fun m hm x _ => hf m x hm

theorem tbit_scopeRound (d : Dev) : tbit (d.scopeRound scope) ch = true := by
  refine tbit_foldl (tbit_foldl h _ fun m b hm => ?_) _ fun m n hm => tbit_or_of_left _ hm
  dsimp only
  split
  · exact tbit_or_of_left _ hm
  · exact hm

theorem tbit_scopeClose (d : Dev) (fuel : Nat) : tbit (d.scopeClose scope fuel) ch = true := by
  induction fuel generalizing scope with
  | zero => exact h
  | succ fuel ih =>
    unfold Dev.scopeClose
    dsimp only
    split
    · exact tbit_scopeRound h d
    · exact ih (tbit_scopeRound h d)

theorem tbit_closed (d : Dev) : tbit (d.closed scope) ch = true := by
  unfold Dev.closed
  split
  · next hzero => exact hzero ▸ h
  · exact tbit_scopeClose h d _

end

/-! ### FLT_DOUSE_STATUS (R479) -/

theorem regsBut_setF (d : Dev) (off : Nat) (f : Fld) (v : Nat) : RegsBut [off] d (d.setF off f v) :=
  fun o ho => reg_setF_other d off o f v fun e => ho (List.mem_singleton.mpr e)

theorem regsBut_trans {l : List Nat} {d e f : Dev} (h : RegsBut l d e) (g : RegsBut l e f) : RegsBut l d f :=
  fun off ho => (g off ho).trans (h off ho)

theorem banked_setF_status (d : Dev) (f : Fld) (v : Nat) : (d.setF R.FLT_DOUSE_STATUS f v).banked = d.banked := by
  have state : (d.setF R.FLT_DOUSE_STATUS f v).getF R.EMB_PSTATE F.EMB_PSTATE_STATE = d.getF R.EMB_PSTATE F.EMB_PSTATE_STATE :=
    getF_setF_other _ _ _ _ _ _ (by decide)
  rw [Dev.banked, Dev.pstate, state]
  rfl

/-- Fields other than STEP and ACTIVE do not follow the douses. -/
theorem getF_douseView (d : Dev) (f : Fld) (h : f.lsb + f.width ≤ 28) :
    d.douseView.getF R.FLT_DOUSE_STATUS f = d.getF R.FLT_DOUSE_STATUS f := by
  unfold Dev.douseView
  rw [getF_setF_disjoint _ _ _ _ _ (by omega) (.inr (by dsimp only; omega)), getF_setF_disjoint _ _ _ _ _ (by omega) (.inr (by dsimp only; omega))]

theorem douseView_active {d : Dev} (h : d.faults.douses ≠ []) : d.douseView.getF R.FLT_DOUSE_STATUS F.FLT_DOUSE_STATUS_ACTIVE = 1 := by
  unfold Dev.douseView
  rw [getF_setF_same _ _ _ _ (by decide), List.isEmpty_eq_false_iff.mpr h]
  rfl

/-- A further cause joins those of FLT_DOUSE_STATUS. -/
theorem joinCause_cause (d : Dev) {cause : Nat} (h : cause < 2 ^ 5) :
    (d.joinCause cause).getF R.FLT_DOUSE_STATUS F.FLT_DOUSE_STATUS_CAUSE = d.getF R.FLT_DOUSE_STATUS F.FLT_DOUSE_STATUS_CAUSE ||| cause := by
  unfold Dev.joinCause
  rw [getF_setF_same _ _ _ _ (by decide)]
  exact Nat.mod_eq_of_lt (Nat.or_lt_two_pow (natField_lt _ _) h)

theorem joinCause_regsBut (d : Dev) (cause : Nat) : RegsBut [R.FLT_DOUSE_STATUS] d (d.joinCause cause) := regsBut_setF d _ _ _

/-! ### What a douse leaves -/

/-- That a douse runs is told by the list of douses and by FLT_DOUSE_STATUS alone. -/
theorem doused_congr {cause source : Nat} {d e : Dev} (hfaults : e.faults = d.faults) (hreg : e.reg R.FLT_DOUSE_STATUS = d.reg R.FLT_DOUSE_STATUS)
    (h : Doused cause source d) : Doused cause source e := by
  unfold Doused at h ⊢
  simpa only [hfaults, getF_eq_of_reg _ hreg] using h

/-- A listed douse of which FLT_DOUSE_STATUS is told. -/
theorem doused_noted {d : Dev} {x : Douse} {source : Nat} (hx : x ∈ d.faults.douses) (hcause : x.cause < 2 ^ 5)
    (hcovers : ∀ ch, tbit source ch = true → tbit x.scope ch = true) :
    Doused x.cause source ((d.setF R.FLT_DOUSE_STATUS F.FLT_DOUSE_STATUS_CAUSE x.cause).setF R.FLT_DOUSE_STATUS F.FLT_DOUSE_STATUS_HEARTHS
      (scopeHearths x.scope)).douseView := by
  refine ⟨x, hx, rfl, hcovers, ?_, ?_, douseView_active (List.ne_nil_of_mem hx)⟩
  · rw [getF_douseView _ _ (by decide), getF_setF_disjoint _ _ _ _ _ (by decide) (by decide), getF_setF_same _ _ _ _ (by decide)]
    exact Nat.mod_eq_of_lt hcause
  · rw [getF_douseView _ _ (by decide), getF_setF_same _ _ _ _ (by decide)]
    exact Nat.mod_eq_of_lt (scopeHearths_lt _)

/-- In BANKED a douse makes the tail entry and nothing else (R470). -/
theorem douse_banked {d : Dev} (cause source b : Nat) (resetAfter : Bool) (h : d.banked = true) :
    d.douse cause source b resetAfter = d.douseEntry cause (d.closed source) b := by
  unfold Dev.douse
  exact if_pos h

/-- Elsewhere it runs over a scope that holds its source. -/
theorem douse_doused {d : Dev} {cause : Nat} (source b : Nat) (resetAfter : Bool) (hbanked : d.banked = false) (hcause : cause < 2 ^ 5) :
    Doused cause source (d.douse cause source b resetAfter) := by
  unfold Dev.douse
  rw [hbanked]
  exact doused_noted (x := ⟨cause, d.closed source, _, resetAfter⟩) (List.mem_append_right _ (List.mem_singleton_self _)) hcause
    fun _ hch => tbit_closed hch d

/-! The douses that run already stay. -/

theorem calEnd_faults (d : Dev) (h code pin : Nat) : (d.calEnd h (some (code, pin))).faults = d.faults := by
  unfold Dev.calEnd
  split
  · rfl
  · simp [apply_ite Dev.faults]

theorem douseHalt_faults (d : Dev) (scope : Nat) : (d.douseHalt scope).faults = d.faults := by
  have calEnds : ∀ (l : List Nat) (e : Dev), (l.foldl (fun d h => d.calEnd h (some (5, 0))) e).faults = e.faults := fun l e =>
    List.foldlRecOn l _ (motive := fun f : Dev => f.faults = e.faults) rfl fun f hf h _ => (calEnd_faults f h 5 0).trans hf
  unfold Dev.douseHalt
  refine (calEnds _ _).trans (Keeps.faults ?_)
  exact ((Keeps.foldl _ d fun d s => Keeps.endSite d s _ _ _).trans (Keeps.pinsSafe _ _)).trans (Keeps.foldl _ _ fun d g => Keeps.ppmuDouse d g _)

theorem douseSeq_faults (d : Dev) (scope : Nat) : (d.douseSeq scope).faults = d.faults := by
  unfold Dev.douseSeq
  split
  · split <;> rfl
  · rfl

theorem douseEntry_faults (d : Dev) (cause scope b : Nat) : (d.douseEntry cause scope b).faults = d.faults := by
  unfold Dev.douseEntry
  split <;> rfl

/-- A douse outside BANKED is listed after those that run. -/
theorem douse_faults {d : Dev} (cause source b : Nat) (resetAfter : Bool) (hbanked : d.banked = false) :
    ∃ step, (d.douse cause source b resetAfter).faults.douses = d.faults.douses ++ [⟨cause, d.closed source, step, resetAfter⟩] := by
  have before : (((d.douseHalt (d.closed source)).douseSeq (d.closed source)).douseEntry cause (d.closed source) b).faults = d.faults :=
    (douseEntry_faults _ _ _ _).trans ((douseSeq_faults _ _).trans (douseHalt_faults _ _))
  unfold Dev.douse
  rw [hbanked]
  exact ⟨_, congrArg (fun f : Faults => f.douses ++ [_]) before⟩

/-! ### Calibration procedures that a pin's change lets begin (R59) -/

/-- Registers, faults and board are as they were. -/
structure Quiet (d e : Dev) : Prop where
  regs : e.regs = d.regs := by rfl
  faults : e.faults = d.faults := by rfl
  board : e.board = d.board := by rfl

namespace Quiet

theorem refl (d : Dev) : Quiet d d := {}

theorem trans {d e f : Dev} (h : Quiet d e) (g : Quiet e f) : Quiet d f :=
  ⟨g.regs.trans h.regs, g.faults.trans h.faults, g.board.trans h.board⟩

theorem foldl {α : Type} {f : Dev → α → Dev} (xs : List α) (d : Dev) (h : ∀ d x, Quiet d (f d x)) : Quiet d (xs.foldl f d) :=
  List.foldlRecOn xs f (motive := Quiet d) (refl d) fun e he x _ => he.trans (h e x)

theorem reg {d e : Dev} (h : Quiet d e) (off : Nat) : e.reg off = d.reg off := by rw [Dev.reg, h.regs]; rfl

theorem wakeGrate (d : Dev) (g : Nat) : Quiet d (d.wakeGrate g) := by
  unfold Dev.wakeGrate
  split <;> exact {}

theorem meanTemp (d : Dev) (sensors : List Nat) : Quiet d (d.meanTemp sensors).2 := by
  unfold Dev.meanTemp Dev.divFree
  dsimp only
  split <;> exact {}

theorem procKick (d : Dev) : Quiet d d.procKick := by
  unfold Dev.procKick
  split
  · exact refl d
  · refine foldl _ d fun d h => ?_
    split
    · exact refl d
    · dsimp only
      split
      · exact refl d
      · refine (meanTemp d [h]).trans (Quiet.trans ?_ (foldl _ _ fun d k => wakeGrate d _))
        exact {}

/-- Neither a douse nor the pin's level is undone. -/
theorem doused {d e : Dev} (h : Quiet d e) {cause source : Nat} (hd : Doused cause source d ∧ d.board.douseLow = true) :
    Doused cause source e ∧ e.board.douseLow = true :=
  ⟨doused_congr h.faults (h.reg _) hd.1, h.board ▸ hd.2⟩

end Quiet

theorem procKick_none {d : Dev} (h : d.cal.proc = none) : d.procKick = d := by
  unfold Dev.procKick
  rw [h]

/-! ### DOUSE_N -/

/-- A pin already low adds nothing (R471). -/
theorem douseNow_low {d : Dev} (h : d.board.douseLow = true) : d.douseNow = d := if_pos h

/-- The device that has seen its pin go low. -/
def pinLow (d : Dev) : Dev :=
  ({ d with board := { d.board with douseLow := true } }).setF R.FLT_DOUSE_STATUS F.FLT_DOUSE_STATUS_DOUSE_N 1

section
variable {d : Dev} (hhigh : d.board.douseLow = false)
include hhigh

/-- The pin douses every channel, unless a reset's douse already does (R61). -/
theorem douseNow_eq : d.douseNow =
    if d.faults.douses.any (fun x => x.resetAfter && x.scope == allChannels) then (pinLow d).joinCause dcPin
    else (pinLow d).douse dcPin allChannels := if_neg (by simp [hhigh])

theorem douseNow_doused (hbanked : d.banked = false)
    (hreset : d.faults.douses.any (fun x => x.resetAfter && x.scope == allChannels) = false) :
    Doused dcPin allChannels d.douseNow ∧ d.douseNow.board.douseLow = true := by
  rw [douseNow_eq hhigh, if_neg (Bool.eq_false_iff.mp hreset)]
  exact ⟨douse_doused _ _ _ ((banked_setF_status _ _ _).trans hbanked) (by decide), congrArg Board.douseLow (Spares.douse _ _ _ _ _).board⟩

theorem douseNow_joins (hreset : d.faults.douses.any (fun x => x.resetAfter && x.scope == allChannels) = true) :
    d.douseNow.faults = d.faults ∧ d.douseNow.board.douseLow = true ∧ RegsBut [R.FLT_DOUSE_STATUS] d d.douseNow ∧
      d.douseNow.getF R.FLT_DOUSE_STATUS F.FLT_DOUSE_STATUS_CAUSE = d.getF R.FLT_DOUSE_STATUS F.FLT_DOUSE_STATUS_CAUSE ||| dcPin := by
  have regs : RegsBut [R.FLT_DOUSE_STATUS] d (pinLow d) := regsBut_setF { d with board := { d.board with douseLow := true } } _ _ _
  have cause : (pinLow d).getF R.FLT_DOUSE_STATUS F.FLT_DOUSE_STATUS_CAUSE = d.getF R.FLT_DOUSE_STATUS F.FLT_DOUSE_STATUS_CAUSE :=
    getF_setF_disjoint _ _ _ _ _ (by decide) (by decide)
  rw [douseNow_eq hhigh, if_pos hreset, joinCause_cause _ (by decide), cause]
  exact ⟨rfl, rfl, regsBut_trans regs (joinCause_regsBut _ _), rfl⟩

end

section
variable (d : Dev) {ns : Nat}

theorem douseN_long (h : 20 ≤ ns) : d.douseN ns = d.douseNow := by
  unfold Dev.douseN
  rw [if_neg (by omega), if_pos h]

/-- A pulse between the widths does all or nothing (R59): a free truth value decides. -/
theorem douseN_between (hlow : 5 ≤ ns) (hhigh : ns < 20) :
    d.douseN ns = d.drawBool.2.douseNow ∨ d.douseN ns = d.drawBool.2 := by
  unfold Dev.douseN
  rw [if_neg (by omega), if_neg (by omega)]
  dsimp only
  split
  · exact .inl rfl
  · exact .inr rfl

/-- A short pulse, or one of a pin already low, moves none of registers, faults and board. -/
theorem douseN_quiet (h : ns < 5 ∨ d.board.douseLow = true) : Quiet d (d.douseN ns) := by
  by_cases hshort : ns < 5
  · unfold Dev.douseN
    rw [if_pos hshort]
    exact .refl d
  have hlow : d.board.douseLow = true := h.resolve_left hshort
  by_cases hlong : 20 ≤ ns
  · rw [douseN_long d hlong, douseNow_low hlow]
    exact .refl d
  · rcases douseN_between d (ns := ns) (by omega) (by omega) with hdraw | hdraw <;> rw [hdraw]
    · rw [douseNow_low (d := d.drawBool.2) hlow]
      exact {}
    · exact {}

end

/-! ### RESET_N -/

/-- The device with the device reset to follow every douse under way (R60; log entry 70). -/
def resetFollows (d : Dev) : Dev :=
  { d with faults := { d.faults with douses := d.faults.douses.map (fun (x : Douse) => { x with resetAfter := true }) } }

section
variable {d : Dev}

theorem resetN_long {ns : Nat} (h : 1000 ≤ ns) : d.resetN ns = d.resetDouse := by
  unfold Dev.resetN
  rw [if_neg (by omega), if_pos h]

theorem resetN_short {ns : Nat} (h : ns < 100) : d.resetN ns = d := if_pos h

theorem resetDouse_banked (h : d.banked = true) :
    d.resetDouse.board.resetDue = true ∧ d.resetDouse.faults = d.faults ∧ d.resetDouse.regs = d.regs := by
  unfold Dev.resetDouse
  rw [if_pos h, douse_banked _ _ _ _ h]
  exact ⟨rfl, douseEntry_faults _ _ _ _, douseEntry_regs _ _ _ _⟩

theorem resetDouse_whole (hbanked : d.banked = false) (hwhole : d.faults.douses.any (fun x => x.scope == allChannels) = true) :
    d.resetDouse = (resetFollows d).joinCause dcReset := by
  unfold Dev.resetDouse
  rw [if_neg (Bool.eq_false_iff.mp hbanked)]
  exact if_pos hwhole

theorem resetDouse_starts (hbanked : d.banked = false) (hwhole : d.faults.douses.any (fun x => x.scope == allChannels) = false) :
    d.resetDouse = (resetFollows d).douse dcReset allChannels 0xFF true := by
  unfold Dev.resetDouse
  rw [if_neg (Bool.eq_false_iff.mp hbanked)]
  exact if_neg (Bool.eq_false_iff.mp hwhole)

/-- The reset's own douse joins those under way, and the reset follows all of them. -/
theorem resetDouse_douses (hbanked : d.banked = false) (hwhole : d.faults.douses.any (fun x => x.scope == allChannels) = false) :
    d.resetDouse.faults.douses.length = d.faults.douses.length + 1 ∧ ∀ x ∈ d.resetDouse.faults.douses, x.resetAfter = true := by
  obtain ⟨step, hdouses⟩ := douse_faults (d := resetFollows d) dcReset allChannels 0xFF true hbanked
  rw [resetDouse_starts hbanked hwhole, hdouses]
  refine ⟨by simp [resetFollows], fun x hx => ?_⟩
  rcases List.mem_append.mp hx with hold | hnew
  · obtain ⟨y, -, rfl⟩ := List.mem_map.mp hold
    rfl
  · rw [List.mem_singleton.mp hnew]

end

/-! ### The obligation -/

theorem exec_douseN (ns : Nat) (s : State) : exec (.douseN ns) s = s.act (fun d => (d.douseN ns).procKick) := rfl

theorem exec_douseNHigh (s : State) : exec .douseNHigh s = s.act (fun d => d.douseHigh.procKick) := rfl

theorem exec_resetN (ns : Nat) (s : State) : exec (.resetN ns) s = s.act (fun d => d.resetN ns) := rfl

/-- Settles O9: DOUSE_N by `Dev.douseNow`, of which a pulse does all or nothing, RESET_N by the three cases of `Dev.resetDouse`. -/
theorem pins : Obligations.Pins := by
  unfold Obligations.Pins
  refine ⟨⟨fun s ns hlong hhigh hbanked => ⟨fun hreset => ?_, fun hreset => ?_⟩, fun s ns hnone => ?_, fun s ns hmin hmax hhigh hbanked hreset => ?_⟩,
    fun s hinv => ?_, fun s ns hlong hbanked => ⟨fun hwhole => ?_, fun hwhole => ?_⟩, fun s ns hlong hbanked => ?_, fun s ns hinv hshort => ?_⟩
  · refine completes_act (exec_douseN ns s) ?_
    rw [douseN_long _ hlong]
    exact (Quiet.procKick _).doused (douseNow_doused hhigh hbanked hreset)
  · have kicked := Quiet.procKick s.dev.douseNow
    obtain ⟨faults, low, regs, cause⟩ := douseNow_joins hhigh hreset
    refine completes_act (exec_douseN ns s) ?_
    rw [douseN_long _ hlong]
    exact ⟨kicked.faults.trans faults, (congrArg Board.douseLow kicked.board).trans low, fun off ho => (kicked.reg off).trans (regs off ho),
      (getF_eq_of_reg _ (kicked.reg _)).trans cause⟩
  · obtain ⟨regs, faults, board⟩ := (douseN_quiet s.dev hnone).trans (Quiet.procKick _)
    exact completes_act (exec_douseN ns s) ⟨regs, faults, board⟩
  · refine completes_act (exec_douseN ns s) ?_
    rcases douseN_between s.dev hmin hmax with hdraw | hdraw <;> rw [hdraw]
    · exact .inl ((Quiet.procKick _).doused (douseNow_doused (d := s.dev.drawBool.2) hhigh hbanked hreset))
    · obtain ⟨regs, faults, board⟩ := Quiet.procKick s.dev.drawBool.2
      exact .inr ⟨regs, faults, board⟩
  · have kicked := Quiet.procKick s.dev.douseHigh
    have regs : RegsBut [R.FLT_DOUSE_STATUS] s.dev s.dev.douseHigh := regsBut_setF { s.dev with board := { s.dev.board with douseLow := false } } _ _ _
    refine completes_act (exec_douseNHigh s) ⟨?_, kicked.board, kicked.faults, fun off ho => (kicked.reg off).trans (regs off ho), ?_, fun hproc => ?_⟩
    · exact (getF_eq_of_reg _ (kicked.reg _)).trans (getF_setF_same _ _ _ _ (by decide))
    · exact (getF_eq_of_reg _ (kicked.reg _)).trans (getF_setF_disjoint _ _ _ _ _ (by decide) (by decide))
    · have canonical : s.dev.douseHigh.canon = s.dev.douseHigh := canon_of_wf hinv
      rw [procKick_none (d := s.dev.douseHigh) hproc, canonical]
      rfl
  · refine completes_act (exec_resetN ns s) ?_
    rw [resetN_long hlong]
    refine ⟨?_, resetDouse_douses hbanked hwhole⟩
    rw [resetDouse_starts hbanked hwhole]
    exact douse_doused (d := resetFollows s.dev) _ _ _ hbanked (by decide)
  · refine completes_act (exec_resetN ns s) ?_
    rw [resetN_long hlong, resetDouse_whole hbanked hwhole]
    exact ⟨rfl, joinCause_regsBut (resetFollows s.dev) _, joinCause_cause (resetFollows s.dev) (by decide)⟩
  · refine completes_act (exec_resetN ns s) ?_
    rw [resetN_long hlong]
    exact resetDouse_banked hbanked
  · exact exec_eq_self (exec_resetN ns s) (resetN_short hshort) hinv

end Sys2Proof.Proofs
end

section
/-! PROOFS. Channels in the pin safe state, grate domains and their policy (spec/03 R87, R98, R99, R101). -/

namespace Sys2Proof.Proofs

open Sys2Proof Sys2Proof.Machine

set_option Elab.async false

@[simp] theorem canon_grate (d : Dev) (g : Nat) : d.canon.grate g = d.grate g := rfl
@[simp] theorem canon_chan (d : Dev) (ch : Nat) : d.canon.chan ch = d.chan ch := rfl
@[simp] theorem canon_site (d : Dev) (x : Nat) : d.canon.site x = d.site x := rfl

/-! ### Channels -/

/-- Of a map of which some keys are kept, a kept key holds what it held, and another nothing. -/
theorem mapFind_filter {α : Type} (m : List (Nat × α)) (p : Nat → Bool) (i : Nat) :
    mapFind (m.filter (fun x => p x.1)) i = if p i then mapFind m i else none := by
  induction m with
  | nil => simp [mapFind]
  | cons c t ih =>
    obtain ⟨k, v⟩ := c
    by_cases hk : k = i
    · subst hk
      cases hp : p k <;> simp [mapFind, hp, ih]
    · cases hp : p k <;> simp [mapFind, hp, hk, ih]

@[simp] theorem toggle_seq (d : Dev) (ch : Nat) : (d.toggle ch).seq = d.seq := by
  unfold Dev.toggle
  dsimp only
  split <;> rfl

/-- The pin safe state (R87) moves the channels, the ledger and its residues. -/
theorem pinsSafe_only (d : Dev) (chs : List Nat) : ∃ time,
    d.pinsSafe chs = { d with seq := { d.seq with chans := d.seq.chans.filter (fun p => !(chs.contains p.1)) }, time := time } := by
  have toggled : ∃ time, chs.foldl (fun (d : Dev) ch => if (d.chan ch).drv = .z then d else d.toggle ch) d = { d with time := time } := by
    refine List.foldlRecOn chs _ (motive := fun e : Dev => ∃ time, e = { d with time := time }) ⟨_, rfl⟩ ?_
    rintro _ ⟨time, rfl⟩ ch _
    unfold Dev.toggle
    dsimp only
    split
    · exact ⟨_, rfl⟩
    · split <;> exact ⟨_, rfl⟩
  obtain ⟨time, htime⟩ := toggled
  unfold Dev.pinsSafe
  dsimp only
  rw [htime]
  exact ⟨time, rfl⟩

/-- Channels taken out of the list of those that are not in the pin safe state are in it. -/
theorem chan_filtered (m : List (Nat × Chan)) (chs : List Nat) (ch : Nat) :
    mapGet (m.filter (fun p => !(chs.contains p.1))) ch Chan.safe = if ch ∈ chs then Chan.safe else mapGet m ch Chan.safe := by
  rw [mapGet, mapFind_filter _ (fun c => !(chs.contains c))]
  by_cases h : ch ∈ chs <;> simp [h, mapGet]

theorem pinsSafe_chan (d : Dev) (chs : List Nat) (ch : Nat) : (d.pinsSafe chs).chan ch = if ch ∈ chs then Chan.safe else d.chan ch := by
  obtain ⟨time, only⟩ := pinsSafe_only d chs
  rw [only]
  exact chan_filtered _ _ _

/-! ### Grate domains (R98, R99) -/

@[simp] theorem grate_modGrate_same (d : Dev) (g : Nat) (f : Grate → Grate) : (d.modGrate g f).grate g = f (d.grate g) := mapGet_mapSet_same _ _ _ _

theorem grate_modGrate_other (d : Dev) (g : Nat) (f : Grate → Grate) {k : Nat} (h : k ≠ g) : (d.modGrate g f).grate k = d.grate k :=
  mapGet_mapSet_other _ _ _ _ _ h

/-- A grate that goes OFF moves its domain, its channels, the ledger and its residues. -/
theorem grateOff_only (d : Dev) (g : Nat) : ∃ time, d.grateOff g =
    { d with seq := { d.seq with chans := d.seq.chans.filter (fun p => !(((List.range 8).map (8 * g + ·)).contains p.1))
                                 grates := mapSet d.seq.grates g { d.grate g with dom := .off } }, time := time } := by
  obtain ⟨time, only⟩ := pinsSafe_only d ((List.range 8).map (8 * g + ·))
  unfold Dev.grateOff
  dsimp only
  rw [only]
  exact ⟨_, rfl⟩

/-- The grate is OFF, with its channels in the pin safe state; other grates and channels stay (R98). -/
structure WentOff (g : Nat) (d e : Dev) : Prop where
  off : (e.grate g).dom = .off
  safe : ∀ k, k < 8 → e.chan (8 * g + k) = Chan.safe
  chan : ∀ ch, chGrate ch ≠ g → e.chan ch = d.chan ch
  grate : ∀ k, k ≠ g → e.grate k = d.grate k
  regs : e.regs = d.regs
  mem : e.mem = d.mem
  cal : e.cal = d.cal

theorem grateOff_wentOff (d : Dev) (g : Nat) : WentOff g d (d.grateOff g) := by
  obtain ⟨time, only⟩ := grateOff_only d g
  rw [only]
  refine ⟨?_, fun k hk => ?_, fun ch hch => ?_, fun k hk => ?_, rfl, rfl, rfl⟩
  · rw [Dev.grate, mapGet_mapSet_same]
  · exact (chan_filtered _ _ _).trans (if_pos (List.mem_map_of_mem (List.mem_range.mpr hk)))
  · exact (chan_filtered _ _ _).trans (if_neg fun h => hch ((mem_grates_iff ch g).mp h))
  · exact mapGet_mapSet_other _ _ _ _ _ hk

theorem policyKick_regs (d : Dev) : d.policyKick.regs = d.regs :=
  ite_regs rfl (Quiet.foldl _ d fun d g => Quiet.wakeGrate d g).regs

/-! ### HRT_GRTg_PWR (R99, R101) -/

/-- The row of HRT_GRTg_PWR. -/
def grtPwrRow : RDesc := ⟨0x108000, [(65536, 16), (4096, 8)], [⟨16, 16, .rw, 1000, true⟩, ⟨4, 3, .ro, 0, false⟩, ⟨0, 2, .rw, 0, true⟩]⟩

theorem grtPwrRow_mem : grtPwrRow ∈ regTable := by decide +kernel

theorem regRow_grtPwr (g : Fin 128) : regRow (R.HRT_GRT_PWR g) = some grtPwrRow ∧ regCanon (R.HRT_GRT_PWR g) = R.HRT_GRT_PWR g := by
  revert g
  decide +kernel

theorem grateOf_grtPwr (g : Fin 128) : grateOf (R.HRT_GRT_PWR g) = some (g.val, 0) := by
  revert g
  decide +kernel

theorem isRefuse_grtPwr (g : Fin 128) : isRefuse (R.HRT_GRT_PWR g) = false := by
  revert g
  decide +kernel

/-- POLICY 0b11 is stored as AUTO, and another word as it is (R101). -/
theorem regNorm_grtPwr (g : Fin 128) (w : Word) :
    regNorm (R.HRT_GRT_PWR g) w = if getBits w F.HRT_GRT_PWR_POLICY = 3 then setBits w F.HRT_GRT_PWR_POLICY 0 else w := by
  have seq : seqNorm (R.HRT_GRT_PWR g) w = w := by
    unfold seqNorm
    rw [if_neg (by simp only [R.HRT_GRT_PWR, R.HRT_SEQ_CFG]; omega), if_neg (by simp only [R.HRT_GRT_PWR]; omega),
      if_neg (by simp only [R.HRT_GRT_PWR, R.DRT_CFG]; omega), if_neg (by simp only [R.HRT_GRT_PWR]; omega)]
  rw [regNorm, if_pos (by simp only [R.HRT_GRT_PWR]; omega), seq, grateNorm, grateOf_grtPwr]
  rfl

/-- An RW field of a register takes the written word's bits (R10). -/
theorem getBits_store_rw {r : RDesc} (hr : r ∈ regTable) {f : RField} (hf : f ∈ r.fields) (hrw : f.ty = .rw) (old w : Word) :
    getBits (r.store old w) ⟨f.lsb, f.width⟩ = getBits w ⟨f.lsb, f.width⟩ := by
  obtain ⟨acc, -, hstore⟩ := getBits_store hr hf old w
  exact hstore.trans (store_rw f _ _ _ hrw)

section
variable {d : Dev} {o : Origin} {g : Fin 128} {w : Word}

/-- The device in which a write of HRT_GRTg_PWR is logged and stored. -/
def grtPwrStored (d : Dev) (o : Origin) (g : Fin 128) (w : Word) : Dev :=
  (d.logWrite o.id (R.HRT_GRT_PWR g) w).setReg (R.HRT_GRT_PWR g) (grtPwrRow.store (d.reg (R.HRT_GRT_PWR g)) (regNorm (R.HRT_GRT_PWR g) w))

theorem grtPwrStored_policy : (grtPwrStored d o g w).policy g = if getBits w F.HRT_GRT_PWR_POLICY = 3 then 0 else getBits w F.HRT_GRT_PWR_POLICY := by
  have stored := getBits_store_rw grtPwrRow_mem (f := ⟨0, 2, .rw, 0, true⟩) (by decide) rfl (d.reg (R.HRT_GRT_PWR g)) (regNorm (R.HRT_GRT_PWR g) w)
  rw [Dev.policy, Dev.getF, grtPwrStored, reg_setReg_same]
  refine stored.trans ?_
  rw [regNorm_grtPwr]
  split
  · exact getBits_setBits_same _ _ _ (by decide)
  · rfl

theorem grtPwrStored_idle : (grtPwrStored d o g w).getF (R.HRT_GRT_PWR g) F.HRT_GRT_PWR_IDLE_MS = getBits w F.HRT_GRT_PWR_IDLE_MS := by
  have stored := getBits_store_rw grtPwrRow_mem (f := ⟨16, 16, .rw, 1000, true⟩) (by decide) rfl (d.reg (R.HRT_GRT_PWR g)) (regNorm (R.HRT_GRT_PWR g) w)
  rw [Dev.getF, grtPwrStored, reg_setReg_same]
  refine stored.trans ?_
  rw [regNorm_grtPwr]
  split
  · exact getBits_setBits_other _ _ _ _ (by decide) (by decide)
  · rfl

theorem grtPwrStored_regsBut : RegsBut [R.HRT_GRT_PWR g] d (grtPwrStored d o g w) := fun off hoff => by
  rw [grtPwrStored, reg_setReg_other _ _ _ _ (fun h => hoff (List.mem_singleton.mpr h)), logWrite_reg]

/-- A write that is let through is logged and stored; policy OFF powers the grate off, any other wakes the grates whose policy is ON (R99). -/
theorem writeReg_grtPwr (h : Accepts d o (R.HRT_GRT_PWR g) w) : d.writeReg o.id (R.HRT_GRT_PWR g) w =
    if (grtPwrStored d o g w).policy g = polOff then (grtPwrStored d o g w).grateOff g else (grtPwrStored d o g w).policyKick := by
  obtain ⟨running, judged⟩ := h
  obtain ⟨row, canonical⟩ := regRow_grtPwr g
  have other : isFaultWord (R.HRT_GRT_PWR g) = false := by
    simp only [isFaultWord, R.HRT_GRT_PWR, R.FLT_WORD_LO, R.FLT_WORD_HI, Bool.or_eq_false_iff, beq_eq_false_iff_ne]
    omega
  rw [Dev.writeReg, writeVia_accepted running judged (by rw [canonical]; exact row) (by rw [canonical]; exact other), canonical]
  rw [Dev.regEffect, if_pos (by simp only [R.HRT_GRT_PWR]; omega), if_neg (by simp [isRefuse_grtPwr]),
    if_neg (by simp only [R.HRT_GRT_PWR, R.HRT_HOLD_CTRL]; omega), Dev.grateEffect, grateOf_grtPwr]
  rfl

theorem writeReg_grtPwr_regs (h : Accepts d o (R.HRT_GRT_PWR g) w) :
    (d.writeReg o.id (R.HRT_GRT_PWR g) w).regs = (grtPwrStored d o g w).regs := by
  rw [writeReg_grtPwr h]
  exact ite_regs (grateOff_wentOff _ _).regs (policyKick_regs _)

end

/-! ### The obligation -/

/-- Settles O27: what goes OFF by `grateOff_wentOff`, what a write of HRT_GRTg_PWR stores by `writeReg_grtPwr`. -/
theorem grates : Obligations.Grates := by
  unfold Obligations.Grates
  refine ⟨fun s g hinv => ⟨fun hwaking => ?_, fun hsettling => ?_, fun hon hoff hidle hup hfree => ?_⟩,
    fun s o g w haccept => ⟨?_, fun hpolicy hproc => ?_⟩⟩
  · refine completes_act (f := fun d => d.grateWakeDone g) rfl ?_
    rw [Dev.grateWakeDone, if_pos hwaking, canon_of_wf (d := s.dev.modGrate _ _) hinv]
    exact ⟨grate_modGrate_same _ _ _, fun k hk => grate_modGrate_other _ _ _ hk, rfl⟩
  · refine completes_act (f := fun d => d.grateSettleDone g) rfl ?_
    rw [Dev.grateSettleDone, if_pos hsettling, canon_of_wf (d := s.dev.modGrate _ _) hinv]
    exact ⟨grate_modGrate_same _ _ _, fun k hk => grate_modGrate_other _ _ _ hk, rfl⟩
  · have went := grateOff_wentOff s.dev g
    have idles : s.dev.grateIdleOff g = s.dev.grateOff g := if_neg (by simp [hon, hoff, hidle, hup, hfree])
    have canonical : Memory.wf (s.dev.grateOff g).mem = true := by rwa [went.mem]
    refine completes_act (f := fun d => d.grateIdleOff g) rfl ?_
    rw [idles, canon_of_wf canonical]
    exact ⟨went.off, went.safe, went.chan, went.grate, went.regs, went.mem⟩
  · refine completes_act (f := fun d => (d.writeReg o.id (R.HRT_GRT_PWR g) w).procKick) rfl ?_
    have stored : ∀ off, (s.dev.writeReg o.id (R.HRT_GRT_PWR g) w).procKick.reg off = (grtPwrStored s.dev o g w).reg off := fun off => by
      rw [Dev.reg, (Quiet.procKick _).regs, writeReg_grtPwr_regs haccept]
      rfl
    refine ⟨?_, ?_, fun off hoff => (stored off).trans (grtPwrStored_regsBut off hoff)⟩
    · exact (getF_eq_of_reg _ (stored _)).trans grtPwrStored_policy
    · exact (getF_eq_of_reg _ (stored _)).trans grtPwrStored_idle
  · refine completes_act (f := fun d => (d.writeReg o.id (R.HRT_GRT_PWR g) w).procKick) rfl ?_
    have off : (grtPwrStored s.dev o g w).policy g = polOff := by
      rw [grtPwrStored_policy, hpolicy]
      rfl
    have went := grateOff_wentOff (grtPwrStored s.dev o g w) g
    have proc : ((grtPwrStored s.dev o g w).grateOff g).cal.proc = none := by
      rw [went.cal, grtPwrStored, setReg_cal, logWrite_only]
      exact hproc
    rw [writeReg_grtPwr haccept, if_pos off, procKick_none proc]
    simp only [canon_grate, canon_chan]
    exact ⟨went.off, went.safe⟩

end Sys2Proof.Proofs
end

section
/-! PROOFS. PPMU plans: what taking one, beginning them and ending a step moves (spec/03 R91, R93-R97). -/

namespace Sys2Proof.Proofs

open Sys2Proof Sys2Proof.Machine

set_option Elab.async false

/-! ### Grates that wake, procedures that begin -/

theorem wakeGrate_only (d : Dev) (g : Nat) : ∃ grates, d.wakeGrate g = { d with seq := { d.seq with grates := grates } } := by
  unfold Dev.wakeGrate
  split <;> exact ⟨_, rfl⟩

theorem foldl_wakeGrate_only (gs : List Nat) (d : Dev) :
    ∃ grates, gs.foldl (fun d g => d.wakeGrate g) d = { d with seq := { d.seq with grates := grates } } := by
  refine List.foldlRecOn gs _ (motive := fun e : Dev => ∃ grates, e = { d with seq := { d.seq with grates := grates } }) ⟨_, rfl⟩ ?_
  rintro _ ⟨grates, rfl⟩ g _
  obtain ⟨grates, woken⟩ := wakeGrate_only { d with seq := { d.seq with grates := grates } } g
  exact ⟨grates, woken⟩

/-- Calibration procedures that begin (R487) move their own state, the grates that they wake, and draw free values. -/
theorem procKick_only (d : Dev) : ∃ cal grates fresh,
    d.procKick = { d with cal := cal, seq := { d.seq with grates := grates }, fresh := fresh } := by
  unfold Dev.procKick
  split
  · exact ⟨_, _, _, rfl⟩
  refine List.foldlRecOn _ _
    (motive := fun e : Dev => ∃ cal grates fresh, e = { d with cal := cal, seq := { d.seq with grates := grates }, fresh := fresh })
    ⟨_, _, _, rfl⟩ ?_
  rintro _ ⟨cal, grates, fresh, rfl⟩ h _
  have drawn : ∀ (e : Dev) sensors, ∃ fresh, (e.meanTemp sensors).2 = { e with fresh := fresh } := fun e sensors => by
    unfold Dev.meanTemp Dev.divFree
    dsimp only
    split <;> exact ⟨_, rfl⟩
  split
  · exact ⟨_, _, _, rfl⟩
  · dsimp only
    split
    · exact ⟨_, _, _, rfl⟩
    · obtain ⟨fresh, hdraw⟩ := drawn { d with cal := cal, seq := { d.seq with grates := grates }, fresh := fresh } [h]
      rw [hdraw, ← List.foldl_map (f := fun k => 8 * h + k) (g := fun (d : Dev) g => d.wakeGrate g)]
      obtain ⟨grates, hwake⟩ := foldl_wakeGrate_only ((List.range 8).map fun k => 8 * h + k) _
      rw [hwake]
      exact ⟨_, _, _, rfl⟩

/-! ### Plans begin and complete (R96, R97) -/

/-- A plan of which only that it has begun may differ. -/
def SamePlan (p q : PpmuPlan) : Prop := q = { p with started := q.started }

/-- Plans that begin wake grates; nothing else of a plan moves. -/
theorem ppmuKick_only (d : Dev) : ∃ f : PpmuPlan → PpmuPlan, ∃ grates, (∀ p, SamePlan p (f p)) ∧
    d.ppmuKick = { d with rings := { d.rings with plans := d.rings.plans.map f }, seq := { d.seq with grates := grates } } := by
  have begun : ∀ (ready : PpmuPlan → Bool) p, SamePlan p (if ready p then { p with started := true } else p) := fun ready p => by
    split <;> rfl
  unfold Dev.ppmuKick
  dsimp only
  rw [← List.foldl_flatMap (f := fun p : PpmuPlan => sortNats (p.steps.map (fun s => chGrate s.ch))) (g := fun (d : Dev) g => d.wakeGrate g)]
  obtain ⟨grates, hwake⟩ := foldl_wakeGrate_only _ _
  rw [hwake]
  exact ⟨_, grates, begun _, rfl⟩

/-- Plans without steps leave, and their completions wait on their rings; other plans stay. -/
theorem ppmuFinish_only (d : Dev) : ∃ rings,
    d.ppmuFinish = { d with rings := { d.rings with rings := rings, plans := d.rings.plans.filter (fun p => !p.steps.isEmpty) } } := by
  unfold Dev.ppmuFinish
  dsimp only
  refine List.foldlRecOn _ _ (motive := fun e : Dev => ∃ rings,
    e = { d with rings := { d.rings with rings := rings, plans := d.rings.plans.filter (fun p => !p.steps.isEmpty) } }) ⟨_, rfl⟩ ?_
  rintro _ ⟨rings, rfl⟩ p _
  exact ⟨_, rfl⟩

/-! ### PPMU_MEASURE (R93, R94) -/

theorem beginDesc_plans (d : Dev) (n : Nat) (q : Desc) (keep : Bool) : (d.beginDesc n q keep).rings.plans = d.rings.plans := by
  unfold Dev.beginDesc Dev.logDesc
  split <;> rfl

section
variable {d : Dev} {n : Nat} {remote : RemoteRead} {q : Desc}

theorem ownerFails_of_readable {a len : Nat} (h : Readable d n a len remote) :
    (!(d.ringRemote n) && d.poisoned a len) = false ∧ d.ownerFails n remote = none := by
  rcases h with ⟨hremote, hdone⟩ | ⟨hlocal, hgood⟩
  · simp [Dev.ownerFails, hremote, hdone]
  · simp [Dev.ownerFails, hlocal, hgood]

/-- A step that PPMU_MEASURE refuses (R93, R94): a bad field, an absent channel, a grate whose policy is OFF. -/
def stepBad (d : Dev) (bs : List Byte) (i : Nat) : Bool :=
  stepFieldBad bs i || d.absent (fieldAt bs (16 * i) 2) || d.policy (chGrate (fieldAt bs (16 * i) 2)) == polOff

/-- The plan that a descriptor brings, before it begins. -/
def planOf (n : Nat) (q : Desc) (bs : List Byte) : PpmuPlan :=
  { ring := n, hostSeq := q.hostSeq, irq := q.irq, result := q.get 32 8, started := false
    steps := (List.range (q.get 24 2)).map (parseStep bs), executed := 0, skipped := 0, doused := false }

variable (hnext : d.nextDesc n opPpmu = some q) (hread : Readable d n (q.get 16 8) (16 * q.get 24 2) remote)
include hnext hread

theorem ppmuMeasure_refused {bs : List Byte} (hbs : bs = d.ownerRead n (q.get 16 8) (16 * q.get 24 2) remote)
    (hbad : (List.range (q.get 24 2)).any (stepBad d bs) = true) :
    ∃ arg0 arg1, d.ppmuMeasure n remote = (d.beginDesc n q).complete n q stRefused arg0 arg1 := by
  obtain ⟨good, answered⟩ := ownerFails_of_readable hread
  obtain ⟨i, hi⟩ := Option.isSome_iff_exists.mp (List.find?_isSome.mpr (List.any_eq_true.mp hbad))
  refine ⟨refuseArg 0x80 0xFF 0xFFFF i, 16 * i, ?_⟩
  unfold stepBad at hi
  simp only [Dev.ppmuMeasure, hnext, good, answered, ← hbs, hi, Bool.false_eq_true, if_false]

theorem ppmuMeasure_accepted {bs : List Byte} (hbs : bs = d.ownerRead n (q.get 16 8) (16 * q.get 24 2) remote)
    (hgood : (List.range (q.get 24 2)).any (stepBad d bs) = false)
    (hfree : ((List.range (q.get 24 2)).map (parseStep bs)).findSome? d.stepConflict = none) :
    d.ppmuMeasure n remote = ({ d.beginDesc n q true with
      rings := { (d.beginDesc n q true).rings with plans := (d.beginDesc n q true).rings.plans ++ [planOf n q bs] } }).ppmuKick := by
  obtain ⟨good, answered⟩ := ownerFails_of_readable hread
  have allGood : (List.range (q.get 24 2)).find? (stepBad d bs) = none := List.find?_eq_none.mpr (by simpa using hgood)
  unfold stepBad at allGood
  have noUser : ((List.range (q.get 24 2)).map (parseStep bs)).findSome? (fun s => d.stepConflict s) = none := hfree
  simp only [Dev.ppmuMeasure, hnext, good, answered, ← hbs, allGood, noUser, Bool.false_eq_true, if_false, planOf]

/-- The descriptor of a plan that is taken stays in progress, and its plan joins those that wait (R96). -/
theorem ppmuMeasure_waits {bs : List Byte} (hbs : bs = d.ownerRead n (q.get 16 8) (16 * q.get 24 2) remote)
    (hgood : (List.range (q.get 24 2)).any (stepBad d bs) = false)
    (hfree : ((List.range (q.get 24 2)).map (parseStep bs)).findSome? d.stepConflict = none) :
    ((d.ppmuMeasure n remote).ring n).current = some q ∧ ((d.ppmuMeasure n remote).ring n).held = (d.ring n).held ∧
      (d.ppmuMeasure n remote).rings.plans.map (fun p => (p.ring, p.hostSeq, p.steps)) = d.rings.plans.map (fun p => (p.ring, p.hostSeq, p.steps)) ++
        [(n, q.hostSeq, (List.range (q.get 24 2)).map (parseStep bs))] ∧ (d.ppmuMeasure n remote).regs = d.regs := by
  rw [ppmuMeasure_accepted hnext hread hbs hgood hfree]
  obtain ⟨f, grates, same, kicked⟩ := ppmuKick_only { d.beginDesc n q true with
    rings := { (d.beginDesc n q true).rings with plans := (d.beginDesc n q true).rings.plans ++ [planOf n q bs] } }
  have current : ((d.beginDesc n q true).ring n).current = some q := by
    rw [beginDesc_ring]
    rfl
  have held : ((d.beginDesc n q true).ring n).held = (d.ring n).held := by rw [beginDesc_ring]
  have kept : ∀ r : PpmuPlan, ((f r).ring, (f r).hostSeq, (f r).steps) = (r.ring, r.hostSeq, r.steps) := fun r => by rw [same r]
  rw [kicked]
  refine ⟨current, held, ?_, beginDesc_regs d n q true⟩
  refine (List.map_map ..).trans ((List.map_congr_left fun r _ => kept r).trans ?_)
  rw [beginDesc_plans, List.map_append]
  rfl

end

/-! ### A step ends (R91, R93, R95) -/

theorem pump_mem (d : Dev) (p fuel : Nat) : (d.pump p fuel).mem = d.mem := by
  induction fuel generalizing d with
  | zero => rfl
  | succ fuel ih =>
    unfold Dev.pump
    split
    · rfl
    split
    · rfl
    dsimp only
    split
    · rfl
    · exact ih _

theorem enqueue_mem (d : Dev) (p : Nat) (k : Packet) : (d.enqueue p k).mem = d.mem := pump_mem _ p _

theorem sendPacket_mem (d : Dev) (k : Packet) : (d.sendPacket k).mem = d.mem := by
  unfold Dev.sendPacket
  split
  · exact List.foldlRecOn _ _ (motive := fun e : Dev => e.mem = d.mem) rfl fun e he p _ => (enqueue_mem e p k).trans he
  split
  · exact enqueue_mem d _ k
  · rfl
  · unfold Dev.unroutable
    split <;> rfl

/-- Bytes for the owner of a remote ring leave the memory of this device as it is. -/
theorem ownerWrite_mem (d : Dev) (ring a : Nat) (bs : List Byte) :
    (d.ownerWrite ring a bs).mem = if d.ringRemote ring then d.mem else memWrite d.mem a bs := by
  unfold Dev.ownerWrite
  split
  · next h => exact (sendPacket_mem d _).trans (if_pos h).symm
  · next h => exact (if_neg h).symm

theorem ppmuEndStep_mem (d : Dev) (p : PpmuPlan) (x : PpmuStep) (code flags : Nat) : (d.ppmuEndStep p x code flags).mem =
    if d.ringRemote p.ring then d.mem else memWrite d.mem (p.result + 8 * x.n) (ppmuResult code flags x.n x.ch) :=
  ownerWrite_mem d _ _ _

/-- No step of a plan's number is left in it. -/
def StepLeft (p : PpmuPlan) (x : PpmuStep) (plans : List PpmuPlan) : Prop :=
  ∀ r ∈ plans, r.ring = p.ring → r.hostSeq = p.hostSeq → ∀ y ∈ r.steps, y.n ≠ x.n

theorem ppmuEndStep_left (d : Dev) (p : PpmuPlan) (x : PpmuStep) (code flags : Nat) :
    StepLeft p x (d.ppmuEndStep p x code flags).rings.plans := by
  intro r hr hring hseq y hy
  obtain ⟨q, -, rfl⟩ := List.mem_map.mp hr
  split at hring
  · next same =>
    rw [if_pos same] at hy
    simpa using (List.mem_filter.mp hy).2
  · next other =>
    rw [if_neg other] at hseq
    exact absurd ⟨hring, hseq⟩ other

/-- Plans that complete or begin bring no step back. -/
theorem StepLeft.finish_kick {d : Dev} {p : PpmuPlan} {x : PpmuStep} (h : StepLeft p x d.rings.plans) :
    StepLeft p x (d.ppmuFinish.ppmuKick).rings.plans := by
  obtain ⟨rings, finished⟩ := ppmuFinish_only d
  obtain ⟨f, grates, same, kicked⟩ := ppmuKick_only d.ppmuFinish
  intro r hr hring hseq
  rw [kicked, finished] at hr
  obtain ⟨q, hq, rfl⟩ := List.mem_map.mp hr
  rw [same q] at hring hseq ⊢
  exact h q (List.mem_filter.mp hq).1 hring hseq

theorem ppmuFinish_ppmuKick_mem (d : Dev) : d.ppmuFinish.ppmuKick.mem = d.mem := by
  obtain ⟨rings, finished⟩ := ppmuFinish_only d
  obtain ⟨f, grates, -, kicked⟩ := ppmuKick_only d.ppmuFinish
  rw [kicked, finished]

theorem ppmuFinish_ppmuKick_regs (d : Dev) : d.ppmuFinish.ppmuKick.regs = d.regs := by
  obtain ⟨rings, finished⟩ := ppmuFinish_only d
  obtain ⟨f, grates, -, kicked⟩ := ppmuKick_only d.ppmuFinish
  rw [kicked, finished]

section
variable (d : Dev) (g : Fin 128) (x : PpmuStep) (total : Int) (limit : Bool)

/-- Whether a step reached a limit that its mode reports (R91). -/
def stepClamp : Bool := limit && (x.mode == 1 || x.mode == 2)

/-- A step's code and whether its reading saturated: mode 0 measures nothing, and its code is a free value. -/
def stepCode : Nat × Bool := if x.mode = 0 then (Config.freeNat d.fresh % 65536, false) else d.ppmuReading g x total

/-- FLAGS of a step that no douse cut: CLAMP and saturation (R93). -/
def stepFlags : Nat := bit (stepClamp x limit) + 2 * bit (stepCode d g x total).2

theorem tbit_flags (clamp beyond : Bool) : tbit (bit clamp + 2 * bit beyond) 0 = clamp ∧ tbit (bit clamp + 2 * bit beyond) 1 = beyond ∧
    tbit (bit clamp + 2 * bit beyond) 2 = false ∧ tbit (bit clamp + 2 * bit beyond) 3 = false := by
  revert clamp beyond
  decide

/-- The device in which a step has ended and the last reading shows it. -/
def stepRead (p : PpmuPlan) : Dev :=
  (({ d with fresh := d.fresh + 1 }).ppmuEndStep p x (stepCode d g x total).1 (stepFlags d g x total limit)).setReg (R.HRT_GRT_PPMU_LAST g)
    (BitVec.ofNat 32 ((stepCode d g x total).1 + 2 ^ 16 * bit (stepClamp x limit) + 2 ^ 17 * bit (stepCode d g x total).2))

/-- After the last reading only the latched clamp, the offer of the reading, the completed plans and those that begin move. -/
theorem ppmuStepDone_steps {p : PpmuPlan} (hstep : d.stepOn g = some (p, x)) (hon : (d.grate g).dom = .on) (hlow : d.board.douseLow = false) :
    ∃ e : Dev, d.ppmuStepDone g total limit = e.ppmuFinish.ppmuKick ∧ e.mem = (stepRead d g x total limit p).mem ∧
      e.rings = (stepRead d g x total limit p).rings ∧
      e.reg (R.HRT_GRT_PPMU_LAST g) = (stepRead d g x total limit p).reg (R.HRT_GRT_PPMU_LAST g) := by
  have otherReg : R.HRT_GRT_PPMU_LAST g ≠ R.HRT_GRT_STATUS g := by simp only [R.HRT_GRT_PPMU_LAST, R.HRT_GRT_STATUS]; omega
  unfold Dev.ppmuStepDone Dev.drawNat
  simp only [hstep, hon, hlow, ne_eq, not_true_eq_false, if_false, Bool.false_eq_true]
  refine ⟨_, rfl, ?_⟩
  have latched : ∀ (c : Bool) (e : Dev), (if c = true then e.latch (R.HRT_GRT_STATUS g) F.HRT_GRT_STATUS_PPMU_CLAMP else e).mem = e.mem ∧
      (if c = true then e.latch (R.HRT_GRT_STATUS g) F.HRT_GRT_STATUS_PPMU_CLAMP else e).rings = e.rings ∧
      (if c = true then e.latch (R.HRT_GRT_STATUS g) F.HRT_GRT_STATUS_PPMU_CLAMP else e).reg (R.HRT_GRT_PPMU_LAST g) =
        e.reg (R.HRT_GRT_PPMU_LAST g) := by
    intro c e
    split
    · exact ⟨rfl, rfl, reg_latch_other e _ _ _ otherReg⟩
    · exact ⟨rfl, rfl, rfl⟩
  split <;> exact latched _ _

end

section
variable {d : Dev} {g : Fin 128} {x : PpmuStep} (total : Int) (limit : Bool) {p : PpmuPlan} (hstep : d.stepOn g = some (p, x))
  (hon : (d.grate g).dom = .on) (hlow : d.board.douseLow = false)
include hstep hon hlow

/-- The result entry of a step is written to the memory of its ring's owner (R93, R353). -/
theorem ppmuStepDone_mem : (d.ppmuStepDone g total limit).mem = if d.ringRemote p.ring then d.mem
    else memWrite d.mem (p.result + 8 * x.n) (ppmuResult (stepCode d g x total).1 (stepFlags d g x total limit) x.n x.ch) := by
  obtain ⟨e, done, mem, -⟩ := ppmuStepDone_steps d g x total limit hstep hon hlow
  rw [done, ppmuFinish_ppmuKick_mem, mem]
  exact ppmuEndStep_mem _ _ _ _ _

theorem ppmuStepDone_last : (d.ppmuStepDone g total limit).reg (R.HRT_GRT_PPMU_LAST g) = BitVec.ofNat 32 ((stepCode d g x total).1 +
    2 ^ 16 * bit (stepClamp x limit) + 2 ^ 17 * bit (stepCode d g x total).2) := by
  obtain ⟨e, done, -, -, last⟩ := ppmuStepDone_steps d g x total limit hstep hon hlow
  rw [done, Dev.reg, ppmuFinish_ppmuKick_regs]
  exact last.trans (reg_setReg_same _ _ _)

theorem ppmuStepDone_left : StepLeft p x (d.ppmuStepDone g total limit).rings.plans := by
  obtain ⟨e, done, -, rings, -⟩ := ppmuStepDone_steps d g x total limit hstep hon hlow
  rw [done]
  refine StepLeft.finish_kick ?_
  rw [rings]
  exact ppmuEndStep_left _ _ _ _ _

end

/-! ### The obligation -/

/-- Settles O26: a plan is judged by `ppmuMeasure_refused` and `ppmuMeasure_accepted`; a step that ends by `ppmuStepDone_steps`. -/
theorem ppmuPlans : Obligations.PpmuPlans := by
  unfold Obligations.PpmuPlans
  refine ⟨fun s n remote q hnext hread bs hbs bad hbad => ?_, fun s g total limit p x hinv hstep hon hlow => ?_⟩
  · obtain rfl : bad = stepBad s.dev bs := funext hbad
    refine ⟨fun hany => ?_, fun hnone hfree => ?_⟩
    · refine completes_act (f := fun d => d.ppmuMeasure n remote) rfl ?_
      obtain ⟨arg0, arg1, refused⟩ := ppmuMeasure_refused hnext hread hbs hany
      rw [refused]
      refine ⟨⟨arg0, arg1, ?_⟩, beginDesc_plans s.dev n q false, beginDesc_seq s.dev n q false⟩
      have ring := (complete_ring (s.dev.beginDesc n q) n q stRefused arg0 arg1).trans (by rw [beginDesc_ring])
      exact ⟨congrArg RingSt.held ring, congrArg RingSt.waiting ring, congrArg RingSt.current ring⟩
    · refine completes_act (f := fun d => d.ppmuMeasure n remote) rfl ?_
      exact ppmuMeasure_waits hnext hread hbs hnone hfree
  · refine completes_act (f := fun d => (d.ppmuStepDone g total limit).procKick) rfl ?_
    obtain ⟨cal, grates, fresh, kicked⟩ := procKick_only (s.dev.ppmuStepDone g total limit)
    have written := ppmuStepDone_mem total limit hstep hon hlow
    have canonical : Memory.wf (s.dev.ppmuStepDone g total limit).procKick.mem = true := by
      rw [kicked, written]
      split
      · exact hinv
      · exact memWrite_wf _ _ _ hinv
    rw [canon_of_wf canonical, kicked]
    obtain ⟨flag0, flag1, flag2, flag3⟩ := tbit_flags (stepClamp x limit) (stepCode s.dev g x total).2
    have length : ∀ code flags, (ppmuResult code flags x.n x.ch).length = 8 := fun code flags => by simp [ppmuResult]
    refine ⟨⟨(stepCode s.dev g x total).1, stepFlags s.dev g x total limit, fun hlocal => ?_, flag0, flag2, flag3, fun hmode => ?_, ?_⟩,
      fun a ha => ?_, ppmuStepDone_left total limit hstep hon hlow⟩
    · have back := read_write_same s.dev (p.result + 8 * x.n) (ppmuResult (stepCode s.dev g x total).1 (stepFlags s.dev g x total limit) x.n x.ch)
      rw [Dev.read, written, hlocal]
      rwa [length] at back
    · rw [stepFlags, flag1, stepCode, if_neg hmode]
    · rw [stepFlags, flag0, flag1]
      exact ppmuStepDone_last total limit hstep hon hlow
    · rw [written]
      split
      · rfl
      · next hlocal => exact memByte_memWrite_other _ _ _ _ (by rw [length]; simpa [hlocal] using ha)

end Sys2Proof.Proofs
end

section
/-! PROOFS. What a capture unit moves: of the sequencers the capture state of its own site only (spec/08 R233-R252). -/

namespace Sys2Proof.Proofs

open Sys2Proof Sys2Proof.Machine

set_option Elab.async false

/-- Of the sequencers only one site moved, and of that site neither state nor run. -/
structure Captures (s : Nat) (d e : Dev) : Prop where
  seq : e.seq = { d.seq with sites := e.seq.sites } := by rfl
  other : ∀ x, x ≠ s → e.site x = d.site x := by exact fun _ _ => rfl
  st : (e.site s).st = (d.site s).st := by rfl
  run : (e.site s).run = (d.site s).run := by rfl

namespace Captures

variable {s : Nat}

theorem refl (d : Dev) : Captures s d d := {}

theorem trans {d e f : Dev} (h : Captures s d e) (g : Captures s e f) : Captures s d f :=
  ⟨g.seq.trans (congrArg (fun x : SeqState => { x with sites := f.seq.sites }) h.seq), fun x hx => (g.other x hx).trans (h.other x hx),
    g.st.trans h.st, g.run.trans h.run⟩

theorem foldl {α : Type} {f : Dev → α → Dev} (xs : List α) (d : Dev) (h : ∀ d x, Captures s d (f d x)) : Captures s d (xs.foldl f d) :=
  List.foldlRecOn xs f (motive := Captures s d) (refl d) fun e he x _ => he.trans (h e x)

theorem ite {c : Prop} [Decidable c] {d a b : Dev} (ha : Captures s d a) (hb : Captures s d b) : Captures s d (if c then a else b) := by
  split <;> assumption

theorem modSite (d : Dev) (f : Site → Site) (hst : ∀ x, (f x).st = x.st := by exact fun _ => rfl)
    (hrun : ∀ x, (f x).run = x.run := by exact fun _ => rfl) : Captures s d (d.modSite s f) :=
  ⟨rfl, fun _ hx => site_modSite_other d f hx, by rw [site_modSite_same, hst], by rw [site_modSite_same, hrun]⟩

theorem modCap (d : Dev) (f : CapRun → CapRun) : Captures s d (d.modCap s f) := modSite d _

theorem write (d : Dev) (a : Nat) (bs : List Byte) : Captures s d (d.write a bs) := {}

variable (d : Dev) (p : CapPlan)

theorem capPut (r : List Byte) : Captures s d (d.capPut s p r) := by
  unfold Dev.capPut
  exact (write d _ _).trans (modCap _ _)

theorem capStop (vc cause : Nat) : Captures s d (d.capStop s p vc cause) := ite ((modCap d _).trans (capPut _ p _)) (modCap d _)

theorem capResult (i : WinInst) : Captures s d (d.capResult s p i) := ite (modCap d _) ((write d _ _).trans (modCap _ _))

theorem fineRef (n : Nat) (stamp : Option (Nat × Nat)) (place : Nat) : Captures s d (d.fineRef n stamp place) := by
  cases stamp <;> exact {}

theorem capTry (vc : Nat) (r : List Byte) : Captures s d (d.capTry s p vc r).2 := by
  unfold Dev.capTry
  dsimp only
  split
  · exact refl d
  split
  · exact capStop d p vc 1
  split
  · exact refl d
  · exact capPut d p r

variable {d p} in
/-- An offered record, whatever became of it. -/
theorem of_capTry {e : Dev} {vc : Nat} {r : List Byte} {t : CapTry} (h : d.capTry s p vc r = (t, e)) : Captures s d e := by
  have tried := capTry (s := s) d p vc r
  rwa [h] at tried

theorem capSample (v : VecRec) (mode : Nat) (x : Samp) : Captures s d (d.capSample s p v mode x) := by
  unfold Dev.capSample
  dsimp only
  split
  · exact refl d
  refine (modCap d _).trans (ite ?_ (ite (modCap _ _) (refl _)))
  split
  · next h => exact (of_capTry h).trans ((fineRef _ _ _ _).trans (modCap _ _))
  · next h => exact (of_capTry h).trans (ite (modCap _ _) (refl _))
  · next h => exact (of_capTry h).trans ((modCap _ _).trans (ite (capStop _ p _ 0) (refl _)))

theorem capWindows (v : VecRec) : Captures s d (d.capWindows s p v) := (modCap d _).trans (foldl _ _ fun d i => capResult d p i)

theorem capDamper (v : VecRec) : Captures s d (d.capDamper s p v) := by
  unfold Dev.capDamper
  dsimp only
  refine ite ?_ (refl d)
  split
  · next h => exact (modCap d _).trans ((of_capTry h).trans (modCap _ _))
  · next h => exact (modCap d _).trans ((of_capTry h).trans (modCap _ _))
  · next h => exact (modCap d _).trans (of_capTry h)

theorem capLate (v : VecRec) : Captures s d (d.capLate s p v) := by
  unfold Dev.capLate
  split
  · exact refl d
  split
  · next h => exact (of_capTry h).trans (modCap _ _)
  · next h => exact of_capTry h

theorem capTake (v : VecRec) : Captures s d (d.capTake s v) := by
  unfold Dev.capTake
  split
  · exact refl d
  next p _ =>
  dsimp only
  refine (Captures.trans ?_ (capWindows _ p v)).trans (modCap _ _)
  refine (Captures.trans ?_ (capLate _ p v)).trans (ite (capStop _ p _ 0) (refl _))
  exact (capDamper d p v).trans (ite (foldl _ _ fun d x => ite (capSample d p v _ x) (refl d)) (refl _))

theorem capDecide : Captures s d (d.capDecide s) := by
  unfold Dev.capDecide
  split
  · exact refl d
  · exact modCap d _

theorem capDrain (l : List CapItem) : Captures s d (d.capDrain s l) := by
  induction l generalizing d with
  | nil => exact modCap d _
  | cons x t ih =>
    cases x with
    | boundary => exact (capDecide d).trans (ih _)
    | vec v p j => exact ite (modCap d _) ((capTake d v).trans (ih _))

theorem capBegin : Captures s d (d.capBegin s) := by
  unfold Dev.capBegin
  dsimp only
  split
  · exact modSite d _
  · exact (modSite d _).trans (capPut _ _ _)

theorem capFinish : Captures s d (d.capFinish s) := by
  unfold Dev.capFinish
  dsimp only
  split
  · exact modCap d _
  next p _ =>
  refine Captures.trans ?_ (write _ _ _)
  refine (Captures.trans ?_ (capPut _ p _)).trans (capPut _ p _)
  refine (Captures.trans ?_ (modCap _ _)).trans (foldl _ _ fun d i => capResult d p i)
  split
  · exact (modCap d _).trans (capStop _ p _ 0)
  · exact modCap d _

end Captures

end Sys2Proof.Proofs
end

section
/-! PROOFS. A vector of one site, vector 0, and the delivery of a granule (spec/03 R106, spec/01 R25, spec/07 R212). -/

namespace Sys2Proof.Proofs

open Sys2Proof Sys2Proof.Machine

set_option Elab.async false

/-! ### Drivers, synthesizers and TMU channels leave sites and set-ups -/

namespace SetUpKept

theorem ite {c : Prop} [Decidable c] {d a b : Dev} (ha : SetUpKept d a) (hb : SetUpKept d b) : SetUpKept d (if c then a else b) := by
  split <;> assumption

/-- A fold that gathers values beside the device. -/
theorem foldl_snd {α β : Type} {f : β × Dev → α → β × Dev} (xs : List α) (acc : β × Dev) (h : ∀ acc x, SetUpKept acc.2 (f acc x).2) :
    SetUpKept acc.2 (xs.foldl f acc).2 :=
  List.foldlRecOn xs f (motive := fun e => SetUpKept acc.2 e.2) (refl _) fun e he x _ => he.trans (h e x)

/-- What leaves the sequencers alone. -/
theorem of_seq {d e : Dev} (h : e.seq = d.seq := by rfl) : SetUpKept d e := by
  rw [SetUpKept, h]
  exact ⟨rfl, rfl, rfl⟩

theorem modChan (d : Dev) (ch : Nat) (f : Chan → Chan) : SetUpKept d (d.modChan ch f) := ⟨rfl, rfl, rfl⟩

theorem modDds (d : Dev) (u : Nat) (f : DdsUnit → DdsUnit) : SetUpKept d (d.modDds u f) := ⟨rfl, rfl, rfl⟩

theorem toggle (d : Dev) (ch : Nat) : SetUpKept d (d.toggle ch) := of_seq (toggle_seq d ch)

theorem drive (d : Dev) (ch : Nat) (v : Drv) (t : Nat) : SetUpKept d (d.drive ch v t) :=
  ite (refl d) ((modChan d ch _).trans (toggle _ ch))

theorem setTerm (d : Dev) (ch sym : Nat) : SetUpKept d (d.setTerm ch sym) := by
  unfold Dev.setTerm
  exact ite (refl d) (modChan d ch _)

theorem drivePin (d : Dev) (ch : Nat) (e : PinTiming) (sym t pq : Nat) : SetUpKept d (d.drivePin ch e sym t pq) :=
  foldl _ d fun d x => drive d ch x.2 _

theorem ddsDrive (d : Dev) (u ch t : Nat) : SetUpKept d (d.ddsDrive u ch t) :=
  ite (refl d) (ite (drive d ch _ t) ((drive d ch _ _).trans (modDds _ u _)))

theorem ddsTransition (d : Dev) (n : Nat) : SetUpKept d (d.ddsTransition n) := by
  unfold Dev.ddsTransition
  split
  · exact refl d
  · exact ite (refl d) ((modDds d n _).trans (ddsDrive _ _ _ _))

theorem ddsCatch (d : Dev) (c : LiveClaim) (t fuel : Nat) : SetUpKept d (d.ddsCatch c t fuel) := by
  induction fuel generalizing d with
  | zero => exact refl d
  | succ fuel ih => exact ite (refl d) ((ddsTransition d _).trans (ih _))

theorem ddsStepUnit (d : Dev) (c : LiveClaim) (t : Nat) : SetUpKept d (d.ddsStepUnit c t) := by
  unfold Dev.ddsStepUnit
  split
  · exact refl d
  · exact (modDds d _ _).trans (ddsDrive _ _ _ _)

theorem ddsAlignUnit (d : Dev) (c : LiveClaim) (t : Nat) : SetUpKept d (d.ddsAlignUnit c t) := by
  unfold Dev.ddsAlignUnit
  split
  · exact refl d
  · exact (modDds d _ _).trans (ddsDrive _ _ _ _)

theorem ddsSymbol (d : Dev) (c : LiveClaim) (synth : Bool) (t : Nat) : SetUpKept d (d.ddsSymbol c synth t) := by
  unfold Dev.ddsSymbol
  dsimp only
  split
  · exact ite (refl d) (((modDds d _ _).trans (modChan _ _ _)).trans (ddsDrive _ _ _ _))
  · exact ite (((modDds d _ _).trans (modChan _ _ _)).trans (drive _ _ _ _)) (refl d)

theorem ddsVector (d : Dev) (c : LiveClaim) (segStart lane counted : Bool) (sym t ct pq epoch : Nat) :
    SetUpKept d (d.ddsVector c segStart lane counted sym t ct pq epoch) := by
  unfold Dev.ddsVector
  split
  · exact refl d
  dsimp only
  refine SetUpKept.trans ?_ (foldl _ _ fun d at_ => ite (refl d) ((ddsCatch d _ _ _).trans (ddsAlignUnit _ _ _)))
  refine SetUpKept.trans ?_ (ite (ddsSymbol _ _ _ _) (refl _))
  exact (ddsCatch d _ _ _).trans (ite (ddsStepUnit _ _ _) (refl _))

theorem ddsBegin (d : Dev) (s : Nat) : SetUpKept d (d.ddsBegin s) :=
  foldl _ d fun d c => by
    split
    · exact modDds d _ _
    · exact refl d

theorem fineOf (d : Dev) (tmu strobe pq : Nat) (rise : Bool) : SetUpKept d (d.fineOf tmu strobe pq rise).2 := by
  unfold Dev.fineOf Dev.divFree
  dsimp only
  split
  · exact refl d
  · dsimp only
    split <;> exact of_seq

theorem samplePin (d : Dev) (s pin ch : Nat) (e : PinTiming) (sym t pq epoch : Nat) (o : PinObs) :
    SetUpKept d (d.samplePin s pin ch e sym t pq epoch o).2 := by
  unfold Dev.samplePin
  dsimp only
  split
  · exact refl d
  · split
    · exact refl d
    · exact (fineOf d _ _ pq true).trans (fineOf _ _ _ pq false)

theorem modTmu (d : Dev) (n : Nat) (f : TmuCh → TmuCh) : SetUpKept d (d.modTmu n f) := of_seq

theorem tmuQueue (d : Dev) (n : Nat) (x : TmuItem) : SetUpKept d (d.tmuQueue n x) := by
  unfold Dev.tmuQueue
  exact ite (refl d) (ite (ite of_seq of_seq) of_seq)

theorem tmuMark (d : Dev) (n ev : Nat) : SetUpKept d (d.tmuMark n ev) := by
  unfold Dev.tmuMark
  refine ite (refl d) ?_
  unfold Dev.tmuAfter
  split
  · exact tmuQueue d n _
  · exact of_seq

theorem tmuCommit (d : Dev) (n : Nat) : SetUpKept d (d.tmuCommit n) := by
  unfold Dev.tmuCommit
  split
  · exact refl d
  dsimp only
  refine SetUpKept.trans ?_ (foldl _ _ fun d x => tmuQueue d _ x)
  split
  · exact (modTmu d n _).trans (tmuQueue _ _ _)
  · exact ((modTmu d n _).trans (modTmu _ n _)).trans (tmuQueue _ _ _)

theorem tmuFlush (d : Dev) (n : Nat) : SetUpKept d (d.tmuFlush n) := foldl _ d fun d _ => tmuCommit d n

theorem armNow (d : Dev) (n : Nat) : SetUpKept d (d.armNow n) := by
  unfold Dev.armNow
  dsimp only
  refine SetUpKept.trans ?_ (ite (refl _) (tmuMark _ n 2))
  refine SetUpKept.trans ?_ (tmuMark _ n 0)
  refine SetUpKept.trans ?_ of_seq
  exact (((tmuFlush d _).trans (tmuFlush _ _)).trans of_seq).trans (ite of_seq (refl _))

theorem tmuBegin (d : Dev) (s : Nat) : SetUpKept d (d.tmuBegin s) :=
  foldl _ d fun d c => (modTmu d _ _).trans (ite (armNow _ _) of_seq)

end SetUpKept

/-! ### One site -/

/-- The state of one site stands, every other site is as it was, and so is what is live. -/
structure OneSite (s : Nat) (d e : Dev) : Prop where
  st : (e.site s).st = (d.site s).st := by rfl
  other : ∀ x, x ≠ s → e.site x = d.site x := by exact fun _ _ => rfl
  live : e.seq.live = d.seq.live := by rfl

namespace OneSite

variable {s : Nat}

theorem refl (d : Dev) : OneSite s d d := {}

theorem trans {d e f : Dev} (h : OneSite s d e) (g : OneSite s e f) : OneSite s d f :=
  ⟨g.st.trans h.st, fun x hx => (g.other x hx).trans (h.other x hx), g.live.trans h.live⟩

theorem foldl {α : Type} {f : Dev → α → Dev} (xs : List α) (d : Dev) (h : ∀ d x, OneSite s d (f d x)) : OneSite s d (xs.foldl f d) :=
  List.foldlRecOn xs f (motive := OneSite s d) (refl d) fun e he x _ => he.trans (h e x)

theorem of_setUp {d e : Dev} (h : SetUpKept d e) : OneSite s d e := by
  obtain ⟨live, -, sites⟩ := h
  have same : ∀ x, e.site x = d.site x := fun x => by rw [Dev.site, sites, Dev.site]
  exact ⟨by rw [same], fun x _ => same x, live⟩

theorem of_captures {d e : Dev} (h : Captures s d e) : OneSite s d e := ⟨h.st, h.other, by rw [h.seq]⟩

theorem modSite (d : Dev) (f : Site → Site) (hst : (f (d.site s)).st = (d.site s).st := by rfl) : OneSite s d (d.modSite s f) :=
  ⟨by rw [site_modSite_same, hst], fun _ hx => site_modSite_other d f hx, rfl⟩

theorem ite {c : Prop} [Decidable c] {d a b : Dev} (ha : OneSite s d a) (hb : OneSite s d b) : OneSite s d (if c then a else b) := by
  split <;> assumption

theorem spillCome (d : Dev) : OneSite s d (d.spillCome s) := by
  have drives : SetUpKept d ((d.site s).run.spill.foldl (fun (d : Dev) x => d.drive x.ch x.drv x.t) d) := .foldl _ d fun d x => .drive d _ _ _
  unfold Dev.spillCome
  exact ((of_setUp drives).trans (of_captures (.capDrain _ _))).trans (modSite _ _)

end OneSite

/-! ### A vector (R106, R187) -/

/-- A run stands at the same vector of the same granule, its clocks as they were. -/
structure SamePlace (r r' : SiteRun) : Prop where
  vec : r'.vec = r.vec := by rfl
  t : r'.t = r.t := by rfl
  vc : r'.vc = r.vc := by rfl
  ct : r'.ct = r.ct := by rfl
  pc : r'.flow.pc = r.flow.pc := by rfl
  loops : r'.flow.loops = r.flow.loops := by rfl

namespace SamePlace

theorem refl (r : SiteRun) : SamePlace r r := {}

theorem trans {a b c : SiteRun} (h : SamePlace a b) (g : SamePlace b c) : SamePlace a c :=
  ⟨g.vec.trans h.vec, g.t.trans h.t, g.vc.trans h.vc, g.ct.trans h.ct, g.pc.trans h.pc, g.loops.trans h.loops⟩

/-- A condition moves counters of the flow only. -/
theorem condition (r : SiteRun) (cond pin : Nat) (samps : List Samp) :
    (r.condition cond pin samps).2.pc = r.flow.pc ∧ (r.condition cond pin samps).2.loops = r.flow.loops := by
  unfold SiteRun.condition Flow.cntNz
  split
  · exact ⟨rfl, rfl⟩
  · exact ⟨rfl, rfl⟩
  · exact ⟨rfl, rfl⟩
  · split <;> exact ⟨rfl, rfl⟩
  · exact ⟨rfl, rfl⟩

theorem evaluate (r : SiteRun) (i : ZIns) (samps : List Samp) : SamePlace r (r.evaluate i samps) := by
  unfold SiteRun.evaluate
  split
  · next _ _ _ cond neg clear pin =>
    obtain ⟨pc, loops⟩ := condition r cond pin samps
    split
    · exact refl r
    dsimp only
    split
    · exact { pc := pc, loops := loops }
    · exact { pc := pc, loops := loops }
  · exact refl r

theorem waitStep (r : SiteRun) (i : ZIns) (samps : List Samp) : SamePlace r (r.waitStep i samps) := by
  unfold SiteRun.waitStep
  split <;> exact {}

end SamePlace

/-- What a vector leaves: its site's run at the next vector, its clocks advanced; nothing of other sites (R106, R187). -/
theorem vector_oneSite {d : Dev} {s : Nat} {obs : List PinObs} {b : Binding} {img : Image} {r : SiteRun} {pq : Nat} (hrun : (d.site s).st = .running)
    (hvec : (d.site s).run.vec < 64) (hb : d.binding s = some b) (himg : d.image b.image = some img) (hr : r = (d.site s).run)
    (hpq : pq = (d.timSet (homeHearth s) ((runAt (img.z.gran r.flow.pc).body r.vec).ctrl % 32)).pq) :
    ∃ e r', OneSite s d e ∧ SamePlace r r' ∧ d.vector s obs = e.modSite s (fun x => { x with run := { r' with
      vec := r'.vec + 1, t := r'.t + pq, vc := if !r.idle then r'.vc + 1 else r'.vc, ct := if !r.idle then r'.ct + pq else r'.ct } }) := by
  subst hr hpq
  have goes : ((d.site s).st != .running || decide ((d.site s).run.vec ≥ 64)) = false := by simp [hrun, hvec]
  unfold Dev.vector
  simp only [goes, hb, himg, Bool.false_eq_true, if_false]
  refine ⟨_, _, ?_, ?_, rfl⟩
  · refine OneSite.trans ?_ (.ite (.of_captures (.capDrain _ _)) (.refl _))
    refine (OneSite.spillCome d).trans (.of_setUp (SetUpKept.trans ?_ (SetUpKept.foldl_snd b.pins (_, _) fun acc p => ?_)))
    · exact .foldl _ _ fun d c => .ddsVector d c _ _ _ _ _ _ _ _
    have driven : ∀ (c : Bool) (e : Dev) ch t sym v w, SetUpKept e ((if c = true then e else e.drivePin ch t sym v w).setTerm ch sym) :=
      fun c e ch t sym v w => (SetUpKept.ite (.refl e) (.drivePin e ch t sym v w)).trans (.setTerm _ ch sym)
    split
    · exact driven _ _ _ _ _ _ _
    · exact (driven _ _ _ _ _ _ _).trans (.samplePin _ _ _ _ _ _ _ _ _ _)
  · refine (SamePlace.trans ?_ (.evaluate _ _ _)).trans (.waitStep _ _ _)
    exact {}

/-! ### Vector 0 (R25) -/

/-- A site that issues vector 0 is RUNNING; of every other site the state stands. -/
theorem enterRunning_st (d : Dev) (s x : Nat) : ((d.enterRunning s).site x).st = if x = s then .running else (d.site x).st := by
  unfold Dev.enterRunning
  have after : ∀ e : Dev, OneSite s e (((((e.capBegin s).ddsBegin s).tmuBegin s).binding s |>.map Binding.channels).getD [] |>.foldl
      (fun (d : Dev) ch => d.setTerm ch 3) (((e.capBegin s).ddsBegin s).tmuBegin s)) := fun e =>
    (OneSite.of_captures (.capBegin e)).trans
      (.of_setUp (((SetUpKept.ddsBegin _ s).trans (.tmuBegin _ s)).trans (.foldl _ _ fun d ch => .setTerm d ch 3)))
  by_cases h : x = s
  · subst h
    rw [if_pos rfl, (after _).st, site_modSite_same]
  · rw [if_neg h, (after _).other x h, site_modSite_other _ _ h]

theorem foldl_enterRunning_st (due : List Nat) (d : Dev) (x : Nat) :
    ((due.foldl (fun d s => d.enterRunning s) d).site x).st = if x ∈ due then .running else (d.site x).st := by
  induction due generalizing d with
  | nil => rfl
  | cons s t ih =>
    rw [List.foldl_cons, ih, enterRunning_st]
    by_cases hs : x = s <;> simp [hs]

/-- The sites that issue vector 0 at the edge of the present epoch (R25). -/
def dueSites (d : Dev) : List Nat :=
  (d.seq.starts.filter (fun r => r.epoch == d.flue.epoch)).flatMap
    (fun r => r.sites.filter (fun s => (d.site s).st == .starting && (d.site s).start == r.id))

theorem mem_dueSites (d : Dev) (x : Nat) :
    x ∈ dueSites d ↔ ∃ r ∈ d.seq.starts, r.epoch = d.flue.epoch ∧ x ∈ r.sites ∧ (d.site x).st = .starting ∧ (d.site x).start = r.id := by
  simp [dueSites, and_assoc]

theorem vectorZero_st {d : Dev} (hknown : d.flue.known = true) (x : Nat) :
    (d.vectorZero.site x).st = if x ∈ dueSites d then .running else (d.site x).st := by
  unfold Dev.vectorZero
  rw [hknown, Bool.not_true, if_neg (by decide)]
  refine (foldl_enterRunning_st (dueSites d) _ x).trans ?_
  congr 2
  split <;> rfl

/-! ### A granule arrives (R212) -/

theorem engine_modEngine_same (d : Dev) (u : Nat) (f : Engine → Engine) : (d.modEngine u f).engine u = f (d.engine u) := mapGet_mapSet_same _ _ _ _

theorem engine_modEngine_other (d : Dev) (u : Nat) (f : Engine → Engine) {j : Nat} (h : j ≠ u) : (d.modEngine u f).engine j = d.engine j :=
  mapGet_mapSet_other _ _ _ _ _ h

section
variable {d : Dev} {u k n : Nat} {bad : Bool} {g : Group} {i : Image} (hk : (d.engine u).group = some k) (hg : d.group k = some g)
  (hi : d.groupImage g = some i) (hn : (d.engineWalk u g i ((d.site g.lead).run.flowIn i.z)).next = some n)
include hk hg hi hn

/-- The granule that the prediction names arrives where the ring has room for it. -/
theorem granuleFetch_named : d.granuleFetch u bad = if ringUse i.z (d.engine u).ring + (i.z.gran n).len > d.ringBytes u then d
    else d.modEngine u (fun x => { x with
      ring := (d.engine u).ring ++ [⟨n, false, bad || d.storedPoison i n || d.bodyPoison i (d.engine u).ring n⟩] }) := by
  simp only [Dev.granuleFetch, hk, hg, hi, hn]

end

/-! ### The obligation -/

/-- Settles O33: a vector by `vector_oneSite`, vector 0 by `vectorZero_st`, a granule by `granuleFetch_named`. -/
theorem vectorsAndGranules : Obligations.VectorsAndGranules := by
  unfold Obligations.VectorsAndGranules
  refine ⟨fun s x obs b img hrun hvec hb himg r hr pq hpq => ?_, fun s hknown => ?_,
    fun s u bad k n g i hinv hk hg hi hn => ⟨fun hroom => ?_, fun hfull => ?_⟩⟩
  · refine completes_act (f := fun d => d.vector x obs) rfl ?_
    obtain ⟨e, r', one, same, moved⟩ := vector_oneSite hrun hvec hb himg hr hpq (obs := obs)
    rw [moved]
    simp only [canon_site, site_modSite_same, same.vec, same.t, same.vc, same.ct, same.pc, same.loops]
    refine ⟨one.st.trans hrun, trivial, trivial, ?_, ?_, trivial, trivial, fun y hy => ?_, one.live⟩
    · cases r.idle <;> rfl
    · cases r.idle <;> rfl
    · exact (site_modSite_other _ _ hy).trans (one.other y hy)
  · refine completes_act (f := fun d => d.vectorZero) rfl ?_
    simp only [canon_site, vectorZero_st hknown, mem_dueSites]
    refine ⟨fun r hr hepoch x hx hst hstart => if_pos ⟨r, hr, hepoch, hx, hst, hstart⟩, fun x hst => if_neg ?_⟩
    rintro ⟨r, -, -, -, hstarting, -⟩
    exact hst hstarting
  · refine completes_act (f := fun d => d.granuleFetch u bad) rfl ?_
    rw [granuleFetch_named hk hg hi hn, if_neg (Nat.not_lt.mpr hroom), canon_of_wf (d := s.dev.modEngine _ _) hinv]
    refine ⟨?_, fun j hj => engine_modEngine_other _ _ _ hj, rfl⟩
    rw [engine_modEngine_same, hk]
  · refine exec_eq_self (f := fun d => d.granuleFetch u bad) rfl ?_ hinv
    rw [granuleFetch_named hk hg hi hn, if_pos hfull]

end Sys2Proof.Proofs
end

section
/-! PROOFS. What the end of a run at once, a douse and a fault line leave of channels, grates and the runs that go on (spec/01 R26, R35, spec/18
R465, R469). -/

namespace Sys2Proof.Proofs

open Sys2Proof Sys2Proof.Machine

set_option Elab.async false

theorem mem_insertNat {a x : Nat} {l : List Nat} : x ∈ insertNat a l ↔ x = a ∨ x ∈ l := by
  induction l with
  | nil => simp [insertNat]
  | cons y t ih =>
    unfold insertNat
    split
    · simp
    split
    · next h => simp [h]
    · simp [ih, or_left_comm]

/-- Runs go on as they were or have ended, with the reasons that wait to smother them; each channel is as it was or in the pin safe state;
HRT_GRTg_STATUS is as it was. -/
structure Halting (d e : Dev) : Prop where
  st : ∀ x, (e.site x).st = (d.site x).st ∨ (e.site x).st = .stopping := by exact fun _ => .inl rfl
  reasons : ∀ x r, r ∈ (d.site x).run.smother → r ∈ (e.site x).run.smother := by exact fun _ _ => id
  chan : ∀ ch, e.chan ch = d.chan ch ∨ e.chan ch = Chan.safe := by exact fun _ => .inl rfl
  reg : ∀ g, e.reg (R.HRT_GRT_STATUS g) = d.reg (R.HRT_GRT_STATUS g) := by exact fun _ => rfl

namespace Halting

theorem refl (d : Dev) : Halting d d := {}

theorem trans {d e f : Dev} (h : Halting d e) (g : Halting e f) : Halting d f where
  st x := (g.st x).elim (fun same => (h.st x).imp same.trans same.trans) .inr
  reasons x r hr := g.reasons x r (h.reasons x r hr)
  chan ch := (g.chan ch).elim (fun same => (h.chan ch).imp same.trans same.trans) .inr
  reg k := (g.reg k).trans (h.reg k)

theorem foldl {α : Type} {f : Dev → α → Dev} (xs : List α) (d : Dev) (h : ∀ d x, Halting d (f d x)) : Halting d (xs.foldl f d) :=
  List.foldlRecOn xs f (motive := Halting d) (refl d) fun e he x _ => he.trans (h e x)

theorem ite {c : Prop} [Decidable c] {d a b : Dev} (ha : Halting d a) (hb : Halting d b) : Halting d (if c then a else b) := by
  split <;> assumption

/-- What moves neither sites, channels nor HRT_GRTg_STATUS. -/
theorem upd {d e : Dev} (hs : e.seq.sites = d.seq.sites := by rfl) (hc : e.seq.chans = d.seq.chans := by rfl)
    (hr : ∀ g, e.reg (R.HRT_GRT_STATUS g) = d.reg (R.HRT_GRT_STATUS g) := by exact fun _ => rfl) : Halting d e := by
  have site : ∀ x, e.site x = d.site x := fun x => by rw [Dev.site, hs, Dev.site]
  exact ⟨fun x => .inl (by rw [site]), fun x r => by rw [site]; exact id, fun ch => .inl (by rw [Dev.chan, hc, Dev.chan]), hr⟩

theorem of_seq {d e : Dev} (hs : e.seq = d.seq) (hr : ∀ g, e.reg (R.HRT_GRT_STATUS g) = d.reg (R.HRT_GRT_STATUS g)) : Halting d e :=
  upd (by rw [hs]) (by rw [hs]) hr

theorem of_regs {d e : Dev} (hs : e.seq = d.seq) (hr : e.regs = d.regs) : Halting d e :=
  of_seq hs fun g => by rw [Dev.reg, hr, Dev.reg]

theorem setReg (d : Dev) {off : Nat} (w : Word) (h : ∀ g, R.HRT_GRT_STATUS g ≠ off) : Halting d (d.setReg off w) :=
  of_seq rfl fun g => reg_setReg_other d off _ w (h g)

theorem setF (d : Dev) {off : Nat} (f : Fld) (v : Nat) (h : ∀ g, R.HRT_GRT_STATUS g ≠ off) : Halting d (d.setF off f v) := setReg d _ h

theorem modSite (d : Dev) (s : Nat) (f : Site → Site) (hst : ∀ x, (f x).st = x.st ∨ (f x).st = .stopping := by exact fun _ => .inl rfl)
    (hr : ∀ x, ∀ r ∈ x.run.smother, r ∈ (f x).run.smother := by exact fun _ _ => id) : Halting d (d.modSite s f) where
  st x := by
    by_cases h : x = s
    · rw [h, site_modSite_same]
      exact hst _
    · exact .inl (by rw [site_modSite_other _ _ h])
  reasons x r hx := by
    by_cases h : x = s
    · rw [h, site_modSite_same]
      exact hr _ r (h ▸ hx)
    · rwa [site_modSite_other _ _ h]

theorem of_captures {s : Nat} {d e : Dev} (h : Captures s d e) (hr : e.regs = d.regs) : Halting d e where
  st x := by
    by_cases hx : x = s
    · exact .inl (hx ▸ h.st)
    · exact .inl (by rw [h.other x hx])
  reasons x r := by
    by_cases hx : x = s
    · rw [hx, h.run]
      exact id
    · rw [h.other x hx]
      exact id
  chan ch := .inl (by rw [Dev.chan, h.seq, Dev.chan])
  reg g := by rw [Dev.reg, hr, Dev.reg]

theorem of_sends {d e : Dev} (h : Sends d e) : Halting d e := of_seq h.seq fun g => h.reg _ (.inr (by simp only [R.HRT_GRT_STATUS]; omega))

/-! ### Pins, synthesizers, TMU channels, capture units -/

theorem pinsSafe (d : Dev) (chs : List Nat) : Halting d (d.pinsSafe chs) where
  st x := .inl ((Leaves.pinsSafe d chs).site x).st
  reasons x r hr := by
    obtain ⟨time, only⟩ := pinsSafe_only d chs
    rw [only]
    exact hr
  chan ch := by
    rw [pinsSafe_chan]
    split
    · exact .inr rfl
    · exact .inl rfl
  reg g := by rw [Dev.reg, pinsSafe_regs, Dev.reg]

theorem ddsStop (d : Dev) (s : Nat) : Halting d (d.ddsStop s) := by
  have units : Halting d ((d.ddsClaims s).foldl (fun d c => match d.ddsList c with
      | some l => d.modDds c.unit (fun u => ({ u with connected := false }).load l 0 0 0)
      | none => d.modDds c.unit (fun u => { u with connected := false })) d) :=
    foldl _ d fun d c => by split <;> exact upd
  unfold Dev.ddsStop
  dsimp only
  split
  · exact units.trans upd
  · exact units

theorem modTmu (d : Dev) (n : Nat) (f : TmuCh → TmuCh) : Halting d (d.modTmu n f) := upd

theorem tmuQueue (d : Dev) (n : Nat) (x : TmuItem) : Halting d (d.tmuQueue n x) := by
  have lost : ∀ g, R.HRT_GRT_STATUS g ≠ R.TMU_CH_LOST n := fun g => by
    simp only [R.HRT_GRT_STATUS, R.TMU_CH_LOST]
    omega
  unfold Dev.tmuQueue
  exact ite (refl d) (ite (ite ((modTmu d n _).trans (setF _ _ _ lost)) (modTmu d n _)) (modTmu d n _))

theorem tmuMark (d : Dev) (n ev : Nat) : Halting d (d.tmuMark n ev) := by
  unfold Dev.tmuMark
  refine ite (refl d) ?_
  unfold Dev.tmuAfter
  split
  · exact tmuQueue d n _
  · exact modTmu d n _

theorem tmuStop (d : Dev) (s : Nat) : Halting d (d.tmuStop s) :=
  ite (refl d) ((upd : Halting d d.tbNow).trans (foldl _ _ fun d c => (ite (refl d) (tmuMark d _ 1)).trans (modTmu _ _ _)))

theorem capBegin (d : Dev) (s : Nat) : Halting d (d.capBegin s) := of_captures (Captures.capBegin d) (capBegin_regs d s)

theorem capFinish (d : Dev) (s : Nat) : Halting d (d.capFinish s) := of_captures (Captures.capFinish d) (capFinish_regs d s)

/-- Of a run that ends at once no event of its last vector occurs (R123). -/
theorem lastEvents_atOnce (d : Dev) (s : Nat) : Halting d (d.lastEvents s true) := by
  unfold Dev.lastEvents
  simp only [if_true]
  refine Halting.trans ?_ (modSite _ s _)
  refine Halting.trans ?_ (of_captures (Captures.capDrain _ _) (capDrain_regs _ s _))
  exact modSite d s _

/-! ### Groups and engines -/

theorem nameGroup (d : Dev) (k : Nat) : Halting d (d.nameGroup k) := by
  unfold Dev.nameGroup
  split
  · exact refl d
  · exact foldl _ d fun d s => modSite d s _

theorem holdCause (d : Dev) (k : Nat) : Halting d (d.holdCause k) := by
  unfold Dev.holdCause
  split
  · exact refl d
  split
  · exact refl d
  · exact ite (foldl _ d fun d m => modSite d m _) (refl d)

theorem freeEngine (d : Dev) (e : Nat) : Halting d (d.freeEngine e) := by
  unfold Dev.freeEngine
  split
  · exact upd
  dsimp only
  split
  · exact Halting.trans upd (holdCause _ _)
  · exact upd

theorem leaveGroup (d : Dev) (s : Nat) : Halting d (d.leaveGroup s) := by
  unfold Dev.leaveGroup
  split
  · exact refl d
  dsimp only
  split
  · exact Halting.trans upd (foldl _ _ fun d e => freeEngine d e)
  · exact (upd : Halting d (d.setGroup _ _)).trans (nameGroup _ _)

/-! ### Waits, rendezvous, reasons -/

theorem postReport (d : Dev) (s : Nat) (bytes : List Byte) : Halting d (d.postReport s bytes) := by
  have lost : ∀ g, R.HRT_GRT_STATUS g ≠ R.HRT_HOLD_STATUS := fun g => by
    simp only [R.HRT_GRT_STATUS, R.HRT_HOLD_STATUS]
    omega
  unfold Dev.postReport
  dsimp only
  split
  · exact Halting.trans upd (modSite _ s _)
  · exact Halting.trans upd (setF _ _ _ lost)

theorem endWait (d : Dev) (s endCode : Nat) : Halting d (d.endWait s endCode) := by
  unfold Dev.endWait
  dsimp only
  split
  · exact refl d
  · exact (modSite d s _).trans (postReport _ _ _)

theorem addReason (d : Dev) (s reason : Nat) : Halting d (d.addReason s reason) :=
  ite (refl d) ((modSite d s _).trans (ite (refl _) upd))

theorem rdvWithdraw (d : Dev) (s : Nat) : Halting d (d.rdvWithdraw s) := by
  unfold Dev.rdvWithdraw
  exact modSite d s _ (fun _ => .inl rfl) fun _ _ hr => mem_insertNat.mpr (.inr hr)

theorem rdvRelease (d : Dev) (s epoch : Nat) (fails : List Nat) : Halting d (d.rdvRelease s epoch fails) := by
  unfold Dev.rdvRelease
  refine modSite d s _ (fun _ => .inl rfl) fun x r hr => ?_
  dsimp only
  split <;> exact hr

theorem latchLate (d : Dev) : Halting d ((d.bump R.FLU_LATE F.FLU_LATE_EVENTS).latch R.FLU_INT_STATUS F.FLU_INT_STATUS_LATE) := by
  have late : ∀ g, R.HRT_GRT_STATUS g ≠ R.FLU_LATE ∧ R.HRT_GRT_STATUS g ≠ R.FLU_INT_STATUS := fun g => by
    simp only [R.HRT_GRT_STATUS, R.FLU_LATE, R.FLU_INT_STATUS]
    omega
  exact (setF d _ _ fun g => (late g).1).trans (setF _ _ _ fun g => (late g).2)

theorem setMeet (d : Dev) (m : RdvMeet) : Halting d (d.setMeet m) := upd

theorem takeRelease (d : Dev) (r : Start) (x epoch : Nat) (fails : List Nat) : Halting d (d.takeRelease r x epoch fails) := by
  unfold Dev.takeRelease
  dsimp only
  split
  · exact ((setMeet d _).trans (latchLate _)).trans (foldl _ _ fun d s => rdvWithdraw d s)
  · exact (setMeet d _).trans (foldl _ _ fun d s => rdvRelease d s epoch fails)

theorem gather (d : Dev) (r : Start) (rep : RdvReport) : Halting d (d.gather r rep) := by
  unfold Dev.gather
  dsimp only
  split
  · exact setMeet d _
  split
  · exact upd
  · refine Halting.trans ?_ (takeRelease _ r _ _ _)
    refine ((setMeet d _).trans (setMeet _ _)).trans (ite (of_sends (.sendEvent _ _ _ _ _ _ _ _ _)) (refl _))

theorem rdvCheck (d : Dev) (id : Nat) : Halting d (d.rdvCheck id) := by
  unfold Dev.rdvCheck
  split
  · exact refl d
  · refine ite (refl d) (ite upd (ite ?_ (ite ?_ ?_)))
    · exact (setMeet d _).trans (gather _ _ _)
    · exact (setMeet d _).trans (of_sends (.sendPacket _ _))
    · exact (setMeet d _).trans (gather _ _ _)

theorem sendFail (d : Dev) (s : Nat) : Halting d (d.sendFail s) := by
  unfold Dev.sendFail
  split
  · exact refl d
  · exact ite (refl d) (ite (foldl _ d fun d p => of_sends (.enqueue d p _)) (of_sends (.sendEvent d _ _ _ _ _ _ _ _)))

/-! ### Runs that end -/

theorem latchHearth (d : Dev) (h : Nat) (f : Fld) : Halting d (d.latch (R.HRT_INT_STATUS h) f) :=
  setF d f 1 fun g => by
    simp only [R.HRT_GRT_STATUS, R.HRT_INT_STATUS]
    omega

/-- The end of a run that has not begun, or that a douse ends. -/
theorem endSite (d : Dev) (s : Nat) (cause : EndCause) (reason : Nat) (fromFail : Bool) (h : cause = .douse ∨ (d.site s).st ≠ .running) :
    Halting d (d.endSite s cause reason fromFail) := by
  unfold Dev.endSite
  refine ite (refl d) ?_
  dsimp only
  -- from the last operation back to the site's passage to STOPPING
  refine Halting.trans ?_ (rdvCheck _ _)
  refine Halting.trans ?_ (ite (sendFail _ _) (refl _))
  refine ((Halting.trans ?_ (tmuStop _ _)).trans (capFinish _ _)).trans (leaveGroup _ _)
  refine (Halting.trans ?_ (pinsSafe _ _)).trans (ddsStop _ _)
  refine (Halting.trans ?_ (ite (latchHearth _ _ _) (refl _))).trans (ite (latchHearth _ _ _) (refl _))
  refine Halting.trans ?_ (ite (refl _) (capBegin _ _))
  -- what comes before it
  refine Halting.trans ?_ (modSite _ s _ fun _ => .inr rfl)
  refine Halting.trans ?_ (addReason _ s reason)
  refine Halting.trans ?_ (ite (foldl _ _ fun d r => addReason d s r) (refl _))
  refine (endWait d s 1).trans ?_
  rcases h with rfl | hst
  · exact ite (lastEvents_atOnce _ s) (refl _)
  · rw [if_neg hst]
    exact refl _

/-- A site smothered for another reason than clock loss or heat ends at once only if its run has not begun (R35). -/
theorem smother (d : Dev) (s : Nat) {reason : Nat} (hreason : smotherAtOnce reason = false) : Halting d (d.smother s reason) := by
  unfold Dev.smother
  simp only [hreason, Bool.false_eq_true, and_false, or_false]
  split
  · next hst => exact endSite d s _ _ _ (.inr (by rw [hst]; decide))
  · exact ite (modSite d s _ (fun _ => .inl rfl) fun _ _ hr => mem_insertNat.mpr (.inr hr)) (refl d)

theorem smotherAll (d : Dev) (l : List Nat) {reason : Nat} (hreason : smotherAtOnce reason = false) : Halting d (d.smotherAll l reason) :=
  foldl l d fun d s => smother d s hreason

/-! ### Douses -/

theorem ppmuEndStep (d : Dev) (p : PpmuPlan) (s : PpmuStep) (code flags : Nat) : Halting d (d.ppmuEndStep p s code flags) := by
  unfold Dev.ppmuEndStep
  exact (of_sends (.ownerWrite d p.ring _ _)).trans upd

theorem drawNat (d : Dev) : Halting d d.drawNat.2 := upd

theorem ppmuFinish (d : Dev) : Halting d d.ppmuFinish := by
  obtain ⟨rings, only⟩ := ppmuFinish_only d
  rw [only]
  exact upd

theorem ppmuDouse (d : Dev) (g scope : Nat) : Halting d (d.ppmuDouse g scope) := by
  have force : Halting d (match d.staticPin g with
      | some p => if tbit scope (8 * g + p.pin) then d.modGrate g (fun x => { x with forceOff := true }) else d
      | none => d) := by
    split
    · exact ite upd (refl d)
    · exact refl d
  unfold Dev.ppmuDouse
  dsimp only
  split
  · exact force
  · refine Halting.trans ?_ (ppmuFinish _)
    refine Halting.trans ?_ (foldl _ _ fun d x => (drawNat d).trans (ppmuEndStep _ _ _ _ _))
    exact (force.trans (drawNat _)).trans (ppmuEndStep _ _ _ _ _)

/-- A register below the hearths' windows. -/
theorem below {off : Nat} (h : off < 0x100000) (g : Nat) : R.HRT_GRT_STATUS g ≠ off := by
  simp only [R.HRT_GRT_STATUS]
  omega

theorem calEnd (d : Dev) (h code pin : Nat) : Halting d (d.calEnd h (some (code, pin))) := by
  have proc : ∀ (f : Fld) (v : Nat) (e : Dev), Halting e (e.setF R.CAL_PROC_STATUS f v) := fun f v e => setF e f v (below (by decide))
  unfold Dev.calEnd
  split
  · exact refl d
  refine ite (refl d) ?_
  dsimp only
  refine ite ?_ ?_
  · refine Halting.trans ?_ (setF _ _ 1 (below (by decide)))
    refine (Halting.trans ?_ (proc _ _ _)).trans (proc _ _ _)
    exact ((ite ((proc _ _ d).trans (proc _ _ _)) (refl d)).trans (proc _ _ _)).trans upd
  · exact ((ite ((proc _ _ d).trans (proc _ _ _)) (refl d)).trans (proc _ _ _)).trans upd

theorem douseHalt (d : Dev) (scope : Nat) : Halting d (d.douseHalt scope) := by
  unfold Dev.douseHalt
  refine Halting.trans ?_ (foldl _ _ fun d h => calEnd d h 5 0)
  refine Halting.trans ?_ (foldl _ _ fun d g => ppmuDouse d g scope)
  exact (foldl _ d fun d s => endSite d s .douse 0 false (.inl rfl)).trans (pinsSafe _ _)

theorem supSeqEnd (d : Dev) (outcome step : Nat) : Halting d (d.supSeqEnd outcome step) := by
  have ctrl : ∀ (f : Fld) (v : Nat) (e : Dev), Halting e (e.setF R.PWR_SUP_CTRL f v) := fun f v e => setF e f v (below (by decide))
  unfold Dev.supSeqEnd
  refine Halting.trans ?_ (setF _ _ 1 (below (by decide)))
  exact (((upd : Halting d _).trans (ctrl _ _ _)).trans (ctrl _ _ _)).trans (ctrl _ _ _)

theorem douseSeq (d : Dev) (scope : Nat) : Halting d (d.douseSeq scope) := by
  unfold Dev.douseSeq
  split
  · exact ite (refl d) (supSeqEnd d _ _)
  · exact refl d

theorem douseEntry (d : Dev) (cause scope b : Nat) : Halting d (d.douseEntry cause scope b) := ite upd upd

theorem douse (d : Dev) (cause source b : Nat) (resetAfter : Bool) : Halting d (d.douse cause source b resetAfter) := by
  have status : ∀ (f : Fld) (v : Nat) (e : Dev), Halting e (e.setF R.FLT_DOUSE_STATUS f v) := fun f v e => setF e f v (below (by decide))
  unfold Dev.douse
  refine ite (douseEntry d _ _ _) ?_
  unfold Dev.douseView
  dsimp only
  refine (((Halting.trans ?_ (status _ _ _)).trans (status _ _ _)).trans (status _ _ _)).trans (status _ _ _)
  exact (((douseHalt d _).trans (douseSeq _ _)).trans (douseEntry _ _ _ _)).trans upd

/-! ### Fault lines -/

theorem latchFault (d : Dev) (b unit : Nat) : Halting d (d.latchFault b unit) := by
  unfold Dev.latchFault
  refine Halting.trans ?_ (ite (refl _) (setReg _ (off := R.FLT_FIRST) _ (below (by decide))))
  exact (setF d (off := R.FLT_WORD_LO) _ _ (below (by decide))).trans upd

theorem faultSmother (d : Dev) (b unit : Nat) : Halting d (d.faultSmother b unit) := by
  unfold Dev.faultSmother
  refine ite ?_ (refl d)
  split
  · exact smotherAll d _ rfl
  · exact refl d

theorem raise (d : Dev) (b unit : Nat) : Halting d (d.raise b unit) :=
  ite (refl d) (ite (faultSmother d b unit) (((latchFault d b unit).trans (ite (douse _ _ _ _ _) (ite (douse _ _ _ _ _) (refl _)))).trans
    (faultSmother _ b unit)))

end Halting

end Sys2Proof.Proofs
end

section
/-! PROOFS. Overload of drivers and of VTT buffers (spec/03 R89, R101, spec/18 R464). -/

namespace Sys2Proof.Proofs

open Sys2Proof Sys2Proof.Machine

set_option Elab.async false

/-! ### The overloaded channels and the grate's status -/

@[simp] theorem chan_modChan_same (d : Dev) (ch : Nat) (f : Chan → Chan) : (d.modChan ch f).chan ch = f (d.chan ch) := mapGet_mapSet_same _ _ _ _

theorem chan_modChan_other (d : Dev) {ch x : Nat} (f : Chan → Chan) (h : x ≠ ch) : (d.modChan ch f).chan x = d.chan x :=
  mapGet_mapSet_other _ _ _ _ _ h

theorem toggle_only (d : Dev) (ch : Nat) : ∃ time, d.toggle ch = { d with time := time } := by
  unfold Dev.toggle
  dsimp only
  split <;> exact ⟨_, rfl⟩

/-- The line has named its channels, not yet raised the fault: they are in high-impedance, and HRT_GRTg_STATUS may have changed (R89, R101). -/
structure Overloads (g : Nat) (chs : List Nat) (d e : Dev) : Prop where
  chan : ∀ ch, e.chan ch = if ch ∈ chs then { d.chan ch with drv := .z, overload := true } else d.chan ch
  sites : e.seq.sites = d.seq.sites
  live : e.seq.live = d.seq.live
  faults : e.faults = d.faults
  regs : RegsBut [R.HRT_GRT_STATUS g] d e

theorem overload_only (d : Dev) (chs : List Nat) : ∃ chans time, d.overload chs = { d with seq := { d.seq with chans := chans }, time := time } := by
  refine List.foldlRecOn chs _ (motive := fun e : Dev => ∃ chans time, e = { d with seq := { d.seq with chans := chans }, time := time })
    ⟨_, _, rfl⟩ ?_
  rintro _ ⟨chans, time, rfl⟩ ch _
  dsimp only
  split
  · exact ⟨_, _, rfl⟩
  · obtain ⟨time, only⟩ := toggle_only { d with seq := { d.seq with chans := chans }, time := time } ch
    rw [only]
    exact ⟨_, _, rfl⟩

theorem overload_chan (d : Dev) (chs : List Nat) (ch : Nat) :
    (d.overload chs).chan ch = if ch ∈ chs then { d.chan ch with drv := .z, overload := true } else d.chan ch := by
  induction chs generalizing d with
  | nil => rfl
  | cons c t ih =>
    have toggled : ∀ x, (if (d.chan c).drv = .z then d else d.toggle c).chan x = d.chan x := fun x => by
      split
      · rfl
      · rw [Dev.chan, toggle_seq, Dev.chan]
    refine (ih _).trans ?_
    by_cases hc : ch = c
    · subst hc
      simp [toggled]
    · simp [hc, chan_modChan_other, toggled]

theorem overload_overloads (d : Dev) (g : Nat) (chs : List Nat) : Overloads g chs d (d.overload chs) := by
  obtain ⟨chans, time, only⟩ := overload_only d chs
  refine ⟨overload_chan d chs, ?_, ?_, ?_, fun off _ => ?_⟩ <;> rw [only]
  rfl

namespace Overloads

variable {g : Nat} {chs : List Nat} {d e : Dev}

theorem setF (h : Overloads g chs d e) (f : Fld) (v : Nat) : Overloads g chs d (e.setF (R.HRT_GRT_STATUS g) f v) :=
  ⟨h.chan, h.sites, h.live, h.faults, regsBut_trans h.regs (regsBut_setF e _ f v)⟩

theorem floats (h : Overloads g chs d e) {ch : Nat} (hch : ch ∈ chs) : (e.chan ch).drv = .z ∧ (e.chan ch).overload = true := by
  rw [h.chan, if_pos hch]
  exact ⟨rfl, rfl⟩

theorem site (h : Overloads g chs d e) (x : Nat) : e.site x = d.site x := by rw [Dev.site, h.sites, Dev.site]

theorem binding (h : Overloads g chs d e) (x : Nat) : e.binding x = d.binding x := by
  unfold Dev.binding
  rw [h.live]

theorem activeSites (h : Overloads g chs d e) : e.activeSites = d.activeSites := by rw [Dev.activeSites, h.sites, Dev.activeSites]

/-- Nothing of the fault line's reaction is told by HRT_GRTg_STATUS. -/
theorem faultReact (h : Overloads g chs d e) (b : Nat) (hb : b < faultBits) : e.faultReact b = d.faultReact b := by
  have fault : ∀ off, off < 0x100000 → e.reg off = d.reg off := fun off ho => h.regs off fun hm => by
    rw [List.mem_singleton.mp hm] at ho
    simp only [R.HRT_GRT_STATUS] at ho
    omega
  have cfg : ∀ f, e.getF (R.FLT_CFG (b / 8)) f = d.getF (R.FLT_CFG (b / 8)) f := fun f =>
    getF_eq_of_reg f (fault _ (by unfold faultBits at hb; simp only [R.FLT_CFG]; omega))
  rw [Dev.faultReact, Dev.faultReact, bitOf_eq_of_reg b (fault R.FLT_WORD_LO (by decide)), h.faults]
  simp only [Dev.cfgClass, Dev.cfgReact, cfg]

end Overloads

/-! ### Sites that hold an overloaded pin -/

theorem mem_of_mapFind {α : Type} {m : List (Nat × α)} {i : Nat} {v : α} (h : mapFind m i = some v) : (i, v) ∈ m := by
  induction m with
  | nil => cases h
  | cons c t ih =>
    obtain ⟨k, w⟩ := c
    unfold mapFind at h
    split at h
    · next hk =>
      cases h
      rw [hk]
      exact List.mem_cons_self
    · exact List.mem_cons_of_mem _ (ih h)

/-- A site in STARTING or RUNNING is listed as one (a site that no list names is IDLE). -/
theorem mem_activeSites {d : Dev} {x : Nat} (h : (d.site x).st = .starting ∨ (d.site x).st = .running) : x ∈ d.activeSites := by
  have listed : mapFind d.seq.sites x = some (d.site x) := by
    rw [Dev.site, mapGet] at h ⊢
    cases hfind : mapFind d.seq.sites x with
    | none => simp [hfind, Site.reset] at h
    | some v => rfl
  exact List.mem_map.mpr ⟨(x, d.site x), List.mem_filter.mpr ⟨mem_of_mapFind listed, by simpa using h⟩, rfl⟩

theorem smothered_halting {r x : Nat} {d e : Dev} (h : Smothered r x d) (g : Halting d e) : Smothered r x e := by
  rcases g.st x with same | ended
  · rcases h with stopping | ⟨running, reason⟩
    · exact .inl (same.trans stopping)
    · exact .inr ⟨same.trans running, List.contains_iff_mem.mpr (g.reasons x r (List.contains_iff_mem.mp reason))⟩
  · exact .inl ended

theorem smother_smothered {d : Dev} {x reason : Nat} (h : (d.site x).st = .starting ∨ (d.site x).st = .running) :
    Smothered reason x (d.smother x reason) := by
  unfold Dev.smother
  dsimp only
  split
  · exact .inl (endSite_ends d x .smother reason false h).ended.1
  · next hlater =>
    have running : (d.site x).st = .running := h.resolve_left fun hst => hlater (.inl hst)
    rw [if_pos running, Smothered, site_modSite_same]
    exact .inr ⟨running, List.contains_iff_mem.mpr (mem_insertNat.mpr (.inl rfl))⟩

/-- Each site of a list that is active is smothered, or has ended by the smothering of another. -/
theorem smotherAll_smothered {reason : Nat} (hreason : smotherAtOnce reason = false) (l : List Nat) {d : Dev} {x : Nat} (hx : x ∈ l)
    (h : (d.site x).st = .starting ∨ (d.site x).st = .running) : Smothered reason x (d.smotherAll l reason) := by
  induction l generalizing d with
  | nil => cases hx
  | cons s t ih =>
    have rest : Halting (d.smother s reason) (d.smotherAll (s :: t) reason) := Halting.smotherAll _ t hreason
    by_cases hs : x = s
    · subst hs
      exact smothered_halting (smother_smothered h) rest
    · rcases (Halting.smother d s hreason).st x with same | ended
      · exact ih ((List.mem_cons.mp hx).resolve_left hs) (by rwa [same])
      · exact smothered_halting (.inl ended) rest

/-! ### The fault line -/

section
variable {g : Nat} {chs : List Nat} {d e : Dev}

theorem overloadSmother_halting (e : Dev) (chs : List Nat) : Halting e (e.overloadSmother chs) := Halting.smotherAll e _ rfl

theorem raise_overload_bitOf (e : Dev) (g : Nat) (chs : List Nat) : ((e.raise 0 g).overloadSmother chs).bitOf R.FLT_WORD_LO 0 = true := by
  have kept : Keeps (e.raise 0 g) ((e.raise 0 g).overloadSmother chs) := Keeps.smotherAll _ _ 3
  exact (bitOf_eq_of_reg 0 (kept.reg _ (by decide))).trans (raise_bitOf e g (by decide))

theorem raise_overload_halting (e : Dev) (g : Nat) (chs : List Nat) : Halting e ((e.raise 0 g).overloadSmother chs) :=
  (Halting.raise e 0 g).trans (overloadSmother_halting _ chs)

/-- No active site that holds an overloaded pin goes on (R89). -/
theorem raise_overload_smothered {x ch : Nat} {b : Binding} (hb : e.binding x = some b) (hch : ch ∈ chs) (hholds : ch ∈ b.channels)
    (hactive : (e.site x).st = .starting ∨ (e.site x).st = .running) : Smothered 3 x ((e.raise 0 g).overloadSmother chs) := by
  rcases (Halting.raise e 0 g).st x with same | ended
  · have bound : (e.raise 0 g).binding x = some b := by
      rw [← hb]
      unfold Dev.binding
      rw [(Spares.raise e 0 g).binds]
    have active : ((e.raise 0 g).site x).st = .starting ∨ ((e.raise 0 g).site x).st = .running := by rwa [same]
    refine smotherAll_smothered rfl _ (List.mem_filter.mpr ⟨mem_activeSites active, ?_⟩) active
    rw [bound]
    exact List.any_eq_true.mpr ⟨ch, hholds, List.contains_iff_mem.mpr hch⟩
  · exact smothered_halting (.inl ended) (overloadSmother_halting _ chs)

theorem latchFault_seq (d : Dev) (b unit : Nat) : (d.latchFault b unit).seq = d.seq := by
  unfold Dev.latchFault
  dsimp only
  split <;> rfl

/-- Without active sites, under a reaction that douses nothing, the line is latched, and nothing else moves. -/
theorem raise_overload_quiet (hreact : e.faultReact 0 < 2) (hidle : e.activeSites = []) :
    (e.raise 0 g).overloadSmother chs = if e.bitOf R.FLT_WORD_LO 0 = true then e else e.latchFault 0 g := by
  have smothers : ∀ f : Dev, f.activeSites = [] → f.faultSmother 0 g = f ∧ f.overloadSmother chs = f := fun f hf => by
    refine ⟨?_, by rw [Dev.overloadSmother, hf]; rfl⟩
    unfold Dev.faultSmother
    rw [hf]
    exact ite_self f
  have latched : (e.latchFault 0 g).activeSites = [] := by rw [Dev.activeSites, latchFault_seq, ← Dev.activeSites, hidle]
  unfold Dev.raise
  rw [if_neg (by decide)]
  by_cases hset : e.bitOf R.FLT_WORD_LO 0 = true
  · rw [if_pos hset, if_pos hset, (smothers e hidle).1, (smothers e hidle).2]
  · have react : (e.latchFault 0 g).faultReact 0 < 2 := by
      rw [latchFault_faultReact e g (by decide)]
      rwa [Dev.faultReact, if_neg hset] at hreact
    rw [if_neg hset, if_neg hset]
    dsimp only
    rw [if_neg (by omega), if_neg (by omega), (smothers _ latched).1, (smothers _ latched).2]

/-- Such a line moves its channels, the grate's status and the fault word alone. -/
theorem raise_overload_moves (h : Overloads g chs d e) (hreact : d.faultReact 0 < 2) (hidle : d.activeSites = []) :
    (∀ c, c ∉ chs → ((e.raise 0 g).overloadSmother chs).chan c = d.chan c) ∧
      RegsBut [R.HRT_GRT_STATUS g, R.FLT_WORD_LO, R.FLT_FIRST] d ((e.raise 0 g).overloadSmother chs) := by
  rw [raise_overload_quiet ((h.faultReact 0 (by decide)).trans_lt hreact) (h.activeSites.trans hidle)]
  have chan : ∀ c, c ∉ chs → e.chan c = d.chan c := fun c hc => (h.chan c).trans (if_neg hc)
  have regs : RegsBut [R.HRT_GRT_STATUS g, R.FLT_WORD_LO, R.FLT_FIRST] d e := fun off ho =>
    h.regs off fun hm => ho (List.mem_cons.mpr (.inl (List.mem_singleton.mp hm)))
  split
  · exact ⟨chan, regs⟩
  · refine ⟨fun c hc => ?_, regsBut_trans regs fun off ho => ?_⟩
    · rw [Dev.chan, latchFault_seq]
      exact chan c hc
    · simp only [List.mem_cons, List.not_mem_nil, or_false, not_or] at ho
      obtain ⟨-, word, first⟩ := ho
      exact latchFault_reg_other e 0 g word first

end

/-! ### DRV_OVL -/

/-- The driver's status is latched, and its pin named if none is yet (R101). -/
def pinNamed (d : Dev) (g k : Nat) : Dev :=
  (if d.flag (R.HRT_GRT_STATUS g) F.HRT_GRT_STATUS_DRV_OVL then d else d.setF (R.HRT_GRT_STATUS g) F.HRT_GRT_STATUS_OVL_PIN k).latch
    (R.HRT_GRT_STATUS g) F.HRT_GRT_STATUS_DRV_OVL

theorem pinNamed_overloads {d e : Dev} {g k : Nat} {chs : List Nat} (h : Overloads g chs d e) : Overloads g chs d (pinNamed e g k) := by
  unfold pinNamed
  split
  · exact h.setF _ 1
  · exact (h.setF _ k).setF _ 1

theorem pinNamed_named (d : Dev) (g k : Nat) (hk : k < 8) (h : d.getF (R.HRT_GRT_STATUS g) F.HRT_GRT_STATUS_DRV_OVL = 0) :
    (pinNamed d g k).getF (R.HRT_GRT_STATUS g) F.HRT_GRT_STATUS_OVL_PIN = k := by
  have clear : d.flag (R.HRT_GRT_STATUS g) F.HRT_GRT_STATUS_DRV_OVL = false := by rw [Dev.flag, h]; rfl
  rw [pinNamed, clear, if_neg (by decide), Dev.latch, getF_setF_disjoint _ _ _ _ _ (by decide) (by decide), getF_setF_same _ _ _ _ (by decide)]
  exact Nat.mod_eq_of_lt hk

theorem drvOvl_pin {d : Dev} {g k : Nat} (h : (d.chan (8 * g + k)).drv ≠ .z) :
    d.drvOvl g (some k) = ((pinNamed (d.overload [8 * g + k]) g k).raise 0 g).overloadSmother [8 * g + k] := if_neg h

/-- The channels that the VTT buffer of a grate terminates (R80). -/
def terminated (d : Dev) (g : Nat) : List Nat := ((List.range 8).map (8 * g + ·)).filter (fun ch => (d.chan ch).term)

theorem mem_terminated {d : Dev} {g k : Nat} (hk : k < 8) (h : (d.chan (8 * g + k)).term = true) : 8 * g + k ∈ terminated d g :=
  List.mem_filter.mpr ⟨List.mem_map_of_mem (List.mem_range.mpr hk), h⟩

theorem drvOvl_buffer {d : Dev} {g : Nat} (h : terminated d g ≠ []) :
    d.drvOvl g none = (((d.overload (terminated d g)).latch (R.HRT_GRT_STATUS g) F.HRT_GRT_STATUS_VTT_OVL).raise 0 g).overloadSmother (terminated d g) :=
  if_neg fun hempty => h (List.isEmpty_iff.mp hempty)

/-! ### The obligation -/

section
variable (d : Dev)

@[simp] theorem procKick_site (x : Nat) : d.procKick.site x = d.site x := by rw [Dev.site, (SetUpKept.procKick d).2.2, Dev.site]

@[simp] theorem procKick_chans : d.procKick.seq.chans = d.seq.chans := by
  obtain ⟨cal, grates, fresh, only⟩ := procKick_only d
  rw [only]

@[simp] theorem procKick_chan (ch : Nat) : d.procKick.chan ch = d.chan ch := by rw [Dev.chan, procKick_chans, Dev.chan]

@[simp] theorem procKick_reg (off : Nat) : d.procKick.reg off = d.reg off := (Quiet.procKick d).reg off

@[simp] theorem procKick_getF (off : Nat) (f : Fld) : d.procKick.getF off f = d.getF off f := getF_eq_of_reg f (procKick_reg d off)

@[simp] theorem procKick_bitOf (off i : Nat) : d.procKick.bitOf off i = d.bitOf off i := bitOf_eq_of_reg i (procKick_reg d off)

end

theorem smothered_procKick {r x : Nat} {d : Dev} (h : Smothered r x d) : Smothered r x d.procKick.canon := by
  rw [Smothered, canon_site, procKick_site]
  exact h

/-- An overloaded channel floats, whatever the fault line did since (R89). -/
theorem chan_halted {ch : Nat} {d e : Dev} (h : (d.chan ch).drv = .z ∧ (d.chan ch).overload = true) (g : Halting d e) :
    (e.chan ch).drv = .z ∧ ((e.chan ch).overload = true ∨ e.chan ch = Chan.safe) := by
  rcases g.chan ch with same | safe
  · rw [same]
    exact ⟨h.1, .inl h.2⟩
  · rw [safe]
    exact ⟨rfl, .inr rfl⟩

/-- Calibration procedures that begin leave registers, channels and sites. -/
theorem procKick_idle (d : Dev) : d.procKick.canon.regs = d.regs ∧ d.procKick.canon.seq.chans = d.seq.chans ∧ d.procKick.canon.seq.sites = d.seq.sites :=
  ⟨(Quiet.procKick d).regs, procKick_chans d, (SetUpKept.procKick d).2.2⟩

theorem exec_drvOvl (g : Fin 128) (pin : Option (Fin 8)) (s : State) :
    exec (.drvOvl g pin) s = s.act (fun d => (d.drvOvl g (pin.map Fin.val)).procKick) := rfl

/-- Settles O13: what the line leaves of channels, status and runs by `raise_overload_halting`, that no site goes on by `raise_overload_smothered`. -/
theorem driverOverload : Obligations.DriverOverload := by
  unfold Obligations.DriverOverload
  refine ⟨fun s g k ch hch => ⟨fun hdrives => ?_, fun hfloats => ?_⟩, fun s g => ⟨fun hterm => ?_, fun hnone => ?_⟩⟩
  · subst hch
    have named : Overloads g [8 * g.val + k.val] s.dev (pinNamed (s.dev.overload [8 * g.val + k.val]) g k) :=
      pinNamed_overloads (overload_overloads _ _ _)
    have halts := raise_overload_halting (pinNamed (s.dev.overload [8 * g.val + k.val]) g k) g [8 * g.val + k.val]
    obtain ⟨floats, overloaded⟩ := chan_halted (named.floats (List.mem_singleton_self _)) halts
    refine completes_act (exec_drvOvl g (some k) s) ?_
    simp only [Option.map_some, drvOvl_pin hdrives, canon_bitOf, canon_chan, canon_getF, procKick_bitOf, procKick_chan, procKick_getF]
    refine ⟨raise_overload_bitOf _ _ _, floats, overloaded, ?_, fun hclear => ?_, fun x b hb hholds hactive => ?_, fun hreact hidle => ?_⟩
    · exact (getF_eq_of_reg _ (halts.reg g)).trans (getF_setF_same _ _ _ 1 (by decide))
    · refine (getF_eq_of_reg _ (halts.reg g)).trans (pinNamed_named _ g k k.isLt ?_)
      obtain ⟨chans, time, only⟩ := overload_only s.dev [8 * g.val + k.val]
      rw [only]
      exact hclear
    · refine smothered_procKick (raise_overload_smothered ((named.binding x).trans hb) (List.mem_singleton_self _) hholds ?_)
      rwa [named.site]
    · obtain ⟨chan, regs⟩ := raise_overload_moves named hreact hidle
      exact ⟨fun c hc => chan c fun hm => hc (List.mem_singleton.mp hm), fun off ho => (procKick_reg _ off).trans (regs off ho)⟩
  · subst hch
    refine completes_act (exec_drvOvl g (some k) s) ?_
    have same : s.dev.drvOvl g (some k.val) = s.dev := if_pos hfloats
    rw [Option.map_some, same]
    exact procKick_idle s.dev
  · obtain ⟨k, hk, hon⟩ := hterm
    have named : Overloads g (terminated s.dev g) s.dev ((s.dev.overload (terminated s.dev g)).latch (R.HRT_GRT_STATUS g) F.HRT_GRT_STATUS_VTT_OVL) :=
      (overload_overloads _ _ _).setF _ 1
    have halts := raise_overload_halting ((s.dev.overload (terminated s.dev g)).latch (R.HRT_GRT_STATUS g) F.HRT_GRT_STATUS_VTT_OVL) g (terminated s.dev g)
    refine completes_act (exec_drvOvl g none s) ?_
    simp only [Option.map_none, drvOvl_buffer (List.ne_nil_of_mem (mem_terminated hk hon)), canon_bitOf, canon_chan, canon_getF, procKick_bitOf,
      procKick_chan, procKick_getF]
    refine ⟨raise_overload_bitOf _ _ _, ?_, fun k hk hon => ⟨?_, fun x b hb hholds hactive => ?_⟩⟩
    · exact (getF_eq_of_reg _ (halts.reg g)).trans (getF_setF_same _ _ _ 1 (by decide))
    · obtain ⟨floats, -⟩ := chan_halted (named.floats (mem_terminated hk hon)) halts
      exact floats
    · refine smothered_procKick (raise_overload_smothered ((named.binding x).trans hb) (mem_terminated hk hon) hholds ?_)
      rwa [named.site]
  · refine completes_act (exec_drvOvl g none s) ?_
    have same : s.dev.drvOvl g none = s.dev := if_pos (by
      rw [List.isEmpty_iff, List.filter_eq_nil_iff]
      rintro _ hmem
      obtain ⟨k, hk, rfl⟩ := List.mem_map.mp hmem
      simp [hnone k (List.mem_range.mp hk)])
    rw [Option.map_none, same]
    exact procKick_idle s.dev

end Sys2Proof.Proofs
end

section
/-! PROOFS. TIMING_LOAD and LEVELS_LOAD: what is checked, and what the shadow state takes (spec/03 R72, R81, spec/04 R114, R122, R123). -/

namespace Sys2Proof.Proofs

open Sys2Proof Sys2Proof.Machine

set_option Elab.async false

/-! ### Several keys of a sparse map stored -/

theorem mapFind_foldl_mapSet_notMem {α β : Type} (key : β → Nat) (val : β → α) (xs : List β) (m : List (Nat × α)) {j : Nat}
    (h : j ∉ xs.map key) : mapFind (xs.foldl (fun m x => mapSet m (key x) (val x)) m) j = mapFind m j := by
  induction xs generalizing m with
  | nil => rfl
  | cons x t ih =>
    obtain ⟨hx, ht⟩ := not_or.mp (mt List.mem_cons.mpr h)
    rw [List.foldl_cons, ih _ ht, mapFind_mapSet_other _ _ _ _ hx]

/-- Of values stored under keys that differ, each is found under its own. -/
theorem mapFind_foldl_mapSet_mem {α β : Type} (key : β → Nat) (val : β → α) (xs : List β) (m : List (Nat × α)) (hkeys : (xs.map key).Nodup)
    {x : β} (hx : x ∈ xs) : mapFind (xs.foldl (fun m x => mapSet m (key x) (val x)) m) (key x) = some (val x) := by
  induction xs generalizing m with
  | nil => cases hx
  | cons y t ih =>
    obtain ⟨hy, ht⟩ := List.nodup_cons.mp hkeys
    rw [List.foldl_cons]
    rcases List.mem_cons.mp hx with rfl | hmem
    · rw [mapFind_foldl_mapSet_notMem key val t _ hy, mapFind_mapSet_same]
    · exact ih _ ht hmem

/-- Keys that differ, each moved by `f`: every one holds `f` of what it held, any other key what it held. -/
theorem mapGet_foldl_mapMod {α : Type} (f : α → α) (d : α) (keys : List Nat) (m : List (Nat × α)) (hkeys : keys.Nodup) (j : Nat) :
    mapGet (keys.foldl (fun m k => mapMod m k d f) m) j d = if j ∈ keys then f (mapGet m j d) else mapGet m j d := by
  induction keys generalizing m with
  | nil => simp
  | cons k t ih =>
    obtain ⟨hk, ht⟩ := List.nodup_cons.mp hkeys
    rw [List.foldl_cons, ih _ ht, mapMod]
    by_cases hj : j = k
    · simp [hj, hk]
    · simp [hj, mapGet_mapSet_other _ _ _ _ _ hj]

theorem mask_nodup (q : Desc) (o n : Nat) : (q.mask o n).Nodup := List.nodup_range.filter _

/-! ### A load over a source that can be read (R358, R361, R425) -/

section
variable {d e : Dev} {n op : Nat} {remote : RemoteRead} {q : Desc}

/-- A load whose source can be read begins with the bytes of its area. -/
theorem withLoad_readable {k : Dev → Desc → List Byte → Dev} {a len al : Nat} {t : List (Nat × Nat × Nat)} (hnext : d.nextDesc n op = some q)
    (hareas : q.areas d.deviceNum = (a, len, al) :: t) (hread : Readable d n a len remote) :
    d.withLoad n op remote k = k (d.beginDesc n q) q (d.ownerRead n a len remote) := by
  obtain ⟨good, answered⟩ := ownerFails_of_readable hread
  simp only [Dev.withLoad, hnext, hareas, good, answered, Bool.false_eq_true, if_false]

/-- A descriptor that has begun, and completes while nothing else moves its ring, has ended. -/
theorem ended_complete (hring : e.ring n = (d.beginDesc n q).ring n) (status arg0 arg1 : Nat) :
    Ended n q status arg0 arg1 d (e.complete n q status arg0 arg1) := by
  have ring := complete_ring e n q status arg0 arg1
  rw [hring, beginDesc_ring] at ring
  exact ⟨congrArg RingSt.held ring, congrArg RingSt.waiting ring, congrArg RingSt.current ring⟩

end

/-! ### TIMING_LOAD (R114) -/

/-- A refusal latched in HRT_TIM_REFUSE of every hearth of a list (R123, R128). -/
def latchTiming (hs : List Nat) (f : TimFail) (d : Dev) : Dev :=
  hs.foldl (fun (d : Dev) h => d.setReg (R.HRT_TIM_REFUSE h) (timRefuseWord f)) d

theorem latchTiming_latched (hs : List Nat) (f : TimFail) (d : Dev) : Latched d (latchTiming hs f d) :=
  .foldl hs d fun d h => .timRefuse d h _

/-- A register that holds the refusal goes on to hold it. -/
theorem latchTiming_keeps {hs : List Nat} {f : TimFail} {d : Dev} {off : Nat} (h : d.reg off = timRefuseWord f) :
    (latchTiming hs f d).reg off = timRefuseWord f := by
  refine List.foldlRecOn hs _ (motive := fun e : Dev => e.reg off = timRefuseWord f) h fun e he g _ => ?_
  by_cases hg : off = R.HRT_TIM_REFUSE g
  · rw [hg, reg_setReg_same]
  · rw [reg_setReg_other _ _ _ _ hg, he]

theorem latchTiming_mem {hs : List Nat} (f : TimFail) (d : Dev) {g : Nat} (hg : g ∈ hs) :
    (latchTiming hs f d).reg (R.HRT_TIM_REFUSE g) = timRefuseWord f := by
  obtain ⟨before, after, rfl⟩ := List.append_of_mem hg
  rw [latchTiming, List.foldl_append, List.foldl_cons]
  exact latchTiming_keeps (reg_setReg_same _ _ _)

/-- The set images that a timing load brings (R114, R115). -/
def timImages (d : Dev) (n : Nat) (q : Desc) (remote : RemoteRead) : List TimSet :=
  (List.range (q.get 24 2)).map fun i =>
    parseTimSet (slice (d.ownerRead n (q.get 16 8) (2064 * q.get 24 2) remote) (timImageSize * i) timImageSize)

/-- The timing sets of the shadow state once the hearths named have taken the images (R114). -/
def shadowTiming (d : Dev) (hs : List Nat) (imgs : List TimSet) : List (Nat × List (Nat × TimSet)) :=
  hs.foldl (fun m h => mapMod m h [] fun sets => applyTimImages sets imgs) d.seq.shadow.timing

theorem timing_areas {q : Desc} (h : q.opcode = opTimingLoad) (deviceNum : Nat) :
    q.areas deviceNum = [(q.get 16 8, 2064 * q.get 24 2, 1)] := by
  simp [Desc.areas, h, opTimingLoad]

theorem beginDesc_timingFail (d : Dev) (n : Nat) (q : Desc) (hs : List Nat) (imgs : List TimSet) :
    (d.beginDesc n q).timingFail hs imgs = d.timingFail hs imgs := by
  rw [beginDesc_only]
  rfl

section
variable {d : Dev} {n : Nat} {remote : RemoteRead} {q : Desc} (hnext : d.nextDesc n opTimingLoad = some q)
  (hfree : (q.mask 26 2).any d.commitPending = false) (hread : Readable d n (q.get 16 8) (2064 * q.get 24 2) remote)
include hnext hfree hread

theorem timingLoad_refused {h : Nat} {f : TimFail} (hfail : d.timingFail (q.mask 26 2) (timImages d n q remote) = some (h, f)) :
    d.timingLoad n remote =
      (latchTiming (q.mask 26 2) f (d.beginDesc n q)).complete n q stRefused (refuseArg f.check h 0xFFFF f.setA) := by
  obtain ⟨-, -, opcode⟩ := nextDesc_some hnext
  rw [timImages] at hfail
  simp only [Dev.timingLoad, hnext, hfree, Bool.false_eq_true, if_false, withLoad_readable hnext (timing_areas opcode _) hread,
    beginDesc_timingFail, hfail, latchTiming]

theorem timingLoad_accepted (hpass : d.timingFail (q.mask 26 2) (timImages d n q remote) = none) :
    d.timingLoad n remote = ({ d.beginDesc n q with seq := { d.seq with shadow := { d.seq.shadow with
      timing := shadowTiming d (q.mask 26 2) (timImages d n q remote) } } }).complete n q stOk := by
  obtain ⟨-, -, opcode⟩ := nextDesc_some hnext
  rw [timImages] at hpass
  simp only [Dev.timingLoad, hnext, hfree, Bool.false_eq_true, if_false, withLoad_readable hnext (timing_areas opcode _) hread,
    beginDesc_timingFail, hpass, beginDesc_seq, shadowTiming, timImages, mapMod]

end

/-! ### LEVELS_LOAD (R72, R81) -/

/-- The first failing check of a level load (R72): grates ascending, each in the order of its checks. -/
def levelsFail (d : Dev) (q : Desc) (bs : List Byte) : Option LevelFail :=
  (q.mask 24 16).zipIdx.findSome? fun x => levelChecks d.absent bs x.1 (64 * x.2)

/-- The level sets of the shadow state once the grates named have taken their entries (R81). -/
def shadowLevels (d : Dev) (q : Desc) (bs : List Byte) : List (Nat × LevelEntry) :=
  (q.mask 24 16).zipIdx.foldl (fun m x => mapSet m x.1 (parseLevel d.absent bs x.1 (64 * x.2))) d.seq.shadow.levels

theorem levels_areas {q : Desc} (h : q.opcode = opLevelsLoad) (deviceNum : Nat) :
    q.areas deviceNum = [(q.get 16 8, 64 * (q.mask 24 16).length, 1)] := by
  simp [Desc.areas, h, opLevelsLoad]

theorem beginDesc_absent (d : Dev) (n : Nat) (q : Desc) : (d.beginDesc n q).absent = d.absent := by
  rw [beginDesc_only]
  rfl

theorem shadowLevels_mem (d : Dev) (q : Desc) (bs : List Byte) {g i : Nat} (h : (g, i) ∈ (q.mask 24 16).zipIdx) :
    mapFind (shadowLevels d q bs) g = some (parseLevel d.absent bs g (64 * i)) :=
  mapFind_foldl_mapSet_mem (fun x : Nat × Nat => x.1) (fun x => parseLevel d.absent bs x.1 (64 * x.2)) _ _
    (by rw [List.zipIdx_map_fst]; exact mask_nodup q 24 16) h

theorem shadowLevels_notMem (d : Dev) (q : Desc) (bs : List Byte) {g : Nat} (h : g ∉ q.mask 24 16) :
    mapFind (shadowLevels d q bs) g = mapFind d.seq.shadow.levels g :=
  mapFind_foldl_mapSet_notMem (fun x : Nat × Nat => x.1) (fun x => parseLevel d.absent bs x.1 (64 * x.2)) _ _
    (by rwa [List.zipIdx_map_fst])

section
variable {d : Dev} {n : Nat} {remote : RemoteRead} {q : Desc} (hnext : d.nextDesc n opLevelsLoad = some q)
  (hread : Readable d n (q.get 16 8) (64 * (q.mask 24 16).length) remote) {bs : List Byte}
  (hbs : bs = d.ownerRead n (q.get 16 8) (64 * (q.mask 24 16).length) remote)
include hnext hread hbs

theorem levelsLoad_refused {f : LevelFail} (hfail : levelsFail d q bs = some f) :
    d.levelsLoad n remote = (d.beginDesc n q).complete n q stRefused (refuseArg f.check (f.grate / 8) 0xFFFF f.grate) f.off := by
  obtain ⟨-, -, opcode⟩ := nextDesc_some hnext
  rw [levelsFail] at hfail
  simp only [Dev.levelsLoad, withLoad_readable hnext (levels_areas opcode _) hread, beginDesc_absent, ← hbs, hfail]

theorem levelsLoad_accepted (hpass : levelsFail d q bs = none) :
    d.levelsLoad n remote = ({ d.beginDesc n q with seq := { d.seq with shadow := { d.seq.shadow with
      levels := shadowLevels d q bs } } }).complete n q stOk := by
  obtain ⟨-, -, opcode⟩ := nextDesc_some hnext
  rw [levelsFail] at hpass
  simp only [Dev.levelsLoad, withLoad_readable hnext (levels_areas opcode _) hread, beginDesc_absent, beginDesc_seq, ← hbs, hpass, shadowLevels]

end

/-! ### The obligation -/

/-- Settles O23: a refused load latches HRT_TIM_REFUSE of the named hearths or nothing, an accepted one stores in the shadow state alone. That a refused
timing load reports the lowest failing hearth and 0 in ARG1, and latches its failure for every named hearth, is the model's choice (log entries 30
and 113). -/
theorem timingAndLevelLoads : Obligations.TimingAndLevelLoads := by
  unfold Obligations.TimingAndLevelLoads
  refine fun s n remote q => ⟨fun hnext hfree hread imgs himgs => ?_, fun hnext hread bs hbs => ?_⟩
  · obtain rfl : imgs = timImages s.dev n q remote := himgs
    refine ⟨fun hpass => completes_act (f := fun d => d.timingLoad n remote) rfl ?_,
      fun h f hfail => completes_act (f := fun d => d.timingLoad n remote) rfl ?_⟩
    · rw [timingLoad_accepted hnext hfree hread hpass]
      have taken := fun h => mapGet_foldl_mapMod (fun sets => applyTimImages sets (timImages s.dev n q remote)) [] (q.mask 26 2)
        s.dev.seq.shadow.timing (mask_nodup q 26 2) h
      exact ⟨ended_complete rfl stOk 0 0, rfl, fun h hh => (taken h).trans (if_pos hh), fun h hh => (taken h).trans (if_neg hh),
        beginDesc_regs s.dev n q false⟩
    · rw [timingLoad_refused hnext hfree hread hfail]
      have latched := (latchTiming_latched (q.mask 26 2) f (s.dev.beginDesc n q)).only
      refine ⟨ended_complete ?_ stRefused _ 0, ?_, fun g hg => latchTiming_mem f _ hg⟩
      · rw [latched]
        rfl
      · exact (congrArg Dev.seq latched).trans (beginDesc_seq s.dev n q false)
  · refine ⟨fun hpass => completes_act (f := fun d => d.levelsLoad n remote) rfl ?_,
      fun f hfail => completes_act (f := fun d => d.levelsLoad n remote) rfl ?_⟩
    · rw [levelsLoad_accepted hnext hread hbs hpass]
      exact ⟨ended_complete rfl stOk 0 0, rfl, fun g i hg => shadowLevels_mem s.dev q bs hg, fun g hg => shadowLevels_notMem s.dev q bs hg,
        beginDesc_regs s.dev n q false⟩
    · rw [levelsLoad_refused hnext hread hbs hfail]
      exact ⟨ended_complete rfl stRefused _ f.off, beginDesc_seq s.dev n q false⟩

end Sys2Proof.Proofs
end

section
/-! PROOFS. IMAGE_LOAD and IMAGE_UNLOAD: where an image is stored, and the number that it is given (spec/05 R165, R166, R168, spec/07 R205, R207). -/

namespace Sys2Proof.Proofs

open Sys2Proof Sys2Proof.Machine

set_option Elab.async false

/-! ### Numbers of images (R165) -/

theorem mapFind_eq_none_of_notMem {α : Type} {m : List (Nat × α)} {i : Nat} (h : i ∉ mapKeys m) : mapFind m i = none := by
  induction m with
  | nil => rfl
  | cons c t ih =>
    obtain ⟨hne, ht⟩ := not_or.mp (mt List.mem_cons.mpr h)
    rw [mapFind, if_neg (Ne.symm hne), ih ht]

/-- Successive numbers modulo `n` from a free one, no more than `n` of them, differ. -/
theorem nodup_successive {f n k : Nat} (h : k ≤ n) : ((List.range k).map (fun i => (f + i) % n)).Nodup := by
  refine List.Nodup.map_on (fun i hi j hj hij => ?_) List.nodup_range
  exact Nat.ModEq.eq_of_lt_of_lt (Nat.ModEq.add_left_cancel' f hij) ((List.mem_range.mp hi).trans_le h) ((List.mem_range.mp hj).trans_le h)

/-- The numbers tried for a new image, in turn: one more than there are images (R165, log entry 8). -/
def numbersTried (d : Dev) : List Nat := (List.range ((mapKeys d.seq.images).length + 1)).map fun k => (d.drawNat.1 + k) % 65535

/-- While fewer than 65,535 images are loaded, they cannot have all the numbers that are tried. -/
theorem exists_unused_numbersTried {d : Dev} (hroom : d.seq.images.length < 65535) : ∃ num ∈ numbersTried d, num ∉ mapKeys d.seq.images := by
  by_contra hused
  push Not at hused
  have tried : (numbersTried d).Nodup := nodup_successive (by simpa [mapKeys] using hroom)
  have few := (List.subperm_of_subset tried hused).length_le
  simp [numbersTried] at few

/-- The number drawn is then below 0xFFFF, and no image has it. -/
theorem newImageNumber_unused {d : Dev} (hroom : d.seq.images.length < 65535) :
    d.newImageNumber.1 < 65535 ∧ d.image d.newImageNumber.1 = none := by
  obtain ⟨free, htried, hfree⟩ := exists_unused_numbersTried hroom
  obtain ⟨num, hnum⟩ : ∃ num, (numbersTried d).find? (fun n => !(mapKeys d.seq.images).contains n) = some num :=
    Option.isSome_iff_exists.mp (List.find?_isSome.mpr ⟨free, htried, by simpa using hfree⟩)
  have drawn : d.newImageNumber.1 = num := congrArg (Option.getD · 0) hnum
  have unused : num ∉ mapKeys d.seq.images := by simpa using List.find?_some hnum
  obtain ⟨k, -, hk⟩ := List.mem_map.mp (List.mem_of_find?_eq_some hnum)
  rw [drawn]
  exact ⟨hk ▸ Nat.mod_lt _ (by decide), mapFind_eq_none_of_notMem unused⟩

/-- Drawing a number moves the counter of free values only. -/
theorem newImageNumber_keeps (d : Dev) : d.newImageNumber.2.seq = d.seq ∧ d.newImageNumber.2.mem = d.mem ∧ d.newImageNumber.2.regs = d.regs ∧
    d.newImageNumber.2.rings = d.rings := ⟨rfl, rfl, rfl, rfl⟩

/-! ### IMAGE_LOAD (R165, R166, R205) -/

@[simp] theorem length_slice (bs : List Byte) (off n : Nat) : (slice bs off n).length = n := by
  simp [slice]

theorem image_areas {q : Desc} (h : q.opcode = opImageLoad) (deviceNum : Nat) : q.areas deviceNum = [(q.get 16 8, q.get 24 8, 1)] := by
  simp [Desc.areas, h, opImageLoad]

theorem beginDesc_mem (d : Dev) (n : Nat) (q : Desc) : (d.beginDesc n q).mem = d.mem := by
  rw [beginDesc_only]

theorem beginDesc_placeImage (d : Dev) (n : Nat) (q : Desc) (len : Nat) : (d.beginDesc n q).placeImage len = d.placeImage len := by
  rw [beginDesc_only]
  rfl

/-- An image as it is stored (R205). -/
def imagePlaced (z : ZImage) (base : Nat) : Image := { z := z, base := base, pinned := z.pinned, loops := z.loops, poisoned := [] }

/-- The device in which an image stands at its place, under its number (R205). -/
def imageStored (d : Dev) (num base : Nat) (z : ZImage) (bs : List Byte) : Dev :=
  { d.write base (slice bs 0 z.bytes) with seq := { d.seq with images := mapSet d.seq.images num (imagePlaced z base) } }

section
variable {d : Dev} {n : Nat} {remote : RemoteRead} {q : Desc} (hnext : d.nextDesc n opImageLoad = some q)
  (hread : Readable d n (q.get 16 8) (q.get 24 8) remote)
include hnext hread

/-! The checks of R166 and the searches for a place and for a number are long computations: each proof puts variables in their stead before it reduces. -/

theorem imageLoad_refused {f : LoadFail} (hfail : loadImage (d.ownerRead n (q.get 16 8) (q.get 24 8) remote) (q.get 24 8) = .inl f) :
    d.imageLoad n remote = (d.beginDesc n q).complete n q stRefused (refuseArg f.check 0xFF 0xFFFF f.index) f.arg1 := by
  obtain ⟨-, -, opcode⟩ := nextDesc_some hnext
  obtain ⟨check, hcheck⟩ := exists_eq' (a' := loadImage)
  rw [hcheck] at hfail
  rw [Dev.imageLoad, withLoad_readable hnext (image_areas opcode _) hread, hcheck]
  simp only [hfail]

variable {z : ZImage} (hpass : loadImage (d.ownerRead n (q.get 16 8) (q.get 24 8) remote) (q.get 24 8) = .inr z)
include hpass

/-- An image for which there is no room is refused with STORE_FULL: judged after the content, as the model chooses (log entry 98). -/
theorem imageLoad_full (hplace : d.placeImage z.bytes = none) :
    d.imageLoad n remote = (d.beginDesc n q).complete n q stRefused (refuseArg 0x50) := by
  obtain ⟨-, -, opcode⟩ := nextDesc_some hnext
  obtain ⟨check, hcheck⟩ := exists_eq' (a' := loadImage)
  obtain ⟨place, hsearch⟩ := exists_eq' (a' := Dev.placeImage)
  obtain ⟨number, hnumber⟩ := exists_eq' (a' := Dev.newImageNumber)
  rw [hcheck] at hpass
  rw [← beginDesc_placeImage d n q, hsearch] at hplace
  rw [Dev.imageLoad, withLoad_readable hnext (image_areas opcode _) hread, hcheck, hsearch, hnumber]
  simp only [hpass, hplace]

theorem imageLoad_stored {base : Nat} (hplace : d.placeImage z.bytes = some base) :
    d.imageLoad n remote = (imageStored (d.beginDesc n q).newImageNumber.2 (d.beginDesc n q).newImageNumber.1 base z
      (d.ownerRead n (q.get 16 8) (q.get 24 8) remote)).complete n q stOk (d.beginDesc n q).newImageNumber.1 base := by
  obtain ⟨-, -, opcode⟩ := nextDesc_some hnext
  obtain ⟨check, hcheck⟩ := exists_eq' (a' := loadImage)
  obtain ⟨place, hsearch⟩ := exists_eq' (a' := Dev.placeImage)
  obtain ⟨number, hnumber⟩ := exists_eq' (a' := Dev.newImageNumber)
  rw [hcheck] at hpass
  rw [← beginDesc_placeImage d n q, hsearch] at hplace
  rw [Dev.imageLoad, withLoad_readable hnext (image_areas opcode _) hread, hcheck, hsearch, hnumber]
  simp only [hpass, hplace]
  rfl

end

/-- What is stored holds the image at its place and under its number; every other image, and every other byte, is as it was. -/
theorem stored_image (d : Dev) (num base : Nat) (z : ZImage) (bs : List Byte) :
    (imageStored d num base z bs).image num = some (imagePlaced z base) ∧
    (∀ m, m ≠ num → (imageStored d num base z bs).image m = d.image m) ∧
    (imageStored d num base z bs).read base z.bytes = slice bs 0 z.bytes ∧
    (∀ a, a < base ∨ base + z.bytes ≤ a → memByte (imageStored d num base z bs).mem a = memByte d.mem a) := by
  refine ⟨mapFind_mapSet_same _ _ _, fun m hm => mapFind_mapSet_other _ _ _ _ hm, ?_, fun a ha => ?_⟩
  · have written := read_write_same d base (slice bs 0 z.bytes)
    rwa [length_slice] at written
  · exact memByte_memWrite_other _ _ _ _ (by rwa [length_slice])

/-! ### IMAGE_UNLOAD (R168, R207) -/

theorem beginDesc_image (d : Dev) (n : Nat) (q : Desc) (num : Nat) : (d.beginDesc n q).image num = d.image num := by
  rw [Dev.image, beginDesc_seq, Dev.image]

theorem beginDesc_imageSites (d : Dev) (n : Nat) (q : Desc) (num : Nat) : (d.beginDesc n q).imageSites num = d.imageSites num := by
  rw [Dev.imageSites, beginDesc_seq, Dev.imageSites]

section
variable {d : Dev} {n : Nat} {q : Desc} (hnext : d.nextDesc n opImageUnload = some q)
  (hfree : d.seq.commits.any (fun c => c.setUp.binds.any (fun b => b.2.image == q.get 16 2)) = false)
include hnext hfree

theorem imageUnload_unknown (hnone : d.image (q.get 16 2) = none) :
    d.imageUnload n = (d.beginDesc n q).complete n q stRefused (refuseArg 0x80 0xFF 0xFFFF (q.get 16 2)) := by
  simp only [Dev.imageUnload, hnext, hfree, beginDesc_image, hnone, Bool.false_eq_true, if_false, Option.isNone_none, if_true]

variable (hloaded : d.image (q.get 16 2) ≠ none)
include hloaded

theorem imageUnload_bound {x : Nat} (hbound : listMin? (d.imageSites (q.get 16 2)) = some x) :
    d.imageUnload n = (d.beginDesc n q).complete n q stConflict (claimant 6 (q.get 16 2)) (claimant 1 x x) := by
  simp only [Dev.imageUnload, hnext, hfree, beginDesc_image, Option.isNone_iff_eq_none, hloaded, beginDesc_imageSites, hbound,
    Bool.false_eq_true, if_false]

theorem imageUnload_unbound (hunbound : listMin? (d.imageSites (q.get 16 2)) = none) :
    d.imageUnload n =
      ({ d.beginDesc n q with seq := { d.seq with images := mapErase d.seq.images (q.get 16 2) } }).complete n q stOk := by
  simp only [Dev.imageUnload, hnext, hfree, beginDesc_image, Option.isNone_iff_eq_none, hloaded, beginDesc_imageSites, hunbound, beginDesc_seq,
    Bool.false_eq_true, if_false]

end

/-! ### The obligation -/

/-- Settles O22: a load is a completion of the device that its descriptor leaves, refused, or with `imageStored` before it. That an image that finds no room
is refused after the checks of its content is the model's choice (log entry 98), as are the number that it is given (entry 8) and the refusal of
an unknown number (entry 57). -/
theorem imageLoads : Obligations.ImageLoads := by
  unfold Obligations.ImageLoads
  refine ⟨fun s n remote q hnext hread => ?_, fun s n q hnext hfree => ?_⟩
  · have kept := beginDesc_mem s.dev n q
    refine ⟨fun f hfail => ?_, fun z hpass hplace => ?_, fun z base hinv hroom hpass hplace => ?_⟩
    · refine completes_act (f := fun d => d.imageLoad n remote) rfl ?_
      rw [imageLoad_refused hnext hread hfail]
      exact ⟨ended_complete rfl stRefused _ f.arg1, beginDesc_seq s.dev n q false, congrArg memCanon kept⟩
    · refine completes_act (f := fun d => d.imageLoad n remote) rfl ?_
      rw [imageLoad_full hnext hread hpass hplace]
      exact ⟨ended_complete rfl stRefused _ 0, beginDesc_seq s.dev n q false⟩
    · refine completes_act (f := fun d => d.imageLoad n remote) rfl ?_
      rw [imageLoad_stored hnext hread hpass hplace]
      obtain ⟨below, unused⟩ := newImageNumber_unused (d := s.dev.beginDesc n q) (by rwa [beginDesc_seq])
      obtain ⟨seq, mem, regs, rings⟩ := newImageNumber_keeps (s.dev.beginDesc n q)
      generalize (s.dev.beginDesc n q).newImageNumber = drawn at *
      obtain ⟨num, e⟩ := drawn
      obtain ⟨image, other, read, byte⟩ := stored_image e num base z (s.dev.ownerRead n (q.get 16 8) (q.get 24 8) remote)
      have same : ∀ m, e.image m = s.dev.image m := fun m => by rw [Dev.image, seq, beginDesc_seq, Dev.image]
      have ring : e.ring n = (s.dev.beginDesc n q).ring n := by rw [Dev.ring, rings, Dev.ring]
      rw [canon_of_wf]
      · exact ⟨num, below, (beginDesc_image s.dev n q num).symm.trans unused, ⟨_, image, rfl, rfl⟩, fun m hm => (other m hm).trans (same m),
          ended_complete ring stOk num base, read, fun a ha => (byte a ha).trans (by rw [mem, kept]), regs.trans (beginDesc_regs s.dev n q false)⟩
      · exact write_wf e _ _ (by rwa [mem, kept])
  · have kept := beginDesc_mem s.dev n q
    refine ⟨fun hnone => ?_, fun x hloaded hbound => ?_, fun hinv hloaded hunbound => ?_⟩
    · refine completes_act (f := fun d => d.imageUnload n) rfl ?_
      rw [imageUnload_unknown hnext hfree hnone]
      exact ⟨⟨_, _, ended_complete rfl stRefused _ 0⟩, beginDesc_seq s.dev n q false⟩
    · refine completes_act (f := fun d => d.imageUnload n) rfl ?_
      rw [imageUnload_bound hnext hfree hloaded hbound]
      exact ⟨ended_complete rfl stConflict _ _, beginDesc_seq s.dev n q false⟩
    · refine completes_act (f := fun d => d.imageUnload n) rfl ?_
      rw [imageUnload_unbound hnext hfree hloaded hunbound, canon_of_wf]
      · exact ⟨ended_complete rfl stOk 0 0, mapFind_mapErase_same _ _, fun m hm => mapFind_mapErase_other _ _ hm, kept, beginDesc_regs s.dev n q false⟩
      · exact kept ▸ hinv

end Sys2Proof.Proofs
end

section
/-! PROOFS. What capture units and the end of a run leave of the place at which a site stands in its image (spec/05 R145, spec/06 R193-R202,
spec/08 R233-R252). -/

namespace Sys2Proof.Proofs

open Sys2Proof Sys2Proof.Machine

set_option Elab.async false

/-- The run of a site that waits for nothing is as it was, and so is the mark of a late jump taken. -/
def KeepsRun (x : Nat) (d e : Dev) : Prop :=
  (d.site x).run.wait = none → (e.site x).run = (d.site x).run ∧ (e.site x).lateJump = (d.site x).lateJump

/-- The device in which the end of a run has dealt with what the run waits for and with what its last vector leaves to come (R123, R190). -/
def lastMoment (d : Dev) (s : Nat) (cause : EndCause) (reason : Nat) : Dev :=
  if (d.site s).st = .running then (d.endWait s 1).lastEvents s (cause == .douse || (cause == .smother && smotherAtOnce reason)) else d.endWait s 1

namespace KeepsRun

variable {x : Nat}

theorem refl (d : Dev) : KeepsRun x d d := fun _ => ⟨rfl, rfl⟩

theorem trans {d e f : Dev} (h : KeepsRun x d e) (g : KeepsRun x e f) : KeepsRun x d f := fun hwait => by
  obtain ⟨run, late⟩ := h hwait
  obtain ⟨run', late'⟩ := g (by rwa [run])
  exact ⟨run'.trans run, late'.trans late⟩

theorem foldl {α : Type} {f : Dev → α → Dev} (xs : List α) (d : Dev) (h : ∀ d y, KeepsRun x d (f d y)) : KeepsRun x d (xs.foldl f d) :=
  List.foldlRecOn xs f (motive := KeepsRun x d) (refl d) fun e he y _ => he.trans (h e y)

theorem ite {c : Prop} [Decidable c] {d a b : Dev} (ha : KeepsRun x d a) (hb : KeepsRun x d b) : KeepsRun x d (if c then a else b) := by
  split <;> assumption

theorem of_site {d e : Dev} (h : e.site x = d.site x) : KeepsRun x d e := fun _ => by rw [h]; exact ⟨rfl, rfl⟩

/-- What leaves the sites alone. -/
theorem of_sites {d e : Dev} (h : e.seq.sites = d.seq.sites := by rfl) : KeepsRun x d e := of_site (by rw [Dev.site, h, Dev.site])

theorem of_sends {d e : Dev} (h : Sends d e) : KeepsRun x d e := of_sites (by rw [h.seq])

theorem of_setUp {d e : Dev} (h : SetUpKept d e) : KeepsRun x d e := of_sites h.2.2

/-- Another site moves, or the run of this one does not. -/
theorem modSite (d : Dev) (s : Nat) (f : Site → Site)
    (hf : ∀ y, y.run.wait = none → (f y).run = y.run ∧ (f y).lateJump = y.lateJump := by exact fun _ _ => ⟨rfl, rfl⟩) :
    KeepsRun x d (d.modSite s f) := fun hwait => by
  by_cases h : x = s
  · subst h
    rw [site_modSite_same]
    exact hf _ hwait
  · rw [site_modSite_other _ _ h]
    exact ⟨rfl, rfl⟩

theorem modSite_other (d : Dev) {s : Nat} (f : Site → Site) (h : x ≠ s) : KeepsRun x d (d.modSite s f) := of_site (site_modSite_other d f h)

/-! ### Capture units -/

variable (d : Dev) (s : Nat)

theorem modCap (f : CapRun → CapRun) : KeepsRun x d (d.modCap s f) := modSite d s _

theorem write (a : Nat) (bs : List Byte) : KeepsRun x d (d.write a bs) := of_sites

variable (p : CapPlan)

theorem capPut (r : List Byte) : KeepsRun x d (d.capPut s p r) := by
  unfold Dev.capPut
  exact (write d _ _).trans (modCap _ s _)

theorem capStop (vc cause : Nat) : KeepsRun x d (d.capStop s p vc cause) := ite ((modCap d s _).trans (capPut _ s p _)) (modCap d s _)

theorem capResult (i : WinInst) : KeepsRun x d (d.capResult s p i) := ite (modCap d s _) ((write d _ _).trans (modCap _ s _))

theorem fineRef (n : Nat) (stamp : Option (Nat × Nat)) (place : Nat) : KeepsRun x d (d.fineRef n stamp place) := by
  cases stamp <;> exact of_sites

theorem capTry (vc : Nat) (r : List Byte) : KeepsRun x d (d.capTry s p vc r).2 := by
  unfold Dev.capTry
  dsimp only
  split
  · exact refl d
  split
  · exact capStop d s p vc 1
  split
  · exact refl d
  · exact capPut d s p r

variable {d s p} in
/-- An offered record, whatever became of it. -/
theorem of_capTry {e : Dev} {vc : Nat} {r : List Byte} {t : CapTry} (h : d.capTry s p vc r = (t, e)) : KeepsRun x d e := by
  have tried := capTry (x := x) d s p vc r
  rwa [h] at tried

theorem capSample (v : VecRec) (mode : Nat) (y : Samp) : KeepsRun x d (d.capSample s p v mode y) := by
  unfold Dev.capSample
  dsimp only
  split
  · exact refl d
  refine (modCap d s _).trans (ite ?_ (ite (modCap _ s _) (refl _)))
  split
  · next h => exact (of_capTry h).trans ((fineRef _ _ _ _).trans (modCap _ s _))
  · next h => exact (of_capTry h).trans (ite (modCap _ s _) (refl _))
  · next h => exact (of_capTry h).trans ((modCap _ s _).trans (ite (capStop _ s p _ 0) (refl _)))

theorem capWindows (v : VecRec) : KeepsRun x d (d.capWindows s p v) := (modCap d s _).trans (foldl _ _ fun d i => capResult d s p i)

theorem capDamper (v : VecRec) : KeepsRun x d (d.capDamper s p v) := by
  unfold Dev.capDamper
  dsimp only
  refine ite ?_ (refl d)
  split
  · next h => exact (modCap d s _).trans ((of_capTry h).trans (modCap _ s _))
  · next h => exact (modCap d s _).trans ((of_capTry h).trans (modCap _ s _))
  · next h => exact (modCap d s _).trans (of_capTry h)

theorem capLate (v : VecRec) : KeepsRun x d (d.capLate s p v) := by
  unfold Dev.capLate
  split
  · exact refl d
  split
  · next h => exact (of_capTry h).trans (modCap _ s _)
  · next h => exact of_capTry h

theorem capTake (v : VecRec) : KeepsRun x d (d.capTake s v) := by
  unfold Dev.capTake
  split
  · exact refl d
  next p _ =>
  dsimp only
  refine (KeepsRun.trans ?_ (capWindows _ s p v)).trans (modCap _ s _)
  refine (KeepsRun.trans ?_ (capLate _ s p v)).trans (ite (capStop _ s p _ 0) (refl _))
  exact (capDamper d s p v).trans (ite (foldl _ _ fun d y => ite (capSample d s p v _ y) (refl d)) (refl _))

theorem capDecide : KeepsRun x d (d.capDecide s) := by
  unfold Dev.capDecide
  split
  · exact refl d
  · exact modCap d s _

theorem capDrain (l : List CapItem) : KeepsRun x d (d.capDrain s l) := by
  induction l generalizing d with
  | nil => exact modCap d s _
  | cons y t ih =>
    cases y with
    | boundary => exact (capDecide d s).trans (ih _)
    | vec v p j => exact ite (modCap d s _) ((capTake d s v).trans (ih _))

theorem capBegin : KeepsRun x d (d.capBegin s) := by
  unfold Dev.capBegin
  dsimp only
  split
  · exact modSite d s _
  · exact (modSite d s _).trans (capPut _ s _ _)

theorem capFinish : KeepsRun x d (d.capFinish s) := by
  unfold Dev.capFinish
  dsimp only
  split
  · exact modCap d s _
  next p _ =>
  refine KeepsRun.trans ?_ (write _ _ _)
  refine (KeepsRun.trans ?_ (capPut _ s p _)).trans (capPut _ s p _)
  refine (KeepsRun.trans ?_ (modCap _ s _)).trans (foldl _ _ fun d i => capResult d s p i)
  split
  · exact (modCap d s _).trans (capStop _ s p _ 0)
  · exact modCap d s _

/-! ### Pins, synthesizers, TMU channels -/

theorem pinsSafe (chs : List Nat) : KeepsRun x d (d.pinsSafe chs) := by
  obtain ⟨time, only⟩ := pinsSafe_only d chs
  exact of_sites (by rw [only])

theorem ddsStop : KeepsRun x d (d.ddsStop s) := by
  have units : KeepsRun x d ((d.ddsClaims s).foldl (fun d c => match d.ddsList c with
      | some l => d.modDds c.unit (fun u => ({ u with connected := false }).load l 0 0 0)
      | none => d.modDds c.unit (fun u => { u with connected := false })) d) :=
    foldl _ d fun d c => by split <;> exact of_sites
  unfold Dev.ddsStop
  dsimp only
  split
  · exact units.trans of_sites
  · exact units

theorem tmuStop : KeepsRun x d (d.tmuStop s) :=
  ite (refl d) ((of_sites : KeepsRun x d d.tbNow).trans (foldl _ _ fun d c => (ite (refl d) (of_setUp (.tmuMark d _ 1))).trans of_sites))

/-! ### Groups and engines -/

theorem nameGroup (k : Nat) : KeepsRun x d (d.nameGroup k) := by
  unfold Dev.nameGroup
  split
  · exact refl d
  · exact foldl _ d fun d s => modSite d s _

/-- A cause changes only in a wait that there is. -/
theorem holdCause (k : Nat) : KeepsRun x d (d.holdCause k) := by
  unfold Dev.holdCause
  split
  · exact refl d
  split
  · exact refl d
  refine ite (foldl _ d fun d m => modSite d m _ fun y hwait => ⟨?_, rfl⟩) (refl d)
  dsimp only
  rw [hwait, Option.map_none, ← hwait]

theorem freeEngine (n : Nat) : KeepsRun x d (d.freeEngine n) := by
  unfold Dev.freeEngine
  split
  · exact of_sites
  dsimp only
  split
  · exact KeepsRun.trans of_sites (holdCause _ _)
  · exact of_sites

theorem leaveGroup : KeepsRun x d (d.leaveGroup s) := by
  unfold Dev.leaveGroup
  split
  · exact refl d
  dsimp only
  split
  · exact KeepsRun.trans of_sites (foldl _ _ fun d e => freeEngine d e)
  · exact (of_sites : KeepsRun x d (d.setGroup _ _)).trans (nameGroup _ _)

/-! ### Waits, rendezvous, reasons -/

theorem postReport (bytes : List Byte) : KeepsRun x d (d.postReport s bytes) := by
  unfold Dev.postReport
  dsimp only
  split
  · exact KeepsRun.trans of_sites (modSite _ s _)
  · exact of_sites

theorem endWait (endCode : Nat) : KeepsRun x d (d.endWait s endCode) := fun hwait => by
  unfold Dev.endWait
  dsimp only
  split
  · exact ⟨rfl, rfl⟩
  next w hw =>
  have other : x ≠ s := by
    rintro rfl
    exact absurd (hw.symm.trans hwait) (by simp)
  exact ((modSite_other d _ other).trans (postReport _ s _)) hwait

/-- A release reaches sites that wait (R199). -/
theorem takeRelease (r : Start) (id epoch : Nat) (fails : List Nat) : KeepsRun x d (d.takeRelease r id epoch fails) := fun hwait => by
  unfold Dev.takeRelease
  dsimp only
  have none_waits : ∀ s ∈ (d.participants r).filter (fun s => match d.rdvWait s with | some w => w.rdvId == id | none => false), x ≠ s := by
    rintro s hs rfl
    simp [Dev.rdvWait, hwait] at hs
  have each : ∀ (f : Dev → Nat → Dev) (e : Dev), (∀ e s, x ≠ s → (f e s).site x = e.site x) →
      KeepsRun x e (((d.participants r).filter (fun s => match d.rdvWait s with | some w => w.rdvId == id | none => false)).foldl f e) := fun f e hf =>
    List.foldlRecOn _ f (motive := KeepsRun x e) (refl e) fun e' he s hs => he.trans (of_site (hf e' s (none_waits s hs)))
  split
  · exact ((of_sites : KeepsRun x d _).trans (each (fun d s => d.rdvWithdraw s) _ fun e s h => site_modSite_other e _ h)) hwait
  · exact ((of_sites : KeepsRun x d _).trans (each (fun d s => d.rdvRelease s epoch fails) _ fun e s h => site_modSite_other e _ h)) hwait

theorem gather (r : Start) (rep : RdvReport) : KeepsRun x d (d.gather r rep) := by
  unfold Dev.gather
  dsimp only
  split
  · exact of_sites
  split
  · exact of_sites
  · refine KeepsRun.trans ?_ (takeRelease _ r _ _ _)
    exact ite ((of_sites : KeepsRun x d ((d.setMeet _).setMeet _)).trans (of_sends (.sendEvent _ _ _ _ _ _ _ _ _))) of_sites

theorem rdvCheck (id : Nat) : KeepsRun x d (d.rdvCheck id) := by
  have met : ∀ m, KeepsRun x d (d.setMeet m) := fun _ => of_sites
  unfold Dev.rdvCheck
  split
  · exact refl d
  · exact ite (refl d) (ite of_sites (ite ((met _).trans (gather _ _ _)) (ite ((met _).trans (of_sends (.sendPacket _ _))) ((met _).trans (gather _ _ _)))))

theorem sendFail : KeepsRun x d (d.sendFail s) := by
  unfold Dev.sendFail
  split
  · exact refl d
  · exact ite (refl d) (ite (foldl _ d fun d p => of_sends (.enqueue d p _)) (of_sends (.sendEvent d _ _ _ _ _ _ _ _)))

theorem addReason (reason : Nat) : KeepsRun x d (d.addReason s reason) := ite (refl d) ((modSite d s _).trans (ite (refl _) of_sites))

/-! ### The end of a run -/

/-- What follows in the end of a run that is in progress moves no run. -/
theorem endSite_lastMoment (cause : EndCause) (reason : Nat) (fromFail : Bool) (hactive : (d.site s).st = .starting ∨ (d.site s).st = .running) :
    KeepsRun x (lastMoment d s cause reason) (d.endSite s cause reason fromFail) := by
  unfold Dev.endSite
  rw [if_neg (not_and_or.mpr (hactive.imp not_not.mpr not_not.mpr))]
  dsimp only
  -- from the last operation back
  refine KeepsRun.trans ?_ (rdvCheck _ _)
  refine KeepsRun.trans ?_ (ite (sendFail _ _) (refl _))
  refine ((KeepsRun.trans ?_ (tmuStop _ _)).trans (capFinish _ _)).trans (leaveGroup _ _)
  refine (KeepsRun.trans ?_ (pinsSafe _ _)).trans (ddsStop _ _)
  refine (KeepsRun.trans ?_ (ite of_sites (refl _))).trans (ite of_sites (refl _))
  refine KeepsRun.trans ?_ (ite (refl _) (capBegin _ _))
  refine KeepsRun.trans ?_ (modSite _ s _)
  exact (ite (foldl _ _ fun d r => addReason d s r) (refl _)).trans (addReason _ s reason)

/-- Of the last vector's events drivers and the capture unit take notice; the run is another site's. -/
theorem lastEvents_other {s : Nat} (atOnce : Bool) (h : x ≠ s) : KeepsRun x d (d.lastEvents s atOnce) := by
  unfold Dev.lastEvents
  dsimp only
  refine (KeepsRun.trans ?_ (capDrain _ s _)).trans (modSite_other _ _ h)
  exact ite (modSite_other d _ h) (foldl _ d fun d y => of_setUp (.drive d _ _ _))

theorem lastMoment_other {s : Nat} (cause : EndCause) (reason : Nat) (h : x ≠ s) : KeepsRun x d (lastMoment d s cause reason) :=
  ite ((endWait d s 1).trans (lastEvents_other _ _ h)) (endWait d s 1)

/-- The end of another site's run. -/
theorem endSite_other {s : Nat} (cause : EndCause) (reason : Nat) (fromFail : Bool) (h : x ≠ s) : KeepsRun x d (d.endSite s cause reason fromFail) := by
  by_cases hactive : (d.site s).st = .starting ∨ (d.site s).st = .running
  · exact (lastMoment_other d cause reason h).trans (endSite_lastMoment d s cause reason fromFail hactive)
  · unfold Dev.endSite
    rw [if_pos (not_or.mp hactive)]
    exact refl d

end KeepsRun

end Sys2Proof.Proofs
end

section
/-! PROOFS. The boundary of a lockstep group as one of its members sees it: the other members' turns, its own, and what follows (spec/05 R147,
spec/06 R177-R180, R193, R194). -/

namespace Sys2Proof.Proofs

open Sys2Proof Sys2Proof.Machine

set_option Elab.async false

/-! ### After the member's own turn -/

/-- The site stands at the same place of its image, waiting for nothing, unless its run has ended; a run that has ended stays so. Of the run only the
driver events that are still to come may be gone. -/
structure Passed (x : Nat) (d e : Dev) : Prop where
  course : (d.site x).run.wait = none →
    (∃ spill, (e.site x).run = { (d.site x).run with spill := spill }) ∧ (e.site x).lateJump = (d.site x).lateJump
  ended : (d.site x).st = .stopping → (e.site x).st = .stopping ∧ (e.site x).endCause = (d.site x).endCause

namespace Passed

variable {x : Nat}

theorem refl (d : Dev) : Passed x d d := ⟨fun _ => ⟨⟨_, rfl⟩, rfl⟩, fun h => ⟨h, rfl⟩⟩

theorem trans {d e f : Dev} (h : Passed x d e) (g : Passed x e f) : Passed x d f := by
  refine ⟨fun hwait => ?_, fun hst => ?_⟩
  · obtain ⟨⟨spill, run⟩, late⟩ := h.course hwait
    obtain ⟨⟨spill', run'⟩, late'⟩ := g.course (by rwa [run])
    exact ⟨⟨spill', by rw [run', run]⟩, late'.trans late⟩
  · obtain ⟨st, cause⟩ := h.ended hst
    obtain ⟨st', cause'⟩ := g.ended st
    exact ⟨st', cause'.trans cause⟩

theorem foldl {α : Type} {f : Dev → α → Dev} (xs : List α) (d : Dev) (h : ∀ d y, Passed x d (f d y)) : Passed x d (xs.foldl f d) :=
  List.foldlRecOn xs f (motive := Passed x d) (refl d) fun e he y _ => he.trans (h e y)

theorem ite {c : Prop} [Decidable c] {d a b : Dev} (ha : Passed x d a) (hb : Passed x d b) : Passed x d (if c then a else b) := by
  split <;> assumption

/-- What moves neither the site's run nor its state. -/
theorem of_keeps {d e : Dev} (run : KeepsRun x d e) (same : SameRun (d.site x) (e.site x)) : Passed x d e :=
  ⟨fun hwait => ⟨⟨_, (run hwait).1⟩, (run hwait).2⟩, fun hst => ⟨same.st.trans hst, same.cause⟩⟩

/-- What leaves the sites alone. -/
theorem of_sites {d e : Dev} (h : e.seq.sites = d.seq.sites := by rfl) : Passed x d e := by
  have site : e.site x = d.site x := by rw [Dev.site, h, Dev.site]
  exact of_keeps (.of_site site) (site ▸ .refl _)

end Passed

/-- The end of another site's run leaves this one's. -/
theorem endSite_sameRun (d : Dev) {s x : Nat} (cause : EndCause) (reason : Nat) (fromFail : Bool) (h : x ≠ s) :
    SameRun (d.site x) ((d.endSite s cause reason fromFail).site x) := by
  by_cases hactive : (d.site s).st = .starting ∨ (d.site s).st = .running
  · exact (endSite_ends d s cause reason fromFail hactive).other x h
  · unfold Dev.endSite
    rw [if_pos (not_or.mp hactive)]
    exact .refl _

/-- The last events of a run that does not end at once: those still to come occur, and the run stands where it stood (R123). -/
theorem lastEvents_course (d : Dev) (x : Nat) (hwait : (d.site x).run.wait = none) :
    (∃ spill, ((d.lastEvents x false).site x).run = { (d.site x).run with spill := spill }) ∧
      ((d.lastEvents x false).site x).lateJump = (d.site x).lateJump := by
  have drives : KeepsRun x d ((d.site x).run.spill.foldl (fun (d : Dev) y => d.drive y.ch y.drv y.t) d) := .foldl _ d fun d y => .of_setUp (.drive d _ _ _)
  obtain ⟨run, late⟩ := (drives.trans (.capDrain _ x _)) hwait
  unfold Dev.lastEvents
  simp only [Bool.false_eq_true, if_false, site_modSite_same]
  exact ⟨⟨[], congrArg (fun r : SiteRun => { r with spill := [] }) run⟩, late⟩

/-- The end of a run, unless it comes at once for this very site, leaves the place at which the site stands. -/
theorem Passed.endSite {x : Nat} (d : Dev) (s : Nat) (cause : EndCause) (reason : Nat) (fromFail : Bool)
    (hlater : (cause == .douse || (cause == .smother && smotherAtOnce reason)) = false) : Passed x d (d.endSite s cause reason fromFail) := by
  by_cases hx : x = s
  · subst hx
    by_cases hactive : (d.site x).st = .starting ∨ (d.site x).st = .running
    · refine ⟨fun hwait => ?_, fun hst => by simp [hst] at hactive⟩
      have waits : d.endWait x 1 = d := by
        unfold Dev.endWait
        simp only [hwait]
      have moment : (∃ spill, ((lastMoment d x cause reason).site x).run = { (d.site x).run with spill := spill }) ∧
          ((lastMoment d x cause reason).site x).lateJump = (d.site x).lateJump := by
        unfold lastMoment
        rw [waits, hlater]
        split
        · exact lastEvents_course d x hwait
        · exact ⟨⟨_, rfl⟩, rfl⟩
      obtain ⟨⟨spill, run⟩, late⟩ := moment
      obtain ⟨run', late'⟩ := KeepsRun.endSite_lastMoment d x cause reason fromFail hactive (by rw [run]; exact hwait)
      exact ⟨⟨spill, run'.trans run⟩, late'.trans late⟩
    · unfold Dev.endSite
      rw [if_pos (not_or.mp hactive)]
      exact .refl d
  · exact .of_keeps (.endSite_other d cause reason fromFail hx) (endSite_sameRun d cause reason fromFail hx)

/-! ### Parting, and the judgement of what comes next (R177-R180, R216-R218) -/

theorem takeEngines_sites {d e : Dev} {k : Nat} {hs : List Nat} (h : d.takeEngines k hs = some e) : e.seq.sites = d.seq.sites := by
  induction hs generalizing d with
  | nil => exact Option.some.inj h ▸ rfl
  | cons n t ih =>
    cases hfree : d.freeEngineOf n with
    | none =>
      rw [takeEngines_cons_none t hfree] at h
      cases h
    | some m =>
      rw [takeEngines_cons_some t hfree] at h
      exact (ih (d := d.modEngine m _) h :)

namespace Passed

variable {x : Nat} (d : Dev)

theorem nameGroup (k : Nat) : Passed x d (d.nameGroup k) := of_keeps (.nameGroup d k) ((Leaves.nameGroup d k).site x)

theorem splitOff (g : Group) (z : ZImage) (ms : List Nat) (pc : Nat) : Passed x d (d.splitOff g z ms pc).1 := by
  unfold Dev.splitOff
  dsimp only
  split
  · next e h => exact ((of_sites (takeEngines_sites h) : Passed x d e).trans of_sites).trans (nameGroup (e.setGroup _ _) _)
  · exact (Passed.trans of_sites (nameGroup (d.setGroup _ _) _)).trans (foldl _ _ fun d h => of_sites)

theorem ringPass (k pc : Nat) (i : Image) (f : Flow) : Passed x d (d.ringPass k pc i f) := foldl _ d fun _ _ => of_sites

theorem part (k pc : Nat) (i : Image) : Passed x d (d.part k pc i).1 := by
  unfold Dev.part
  split
  · exact refl d
  next g _ =>
  dsimp only
  refine List.foldlRecOn _ _ (motive := fun acc : Dev × List Nat => Passed x d acc.1) ?_ fun acc hacc y _ => hacc.trans (splitOff _ _ _ _ _)
  exact (ite (refl d) (ringPass d k pc i _)).trans (Passed.trans of_sites (nameGroup _ k))

/-- Smothered for a reason that acts at the boundary, a group's members stand where they stood. -/
theorem endMembers (g : Group) (reason : Nat) (h : smotherAtOnce reason = false) :
    Passed x d (g.members.foldl (fun d m => d.endSite m .smother reason) d) := foldl _ d fun d m => endSite d m .smother reason false (by simpa using h)

theorem guardCheck (k : Nat) (g : Group) (i : Image) (ms : List (Nat × Nat)) : Passed x d (d.guardCheck k g i ms) := by
  unfold Dev.guardCheck
  exact ite (refl d) (ite (endMembers d g 4 rfl) (ite (refl d) (Passed.trans of_sites (foldl _ _ fun _ _ => of_sites))))

theorem judgeNext (k : Nat) : Passed x d (d.judgeNext k) := by
  unfold Dev.judgeNext
  split
  · exact refl d
  next g _ =>
  split
  · exact refl d
  dsimp only
  have low : ∀ ms, Passed x d (d.lowTake ms) := fun ms => foldl _ d fun _ _ => of_sites
  refine ite ((low _).trans (endMembers _ g 4 rfl)) (ite ?_ (ite ((low _).trans (endMembers _ g 8 rfl)) ((low _).trans (guardCheck _ k g _ _))))
  exact ((low _).trans (endMembers _ g 4 rfl)).trans (foldl _ _ fun _ _ => of_sites)

end Passed

/-! ### One member's turn (R35, R193, R194) -/

/-- Neither the run of a site nor its state moves. -/
structure Aside (x : Nat) (d e : Dev) : Prop where
  run : KeepsRun x d e
  same : SameRun (d.site x) (e.site x)

namespace Aside

variable {x : Nat}

theorem refl (d : Dev) : Aside x d d := ⟨.refl d, .refl _⟩

theorem trans {d e f : Dev} (h : Aside x d e) (g : Aside x e f) : Aside x d f := ⟨h.run.trans g.run, h.same.trans g.same⟩

theorem ite {c : Prop} [Decidable c] {d a b : Dev} (ha : Aside x d a) (hb : Aside x d b) : Aside x d (if c then a else b) := by
  split <;> assumption

theorem foldl {α : Type} {f : Dev → α → Dev} (xs : List α) (d : Dev) (h : ∀ d, ∀ y ∈ xs, Aside x d (f d y)) : Aside x d (xs.foldl f d) :=
  List.foldlRecOn xs f (motive := Aside x d) (refl d) fun e he y hy => he.trans (h e y hy)

theorem of_leaves {d e : Dev} (run : KeepsRun x d e) (leaves : Leaves d e) : Aside x d e := ⟨run, leaves.site x⟩

variable (d : Dev) (m : Nat)

theorem capDrain (l : List CapItem) : Aside x d (d.capDrain m l) := of_leaves (.capDrain d m l) (.capDrain d m l)

theorem endWait (endCode : Nat) : Aside x d (d.endWait m endCode) := of_leaves (.endWait d m endCode) (.endWait d m endCode)

variable {m} (h : x ≠ m)
include h

theorem modSite (f : Site → Site) : Aside x d (d.modSite m f) := ⟨.modSite_other d f h, by rw [site_modSite_other d f h]; exact .refl _⟩

theorem endSite (cause : EndCause) (reason : Nat) (fromFail : Bool) : Aside x d (d.endSite m cause reason fromFail) :=
  ⟨.endSite_other d cause reason fromFail h, endSite_sameRun d cause reason fromFail h⟩

/-- Another member's turn leaves this one as it stands. -/
theorem finishMember (o : MemberEnd) : Aside x d (d.finishMember m o) := by
  unfold Dev.finishMember
  dsimp only
  have boundary : Aside x d (if (d.site m).run.idle = true then d else d.capBoundary m) := ite (refl d) (capDrain d m _)
  refine ite (ite (boundary.trans (endSite _ h _ _ _)) (boundary.trans (endSite _ h _ _ _))) (boundary.trans ?_)
  cases o with
  | ends c => exact endSite _ h c 0 false
  | again r => exact ite (endSite _ h _ _ _) (modSite _ h _)
  | go f r =>
    refine ite (endSite _ h _ _ _) (Aside.trans ?_ (modSite _ h _))
    exact (ite (endWait _ m 0) (refl _)).trans (ite (capDrain _ m _) (refl _))

end Aside

theorem Passed.of_aside {x : Nat} {d e : Dev} (h : Aside x d e) : Passed x d e := .of_keeps h.run h.same

/-- The boundary of a group around one member's turn: before it the member stands as it did, and after it the turn's outcome stands. -/
theorem boundary_turn (d : Dev) {x k : Nat} {g : Group} (i : Image) (o : SiteRun → MemberEnd) (hx : x ∈ g.members) (hmembers : g.members.Nodup) :
    ∃ a, Aside x d a ∧ Passed x (a.finishMember x (o (a.site x).run)) (d.boundary k g i o) := by
  obtain ⟨before, after, hsplit⟩ := List.append_of_mem hx
  rw [hsplit] at hmembers
  have others : ∀ m ∈ before ++ after, x ≠ m := by
    rintro m hm rfl
    exact (List.nodup_middle.mp hmembers).notMem hm
  have turns : ∀ l : List Nat, (∀ m ∈ l, m ∈ before ++ after) → ∀ d, Aside x d (l.foldl (fun (d : Dev) m => d.finishMember m (o (d.site m).run)) d) :=
    fun l hl d => .foldl l d fun d m hm => .finishMember d (others m (hl m hm)) _
  refine ⟨_, turns before (fun m hm => List.mem_append_left _ hm) d, ?_⟩
  unfold Dev.boundary Dev.passBoundary
  dsimp only
  rw [hsplit, List.foldl_append, List.foldl_cons]
  refine Passed.trans ?_ (.foldl _ _ fun d k => .judgeNext d k)
  exact (Passed.of_aside (turns after (fun m hm => List.mem_append_right _ hm) _)).trans (.part _ _ _ _)

/-! ### A member's own turn -/

/-- The run ends with the instruction's cause. -/
theorem finishMember_ends {d : Dev} {x : Nat} (hsmother : (d.site x).run.smother = []) (c : EndCause) (hst : (d.site x).st = .running) :
    RunEnds x c (d.finishMember x (.ends c)) := by
  have boundary : Leaves d (if (d.site x).run.idle = true then d else d.capBoundary x) := .ite (.refl d) (.capDrain d x _)
  unfold Dev.finishMember
  simp only [hsmother, List.isEmpty_nil, Bool.not_true, Bool.false_eq_true, if_false]
  exact (endSite_ends _ x c 0 false (.inr ((boundary.site x).st.trans hst))).ended

section
variable {d : Dev} {x : Nat} (hstop : (d.site x).run.stop = false) (hsmother : (d.site x).run.smother = [])
include hstop hsmother

/-- The run enters its next granule; a late jump that was due is marked as taken. -/
theorem finishMember_go (f : Flow) (r : SiteRun) (hwait : (d.site x).run.wait = none) :
    ((d.finishMember x (.go f r)).site x).run = r.enter f ∧
      ((d.site x).run.late.isSome = true → r.late = none → ((d.finishMember x (.go f r)).site x).lateJump = true) := by
  unfold Dev.finishMember
  simp only [hsmother, hstop, hwait, List.isEmpty_nil, Bool.not_true, Bool.false_eq_true, if_false, Option.isSome_none, site_modSite_same]
  refine ⟨trivial, fun hlate htaken => ?_⟩
  simp [hlate, htaken]

/-- The run repeats its granule. -/
theorem finishMember_again (r : SiteRun) : ((d.finishMember x (.again r)).site x).run = r.repeat_ := by
  unfold Dev.finishMember
  simp only [hsmother, hstop, List.isEmpty_nil, Bool.not_true, Bool.false_eq_true, if_false, site_modSite_same]

end

/-! ### The boundary of a member's group -/

/-- The member of a group that is found at its boundary is running, and one of the group. -/
theorem atBoundary_member {d : Dev} {x k : Nat} {g : Group} {i : Image} (h : d.atBoundary x = some (k, g, i)) :
    (d.site x).st = .running ∧ x ∈ g.members := by
  unfold Dev.atBoundary at h
  split at h
  · cases h
  next hst =>
  split at h
  · cases h
  next hgroup =>
  split at h
  · cases h
  split at h
  · cases h
    have member := List.find?_some hgroup
    exact ⟨by simpa using hst, by simpa using member⟩
  · cases h

/-- A member that waits for nothing is at its turn what it was. -/
theorem boundary_free {d : Dev} {x k : Nat} {g : Group} {i : Image} (o : SiteRun → MemberEnd) (hat : d.atBoundary x = some (k, g, i))
    (hmembers : g.members.Nodup) (hwait : (d.site x).run.wait = none) : ∃ a : Dev, (a.site x).run = (d.site x).run ∧ (a.site x).st = .running ∧
      Passed x (a.finishMember x (o (d.site x).run)) (d.boundary k g i o) := by
  obtain ⟨running, member⟩ := atBoundary_member hat
  obtain ⟨a, aside, passed⟩ := boundary_turn d i o (k := k) member hmembers
  obtain ⟨run, -⟩ := aside.run hwait
  exact ⟨a, run, aside.same.st.trans running, run ▸ passed⟩

/-! ### Commands that are such a boundary -/

/-- The command is the boundary of the group of site `x`, which each member leaves as `o` says; of the site neither STOP nor smother is due, and it waits
for nothing. -/
structure Turn (c : Instr) (s : State) (x : Nat) (o : SiteRun → MemberEnd) : Prop where
  boundary : ∃ k g i, exec c s = .next (s.put (s.dev.boundary k g i o)) ∧ s.dev.atBoundary x = some (k, g, i) ∧ g.members.Nodup
  stop : (s.dev.site x).run.stop = false
  smother : (s.dev.site x).run.smother = []
  wait : (s.dev.site x).run.wait = none

namespace Turn

variable {c : Instr} {s : State} {x : Nat} {o : SiteRun → MemberEnd} (h : Turn c s x o)
include h

/-- What a command leaves of the site is what the site's own turn leaves, but for events that were still to come. -/
theorem completes {P : Dev → Prop} (hp : ∀ a e : Dev, (a.site x).run = (s.dev.site x).run → (a.site x).st = .running →
    Passed x (a.finishMember x (o (s.dev.site x).run)) e → P e) : Completes c s P := by
  obtain ⟨k, g, i, hexec, hat, hmembers⟩ := h.boundary
  obtain ⟨a, run, running, passed⟩ := boundary_free o hat hmembers h.wait
  exact ⟨_, hexec, rfl, hp a _ run running ⟨passed.course, passed.ended⟩⟩

theorem ends {cause : EndCause} (ho : o (s.dev.site x).run = .ends cause) : Completes c s (RunEnds x cause) :=
  h.completes fun a e run running passed => by
    rw [ho] at passed
    obtain ⟨st, ended⟩ := finishMember_ends (by rw [run]; exact h.smother) cause running
    exact ⟨(passed.ended st).1, (passed.ended st).2.trans ended⟩

/-- The site enters a granule: what of its run the command settles, and the mark of a late jump. -/
theorem goes_with {f : Flow} {r : SiteRun} (ho : o (s.dev.site x).run = .go f r) {P : Dev → Prop}
    (hp : ∀ e : Dev, (∃ spill, (e.site x).run = { r.enter f with spill := spill }) →
      ((s.dev.site x).run.late.isSome = true → r.late = none → (e.site x).lateJump = true) → P e) : Completes c s P :=
  h.completes fun a e run running passed => by
    rw [ho] at passed
    obtain ⟨entered, taken⟩ := finishMember_go (d := a) (by rw [run]; exact h.stop) (by rw [run]; exact h.smother) f r (by rw [run]; exact h.wait)
    obtain ⟨⟨spill, stands⟩, late⟩ := passed.course (by rw [entered]; rfl)
    exact hp e ⟨spill, by rw [stands, entered]⟩ fun hlate hr => late.trans (taken (by rw [run]; exact hlate) hr)

theorem goes {f : Flow} {r : SiteRun} (ho : o (s.dev.site x).run = .go f r) : Completes c s (GoesTo x f) :=
  h.goes_with ho fun e ⟨spill, run⟩ _ => by
    rw [GoesTo, run]
    exact ⟨rfl, rfl, rfl⟩

theorem repeats {r : SiteRun} (ho : o (s.dev.site x).run = .again r) (hwait : r.wait = (s.dev.site x).run.wait) :
    Completes c s (Repeats x r.flow r.rep) :=
  h.completes fun a e run running passed => by
    rw [ho] at passed
    have repeated := finishMember_again (d := a) (by rw [run]; exact h.stop) (by rw [run]; exact h.smother) r
    obtain ⟨⟨spill, stands⟩, -⟩ := passed.course (by rw [repeated]; exact hwait.trans h.wait)
    rw [Repeats, stands, repeated]
    exact ⟨rfl, rfl, rfl⟩

end Turn

end Sys2Proof.Proofs
end

section
/-! PROOFS. The sequencer instructions at the end of their granule (spec/05 R147-R154, spec/06 R193). -/

namespace Sys2Proof.Proofs

open Sys2Proof Sys2Proof.Machine

set_option Elab.async false

/-! ### Where the flow goes (R147-R149) -/

section
variable {f : Flow}

theorem loopBegin_back {n : Nat} (h : f.back = true) : f.loopBegin n = some { f with pc := f.pc + 1, back := false } := if_pos h

theorem loopBegin_room {n : Nat} (h : f.back = false) (hroom : f.loops.length < 8) :
    f.loopBegin n = some { f with pc := f.pc + 1, loops := ⟨f.pc, n⟩ :: f.loops } := by
  unfold Flow.loopBegin
  rw [if_neg (by simp [h]), if_neg (by omega)]
  simp only [Flow.succ, Flow.goto, h]

theorem loopBegin_full {n : Nat} (h : f.back = false) (hfull : 8 ≤ f.loops.length) : f.loopBegin n = none := by
  unfold Flow.loopBegin
  rw [if_neg (by simp [h]), if_pos hfull]

theorem loopEnd_empty (h : f.loops = []) : f.loopEnd = none := by
  simp only [Flow.loopEnd, h]

theorem loopEnd_again {l : LoopEnt} {t : List LoopEnt} (h : f.loops = l :: t) (hmore : 1 < l.remaining) :
    f.loopEnd = some { f with pc := l.start, back := true, loops := ⟨l.start, l.remaining - 1⟩ :: t } := by
  simp only [Flow.loopEnd, h]
  exact if_pos (by omega)

theorem loopEnd_last {l : LoopEnt} {t : List LoopEnt} (h : f.loops = l :: t) (hlast : l.remaining ≤ 1) :
    f.loopEnd = some { f with pc := f.pc + 1, back := false, loops := t } := by
  simp only [Flow.loopEnd, h]
  exact if_neg (by omega)

theorem call_room (target : Nat) (hroom : f.calls.length < 16) :
    f.call target = some { f with pc := target, back := false, calls := (f.pc + 1) :: f.calls } := if_neg (by omega)

theorem call_full (target : Nat) (hfull : 16 ≤ f.calls.length) : f.call target = none := if_pos hfull

theorem ret_empty (h : f.calls = []) : f.ret = none := by
  simp only [Flow.ret, h]

theorem ret_pop {c : Nat} {t : List Nat} (h : f.calls = c :: t) : f.ret = some { f with pc := c, back := false, calls := t } := by
  simp only [Flow.ret, h]
  rfl

theorem pop_enough {lpop : Nat} (h : lpop ≤ f.loops.length) : f.pop lpop = some { f with loops := f.loops.drop lpop } := if_neg (by omega)

theorem pop_short {lpop : Nat} (h : f.loops.length < lpop) : f.pop lpop = none := if_pos h

theorem jump_enough (target : Nat) {lpop : Nat} (h : lpop ≤ f.loops.length) :
    f.jump target lpop = some { f with pc := target, back := false, loops := f.loops.drop lpop } := by
  rw [Flow.jump, pop_enough h]
  rfl

theorem jump_short (target : Nat) {lpop : Nat} (h : f.loops.length < lpop) : f.jump target lpop = none := by
  rw [Flow.jump, pop_short h]
  rfl

end

/-! ### How a member leaves its granule -/

section
variable {r : SiteRun}

theorem endRepeat_more {n : Nat} (h : r.rep + 1 < n) : endRepeat n r = .again { r with rep := r.rep + 1 } := if_pos h

theorem endRepeat_last {n : Nat} (h : n ≤ r.rep + 1) : endRepeat n r = .go r.flow.succ r := if_neg (by omega)

variable {z : ZImage} {target lpop vec : Nat}

theorem endJumpIf_false (h : r.condTrue = false) : endJumpIf z target lpop vec r = .go r.flow.succ r := by
  simp only [endJumpIf, h, Bool.not_false, if_true]

theorem endJumpIf_early (h : r.condTrue = true) (hvec : vec ≤ 48) (hpop : lpop ≤ r.flow.loops.length) :
    endJumpIf z target lpop vec r = .go { r.flow with pc := z.target target, back := false, loops := r.flow.loops.drop lpop } r := by
  simp only [endJumpIf, h, hvec, jump_enough _ hpop, Bool.not_true, Bool.false_eq_true, if_false, if_true, SiteRun.goTo]

/-- A jump decided late pops its loop entries at once and is due at the end of the next granule (R151). -/
theorem endJumpIf_late (h : r.condTrue = true) (hvec : 49 ≤ vec) (hpop : lpop ≤ r.flow.loops.length) :
    endJumpIf z target lpop vec r =
      .go { r.flow with pc := r.flow.pc + 1, back := false, loops := r.flow.loops.drop lpop } { r with late := some ⟨z.target target, target⟩ } := by
  simp only [endJumpIf, h, if_neg (Nat.not_le.mpr hvec), pop_enough hpop, Bool.not_true, Bool.false_eq_true, if_false]
  rfl

theorem endJumpIf_fault (h : r.condTrue = true) (hpop : r.flow.loops.length < lpop) : endJumpIf z target lpop vec r = .ends .stackFault := by
  simp only [endJumpIf, h, jump_short _ hpop, pop_short hpop, Bool.not_true, Bool.false_eq_true, if_false, SiteRun.goTo, ite_self]

/-- A late jump that is due goes to its target (R151, R185). -/
theorem endLate_due {ins : ZIns} {j : LateJump} (hins : ∀ v reg, ins ≠ .setreg v reg) (h : r.late = some j) :
    endLate ins r = .go { r.flow with pc := j.target, back := false } { r with late := none } := by
  unfold endLate
  split
  · next v reg => exact absurd rfl (hins v reg)
  · simp only [h]
    rfl

theorem setReg_of_ne {reg : Nat} (v : Nat) (h : reg ≠ 7) : r.setReg v reg = { r with flow := r.flow.setReg v reg } := if_neg h

/-- SETREG on a counter or on flags (R153). -/
theorem endSetReg_flow {reg : Nat} (v : Nat) (h : reg ≠ 7) :
    endSetReg v reg r = .go (r.flow.setReg v reg).succ { r with flow := r.flow.setReg v reg } := by
  rw [endSetReg, setReg_of_ne v h]

/-- SETREG on the fail latches (R153). -/
theorem endSetReg_fails (v : Nat) : endSetReg v 7 r = .go r.flow.succ r.clearFails := rfl

variable {m : Nat}

theorem endWaitIns_more (h : r.waitMore = true) : endWaitIns m r = .go r.flow.succ r := if_pos h

theorem endWaitIns_early {v : Nat} (h : r.waitMore = false) (hhit : r.waitHit = some v) (hv : v ≤ 48) : endWaitIns m r = .go r.flow.succ r := by
  simp only [endWaitIns, h, hhit, hv, Bool.false_eq_true, if_false, if_true]

/-- An event in a granule's last vectors is recognised for the next execution (R154). -/
theorem endWaitIns_late {v : Nat} (h : r.waitMore = false) (hhit : r.waitHit = some v) (hv : 48 < v) :
    endWaitIns m r = .again { r with waitMore := true, rep := r.rep + 1 } := by
  simp only [endWaitIns, h, hhit, if_neg (Nat.not_le.mpr hv), Bool.false_eq_true, if_false]

theorem endWaitIns_again (h : r.waitMore = false) (hhit : r.waitHit = none) (hrep : r.rep + 1 < maxRep m) :
    endWaitIns m r = .again { r with rep := r.rep + 1 } := by
  simp only [endWaitIns, h, hhit, hrep, Bool.false_eq_true, if_false, if_true]

/-- The last execution without the event sets the time-out flag (R154). -/
theorem endWaitIns_timeout (h : r.waitMore = false) (hhit : r.waitHit = none) (hrep : maxRep m ≤ r.rep + 1) :
    endWaitIns m r = .go { r.flow with pc := r.flow.pc + 1, back := false, flags := r.flow.flags ||| 128 } r := by
  simp only [endWaitIns, h, hhit, if_neg (Nat.not_lt.mpr hrep), Bool.false_eq_true, if_false]
  rfl

end

/-! ### The commands -/

/-- An instruction at the end of its granule, where nothing else is due. -/
theorem turn_of_instr {c : Instr} {s : State} {x k : Nat} {g : Group} {i : Image} {ins : ZIns} {pick : ZImage → ZIns → Option (SiteRun → MemberEnd)}
    {o : SiteRun → MemberEnd} (hexec : exec c s = s.act fun d => d.instr x pick) (hend : AtEnd s.dev x k g i ins) (hpick : pick i.z ins = some o) :
    Turn c s x o := by
  obtain ⟨hat, hmembers, hins, hlate, hstop, hsmother, hwait⟩ := hend
  refine ⟨⟨k, g, i, ?_, hat, hmembers⟩, hstop, hsmother, hwait⟩
  simp only [hexec, act_eq, Dev.instr, hat, hlate, hins, hpick, Bool.false_eq_true, if_false]

/-- The end of the granule after which a late jump is made, where one is due for a member of the group (R151). -/
theorem turn_of_lateJump {s : State} {x : Fin 256} {k : Nat} {g : Group} {i : Image} (hat : s.dev.atBoundary x = some (k, g, i))
    (hmembers : g.members.Nodup) (hdue : s.dev.lateDue g = true) (hstop : (s.dev.site x).run.stop = false)
    (hsmother : (s.dev.site x).run.smother = []) (hwait : (s.dev.site x).run.wait = none) :
    Turn (.lateJump x) s x (endLate (s.dev.groupIns g i)) := by
  refine ⟨⟨k, g, i, ?_, hat, hmembers⟩, hstop, hsmother, hwait⟩
  have late : exec (.lateJump x) s = s.act fun d => d.lateJumpEnd x := rfl
  simp only [late, act_eq, Dev.lateJumpEnd, hat, hdue, if_true]

/-! ### The obligation -/

/-- Settles O36: each command is the boundary of the site's group (`turn_of_instr`), in which the site's own turn is what the instruction makes of its flow;
what the other members' turns, parting and the judgement of the next granule do leaves it there (`Turn.goes`, `Turn.repeats`, `Turn.ends`). -/
theorem sequencerInstructions : Obligations.SequencerInstructions := by
  unfold Obligations.SequencerInstructions
  rintro s x k g i r f rfl rfl
  refine ⟨?nop, ?rep, ?loopBegin, ?loopEnd, ?call, ?ret, ?jump, ?jumpIf, ?lateJump, ?halt, ?setreg, ?wait⟩
  case nop =>
    intro hend
    have turn : Turn (.nopInstr x) s x endNop := turn_of_instr rfl hend rfl
    exact turn.goes rfl
  case rep =>
    intro n hend
    have turn : Turn (.repeat_ x) s x (endRepeat n) := turn_of_instr rfl hend rfl
    exact ⟨fun h => turn.repeats (endRepeat_more h) rfl, fun h => turn.goes (endRepeat_last h)⟩
  case loopBegin =>
    intro n hend
    have turn : Turn (.loopBegin x) s x (fun r => r.goTo (r.flow.loopBegin n)) := turn_of_instr rfl hend rfl
    exact ⟨fun h => turn.goes (congrArg (SiteRun.goTo _) (loopBegin_back h)), fun h hroom => turn.goes (congrArg (SiteRun.goTo _) (loopBegin_room h hroom)),
      fun h hfull => turn.ends (congrArg (SiteRun.goTo _) (loopBegin_full h hfull))⟩
  case loopEnd =>
    intro hend
    have turn : Turn (.loopEnd x) s x (fun r => r.goTo r.flow.loopEnd) := turn_of_instr rfl hend rfl
    exact ⟨fun h => turn.ends (congrArg (SiteRun.goTo _) (loopEnd_empty h)), fun l t h hmore => turn.goes (congrArg (SiteRun.goTo _) (loopEnd_again h hmore)),
      fun l t h hlast => turn.goes (congrArg (SiteRun.goTo _) (loopEnd_last h hlast))⟩
  case call =>
    intro target below hend
    have turn : Turn (.call x) s x (fun r => r.goTo (r.flow.call (i.z.target target))) := turn_of_instr rfl hend rfl
    exact ⟨fun h => turn.goes (congrArg (SiteRun.goTo _) (call_room _ h)), fun h => turn.ends (congrArg (SiteRun.goTo _) (call_full _ h))⟩
  case ret =>
    intro hend
    have turn : Turn (.return_ x) s x (fun r => r.goTo r.flow.ret) := turn_of_instr rfl hend rfl
    exact ⟨fun h => turn.ends (congrArg (SiteRun.goTo _) (ret_empty h)), fun c t h => turn.goes (congrArg (SiteRun.goTo _) (ret_pop h))⟩
  case jump =>
    intro target lpop hend
    have turn : Turn (.jump x) s x (fun r => r.goTo (r.flow.jump (i.z.target target) lpop)) := turn_of_instr rfl hend rfl
    exact ⟨fun h => turn.goes (congrArg (SiteRun.goTo _) (jump_enough _ h)), fun h => turn.ends (congrArg (SiteRun.goTo _) (jump_short _ h))⟩
  case jumpIf =>
    intro target lpop vec cond neg clear pin hend
    have turn : Turn (.jumpIf x) s x (endJumpIf i.z target lpop vec) := turn_of_instr rfl hend rfl
    refine ⟨fun h => turn.goes (endJumpIf_false h), fun h hvec hpop => turn.goes (endJumpIf_early h hvec hpop), fun h hvec hpop => ?_,
      fun h hpop => turn.ends (endJumpIf_fault h hpop)⟩
    refine turn.goes_with (endJumpIf_late h hvec hpop) fun e ⟨spill, run⟩ _ => ?_
    rw [GoesTo, run]
    exact ⟨⟨rfl, rfl, rfl⟩, rfl⟩
  case lateJump =>
    intro j hat hmembers hdue hstop hsmother hwait hlate hins
    have turn := turn_of_lateJump hat hmembers hdue hstop hsmother hwait
    refine turn.goes_with (endLate_due hins hlate) fun e ⟨spill, run⟩ taken => ?_
    rw [GoesTo, run]
    exact ⟨⟨rfl, rfl, rfl⟩, rfl, taken (by rw [hlate]; rfl) rfl⟩
  case halt =>
    intro hend
    have turn : Turn (.halt x) s x (fun _ => .ends .halt) := turn_of_instr rfl hend rfl
    exact turn.ends rfl
  case setreg =>
    intro v reg hend
    have turn : Turn (.setreg x) s x (endSetReg v reg) := turn_of_instr rfl hend rfl
    have goes : reg ≠ 7 → ∀ f, (s.dev.site x).run.flow.setReg v reg = f → Completes (.setreg x) s (GoesTo x f.succ) := fun h f hf =>
      turn.goes (hf ▸ endSetReg_flow v h)
    refine ⟨fun h => goes (by omega) _ (if_pos h), ?_, ?_, ?_, ?_⟩
    · rintro rfl
      exact goes (by decide) _ rfl
    · rintro rfl
      exact goes (by decide) _ rfl
    · rintro rfl
      exact goes (by decide) _ rfl
    · rintro rfl
      refine turn.goes_with (endSetReg_fails v) fun e ⟨spill, run⟩ _ => ?_
      rw [GoesTo, run]
      exact ⟨⟨rfl, rfl, rfl⟩, rfl, rfl⟩
  case wait =>
    intro ev pin level m hend
    have turn : Turn (.wait x) s x (endWaitIns m) := turn_of_instr rfl hend rfl
    exact ⟨fun h => turn.goes (endWaitIns_more h), fun v h hhit hv => turn.goes (endWaitIns_early h hhit hv),
      fun v h hhit hv => turn.repeats (endWaitIns_late h hhit hv) rfl, fun h hhit hrep => turn.repeats (endWaitIns_again h hhit hrep) rfl,
      fun h hhit hrep => turn.goes (endWaitIns_timeout h hhit hrep)⟩

end Sys2Proof.Proofs
end

section
/-! PROOFS. BIND_LOAD, CAPTURE_LOAD and DDS_LOAD: what is checked, and what the shadow state takes; a load whose area cannot be read (spec/06 R170, R171,
spec/08 R228, R231, spec/10 R288, R289, spec/13 R361, R425). -/

namespace Sys2Proof.Proofs

open Sys2Proof Sys2Proof.Machine

set_option Elab.async false

/-! ### Entries in ascending key -/

theorem mem_insertKey {x y : Nat × Nat × Nat} {l : List (Nat × Nat × Nat)} : x ∈ insertKey y l ↔ x = y ∨ x ∈ l := by
  induction l with
  | nil => simp [insertKey]
  | cons z t ih =>
    unfold insertKey
    split
    · exact List.mem_cons
    · rw [List.mem_cons, ih, List.mem_cons, or_left_comm]

/-- The entries sorted are the entries carried, each with its key. -/
theorem mem_byKey {key : Nat → Nat} {offs : List Nat} {x : Nat × Nat × Nat} :
    x ∈ byKey key offs ↔ ∃ y ∈ offs.zipIdx, x = (key y.1, y.1, y.2) := by
  have folds : ∀ (ys : List (Nat × Nat)) (l : List (Nat × Nat × Nat)),
      x ∈ ys.foldl (fun l y => insertKey (key y.1, y.1, y.2) l) l ↔ (∃ y ∈ ys, x = (key y.1, y.1, y.2)) ∨ x ∈ l := by
    intro ys
    induction ys with
    | nil => simp
    | cons y t ih =>
      intro l
      rw [List.foldl_cons, ih, mem_insertKey, List.exists_mem_cons_iff, or_left_comm, or_assoc]
  rw [byKey, folds]
  simp

theorem mem_sortNats {x : Nat} {l : List Nat} : x ∈ sortNats l ↔ x ∈ l := by
  have folds : ∀ (ys acc : List Nat), x ∈ ys.foldl (fun acc y => insertNat y acc) acc ↔ x ∈ ys ∨ x ∈ acc := by
    intro ys
    induction ys with
    | nil => simp
    | cons y t ih =>
      intro acc
      rw [List.foldl_cons, ih, mem_insertNat, List.mem_cons, or_left_comm, or_assoc]
  rw [sortNats, folds]
  simp

/-- A count that passes a bound does so at a step. -/
theorem exists_step_across {f : Nat → Nat} {b k : Nat} (hlow : f 0 ≤ b) (hhigh : b < f k) : ∃ i < k, f i ≤ b ∧ b < f (i + 1) := by
  induction k with
  | zero => omega
  | succ k ih =>
    by_cases hk : f k ≤ b
    · exact ⟨k, by omega, hk, hhigh⟩
    · obtain ⟨i, hi, step⟩ := ih (by omega)
      exact ⟨i, by omega, step⟩

/-! ### A load of entries over a source that can be read (R363) -/

theorem entries_areas {q : Desc} (h : q.opcode = opBindLoad ∨ q.opcode = opCaptureLoad ∨ q.opcode = opDdsLoad) (deviceNum : Nat) :
    q.areas deviceNum = [(q.get 16 8, q.get 24 8, 1)] := by
  rcases h with h | h | h <;> simp [Desc.areas, h, opBindLoad, opCaptureLoad, opDdsLoad]

/-- Entries whose lengths fill the area go to their load. -/
theorem withEntries_readable {d : Dev} {n op : Nat} {remote : RemoteRead} {q : Desc} {entLen : List Byte → Nat → Nat}
    {k : Dev → Desc → List Byte → List Nat → Dev} {bs : List Byte} {offs : List Nat} (hop : op = opBindLoad ∨ op = opCaptureLoad ∨ op = opDdsLoad)
    (hnext : d.nextDesc n op = some q) (hread : Readable d n (q.get 16 8) (q.get 24 8) remote)
    (hbs : bs = d.ownerRead n (q.get 16 8) (q.get 24 8) remote) (hoffs : entryOffsets bs (q.get 24 8) entLen (q.get 32 2) 0 0 = .inl offs) :
    d.withEntries n op remote entLen k = k (d.beginDesc n q) q bs offs := by
  obtain ⟨-, -, opcode⟩ := nextDesc_some hnext
  rw [Dev.withEntries, withLoad_readable hnext (entries_areas (opcode ▸ hop) _) hread, ← hbs]
  simp only [hoffs]

/-- A load refused: a device that differs from that of the descriptor's begin in registers at most, and a completion. -/
def Refuses (d : Dev) (n : Nat) (q : Desc) (e : Dev) : Prop :=
  ∃ off w arg0 arg1, e = ((d.beginDesc n q).setReg off w).complete n q stRefused arg0 arg1

theorem Refuses.completes {c : Instr} {s : State} {n : Nat} {q : Desc} {e : Dev} (h : Refuses s.dev n q e) (hexec : exec c s = .next (s.put e)) :
    Completes c s (fun e => EndedWith n q stRefused s.dev e ∧ e.seq = s.dev.seq) := by
  obtain ⟨off, w, arg0, arg1, rfl⟩ := h
  exact ⟨_, hexec, rfl, ⟨arg0, arg1, ended_complete rfl stRefused arg0 arg1⟩, beginDesc_seq s.dev n q false⟩

/-! ### BIND_LOAD (R171) -/

/-- The first failing binding of a list, with the offset of its entry. -/
def bindFail (absent : Nat → Bool) (bs : List Byte) (offs : List Nat) : Option (Nat × BindFail) :=
  offs.zipIdx.findSome? fun x => (bindChecks absent bs x.1 x.2).map fun f => (x.1, f)

theorem bindFail_eq_none_iff {absent : Nat → Bool} {bs : List Byte} {offs : List Nat} :
    bindFail absent bs offs = none ↔ offs.zipIdx.all (fun x => (bindChecks absent bs x.1 x.2).isNone) = true := by
  simp [bindFail]

section
variable {d : Dev} {n : Nat} {remote : RemoteRead} {q : Desc} {bs : List Byte} {offs : List Nat} (hnext : d.nextDesc n opBindLoad = some q)
  (hread : Readable d n (q.get 16 8) (q.get 24 8) remote) (hbs : bs = d.ownerRead n (q.get 16 8) (q.get 24 8) remote)
  (hoffs : entryOffsets bs (q.get 24 8) bindLen (q.get 32 2) 0 0 = .inl offs)
include hnext hread hbs hoffs

theorem bindLoad_accepted (hpass : bindFail d.absent bs offs = none) :
    d.bindLoad n remote = ({ d.beginDesc n q with seq := { d.seq with shadow := { d.seq.shadow with
      binds := applyEntries d.seq.shadow.binds (offs.map (parseBind bs)) } } }).complete n q stOk := by
  rw [bindFail] at hpass
  rw [Dev.bindLoad, withEntries_readable (.inl rfl) hnext hread hbs hoffs]
  simp only [beginDesc_absent, beginDesc_seq, hpass]

theorem bindLoad_refused (hfail : bindFail d.absent bs offs ≠ none) : Refuses d n q (d.bindLoad n remote) := by
  obtain ⟨⟨o, f⟩, hf⟩ := Option.ne_none_iff_exists'.mp hfail
  rw [bindFail] at hf
  rw [Dev.bindLoad, withEntries_readable (.inl rfl) hnext hread hbs hoffs]
  simp only [beginDesc_absent, hf]
  exact ⟨_, _, _, _, rfl⟩

end

/-! ### CAPTURE_LOAD (R231) -/

/-- The first failing plan entry of a list, with its offset: sites ascending, of each the fields before the windows. -/
def captureFail (bs : List Byte) (offs : List Nat) : Option (Nat × CapFail) :=
  let entries := byKey (fun o => fieldAt bs o 2) offs
  let check := fun (s : Nat) (f : List Byte → Nat → Nat → Option CapFail) =>
    (entries.filter (fun x => x.1 == s)).findSome? fun x => (f bs x.2.1 x.2.2).map fun y => (x.2.1, y)
  (sortNats (entries.map (·.1))).findSome? fun s => firstSome [check s capFieldCheck, check s capWindowCheck]

theorem firstSome_pair_eq_none_iff {α : Type} {a b : Option α} : firstSome [a, b] = none ↔ a = none ∧ b = none := by
  cases a <;> cases b <;> simp [firstSome]

theorem captureFail_eq_none_iff {bs : List Byte} {offs : List Nat} : captureFail bs offs = none ↔
    offs.zipIdx.all (fun x => (capFieldCheck bs x.1 x.2).isNone && (capWindowCheck bs x.1 x.2).isNone) = true := by
  simp only [captureFail, List.findSome?_eq_none_iff, mem_sortNats, firstSome_pair_eq_none_iff, List.mem_filter, List.mem_map, mem_byKey,
    List.all_eq_true, Bool.and_eq_true, Option.isNone_iff_eq_none, Option.map_eq_none_iff, beq_iff_eq]
  constructor
  · intro h x hx
    obtain ⟨field, window⟩ := h (fieldAt bs x.1 2) ⟨_, ⟨x, hx, rfl⟩, rfl⟩
    exact ⟨field _ ⟨⟨x, hx, rfl⟩, rfl⟩, window _ ⟨⟨x, hx, rfl⟩, rfl⟩⟩
  · rintro h s -
    refine ⟨?_, ?_⟩
    · rintro _ ⟨⟨x, hx, rfl⟩, -⟩
      exact (h x hx).1
    · rintro _ ⟨⟨x, hx, rfl⟩, -⟩
      exact (h x hx).2

section
variable {d : Dev} {n : Nat} {remote : RemoteRead} {q : Desc} {bs : List Byte} {offs : List Nat} (hnext : d.nextDesc n opCaptureLoad = some q)
  (hread : Readable d n (q.get 16 8) (q.get 24 8) remote) (hbs : bs = d.ownerRead n (q.get 16 8) (q.get 24 8) remote)
  (hoffs : entryOffsets bs (q.get 24 8) capLen (q.get 32 2) 0 0 = .inl offs)
include hnext hread hbs hoffs

theorem captureLoad_accepted (hpass : captureFail bs offs = none) :
    d.captureLoad n remote = ({ d.beginDesc n q with seq := { d.seq with shadow := { d.seq.shadow with
      plans := applyEntries d.seq.shadow.plans (offs.map (parseCap bs)) } } }).complete n q stOk := by
  rw [captureFail] at hpass
  rw [Dev.captureLoad, withEntries_readable (.inr (.inl rfl)) hnext hread hbs hoffs]
  simp only [beginDesc_seq, hpass]

theorem captureLoad_refused (hfail : captureFail bs offs ≠ none) : Refuses d n q (d.captureLoad n remote) := by
  obtain ⟨⟨o, f⟩, hf⟩ := Option.ne_none_iff_exists'.mp hfail
  rw [captureFail] at hf
  rw [Dev.captureLoad, withEntries_readable (.inr (.inl rfl)) hnext hread hbs hoffs]
  simp only [hf]
  exact ⟨_, _, _, _, rfl⟩

end

/-! ### DDS_LOAD (R289) -/

/-- The entries of a DDS load in ascending site and pin. -/
def ddsEntries (bs : List Byte) (offs : List Nat) : List (Nat × Nat × Nat) := byKey (fun o => 65536 * fieldAt bs o 2 + fieldAt bs (o + 2) 2) offs

/-- The list sets that stand once the first `k` entries have been taken over. -/
def ddsCount (m : List (Nat × DdsList)) (bs : List Byte) (offs : List Nat) (k : Nat) : Nat :=
  (applyEntries m ((((ddsEntries bs offs).map (·.2.1)).take k).map (parseDds bs))).length

/-- The first failing entry of a DDS load: its check, offset and index. -/
def ddsFail (m : List (Nat × DdsList)) (bs : List Byte) (offs : List Nat) : Option (Nat × Nat × Nat) :=
  (ddsEntries bs offs).zipIdx.findSome? fun x =>
    if ddsFieldBad bs x.1.2.1 then some (0x70, x.1.2)
    else if ddsSpace m bs ((ddsEntries bs offs).map (·.2.1)) x.2 then some (0x71, x.1.2) else none

theorem ddsSpace_iff {m : List (Nat × DdsList)} {bs : List Byte} {offs : List Nat} {i : Nat} :
    ddsSpace m bs ((ddsEntries bs offs).map (·.2.1)) i = true ↔
      64 < ddsCount m bs offs (ddsEntries bs offs).length ∧ 64 < ddsCount m bs offs (i + 1) ∧ ddsCount m bs offs i ≤ 64 := by
  simp [ddsSpace, ddsCount]

/-- The count at the end is that of the whole list. -/
theorem ddsCount_all (m : List (Nat × DdsList)) (bs : List Byte) (offs : List Nat) :
    ddsCount m bs offs (ddsEntries bs offs).length = (applyEntries m (((ddsEntries bs offs).map (·.2.1)).map (parseDds bs))).length := by
  rw [ddsCount, List.take_of_length_le (List.length_map _).le]

theorem ddsFail_eq_none {m : List (Nat × DdsList)} {bs : List Byte} {offs : List Nat} (hfields : offs.any (ddsFieldBad bs) = false)
    (hcount : ddsCount m bs offs (ddsEntries bs offs).length ≤ 64) : ddsFail m bs offs = none := by
  refine List.findSome?_eq_none_iff.mpr fun ⟨y, i⟩ hy => ?_
  obtain ⟨x, hx, rfl⟩ := mem_byKey.mp (List.fst_mem_of_mem_zipIdx hy)
  have good : ddsFieldBad bs x.1 = false := by simpa using List.any_eq_false.mp hfields x.1 (List.fst_mem_of_mem_zipIdx hx)
  have space : ¬ddsSpace m bs ((ddsEntries bs offs).map (·.2.1)) i = true := fun h => absurd (ddsSpace_iff.mp h).1 (by omega)
  simp [good, space]

theorem ddsFail_ne_none {m : List (Nat × DdsList)} {bs : List Byte} {offs : List Nat}
    (h : offs.any (ddsFieldBad bs) = true ∨ (64 < ddsCount m bs offs (ddsEntries bs offs).length ∧ m.length ≤ 64)) : ddsFail m bs offs ≠ none := by
  intro hnone
  have passes := List.findSome?_eq_none_iff.mp hnone
  rcases h with hbad | ⟨hover, hroom⟩
  · obtain ⟨o, ho, bad⟩ := List.any_eq_true.mp hbad
    obtain ⟨j, hj, rfl⟩ := List.getElem_of_mem ho
    have entry : (_, offs[j], j) ∈ ddsEntries bs offs := mem_byKey.mpr ⟨(offs[j], j), List.mk_mem_zipIdx_iff_getElem?.mpr (by simp [hj]), rfl⟩
    obtain ⟨i, hi, at_i⟩ := List.getElem_of_mem entry
    have := passes (_, i) (List.mk_mem_zipIdx_iff_getElem?.mpr (List.getElem?_eq_getElem hi))
    simp [at_i, bad] at this
  · obtain ⟨i, hi, below, above⟩ := exists_step_across (f := ddsCount m bs offs) (by simpa [ddsCount, applyEntries] using hroom) hover
    have := passes (_, i) (List.mk_mem_zipIdx_iff_getElem?.mpr (List.getElem?_eq_getElem hi))
    simp only [ddsSpace_iff.mpr ⟨hover, above, below⟩, if_true] at this
    split at this <;> cases this

section
variable {d : Dev} {n : Nat} {remote : RemoteRead} {q : Desc} {bs : List Byte} {offs : List Nat} (hnext : d.nextDesc n opDdsLoad = some q)
  (hread : Readable d n (q.get 16 8) (q.get 24 8) remote) (hbs : bs = d.ownerRead n (q.get 16 8) (q.get 24 8) remote)
  (hoffs : entryOffsets bs (q.get 24 8) ddsLen (q.get 32 2) 0 0 = .inl offs)
include hnext hread hbs hoffs

theorem ddsLoad_accepted (hpass : ddsFail d.seq.shadow.dds bs offs = none) :
    d.ddsLoad n remote = ({ d.beginDesc n q with seq := { d.seq with shadow := { d.seq.shadow with
      dds := applyEntries d.seq.shadow.dds (offs.map (parseDds bs)) } } }).complete n q stOk := by
  rw [ddsFail, ddsEntries] at hpass
  rw [Dev.ddsLoad, withEntries_readable (.inr (.inr rfl)) hnext hread hbs hoffs]
  simp only [beginDesc_seq, hpass]

theorem ddsLoad_refused (hfail : ddsFail d.seq.shadow.dds bs offs ≠ none) : Refuses d n q (d.ddsLoad n remote) := by
  obtain ⟨⟨check, o, i⟩, hf⟩ := Option.ne_none_iff_exists'.mp hfail
  rw [ddsFail, ddsEntries] at hf
  rw [Dev.ddsLoad, withEntries_readable (.inr (.inr rfl)) hnext hread hbs hoffs]
  simp only [beginDesc_seq, hf]
  exact ⟨_, _, _, _, rfl⟩

end

/-! ### A load whose area cannot be read (R361, R425; log entries 88 and 117) -/

/-- A fault line leaves the registers of the ring window. -/
theorem raise_reg_ring (d : Dev) (b u : Nat) {off : Nat} (h : 0x60000 ≤ off ∧ off < 0x70000) : (d.raise b u).reg off = d.reg off := by
  refine (Spares.raise d b u).reg off ?_ (by omega) ?_
  · simp [steadyReg]
    omega
  · simp [R.FLT_DOUSE_STATUS, R.FLT_WORD_LO, R.FLT_FIRST]
    omega

theorem ringStatus_window (n : Fin 64) : 0x60000 ≤ R.RING_STATUS n ∧ R.RING_STATUS n < 0x70000 := by
  simp only [R.RING_STATUS]
  omega

theorem ringCtrl_window (n : Fin 64) : 0x60000 ≤ R.RING_CTRL n ∧ R.RING_CTRL n < 0x70000 := by
  simp only [R.RING_CTRL]
  omega

/-- Writing the state block of a ring of this device moves no register. -/
theorem writeBlock_regs {d : Dev} {n : Nat} (hlocal : d.ringRemote n = false) : (d.writeBlock n).regs = d.regs := by
  simp [Dev.writeBlock, hlocal, Dev.modRing, Dev.write]

/-- RING_n_STATUS holds FAULT with an ERR code, and ERR_INT (R374, R384). -/
def ringFaulted (d : Dev) (n err : Nat) : Dev :=
  ((d.setF (R.RING_STATUS n) F.RING_STATUS_STATE rsFault).setF (R.RING_STATUS n) F.RING_STATUS_ERR err).latch (R.RING_STATUS n) F.RING_STATUS_ERR_INT

theorem ringFaulted_status (d : Dev) (n : Nat) : (ringFaulted d n reFetchDenied).getF (R.RING_STATUS n) F.RING_STATUS_STATE = rsFault ∧
    (ringFaulted d n reFetchDenied).getF (R.RING_STATUS n) F.RING_STATUS_ERR = reFetchDenied := by
  unfold ringFaulted Dev.latch
  refine ⟨?_, ?_⟩
  · rw [getF_setF_disjoint _ _ _ _ _ (by decide) (by decide), getF_setF_disjoint _ _ _ _ _ (by decide) (by decide), getF_setF_same _ _ _ _ (by decide)]
    rfl
  · rw [getF_setF_disjoint _ _ _ _ _ (by decide) (by decide), getF_setF_same _ _ _ _ (by decide)]
    rfl

/-- A ring of this device faults: its status, the fault line, the state block. -/
theorem fetchFault_local {d : Dev} {n : Fin 64} {err : Nat} (hlocal : d.ringRemote n = false) :
    d.fetchFault n err = ((ringFaulted (d.dropFetch n) n err).raise 16 n).writeBlock n := by
  have reached : (d.dropFetch n).ownerCut n = false := by
    rw [Dev.ownerCut, show (d.dropFetch n).ringRemote n = false from hlocal, Bool.false_and]
  unfold Dev.fetchFault Dev.ringEnter
  rw [if_neg (show rsFault ≠ rsRunning by decide)]
  simp only [reached, Bool.false_eq_true, if_false, Dev.ringState_, or_true, if_true, ringFaulted]

/-- A ring of this device whose fetch is refused is in FAULT with FETCH_DENIED, and says so in the fault word (R376, R464). -/
theorem fetchFault_denied {d : Dev} {n : Fin 64} (hlocal : d.ringRemote n = false) : (d.fetchFault n reFetchDenied).ringState n = rsFault ∧
    (d.fetchFault n reFetchDenied).getF (R.RING_STATUS n) F.RING_STATUS_ERR = reFetchDenied ∧
    (d.fetchFault n reFetchDenied).bitOf R.FLT_WORD_LO 16 = true := by
  obtain ⟨state, code⟩ := ringFaulted_status (d.dropFetch n) n
  have ctrl : ((ringFaulted (d.dropFetch n) n reFetchDenied).raise 16 n).reg (R.RING_CTRL n) = d.reg (R.RING_CTRL n) := by
    rw [raise_reg_ring _ _ _ (ringCtrl_window n), ringFaulted, reg_latch_other _ _ _ _ (by simp [R.RING_STATUS, R.RING_CTRL]),
      reg_setF_other _ _ _ _ _ (by simp [R.RING_STATUS, R.RING_CTRL]), reg_setF_other _ _ _ _ _ (by simp [R.RING_STATUS, R.RING_CTRL])]
    rfl
  have remote : ((ringFaulted (d.dropFetch n) n reFetchDenied).raise 16 n).ringRemote n = false := by
    rw [← hlocal, Dev.ringRemote, Dev.flag, Dev.getF, ctrl]
    rfl
  have regs : ∀ off, (d.fetchFault n reFetchDenied).reg off = ((ringFaulted (d.dropFetch n) n reFetchDenied).raise 16 n).reg off := fun off => by
    rw [fetchFault_local hlocal, Dev.reg, writeBlock_regs remote, Dev.reg]
  have status : (d.fetchFault n reFetchDenied).reg (R.RING_STATUS n) = (ringFaulted (d.dropFetch n) n reFetchDenied).reg (R.RING_STATUS n) :=
    (regs _).trans (raise_reg_ring _ _ _ (ringStatus_window n))
  refine ⟨?_, ?_, ?_⟩
  · rw [Dev.ringState, Dev.getF, status]
    exact state
  · rw [Dev.getF, status]
    exact code
  · exact (bitOf_eq_of_reg 16 (regs R.FLT_WORD_LO)).trans (raise_bitOf _ n (by decide))

/-- What a load whose area at `a` cannot be read makes of the device: the fault of its ring, or a completion with the status of its READs. -/
structure Unread (d : Dev) (n : Nat) (remote : RemoteRead) (q : Desc) (a len : Nat) (e : Dev) : Prop where
  poisoned : d.ringRemote n = false → d.poisoned a len = true → e = d.fetchFault n reFetchDenied
  failed : ∀ st, d.ownerFails n remote = some st → e = (d.beginDesc n q).complete n q st

/-- The READs of another device's memory alone can fail. -/
theorem ownerFails_remote {d : Dev} {n : Nat} {remote : RemoteRead} {st : Nat} (h : d.ownerFails n remote = some st) : d.ringRemote n = true := by
  by_contra hlocal
  simp [Dev.ownerFails, hlocal] at h

theorem withLoad_unread {d : Dev} {n op : Nat} {remote : RemoteRead} {q : Desc} {a len al : Nat} {t : List (Nat × Nat × Nat)}
    (k : Dev → Desc → List Byte → Dev) (hnext : d.nextDesc n op = some q) (hareas : q.areas d.deviceNum = (a, len, al) :: t) :
    Unread d n remote q a len (d.withLoad n op remote k) := by
  refine ⟨fun hlocal hpoisoned => ?_, fun st hfails => ?_⟩
  · simp only [Dev.withLoad, hnext, hareas, hlocal, hpoisoned, Bool.not_false, Bool.and_self, if_true]
  · simp only [Dev.withLoad, hnext, hareas, ownerFails_remote hfails, hfails, Bool.not_true, Bool.false_and, Bool.false_eq_true, if_false]

theorem withEntries_unread {d : Dev} {n op : Nat} {remote : RemoteRead} {q : Desc} {a len al : Nat} {t : List (Nat × Nat × Nat)}
    (entLen : List Byte → Nat → Nat) (k : Dev → Desc → List Byte → List Nat → Dev) (hnext : d.nextDesc n op = some q)
    (hareas : q.areas d.deviceNum = (a, len, al) :: t) : Unread d n remote q a len (d.withEntries n op remote entLen k) := by
  rw [Dev.withEntries]
  exact withLoad_unread _ hnext hareas

section
variable {d : Dev} {n : Nat} {remote : RemoteRead} {q : Desc} {a len al : Nat} {t : List (Nat × Nat × Nat)}
  (hareas : q.areas d.deviceNum = (a, len, al) :: t)
include hareas

theorem timingLoad_unread (hnext : d.nextDesc n opTimingLoad = some q) (hfree : (q.mask 26 2).any d.commitPending = false) :
    Unread d n remote q a len (d.timingLoad n remote) := by
  simp only [Dev.timingLoad, hnext, hfree, Bool.false_eq_true, if_false]
  exact withLoad_unread _ hnext hareas

theorem calLoad_unread (hnext : d.nextDesc n opCalLoad = some q) (hfree : d.calPending (q.get 32 2) = false ∧ d.calFilling (q.get 32 2) = false) :
    Unread d n remote q a len (d.calLoad n remote) := by
  simp only [Dev.calLoad, hnext, hfree.1, hfree.2, Bool.or_self, Bool.false_eq_true, if_false]
  exact withLoad_unread _ hnext hareas

/-- A plan of PPMU steps is read from the first of its areas (R93). -/
theorem ppmuMeasure_unread (hnext : d.nextDesc n opPpmu = some q) : Unread d n remote q a len (d.ppmuMeasure n remote) := by
  obtain ⟨-, -, opcode⟩ := nextDesc_some hnext
  obtain ⟨rfl, rfl⟩ : q.get 16 8 = a ∧ 16 * q.get 24 2 = len := by
    simp only [Desc.areas, opcode, opPpmu, Nat.reduceEqDiff, or_self, if_false, if_true, List.cons.injEq, Prod.mk.injEq] at hareas
    exact ⟨hareas.1.1, hareas.1.2.1⟩
  refine ⟨fun hlocal hpoisoned => ?_, fun st hfails => ?_⟩
  · simp only [Dev.ppmuMeasure, hnext, hlocal, hpoisoned, Bool.not_false, Bool.and_self, if_true]
  · simp only [Dev.ppmuMeasure, hnext, ownerFails_remote hfails, hfails, Bool.not_true, Bool.false_and, Bool.false_eq_true, if_false]

end

theorem Unread.completes {c : Instr} {s : State} {n : Fin 64} {remote : RemoteRead} {q : Desc} {a len : Nat} {e : Dev}
    (h : Unread s.dev n remote q a len e) (hexec : exec c s = .next (s.put e)) :
    (s.dev.ringRemote n = false → s.dev.poisoned a len = true → Completes c s (fun e => e.ringState n = rsFault ∧
      e.getF (R.RING_STATUS n) F.RING_STATUS_ERR = reFetchDenied ∧ e.bitOf R.FLT_WORD_LO 16 = true)) ∧
    (∀ st, s.dev.ownerFails n remote = some st → Completes c s (fun e => Ended n q st 0 0 s.dev e ∧ e.seq = s.dev.seq ∧ e.regs = s.dev.regs ∧
      e.mem = memCanon s.dev.mem)) := by
  refine ⟨fun hlocal hpoisoned => ?_, fun st hfails => ?_⟩
  · rw [h.poisoned hlocal hpoisoned] at hexec
    exact ⟨_, hexec, rfl, fetchFault_denied hlocal⟩
  · rw [h.failed st hfails] at hexec
    exact ⟨_, hexec, rfl, ended_complete rfl st 0 0, beginDesc_seq s.dev n q false, beginDesc_regs s.dev n q false,
      congrArg memCanon (beginDesc_mem s.dev n q)⟩

/-! ### The obligation -/

/-- Settles O24: a list is refused where a check of one of its entries fails, and where none does its entries are applied to the shadow state alone; a load
whose area cannot be read ends before its checks. That a poisoned line faults the ring and that a READ which fails ends the load with its
status are the model's choices (log entries 88 and 117). -/
theorem entryLoads : Obligations.EntryLoads := by
  unfold Obligations.EntryLoads
  refine ⟨fun s n remote q hread bs hbs => ⟨fun offs hnext hoffs => ?bind, fun offs hnext hoffs good hgood => ?capture,
    fun offs hnext hoffs count hcount => ?dds⟩, fun s n remote q c op a len al t hc hnext hareas htiming hcal => ?unread⟩
  case bind =>
    refine ⟨fun hpass => completes_act (f := fun d => d.bindLoad n remote) rfl ?_, fun hfail => ?_⟩
    · rw [bindLoad_accepted hnext hread hbs hoffs (bindFail_eq_none_iff.mpr hpass)]
      exact ⟨ended_complete rfl stOk 0 0, rfl, rfl, beginDesc_regs s.dev n q false⟩
    · refine (bindLoad_refused hnext hread hbs hoffs ?_).completes rfl
      rw [Ne, bindFail_eq_none_iff, hfail]
      decide
  case capture =>
    refine ⟨fun hpass => completes_act (f := fun d => d.captureLoad n remote) rfl ?_, fun hfail => ?_⟩
    · rw [captureLoad_accepted hnext hread hbs hoffs (captureFail_eq_none_iff.mpr (hgood ▸ hpass))]
      exact ⟨ended_complete rfl stOk 0 0, rfl, rfl, beginDesc_regs s.dev n q false⟩
    · refine (captureLoad_refused hnext hread hbs hoffs ?_).completes rfl
      rw [Ne, captureFail_eq_none_iff, ← hgood, hfail]
      decide
  case dds =>
    rw [← ddsEntries, ← ddsCount_all] at hcount
    refine ⟨fun hfields hroom => completes_act (f := fun d => d.ddsLoad n remote) rfl ?_, fun hfail => ?_⟩
    · rw [ddsLoad_accepted hnext hread hbs hoffs (ddsFail_eq_none hfields (hcount ▸ hroom))]
      exact ⟨ended_complete rfl stOk 0 0, rfl, rfl, beginDesc_regs s.dev n q false⟩
    · exact (ddsLoad_refused hnext hread hbs hoffs (ddsFail_ne_none (hcount ▸ hfail))).completes rfl
  case unread =>
    simp only [List.mem_cons, Prod.mk.injEq, List.not_mem_nil, or_false] at hc
    rcases hc with ⟨rfl, rfl⟩ | ⟨rfl, rfl⟩ | ⟨rfl, rfl⟩ | ⟨rfl, rfl⟩ | ⟨rfl, rfl⟩ | ⟨rfl, rfl⟩ | ⟨rfl, rfl⟩ | ⟨rfl, rfl⟩
    · exact (withLoad_unread _ hnext hareas : Unread _ _ _ _ _ _ (s.dev.imageLoad n remote)).completes rfl
    · exact (timingLoad_unread hareas hnext (htiming rfl)).completes rfl
    · exact (withLoad_unread _ hnext hareas : Unread _ _ _ _ _ _ (s.dev.levelsLoad n remote)).completes rfl
    · exact (withEntries_unread _ _ hnext hareas : Unread _ _ _ _ _ _ (s.dev.bindLoad n remote)).completes rfl
    · exact (withEntries_unread _ _ hnext hareas : Unread _ _ _ _ _ _ (s.dev.captureLoad n remote)).completes rfl
    · exact (withEntries_unread _ _ hnext hareas : Unread _ _ _ _ _ _ (s.dev.ddsLoad n remote)).completes rfl
    · exact (calLoad_unread hareas hnext (hcal rfl)).completes rfl
    · exact (ppmuMeasure_unread hareas hnext).completes rfl

end Sys2Proof.Proofs
end

section
/-! PROOFS. The hold-report ring: its writes, and its registers (spec/06 R191, spec/01 R37). -/

namespace Sys2Proof.Proofs

open Sys2Proof Sys2Proof.Machine

set_option Elab.async false

/-! ### A report is written -/

/-- The address of the slot that PI names. -/
def holdSlot (d : Dev) : Nat := 4096 * (d.reg R.HRT_HOLD_BASE).toNat + 32 * ((d.reg R.HRT_HOLD_PI).toNat % 2 ^ d.getF R.HRT_HOLD_CTRL F.HRT_HOLD_CTRL_LOG2)

/-- Whether the ring has room for one more report. -/
def HoldRoom (d : Dev) : Prop :=
  sub32 (d.reg R.HRT_HOLD_PI).toNat (d.reg R.HRT_HOLD_CI).toNat < 2 ^ d.getF R.HRT_HOLD_CTRL F.HRT_HOLD_CTRL_LOG2

/-- The device in which the report stands in its slot, PI counts it, and its site waits for one fewer. -/
def reportWritten (d : Dev) (x : HoldReport) (rest : List HoldReport) : Dev :=
  let e := ((d.write (holdSlot d) (slice x.bytes 0 32)).setReg R.HRT_HOLD_PI (BitVec.ofNat 32 ((d.reg R.HRT_HOLD_PI).toNat + 1))).modSite x.site
    fun y => { y with holdsOut := y.holdsOut - 1 }
  { e with seq := { e.seq with reports := rest } }

section
variable {d : Dev} {x : HoldReport} {rest : List HoldReport} (hreports : d.seq.reports = x :: rest)
include hreports

theorem holdReportWrite_room (hroom : HoldRoom d) : d.holdReportWrite = reportWritten d x rest := by
  unfold Dev.holdReportWrite
  simp only [hreports]
  exact if_neg (Nat.not_le.mpr hroom)

theorem holdReportWrite_full (hfull : ¬HoldRoom d) : d.holdReportWrite = d := by
  unfold Dev.holdReportWrite
  simp only [hreports]
  exact if_pos (Nat.not_lt.mp hfull)

end

/-! ### HRT_HOLD_CI and HRT_HOLD_CTRL -/

/-- The rows of HRT_HOLD_CI and HRT_HOLD_CTRL. -/
def holdCiRow : RDesc := ⟨0x10002c, [], [⟨0, 32, .rw, 0, false⟩]⟩
def holdCtrlRow : RDesc := ⟨0x100020, [], [⟨31, 1, .rw, 0, false⟩, ⟨0, 5, .rw, 8, false⟩]⟩

theorem regRow_holdCi : regRow (regCanon R.HRT_HOLD_CI) = some holdCiRow := by decide +kernel
theorem regRow_holdCtrl : regRow (regCanon R.HRT_HOLD_CTRL) = some holdCtrlRow := by decide +kernel
theorem regCanon_holdCi : regCanon R.HRT_HOLD_CI = R.HRT_HOLD_CI := by decide +kernel
theorem regCanon_holdCtrl : regCanon R.HRT_HOLD_CTRL = R.HRT_HOLD_CTRL := by decide +kernel
theorem holdCtrlRow_mem : holdCtrlRow ∈ regTable := by decide +kernel

/-- Both take the word as it is written. -/
theorem regNorm_holdCi (w : Word) : regNorm R.HRT_HOLD_CI w = w := rfl
theorem regNorm_holdCtrl (w : Word) : regNorm R.HRT_HOLD_CTRL w = w := rfl

/-- A register of one RW field of 32 bits holds the word written. -/
theorem holdCiRow_store (old w : Word) : holdCiRow.store old w = w := by
  have store := getBits_store_rw (r := holdCiRow) (by decide +kernel) (f := ⟨0, 32, .rw, 0, false⟩) (by decide) rfl old w
  have whole : ∀ v : Word, getBits v ⟨0, 32⟩ = v.toNat := fun v => by simp [getBits, natField, v.isLt]
  exact BitVec.eq_of_toNat_eq (by rwa [whole, whole] at store)

section
variable {d : Dev} {o : Origin} {w : Word}

/-- A write of CI is stored; it is neither logged (R519) nor acted on. -/
theorem writeReg_holdCi (h : Accepts d o R.HRT_HOLD_CI w) : d.writeReg o.id R.HRT_HOLD_CI w = d.setReg R.HRT_HOLD_CI w := by
  obtain ⟨running, judged⟩ := h
  rw [Dev.writeReg, writeVia_accepted running judged regRow_holdCi (by decide), regCanon_holdCi, regNorm_holdCi, holdCiRow_store]
  have silent : d.logWrite o.id R.HRT_HOLD_CI w = d := by
    have row : regRow R.HRT_HOLD_CI = some holdCiRow := regCanon_holdCi ▸ regRow_holdCi
    simp only [Dev.logWrite, row]
    exact if_pos (by rw [Bool.or_eq_true]; exact .inl (by decide))
  rw [silent]
  rfl

/-- The device in which a write of HRT_HOLD_CTRL is logged and stored. -/
def holdCtrlStored (d : Dev) (o : Origin) (w : Word) : Dev :=
  (d.logWrite o.id R.HRT_HOLD_CTRL w).setReg R.HRT_HOLD_CTRL (holdCtrlRow.store (d.reg R.HRT_HOLD_CTRL) w)

/-- A field of the control register is stored as written. -/
theorem holdCtrlStored_field {f : RField} (hf : f ∈ holdCtrlRow.fields) (hrw : f.ty = .rw) :
    (holdCtrlStored d o w).getF R.HRT_HOLD_CTRL ⟨f.lsb, f.width⟩ = getBits w ⟨f.lsb, f.width⟩ := by
  rw [Dev.getF, holdCtrlStored, reg_setReg_same]
  exact getBits_store_rw holdCtrlRow_mem hf hrw _ w

theorem writeReg_holdCtrl (h : Accepts d o R.HRT_HOLD_CTRL w) :
    d.writeReg o.id R.HRT_HOLD_CTRL w = (holdCtrlStored d o w).holdCtrl (d.reg R.HRT_HOLD_CTRL) w := by
  obtain ⟨running, judged⟩ := h
  rw [Dev.writeReg, writeVia_accepted running judged regRow_holdCtrl (by decide), regCanon_holdCtrl, regNorm_holdCtrl]
  rfl

end

/-- A ring that starts anew. -/
def holdRestarted (d : Dev) : Dev := { (d.setReg R.HRT_HOLD_PI 0).setReg R.HRT_HOLD_CI 0 with seq := { d.seq with reportSeq := 0 } }

/-- A rise of ENABLE starts the ring anew. -/
theorem holdCtrl_rise {d : Dev} {old w : Word} (hold : getBits old F.HRT_HOLD_CTRL_ENABLE = 0) (hw : getBits w F.HRT_HOLD_CTRL_ENABLE = 1) :
    d.holdCtrl old w = holdRestarted d :=
  if_pos ⟨hold, hw⟩

theorem holdRestarted_ctrl (d : Dev) : (holdRestarted d).reg R.HRT_HOLD_CTRL = d.reg R.HRT_HOLD_CTRL :=
  (reg_setReg_other _ _ _ _ (by decide)).trans (reg_setReg_other _ _ _ _ (by decide))

theorem holdRestarted_pi (d : Dev) : (holdRestarted d).reg R.HRT_HOLD_PI = 0 :=
  (reg_setReg_other _ _ _ _ (by decide)).trans (reg_setReg_same _ _ _)

theorem flag_of_getF {d : Dev} {off : Nat} {f : Fld} (h : d.getF off f = 1) : d.flag off f = true := by
  rw [Dev.flag, h]
  rfl

/-! ### The obligation -/

/-- Settles O34: the outcome of a report's write by `holdReportWrite_room`, of the two registers' writes by `writeReg_holdCi` and `writeReg_holdCtrl`. -/
theorem holdReports : Obligations.HoldReports := by
  unfold Obligations.HoldReports
  refine ⟨?write, ?ci, ?ctrl⟩
  case write =>
    rintro s x rest _ hinv hreports rfl _ rfl _ rfl
    refine ⟨fun hroom => completes_act (f := fun d => d.holdReportWrite) rfl ?_, fun hfull => ?_⟩
    · rw [holdReportWrite_room hreports hroom, canon_of_wf (d := reportWritten s.dev x rest) (write_wf s.dev _ _ hinv)]
      have slot := read_write_same s.dev (holdSlot s.dev) (slice x.bytes 0 32)
      rw [length_slice] at slot
      exact ⟨slot, fun b hb => memByte_memWrite_other _ _ _ _ (by rwa [length_slice]), reg_setReg_same _ _ _,
        fun off hoff => reg_setReg_other (s.dev.write _ _) _ _ _ (fun h => hoff (List.mem_singleton.mpr h)), rfl, rfl⟩
    · exact exec_eq_self (f := fun d => d.holdReportWrite) rfl (holdReportWrite_full hreports (Nat.not_lt.mpr hfull)) hinv
  case ci =>
    intro s o w hinv haccept
    refine completes_act (f := fun d => d.writeReg o.id R.HRT_HOLD_CI w) rfl ?_
    rw [writeReg_holdCi haccept, canon_of_wf (d := s.dev.setReg _ _) hinv]
    exact ⟨reg_setReg_same _ _ _, fun off hoff => reg_setReg_other _ _ _ _ (fun h => hoff (List.mem_singleton.mpr h)), rfl⟩
  case ctrl =>
    intro s o w haccept hoff hon
    refine completes_act (f := fun d => d.writeReg o.id R.HRT_HOLD_CTRL w) rfl ?_
    have was : getBits (s.dev.reg R.HRT_HOLD_CTRL) F.HRT_HOLD_CTRL_ENABLE = 0 := by simpa [Dev.flag, Dev.getF] using hoff
    rw [writeReg_holdCtrl haccept, holdCtrl_rise was hon]
    have stored : ∀ f, (holdRestarted (holdCtrlStored s.dev o w)).canon.getF R.HRT_HOLD_CTRL f = (holdCtrlStored s.dev o w).getF R.HRT_HOLD_CTRL f :=
      fun f => getF_eq_of_reg f (holdRestarted_ctrl _)
    have enable := holdCtrlStored_field (d := s.dev) (o := o) (w := w) (f := ⟨31, 1, .rw, 0, false⟩) (by decide) rfl
    have size := holdCtrlStored_field (d := s.dev) (o := o) (w := w) (f := ⟨0, 5, .rw, 8, false⟩) (by decide) rfl
    exact ⟨flag_of_getF ((stored _).trans (enable.trans hon)), (stored _).trans size, holdRestarted_pi _, reg_setReg_same _ _ _, rfl⟩

end Sys2Proof.Proofs
end

section
/-! PROOFS. What a site hears while it waits: of the turns of other sites, of its capture unit, of a release (spec/06 R181-R183, R190, R196-R202). -/

namespace Sys2Proof.Proofs

open Sys2Proof Sys2Proof.Machine

set_option Elab.async false

/-- What a wait is for: a rendezvous or a hold, and at which point. -/
def waitKind (w : IdleWait) : Bool × Nat := (w.rdv, w.point)

/-- A wait without the cause of a hold, which a freed engine may still change (R181). -/
def uncaused (w : IdleWait) : IdleWait := if w.rdv then w else { w with cause := 0 }

/-- A run that no release reaches: it is in no rendezvous, or it has been released or withdrawn (R196, R200, R202). -/
def Deaf (r : SiteRun) : Prop := ∀ w, r.wait = some w → w.rdv = true → w.limitHit = true ∨ r.rdvDone.isSome = true

theorem rdv_uncaused (w : IdleWait) : (uncaused w).rdv = w.rdv := by
  unfold uncaused
  split <;> rfl

theorem limitHit_uncaused (w : IdleWait) : (uncaused w).limitHit = w.limitHit := by
  unfold uncaused
  split <;> rfl

theorem t_uncaused (w : IdleWait) : (uncaused w).t = w.t := by
  unfold uncaused
  split <;> rfl

/-- The cause of a rendezvous wait never changes. -/
theorem eq_of_uncaused_rdv {v w : IdleWait} (h : uncaused v = uncaused w) (hrdv : w.rdv = true) : v = w := by
  have same := congrArg IdleWait.rdv h
  rw [rdv_uncaused, rdv_uncaused, hrdv] at same
  simpa [uncaused, hrdv, same] using h

theorem deaf_of_none {r : SiteRun} (h : r.wait = none) : Deaf r := fun w hw => by rw [h] at hw; cases hw

theorem deaf_of_hold {r : SiteRun} {w : IdleWait} (h : r.wait = some w) (hrdv : w.rdv = false) : Deaf r := fun v hv hr => by
  rw [h, Option.some.injEq] at hv
  rw [← hv, hrdv] at hr
  cases hr

/-- A wait of which only the cause may differ is deaf as the other is. -/
theorem Deaf.of_uncaused {r : SiteRun} (h : Deaf r) {w : Option IdleWait} (hw : w.map uncaused = r.wait.map uncaused) : Deaf { r with wait := w } := by
  rintro v (rfl : w = some v) hrdv
  obtain ⟨u, hu, same⟩ := Option.map_eq_some_iff.mp hw.symm
  have rdv := congrArg IdleWait.rdv same
  have limit := congrArg IdleWait.limitHit same
  rw [rdv_uncaused, rdv_uncaused] at rdv
  rw [limitHit_uncaused, limitHit_uncaused] at limit
  exact limit ▸ h u hu (rdv.trans hrdv)

/-- A rendezvous wait that a release finds: neither withdrawn nor released. -/
theorem wait_of_rdvWait {d : Dev} {x : Nat} {w : IdleWait} (h : d.rdvWait x = some w) :
    (d.site x).run.wait = some w ∧ w.rdv = true ∧ w.limitHit = false ∧ (d.site x).run.rdvDone = none := by
  unfold Dev.rdvWait at h
  split at h
  · next v hv =>
    split at h
    · next hc =>
      simp only [Bool.and_eq_true, Bool.not_eq_true', Option.isNone_iff_eq_none] at hc
      obtain ⟨⟨rdv, limit⟩, done⟩ := hc
      exact Option.some.inj h ▸ ⟨hv, rdv, limit, done⟩
    · cases h
  · cases h

theorem not_deaf_of_rdvWait {d : Dev} {x : Nat} {w : IdleWait} (h : d.rdvWait x = some w) : ¬Deaf (d.site x).run := fun deaf => by
  obtain ⟨waits, rdv, limit, done⟩ := wait_of_rdvWait h
  have reached := deaf w waits rdv
  simp [limit, done] at reached

/-! ### A site that others pass by -/

/-- The run stands where it stood and waits for what it waited for. -/
structure SameWait (r r' : SiteRun) : Prop where
  flow : r'.flow = r.flow := by rfl
  vec : r'.vec = r.vec := by rfl
  rep : r'.rep = r.rep := by rfl
  idle : r'.idle = r.idle := by rfl
  kind : r'.wait.map waitKind = r.wait.map waitKind := by rfl

/-- So it does; deaf to releases, all that may change is the cause of its hold. -/
structure Hears (r r' : SiteRun) : Prop extends SameWait r r' where
  deaf : Deaf r → ∃ w, r' = { r with wait := w } ∧ w.map uncaused = r.wait.map uncaused := by exact fun _ => ⟨_, rfl, rfl⟩

/-- The site is in the state it was in, its holds counted as they were. -/
structure Undisturbed (y z : Site) : Prop where
  st : z.st = y.st := by rfl
  holds : z.holds = y.holds := by rfl
  ticks : z.holdTicks = y.holdTicks := by rfl
  run : Hears y.run z.run := by exact {}

theorem SameWait.trans {a b c : SiteRun} (h : SameWait a b) (g : SameWait b c) : SameWait a c :=
  ⟨g.flow.trans h.flow, g.vec.trans h.vec, g.rep.trans h.rep, g.idle.trans h.idle, g.kind.trans h.kind⟩

theorem Hears.trans {a b c : SiteRun} (h : Hears a b) (g : Hears b c) : Hears a c := by
  refine ⟨h.toSameWait.trans g.toSameWait, fun deaf => ?_⟩
  obtain ⟨w, rfl, hw⟩ := h.deaf deaf
  obtain ⟨v, rfl, hv⟩ := g.deaf (deaf.of_uncaused hw)
  exact ⟨v, rfl, hv.trans hw⟩

/-- A hold is still one, and began when it began. -/
theorem Hears.hold {r r' : SiteRun} (h : Hears r r') {w : IdleWait} (hwait : r.wait = some w) (hrdv : w.rdv = false) :
    ∃ v, r'.wait = some v ∧ v.rdv = false ∧ v.t = w.t ∧ r'.t = r.t := by
  obtain ⟨u, rfl, same⟩ := h.deaf (deaf_of_hold hwait hrdv)
  rw [hwait] at same
  obtain ⟨v, rfl, hv⟩ := Option.map_eq_some_iff.mp same
  refine ⟨v, rfl, ?_, ?_, rfl⟩
  · rw [← rdv_uncaused, hv, rdv_uncaused, hrdv]
  · rw [← t_uncaused, hv, t_uncaused]

theorem Undisturbed.trans {a b c : Site} (h : Undisturbed a b) (g : Undisturbed b c) : Undisturbed a c :=
  ⟨g.st.trans h.st, g.holds.trans h.holds, g.ticks.trans h.ticks, h.run.trans g.run⟩

/-- Site `x` is undisturbed. -/
def Beside (x : Nat) (d e : Dev) : Prop := Undisturbed (d.site x) (e.site x)

namespace Beside

variable {x : Nat}

theorem refl (d : Dev) : Beside x d d := {}

theorem trans {d e f : Dev} (h : Beside x d e) (g : Beside x e f) : Beside x d f := Undisturbed.trans h g

theorem foldl {α : Type} {f : Dev → α → Dev} (xs : List α) (d : Dev) (h : ∀ d, ∀ y ∈ xs, Beside x d (f d y)) : Beside x d (xs.foldl f d) :=
  List.foldlRecOn xs f (motive := Beside x d) (refl d) fun e he y hy => he.trans (h e y hy)

theorem ite {c : Prop} [Decidable c] {d a b : Dev} (ha : Beside x d a) (hb : Beside x d b) : Beside x d (if c then a else b) := by
  split <;> assumption

theorem of_site {d e : Dev} (h : e.site x = d.site x) : Beside x d e := by
  rw [Beside, h]
  exact {}

/-- What leaves the sites alone. -/
theorem of_sites {d e : Dev} (h : e.seq.sites = d.seq.sites := by rfl) : Beside x d e := of_site (by rw [Dev.site, h, Dev.site])

theorem of_sends {d e : Dev} (h : Sends d e) : Beside x d e := of_sites (by rw [h.seq])

theorem of_setUp {d e : Dev} (h : SetUpKept d e) : Beside x d e := of_sites h.2.2

theorem modSite (d : Dev) (s : Nat) (f : Site → Site) (hf : ∀ y, Undisturbed y (f y) := by exact fun _ => {}) : Beside x d (d.modSite s f) := by
  by_cases h : x = s
  · rw [Beside, h, site_modSite_same]
    exact hf _
  · exact of_site (site_modSite_other d f h)

theorem modSite_other (d : Dev) {s : Nat} (f : Site → Site) (h : x ≠ s) : Beside x d (d.modSite s f) := of_site (site_modSite_other d f h)

/-! ### Capture units, the site's own among them -/

variable (d : Dev) (s : Nat)

theorem modCap (f : CapRun → CapRun) : Beside x d (d.modCap s f) := modSite d s _

theorem write (a : Nat) (bs : List Byte) : Beside x d (d.write a bs) := of_sites

variable (p : CapPlan)

theorem capPut (r : List Byte) : Beside x d (d.capPut s p r) := by
  unfold Dev.capPut
  exact (write d _ _).trans (modCap _ s _)

theorem capStop (vc cause : Nat) : Beside x d (d.capStop s p vc cause) := ite ((modCap d s _).trans (capPut _ s p _)) (modCap d s _)

theorem capResult (i : WinInst) : Beside x d (d.capResult s p i) := ite (modCap d s _) ((write d _ _).trans (modCap _ s _))

theorem fineRef (n : Nat) (stamp : Option (Nat × Nat)) (place : Nat) : Beside x d (d.fineRef n stamp place) := by
  cases stamp <;> exact of_sites

theorem capTry (vc : Nat) (r : List Byte) : Beside x d (d.capTry s p vc r).2 := by
  unfold Dev.capTry
  dsimp only
  split
  · exact refl d
  split
  · exact capStop d s p vc 1
  split
  · exact refl d
  · exact capPut d s p r

variable {d s p} in
/-- An offered record, whatever became of it. -/
theorem of_capTry {e : Dev} {vc : Nat} {r : List Byte} {t : CapTry} (h : d.capTry s p vc r = (t, e)) : Beside x d e := by
  have tried := capTry (x := x) d s p vc r
  rwa [h] at tried

theorem capSample (v : VecRec) (mode : Nat) (y : Samp) : Beside x d (d.capSample s p v mode y) := by
  unfold Dev.capSample
  dsimp only
  split
  · exact refl d
  refine (modCap d s _).trans (ite ?_ (ite (modCap _ s _) (refl _)))
  split
  · next h => exact (of_capTry h).trans ((fineRef _ _ _ _).trans (modCap _ s _))
  · next h => exact (of_capTry h).trans (ite (modCap _ s _) (refl _))
  · next h => exact (of_capTry h).trans ((modCap _ s _).trans (ite (capStop _ s p _ 0) (refl _)))

theorem capWindows (v : VecRec) : Beside x d (d.capWindows s p v) := (modCap d s _).trans (foldl _ _ fun d i _ => capResult d s p i)

theorem capDamper (v : VecRec) : Beside x d (d.capDamper s p v) := by
  unfold Dev.capDamper
  dsimp only
  refine ite ?_ (refl d)
  split
  · next h => exact (modCap d s _).trans ((of_capTry h).trans (modCap _ s _))
  · next h => exact (modCap d s _).trans ((of_capTry h).trans (modCap _ s _))
  · next h => exact (modCap d s _).trans (of_capTry h)

theorem capLate (v : VecRec) : Beside x d (d.capLate s p v) := by
  unfold Dev.capLate
  split
  · exact refl d
  split
  · next h => exact (of_capTry h).trans (modCap _ s _)
  · next h => exact of_capTry h

theorem capTake (v : VecRec) : Beside x d (d.capTake s v) := by
  unfold Dev.capTake
  split
  · exact refl d
  next p _ =>
  dsimp only
  refine (Beside.trans ?_ (capWindows _ s p v)).trans (modCap _ s _)
  refine (Beside.trans ?_ (capLate _ s p v)).trans (ite (capStop _ s p _ 0) (refl _))
  exact (capDamper d s p v).trans (ite (foldl _ _ fun d y _ => ite (capSample d s p v _ y) (refl d)) (refl _))

theorem capDecide : Beside x d (d.capDecide s) := by
  unfold Dev.capDecide
  split
  · exact refl d
  · exact modCap d s _

theorem capDrain (l : List CapItem) : Beside x d (d.capDrain s l) := by
  induction l generalizing d with
  | nil => exact modCap d s _
  | cons y t ih =>
    cases y with
    | boundary => exact (capDecide d s).trans (ih _)
    | vec v p j => exact ite (modCap d s _) ((capTake d s v).trans (ih _))

theorem capBegin : Beside x d (d.capBegin s) := by
  unfold Dev.capBegin
  dsimp only
  split
  · exact modSite d s _
  · exact (modSite d s _).trans (capPut _ s _ _)

theorem capFinish : Beside x d (d.capFinish s) := by
  unfold Dev.capFinish
  dsimp only
  split
  · exact modCap d s _
  next p _ =>
  refine Beside.trans ?_ (write _ _ _)
  refine (Beside.trans ?_ (capPut _ s p _)).trans (capPut _ s p _)
  refine (Beside.trans ?_ (modCap _ s _)).trans (foldl _ _ fun d i _ => capResult d s p i)
  split
  · exact (modCap d s _).trans (capStop _ s p _ 0)
  · exact modCap d s _

/-! ### Pins, synthesizers, TMU channels -/

theorem pinsSafe (chs : List Nat) : Beside x d (d.pinsSafe chs) := by
  obtain ⟨time, only⟩ := pinsSafe_only d chs
  exact of_sites (by rw [only])

theorem ddsStop : Beside x d (d.ddsStop s) := by
  have units : Beside x d ((d.ddsClaims s).foldl (fun d c => match d.ddsList c with
      | some l => d.modDds c.unit (fun u => ({ u with connected := false }).load l 0 0 0)
      | none => d.modDds c.unit (fun u => { u with connected := false })) d) :=
    foldl _ d fun d c _ => by split <;> exact of_sites
  unfold Dev.ddsStop
  dsimp only
  split
  · exact units.trans of_sites
  · exact units

theorem tmuStop : Beside x d (d.tmuStop s) :=
  ite (refl d) ((of_sites : Beside x d d.tbNow).trans (foldl _ _ fun d c _ => (ite (refl d) (of_setUp (.tmuMark d _ 1))).trans of_sites))

/-! ### Groups and engines -/

theorem nameGroup (k : Nat) : Beside x d (d.nameGroup k) := by
  unfold Dev.nameGroup
  split
  · exact refl d
  · exact foldl _ d fun d s _ => modSite d s _

/-- A hold whose group got an engine changes its cause; a rendezvous does not. -/
theorem holdCause (k : Nat) : Beside x d (d.holdCause k) := by
  have caused : ∀ w : IdleWait, waitKind (if w.rdv then w else { w with cause := 1 }) = waitKind w ∧
      uncaused (if w.rdv then w else { w with cause := 1 }) = uncaused w := fun w => by
    cases h : w.rdv <;> simp [waitKind, uncaused, h]
  unfold Dev.holdCause
  split
  · exact refl d
  split
  · exact refl d
  refine ite (foldl _ d fun d m _ => modSite d m _ fun y => ⟨rfl, rfl, rfl, { kind := ?_ }, fun _ => ⟨_, rfl, ?_⟩⟩) (refl d)
  · simp only [Option.map_map, Function.comp_def, caused]
  · simp only [Option.map_map, Function.comp_def, caused]

theorem freeEngine (n : Nat) : Beside x d (d.freeEngine n) := by
  unfold Dev.freeEngine
  split
  · exact of_sites
  dsimp only
  split
  · exact Beside.trans of_sites (holdCause _ _)
  · exact of_sites

theorem leaveGroup : Beside x d (d.leaveGroup s) := by
  unfold Dev.leaveGroup
  split
  · exact refl d
  dsimp only
  split
  · exact Beside.trans of_sites (foldl _ _ fun d e _ => freeEngine d e)
  · exact (of_sites : Beside x d (d.setGroup _ _)).trans (nameGroup _ _)

/-! ### Reports, releases, reasons -/

theorem postReport (bytes : List Byte) : Beside x d (d.postReport s bytes) := by
  unfold Dev.postReport
  dsimp only
  split
  · exact Beside.trans of_sites (modSite _ s _)
  · exact of_sites

/-- A site that a release reaches waits on, released or withdrawn. -/
theorem modSite_heard {d e : Dev} (h : Beside x d e) {s : Nat} (hs : x = s → ¬Deaf (d.site x).run) (f : Site → Site)
    (hf : ∀ y, (f y).st = y.st ∧ (f y).holds = y.holds ∧ (f y).holdTicks = y.holdTicks ∧ SameWait y.run (f y).run) : Beside x d (e.modSite s f) := by
  by_cases hx : x = s
  · subst hx
    obtain ⟨st, holds, ticks, run⟩ := hf (e.site x)
    rw [Beside, site_modSite_same]
    exact ⟨st.trans h.st, holds.trans h.holds, ticks.trans h.ticks, h.run.toSameWait.trans run, fun deaf => absurd deaf (hs rfl)⟩
  · exact h.trans (modSite_other e f hx)

/-- A release reaches the sites whose wait it finds (R199). -/
theorem takeRelease (r : Start) (id epoch : Nat) (fails : List Nat) : Beside x d (d.takeRelease r id epoch fails) := by
  have heard : ∀ s ∈ (d.participants r).filter (fun s => match d.rdvWait s with | some w => w.rdvId == id | none => false),
      x = s → ¬Deaf (d.site x).run := by
    rintro s hs rfl
    cases hwait : d.rdvWait x with
    | none => simp [hwait] at hs
    | some w => exact not_deaf_of_rdvWait hwait
  have each : ∀ (f : Dev → Nat → Dev) (e : Dev), Beside x d e → (∀ e s, Beside x d e → (x = s → ¬Deaf (d.site x).run) → Beside x d (f e s)) →
      Beside x d (((d.participants r).filter (fun s => match d.rdvWait s with | some w => w.rdvId == id | none => false)).foldl f e) := fun f e he hf =>
    List.foldlRecOn _ f (motive := Beside x d) he fun e' he' s hs => hf e' s he' (heard s hs)
  unfold Dev.takeRelease
  dsimp only
  split
  · refine each (fun d s => d.rdvWithdraw s) _ of_sites fun e s he hs => he.modSite_heard hs _ fun y => ⟨rfl, rfl, rfl, { kind := ?_ }⟩
    rw [Option.map_map]
    rfl
  · refine each (fun d s => d.rdvRelease s epoch fails) _ of_sites fun e s he hs => he.modSite_heard hs _ fun y => ⟨rfl, rfl, rfl, ?_⟩
    dsimp only
    split <;> exact {}

theorem gather (r : Start) (rep : RdvReport) : Beside x d (d.gather r rep) := by
  unfold Dev.gather
  dsimp only
  split
  · exact of_sites
  split
  · exact of_sites
  · refine Beside.trans ?_ (takeRelease _ r _ _ _)
    exact ite ((of_sites : Beside x d ((d.setMeet _).setMeet _)).trans (of_sends (.sendEvent _ _ _ _ _ _ _ _ _))) of_sites

theorem rdvCheck (id : Nat) : Beside x d (d.rdvCheck id) := by
  have met : ∀ m, Beside x d (d.setMeet m) := fun _ => of_sites
  unfold Dev.rdvCheck
  split
  · exact refl d
  · exact ite (refl d) (ite of_sites (ite ((met _).trans (gather _ _ _)) (ite ((met _).trans (of_sends (.sendPacket _ _))) ((met _).trans (gather _ _ _)))))

theorem sendFail : Beside x d (d.sendFail s) := by
  unfold Dev.sendFail
  split
  · exact refl d
  · exact ite (refl d) (ite (foldl _ d fun d p _ => of_sends (.enqueue d p _)) (of_sends (.sendEvent d _ _ _ _ _ _ _ _)))

theorem addReason (reason : Nat) : Beside x d (d.addReason s reason) := ite (refl d) ((modSite d s _).trans (ite (refl _) of_sites))

/-! ### The end of another site's run, and another member's turn -/

/-- The end of a run is whatever its wait, its last events and its passage to STOPPING are: the rest passes sites by. -/
theorem endSite_of {T : Dev → Dev → Prop} {s : Nat} (of_beside : ∀ d e, Beside x d e → T d e) (trans : ∀ d e f, T d e → T e f → T d f)
    (wait : ∀ d, T d (d.endWait s 1)) (last : ∀ d atOnce, T d (d.lastEvents s atOnce))
    (stopping : ∀ (d : Dev) (f : Site → Site), (∀ y, (f y).run = y.run ∧ (f y).holdTicks = y.holdTicks) → T d (d.modSite s f))
    (d : Dev) (cause : EndCause) (reason : Nat) (fromFail : Bool) : T d (d.endSite s cause reason fromFail) := by
  have kept : ∀ {d e f}, T d e → Beside x e f → T d f := fun h g => trans _ _ _ h (of_beside _ _ g)
  have either : ∀ {c : Prop} [Decidable c] {d a b : Dev}, T d a → T d b → T d (if c then a else b) := fun ha hb => by split <;> assumption
  unfold Dev.endSite
  dsimp only
  refine either (of_beside _ _ (refl d)) ?_
  refine kept (kept (kept ?_ (leaveGroup _ s)) (ite (sendFail _ s) (refl _))) (rdvCheck _ _)
  refine kept (kept (kept (kept ?_ (pinsSafe _ _)) (ddsStop _ s)) (tmuStop _ s)) (capFinish _ s)
  refine kept (kept (kept ?_ (ite (refl _) (capBegin _ s))) (ite of_sites (refl _))) (ite of_sites (refl _))
  refine trans _ _ _ ?_ (stopping _ _ fun _ => ⟨rfl, rfl⟩)
  refine kept (kept ?_ (ite (foldl _ _ fun d r _ => addReason d s r) (refl _))) (addReason _ s reason)
  exact either (trans _ _ _ (wait d) (last _ _)) (wait d)

section
variable {d : Dev} {s : Nat} (h : x ≠ s)
include h

theorem endWait (endCode : Nat) : Beside x d (d.endWait s endCode) := by
  unfold Dev.endWait
  dsimp only
  split
  · exact refl d
  · exact (modSite_other d _ h).trans (postReport _ s _)

theorem lastEvents (atOnce : Bool) : Beside x d (d.lastEvents s atOnce) := by
  unfold Dev.lastEvents
  dsimp only
  refine (Beside.trans ?_ (capDrain _ s _)).trans (modSite_other _ _ h)
  exact ite (modSite_other d _ h) (foldl _ d fun d y _ => of_setUp (.drive d _ _ _))

theorem endSite (cause : EndCause) (reason : Nat) (fromFail : Bool) : Beside x d (d.endSite s cause reason fromFail) :=
  endSite_of (fun _ _ => id) (fun _ _ _ => trans) (fun _ => endWait h 1) (fun _ => lastEvents h) (fun d f _ => modSite_other d f h) d cause reason fromFail

theorem finishMember (o : MemberEnd) : Beside x d (d.finishMember s o) := by
  unfold Dev.finishMember
  dsimp only
  have boundary : Beside x d (if (d.site s).run.idle = true then d else d.capBoundary s) := ite (refl d) (capDrain d s _)
  refine ite (ite (boundary.trans (endSite h _ _ _)) (boundary.trans (endSite h _ _ _))) (boundary.trans ?_)
  cases o with
  | ends c => exact endSite h c 0 false
  | again r => exact ite (endSite h _ _ _) (modSite_other _ _ h)
  | go f r =>
    refine ite (endSite h _ _ _) (Beside.trans ?_ (modSite_other _ _ h))
    exact (ite (endWait h 0) (refl _)).trans (ite (capDrain _ s _) (refl _))

end

end Beside

end Sys2Proof.Proofs
end

section
/-! PROOFS. The boundary of a lockstep group as a member sees it that waits, or begins to: the other members' turns, its own, and what follows (spec/06
R177-R182, R189, R190, R193, R201). -/

namespace Sys2Proof.Proofs

open Sys2Proof Sys2Proof.Machine

set_option Elab.async false

/-! ### After the member's own turn -/

/-- The site stands at the same vector of its image; waiting for nothing it goes on so, its time in holds as it was. -/
structure Placed (y z : Site) : Prop where
  flow : z.run.flow = y.run.flow := by rfl
  vec : z.run.vec = y.run.vec := by rfl
  rep : z.run.rep = y.run.rep := by rfl
  free : y.run.wait = none → z.run.wait = none ∧ z.run.idle = y.run.idle ∧ z.holdTicks = y.holdTicks := by exact fun h => ⟨h, rfl, rfl⟩

/-- So it does, and while it runs on it waits for what it waited for. -/
structure Stands (y z : Site) : Prop extends Placed y z where
  goes : z.st = .running → y.st = .running ∧ z.holds = y.holds ∧ z.run.idle = y.run.idle ∧ z.run.wait.map waitKind = y.run.wait.map waitKind

theorem Placed.trans {a b c : Site} (h : Placed a b) (g : Placed b c) : Placed a c := by
  refine ⟨g.flow.trans h.flow, g.vec.trans h.vec, g.rep.trans h.rep, fun hwait => ?_⟩
  obtain ⟨wait, idle, ticks⟩ := h.free hwait
  obtain ⟨wait', idle', ticks'⟩ := g.free wait
  exact ⟨wait', idle'.trans idle, ticks'.trans ticks⟩

theorem Placed.of_undisturbed {y z : Site} (h : Undisturbed y z) : Placed y z := by
  refine ⟨h.run.flow, h.run.vec, h.run.rep, fun hwait => ⟨?_, h.run.idle, h.ticks⟩⟩
  simpa [hwait] using h.run.kind

theorem Stands.trans {a b c : Site} (h : Stands a b) (g : Stands b c) : Stands a c := by
  refine ⟨h.toPlaced.trans g.toPlaced, fun running => ?_⟩
  obtain ⟨running', holds', idle', kind'⟩ := g.goes running
  obtain ⟨running'', holds, idle, kind⟩ := h.goes running'
  exact ⟨running'', holds'.trans holds, idle'.trans idle, kind'.trans kind⟩

theorem Stands.of_undisturbed {y z : Site} (h : Undisturbed y z) : Stands y z :=
  ⟨.of_undisturbed h, fun running => ⟨h.st ▸ running, h.holds, h.run.idle, h.run.kind⟩⟩

/-- A site that moves for itself stands where it stood. -/
theorem placed_modSite (d : Dev) (x : Nat) (f : Site → Site) (h : Placed (d.site x) (f (d.site x))) : Placed (d.site x) ((d.modSite x f).site x) := by
  rwa [site_modSite_same]

theorem placed_endWait (d : Dev) (x endCode : Nat) : Placed (d.site x) ((d.endWait x endCode).site x) := by
  unfold Dev.endWait
  dsimp only
  split
  · exact {}
  · next w hw =>
    refine (placed_modSite d x _ { free := fun hnone => ?_ }).trans (.of_undisturbed (Beside.postReport (x := x) _ x _))
    rw [hw] at hnone
    cases hnone

theorem placed_lastEvents (d : Dev) (x : Nat) (atOnce : Bool) : Placed (d.site x) ((d.lastEvents x atOnce).site x) := by
  have drives : Beside x d ((d.site x).run.spill.foldl (fun (d : Dev) y => d.drive y.ch y.drv y.t) d) := .foldl _ d fun d y _ => .of_setUp (.drive d _ _ _)
  unfold Dev.lastEvents
  dsimp only
  refine (Placed.trans ?_ (.of_undisturbed (Beside.capDrain _ x _ :))).trans (placed_modSite _ x _ ?_)
  · split
    · exact placed_modSite d x _ {}
    · exact .of_undisturbed drives
  · exact {}

/-- A run that ends leaves its site where it stood. -/
theorem placed_endSite (d : Dev) (x : Nat) (cause : EndCause) (reason : Nat) (fromFail : Bool) :
    Placed (d.site x) ((d.endSite x cause reason fromFail).site x) :=
  Beside.endSite_of (T := fun d e => Placed (d.site x) (e.site x)) (fun _ _ h => .of_undisturbed h) (fun _ _ _ => Placed.trans)
    (fun d => placed_endWait d x 1) (fun d => placed_lastEvents d x)
    (fun d f hf => placed_modSite d x f ⟨by rw [(hf _).1], by rw [(hf _).1], by rw [(hf _).1], fun hwait => by simp [hf, hwait]⟩) d cause reason fromFail

/-- The site stands at the same place, and while it runs on it waits for what it waited for. -/
def StandsBy (x : Nat) (d e : Dev) : Prop := Stands (d.site x) (e.site x)

namespace StandsBy

variable {x : Nat}

theorem of_beside {d e : Dev} (h : Beside x d e) : StandsBy x d e := .of_undisturbed h

theorem refl (d : Dev) : StandsBy x d d := of_beside (.refl d)

theorem trans {d e f : Dev} (h : StandsBy x d e) (g : StandsBy x e f) : StandsBy x d f := Stands.trans h g

theorem foldl {α : Type} {f : Dev → α → Dev} (xs : List α) (d : Dev) (h : ∀ d y, StandsBy x d (f d y)) : StandsBy x d (xs.foldl f d) :=
  List.foldlRecOn xs f (motive := StandsBy x d) (refl d) fun e he y _ => he.trans (h e y)

theorem ite {c : Prop} [Decidable c] {d a b : Dev} (ha : StandsBy x d a) (hb : StandsBy x d b) : StandsBy x d (if c then a else b) := by
  split <;> assumption

theorem of_sites {d e : Dev} (h : e.seq.sites = d.seq.sites := by rfl) : StandsBy x d e := of_beside (.of_sites h)

variable (d : Dev)

/-- A site whose own run ends no longer runs on. -/
theorem endSite (s : Nat) (cause : EndCause) (reason : Nat) (fromFail : Bool) : StandsBy x d (d.endSite s cause reason fromFail) := by
  by_cases hx : x = s
  · subst hx
    by_cases hactive : (d.site x).st = .starting ∨ (d.site x).st = .running
    · refine ⟨placed_endSite d x cause reason fromFail, fun running => ?_⟩
      rw [(endSite_ends d x cause reason fromFail hactive).ended.1] at running
      cases running
    · unfold Dev.endSite
      rw [if_pos (not_or.mp hactive)]
      exact refl d
  · exact of_beside (.endSite hx cause reason fromFail)

theorem nameGroup (k : Nat) : StandsBy x d (d.nameGroup k) := of_beside (.nameGroup d k)

theorem splitOff (g : Group) (z : ZImage) (ms : List Nat) (pc : Nat) : StandsBy x d (d.splitOff g z ms pc).1 := by
  unfold Dev.splitOff
  dsimp only
  split
  · next e h => exact ((of_sites (takeEngines_sites h) : StandsBy x d e).trans of_sites).trans (nameGroup (e.setGroup _ _) _)
  · exact (StandsBy.trans of_sites (nameGroup (d.setGroup _ _) _)).trans (foldl _ _ fun d h => of_sites)

theorem ringPass (k pc : Nat) (i : Image) (f : Flow) : StandsBy x d (d.ringPass k pc i f) := foldl _ d fun _ _ => of_sites

theorem part (k pc : Nat) (i : Image) : StandsBy x d (d.part k pc i).1 := by
  unfold Dev.part
  split
  · exact refl d
  next g _ =>
  dsimp only
  refine List.foldlRecOn _ _ (motive := fun acc : Dev × List Nat => StandsBy x d acc.1) ?_ fun acc hacc y _ => hacc.trans (splitOff _ _ _ _ _)
  exact (ite (refl d) (ringPass d k pc i _)).trans (StandsBy.trans of_sites (nameGroup _ k))

theorem endMembers (g : Group) (reason : Nat) : StandsBy x d (g.members.foldl (fun d m => d.endSite m .smother reason) d) :=
  foldl _ d fun d m => endSite d m .smother reason false

theorem guardCheck (k : Nat) (g : Group) (i : Image) (ms : List (Nat × Nat)) : StandsBy x d (d.guardCheck k g i ms) := by
  unfold Dev.guardCheck
  exact ite (refl d) (ite (endMembers d g 4) (ite (refl d) (StandsBy.trans of_sites (foldl _ _ fun _ _ => of_sites))))

theorem judgeNext (k : Nat) : StandsBy x d (d.judgeNext k) := by
  unfold Dev.judgeNext
  split
  · exact refl d
  next g _ =>
  split
  · exact refl d
  dsimp only
  have low : ∀ ms, StandsBy x d (d.lowTake ms) := fun ms => foldl _ d fun _ _ => of_sites
  refine ite ((low _).trans (endMembers _ g 4)) (ite ?_ (ite ((low _).trans (endMembers _ g 8)) ((low _).trans (guardCheck _ k g _ _))))
  exact ((low _).trans (endMembers _ g 4)).trans (foldl _ _ fun _ _ => of_sites)

/-- Groups that merge name their members anew and free engines (R201). -/
theorem rejoin (k : Nat) : StandsBy x d (d.rejoin k) := by
  unfold Dev.rejoin
  split
  · exact refl d
  · exact refl d
  · dsimp only
    have merged : ∀ (others : List Nat) v, StandsBy x d (((others.foldl (fun d o => d.dropGroup o) d).setGroup k v).nameGroup k) := fun others v => by
      have dropped : StandsBy x d (others.foldl (fun d o => d.dropGroup o) d) := foldl others d fun _ _ => of_sites
      exact (dropped.trans of_sites).trans (nameGroup _ k)
    split
    · exact merged _ _
    · exact ((merged _ _).trans of_sites).trans (foldl _ _ fun d e => of_beside (.freeEngine d e))

end StandsBy

/-! ### A member's own turn while it waits -/

section
variable {d : Dev} {x : Nat} (hstop : (d.site x).run.stop = false) (hsmother : (d.site x).run.smother = [])
include hstop hsmother

/-- The site repeats its granule. -/
theorem finishMember_again_site (r : SiteRun) :
    ∃ e, Beside x d e ∧ (d.finishMember x (.again r)).site x = { e.site x with run := r.repeat_ } := by
  refine ⟨if (d.site x).run.idle then d else d.capBoundary x, .ite (.refl d) (.capDrain d x _), ?_⟩
  unfold Dev.finishMember
  simp only [hsmother, hstop, List.isEmpty_nil, Bool.not_true, Bool.false_eq_true, if_false, site_modSite_same]

/-- The run enters its next granule, whatever it waited for. -/
theorem finishMember_enter (f : Flow) (r : SiteRun) : ((d.finishMember x (.go f r)).site x).run = r.enter f := by
  unfold Dev.finishMember
  simp only [hsmother, hstop, List.isEmpty_nil, Bool.not_true, Bool.false_eq_true, if_false, site_modSite_same]

end

/-- The end of a hold adds its duration to the site's time in holds (R190). -/
theorem endWait_holdTicks {d : Dev} {x : Nat} {w : IdleWait} (endCode : Nat) (hwait : (d.site x).run.wait = some w) (hrdv : w.rdv = false) :
    ((d.endWait x endCode).site x).holdTicks = (d.site x).holdTicks + ((d.site x).run.t - w.t) / 256 := by
  unfold Dev.endWait
  simp only [hwait, hrdv]
  refine (Beside.postReport (x := x) _ x _).ticks.trans ?_
  rw [site_modSite_same]
  rfl

/-- A site that leaves a hold has spent the hold's duration in it. -/
theorem finishMember_holdTicks {d : Dev} {x : Nat} {w : IdleWait} (hstop : (d.site x).run.stop = false) (hsmother : (d.site x).run.smother = [])
    (hwait : (d.site x).run.wait = some w) (hrdv : w.rdv = false) (f : Flow) (r : SiteRun) :
    ((d.finishMember x (.go f r)).site x).holdTicks = (d.site x).holdTicks + ((d.site x).run.t - w.t) / 256 := by
  have boundary : Beside x d (if (d.site x).run.idle then d else d.capBoundary x) := .ite (.refl d) (.capDrain d x _)
  unfold Dev.finishMember
  simp only [hsmother, hstop, hwait, List.isEmpty_nil, Bool.not_true, Bool.false_eq_true, if_false, Option.isSome_some, if_true, site_modSite_same]
  revert boundary
  generalize (if (d.site x).run.idle then d else d.capBoundary x) = e
  intro boundary
  obtain ⟨v, hv, hold, start, now⟩ := boundary.run.hold hwait hrdv
  have jumped : ∀ (c : Bool), Beside x (e.endWait x 0) (if c = true then (e.endWait x 0).capJumped x else e.endWait x 0) :=
    fun c => .ite (.capDrain _ x _) (.refl _)
  rw [(jumped _).ticks, endWait_holdTicks 0 hv hold, start, now, boundary.ticks]

/-! ### The boundary around it -/

section
variable (d : Dev) {x k : Nat} {g : Group} (i : Image)

/-- The boundary of a group around one member's turn, before which the member waits as it did. -/
theorem passBoundary_turn (o : SiteRun → MemberEnd) (hx : x ∈ g.members) (hmembers : g.members.Nodup) :
    ∃ a, Beside x d a ∧ StandsBy x (a.finishMember x (o (a.site x).run)) (d.passBoundary k g i o).1 := by
  obtain ⟨before, after, hsplit⟩ := List.append_of_mem hx
  rw [hsplit] at hmembers
  have others : ∀ m ∈ before ++ after, x ≠ m := by
    rintro m hm rfl
    exact (List.nodup_middle.mp hmembers).notMem hm
  have turns : ∀ l : List Nat, (∀ m ∈ l, m ∈ before ++ after) → ∀ d, Beside x d (l.foldl (fun (d : Dev) m => d.finishMember m (o (d.site m).run)) d) :=
    fun l hl d => .foldl l d fun d m hm => .finishMember (others m (hl m hm)) _
  refine ⟨_, turns before (fun m hm => List.mem_append_left _ hm) d, ?_⟩
  unfold Dev.passBoundary
  dsimp only
  rw [hsplit, List.foldl_append, List.foldl_cons]
  exact (StandsBy.of_beside (turns after (fun m hm => List.mem_append_right _ hm) _)).trans (.part _ _ _ _)

/-- What comes next is judged, and the site stands where it stood unless its run ends. -/
theorem boundary_stands (o : SiteRun → MemberEnd) : StandsBy x (d.passBoundary k g i o).1 (d.boundary k g i o) := by
  unfold Dev.boundary
  exact .foldl _ _ fun d k => .judgeNext d k

variable (hx : x ∈ g.members) (hmembers : g.members.Nodup) (hstop : (d.site x).run.stop = false) (hsmother : (d.site x).run.smother = [])
  (hdeaf : Deaf (d.site x).run)
include hx hmembers hstop hsmother hdeaf

/-- A member that repeats its granule: until its run ends it stands as its turn left it. -/
theorem boundary_again (o : SiteRun → SiteRun) : ∃ (y : Site) (w : Option IdleWait), y.holds = (d.site x).holds ∧
    y.run = (o { (d.site x).run with wait := w }).repeat_ ∧ Stands y ((d.boundary k g i fun r => .again (o r)).site x) := by
  obtain ⟨a, beside, stands⟩ := passBoundary_turn d i (fun r => .again (o r)) (k := k) hx hmembers
  obtain ⟨w, run, -⟩ := beside.run.deaf hdeaf
  obtain ⟨e, kept, turn⟩ := finishMember_again_site (d := a) (by rw [run]; exact hstop) (by rw [run]; exact hsmother) (o (a.site x).run)
  refine ⟨_, w, ?_, ?_, stands.trans (boundary_stands d i _)⟩
  · rw [turn]
    exact kept.holds.trans beside.holds
  · rw [turn, run]

/-- A member that goes on: its next granule, and what its hold adds to its time in holds. -/
theorem passBoundary_go {o : SiteRun → MemberEnd} {f : Flow} (ho : ∀ w, ∃ r, o { (d.site x).run with wait := w } = .go f r) :
    ∃ (y : Site) (r : SiteRun), y.run = r.enter f ∧ Stands y ((d.passBoundary k g i o).1.site x) ∧
      ∀ w, (d.site x).run.wait = some w → w.rdv = false → y.holdTicks = (d.site x).holdTicks + ((d.site x).run.t - w.t) / 256 := by
  obtain ⟨a, beside, stands⟩ := passBoundary_turn d i o (k := k) hx hmembers
  obtain ⟨v, run, -⟩ := beside.run.deaf hdeaf
  obtain ⟨r, hr⟩ := ho v
  have stop : (a.site x).run.stop = false := by rw [run]; exact hstop
  have smother : (a.site x).run.smother = [] := by rw [run]; exact hsmother
  rw [run, hr] at stands
  refine ⟨_, r, finishMember_enter stop smother f r, stands, fun w hwait hrdv => ?_⟩
  obtain ⟨u, hu, hold, start, now⟩ := beside.run.hold hwait hrdv
  rw [finishMember_holdTicks stop smother hu hold, beside.ticks, start, now]

end

end Sys2Proof.Proofs
end

section
/-! PROOFS. Holds and rendezvous: how they begin, how a site leaves them, and the limit of a wait (spec/06 R182, R190, R196-R202). -/

namespace Sys2Proof.Proofs

open Sys2Proof Sys2Proof.Machine

set_option Elab.async false

/-! ### A hold begins -/

/-- The run of a site that a hold point stops. -/
def heldAt (g : Group) (n epoch : Nat) (r : SiteRun) : SiteRun :=
  { r with idle := true, wait := some { rdv := false, cause := bit g.hasEngine, point := n, rdvId := 0, vc := r.vc, t := r.t, epoch := epoch, limitHit := false } }

/-- A site's count of holds, where a hold begins for it (R190). -/
def begunSite (y : Site) : Site := if y.st = .running ∧ y.run.idle = true then { y with holds := y.holds + 1 } else y

theorem begunSite_st (y : Site) : (begunSite y).st = y.st := by
  unfold begunSite
  split <;> rfl

theorem begunSite_run (y : Site) : (begunSite y).run = y.run := by
  unfold begunSite
  split <;> rfl

theorem begunSite_holds {y : Site} (hst : y.st = .running) (hidle : y.run.idle = true) : (begunSite y).holds = y.holds + 1 := by
  rw [begunSite, if_pos ⟨hst, hidle⟩]

theorem site_latch (d : Dev) (off : Nat) (l : Fld) (x : Nat) : (d.latch off l).site x = d.site x := rfl

theorem holdBegun_same (d : Dev) (m : Nat) : (d.holdBegun m).site m = begunSite (d.site m) := by
  unfold Dev.holdBegun begunSite
  split
  · exact (site_latch _ _ _ m).trans (site_modSite_same d m _)
  · rfl

theorem holdBegun_other (d : Dev) {m x : Nat} (h : x ≠ m) : (d.holdBegun m).site x = d.site x := by
  unfold Dev.holdBegun
  split
  · exact (site_latch _ _ _ x).trans (site_modSite_other d _ h)
  · rfl

/-- A hold begins once for each member of a group. -/
theorem foldl_holdBegun_site (d : Dev) {x : Nat} {ms : List Nat} (hmembers : ms.Nodup) :
    (ms.foldl (fun d m => d.holdBegun m) d).site x = if x ∈ ms then begunSite (d.site x) else d.site x := by
  induction ms generalizing d with
  | nil => rfl
  | cons m t ih =>
    obtain ⟨hm, ht⟩ := List.nodup_cons.mp hmembers
    rw [List.foldl_cons, ih _ ht]
    by_cases h : x = m
    · subst h
      rw [if_neg hm, if_pos List.mem_cons_self, holdBegun_same]
    · rw [holdBegun_other d h]
      simp [h]

/-! ### The commands at a boundary of the site's group -/

section
variable {d : Dev} {x k n : Nat} {g : Group} {i : Image}

/-- A hold point does not stop a group that has its engine and its margin. -/
theorem holdPoint_passes (hat : d.atBoundary x = some (k, g, i)) (hins : d.groupIns g i = .holdPoint n) (hlead : (d.site g.lead).run.idle = false)
    (hengine : g.hasEngine = true) (hrefill : g.refill = false) : d.holdPoint x = d.boundary k g i endNop := by
  unfold Dev.holdPoint
  simp only [hat, hins, hlead, hengine, hrefill, Bool.false_eq_true, if_false, Bool.not_false, Bool.and_self, if_true]

/-- It stops a group without an engine, or without its margin, at a point that is neutral (R158, R180). -/
theorem holdPoint_holds (hat : d.atBoundary x = some (k, g, i)) (hins : d.groupIns g i = .holdPoint n) (hlead : (d.site g.lead).run.idle = false)
    (hstops : g.hasEngine = false ∨ g.refill = true) (hmulti : d.isMulti g.lead = false) (hholds : i.z.noHolds = false)
    (hneutral : ∃ h, i.z.holds[n]? = some h ∧ h.neutral = true) :
    d.holdPoint x = g.members.foldl (fun d m => d.holdBegun m) (d.boundary k g i fun r => .again (heldAt g n d.flue.epoch r)) := by
  obtain ⟨h, hn, neutral⟩ := hneutral
  have stops : (g.hasEngine && !g.refill) = false := by rcases hstops with hs | hs <;> simp [hs]
  unfold Dev.holdPoint
  simp only [hat, hins, hlead, stops, hmulti, hholds, hn, neutral, Bool.false_eq_true, if_false, Option.map_some, Option.getD_some, Bool.not_true,
    Bool.or_self]
  rfl

theorem holdResume_idle (hat : d.atBoundary x = some (k, g, i)) (hins : d.groupIns g i = .holdPoint n) (hlead : (d.site g.lead).run.idle = true) :
    d.holdResume x = d.holdIdle k g i := by
  unfold Dev.holdResume
  simp only [hat, hins, hlead, if_true]

/-- A group goes on that has an engine and its margin (R182, R189). -/
theorem holdIdle_resumes (hengine : g.hasEngine = true) (hmargin : i.z.windowGuard ≤ d.groupMargin k g i (d.site g.lead).run.flow.succ) :
    d.holdIdle k g i = (d.setGroup k { g with refill := false }).boundary k { g with refill := false } i endNop := by
  unfold Dev.holdIdle
  exact if_pos (by simp [hengine, hmargin])

theorem holdIdle_waits (hengine : g.hasEngine = false) : d.holdIdle k g i = (d.holdCause k).boundary k g i (fun r => .again r) := by
  unfold Dev.holdIdle
  exact if_neg (by simp [hengine])

/-- The run of a site that a rendezvous stops. -/
def metAt (i : Image) (n epoch : Nat) (r : SiteRun) : SiteRun :=
  { r with idle := true, rdvDone := none, wait := some { rdv := true, cause := 0, point := n, rdvId := ((i.z.rdvs[n]?).getD ⟨0, 0, 0, 0, 0⟩).id, vc := r.vc,
                                                         t := r.t, epoch := epoch, limitHit := false } }

theorem rendezvous_begins (hat : d.atBoundary x = some (k, g, i)) (hins : d.groupIns g i = .rendezvous n) (hlead : (d.site g.lead).run.idle = false) :
    d.rendezvous x = (d.boundary k g i fun r => .again (metAt i n d.flue.epoch r)).rdvCheck (d.site g.lead).start := by
  unfold Dev.rendezvous
  simp only [hat, hins, hlead, Bool.not_false, if_true]
  rfl

/-- Released, the site of the group's lead goes on as the condition says (R200, R201). -/
theorem rdvResume_goes {p : RdvPt} (hat : d.atBoundary x = some (k, g, i)) (hins : d.groupIns g i = .rendezvous n) (hlead : g.lead = x)
    (hidle : (d.site x).run.idle = true) (hp : i.z.rdvs[n]? = some p) (hfree : d.rdvFree x = true) :
    StandsBy x (d.passBoundary k g i (endRdv i.z p)).1 (d.rdvResume x) := by
  unfold Dev.rdvResume Dev.rendezvous
  simp only [hat, hins, hlead, hidle, hp, hfree, Option.getD_some, Bool.not_true, Bool.false_eq_true, if_false, if_true]
  exact (StandsBy.ite (.foldl _ _ fun d k => .rejoin d k) (.refl _)).trans (.foldl _ _ fun d k => .judgeNext d k)

end

/-- A site that has been released hears no further release. -/
theorem deaf_of_rdvFree {d : Dev} {x : Nat} (h : d.rdvFree x = true) : Deaf (d.site x).run := fun _ _ _ => by
  unfold Dev.rdvFree at h
  split at h
  · next e he => exact .inr (by rw [he]; rfl)
  · cases h

/-- Whether a released site's rendezvous sends it to its target: the condition, as it is to be taken (R200). -/
def rdvTaken (p : RdvPt) (r : SiteRun) : Bool :=
  tbit p.flags 1 && (if p.cond % 16 = 0 then r.siteFail else tbit r.flow.flags (p.cond / 32)) != tbit p.cond 4

/-- Where a released site goes on. -/
def rdvNext (z : ZImage) (p : RdvPt) (r : SiteRun) : Flow := r.flow.goto (if rdvTaken p r then z.target p.target else r.flow.pc + 1)

/-- Where a released site goes on does not depend on its wait. -/
theorem endRdv_waits (z : ZImage) (p : RdvPt) (r : SiteRun) (w : Option IdleWait) :
    ∃ r', endRdv z p { r with wait := w } = .go (rdvNext z p r) r' :=
  ⟨_, congrArg (MemberEnd.go · _) (apply_ite (fun pc => r.flow.goto pc) (rdvTaken p r = true) (z.target p.target) (r.flow.pc + 1)).symm⟩

/-! ### A wait that lasts too long (R202) -/

section
variable {d : Dev} {x : Nat} {w : IdleWait} (hwait : d.rdvWait x = some w)
include hwait

/-- Withdrawn, a site is smothered with 0x04, and no release reaches it. -/
theorem rdvWithdraw_rdvCheck (start : Nat) : (((d.rdvWithdraw x).rdvCheck start).site x).st = (d.site x).st ∧
    (((d.rdvWithdraw x).rdvCheck start).site x).run.smother = insertNat 4 (d.site x).run.smother ∧
    (((d.rdvWithdraw x).rdvCheck start).site x).run.wait = some { w with limitHit := true } := by
  obtain ⟨waits, rdv, -, -⟩ := wait_of_rdvWait hwait
  have withdrawn : ((d.rdvWithdraw x).site x).run =
      { (d.site x).run with smother := insertNat 4 (d.site x).run.smother, wait := some { w with limitHit := true } } := by
    unfold Dev.rdvWithdraw
    rw [site_modSite_same, waits]
    rfl
  have state : ((d.rdvWithdraw x).site x).st = (d.site x).st := by
    unfold Dev.rdvWithdraw
    rw [site_modSite_same]
  have checked : Beside x (d.rdvWithdraw x) ((d.rdvWithdraw x).rdvCheck start) := .rdvCheck _ _
  have deaf : Deaf ((d.rdvWithdraw x).site x).run := by
    rw [withdrawn]
    rintro v hv -
    exact .inl (Option.some.inj hv ▸ rfl)
  obtain ⟨v, run, same⟩ := checked.run.deaf deaf
  rw [withdrawn] at run same
  obtain ⟨u, rfl, hu⟩ := Option.map_eq_some_iff.mp same
  rw [run]
  exact ⟨checked.st.trans state, rfl, congrArg some (eq_of_uncaused_rdv hu rdv)⟩

theorem rdvLimit_hit (hmax : d.getF R.HRT_SEQ_CFG F.HRT_SEQ_CFG_RDV_MAX_EPOCHS ≠ 0) (hknown : d.flue.known = true)
    (hdue : w.epoch + d.getF R.HRT_SEQ_CFG F.HRT_SEQ_CFG_RDV_MAX_EPOCHS + 1 ≤ d.flue.epoch) :
    d.rdvLimit x = (d.rdvWithdraw x).rdvCheck (d.site x).start := by
  unfold Dev.rdvLimit
  simp only [hwait]
  exact if_neg (not_or.mpr ⟨hmax, not_or.mpr ⟨by simp [hknown], Nat.not_lt.mpr hdue⟩⟩)

theorem rdvLimit_early (h : d.getF R.HRT_SEQ_CFG F.HRT_SEQ_CFG_RDV_MAX_EPOCHS = 0 ∨
    d.flue.epoch < w.epoch + d.getF R.HRT_SEQ_CFG F.HRT_SEQ_CFG_RDV_MAX_EPOCHS + 1) : d.rdvLimit x = d := by
  unfold Dev.rdvLimit
  simp only [hwait]
  exact if_pos (h.imp_right .inr)

end

/-! ### The obligation's parts -/

/-- A site whose turn entered a granule stands there. -/
theorem goesTo_of_enter {x : Nat} {y : Site} {r : SiteRun} {f : Flow} {e : Dev} (hrun : y.run = r.enter f) (h : Stands y (e.site x)) : GoesTo x f e := by
  refine ⟨h.flow.trans ?_, h.vec.trans ?_, h.rep.trans ?_⟩ <;> rw [hrun] <;> rfl

section
variable {s : State} {x : Fin 256} {k : Nat} {g : Group} {i : Image} {r : SiteRun} {f : Flow} (hr : r = (s.dev.site x).run) (hf : f = r.flow)
include hr hf

/-- A hold point at the end of an execution that counted (R158, R180, R190). -/
theorem holdPoint_completes {n : Nat} (hend : AtEnd s.dev x k g i (.holdPoint n)) (hlead : (s.dev.site g.lead).run.idle = false) :
    (g.hasEngine = true → g.refill = false → Completes (.holdPoint x) s (GoesTo x { f with pc := f.pc + 1, back := false })) ∧
    (g.hasEngine = false ∨ g.refill = true → s.dev.isMulti g.lead = false → i.z.noHolds = false → (∃ h, i.z.holds[n]? = some h ∧ h.neutral = true) →
      Completes (.holdPoint x) s (fun e => (e.site x).run.flow = f ∧ (e.site x).run.vec = 0 ∧
        ((e.site x).st = .running → (e.site x).run.idle = true ∧ (e.site x).holds = (s.dev.site x).holds + 1 ∧
          ∃ w, (e.site x).run.wait = some w ∧ w.point = n))) := by
  obtain ⟨hat, hmembers, hins, -, hstop, hsmother, hwait⟩ := hend
  obtain ⟨-, member⟩ := atBoundary_member hat
  subst hr hf
  have exec_eq : exec (.holdPoint x) s = s.act fun d => d.holdPoint x := rfl
  refine ⟨fun hengine hrefill => ?_, fun hstops hmulti hholds hneutral => ?_⟩
  · have turn : Turn (.holdPoint x) s x endNop :=
      ⟨⟨k, g, i, by rw [exec_eq, act_eq, holdPoint_passes hat hins hlead hengine hrefill], hat, hmembers⟩, hstop, hsmother, hwait⟩
    exact turn.goes rfl
  · refine completes_act exec_eq ?_
    rw [holdPoint_holds hat hins hlead hstops hmulti hholds hneutral]
    obtain ⟨y, w, holds, run, stands⟩ := boundary_again s.dev i (k := k) member hmembers hstop hsmother (deaf_of_none hwait) (heldAt g n s.dev.flue.epoch)
    have site : ((g.members.foldl (fun d m => d.holdBegun m) (s.dev.boundary k g i fun r => .again (heldAt g n s.dev.flue.epoch r))).canon.site x) =
        begunSite ((s.dev.boundary k g i fun r => .again (heldAt g n s.dev.flue.epoch r)).site x) :=
      (foldl_holdBegun_site _ hmembers).trans (if_pos member)
    rw [site, begunSite_run, begunSite_st, stands.flow, stands.vec, run]
    refine ⟨rfl, rfl, fun running => ?_⟩
    obtain ⟨-, count, idle, kind⟩ := stands.goes running
    rw [run] at idle kind
    obtain ⟨v, hv, same⟩ := Option.map_eq_some_iff.mp kind
    refine ⟨idle, ?_, v, hv, congrArg Prod.snd same⟩
    rw [begunSite_holds running idle, count, holds]

/-- The end of an idle execution of a hold (R182, R190). -/
theorem holdResume_completes {n : Nat} {w : IdleWait} (hat : s.dev.atBoundary x = some (k, g, i)) (hmembers : g.members.Nodup)
    (hins : s.dev.groupIns g i = .holdPoint n) (hlead : (s.dev.site g.lead).run.idle = true) (hwait : r.wait = some w) (hrdv : w.rdv = false)
    (hstop : r.stop = false) (hsmother : r.smother = []) :
    (g.hasEngine = true → i.z.windowGuard ≤ s.dev.groupMargin k g i (s.dev.site g.lead).run.flow.succ →
      Completes (.holdResume x) s (fun e => GoesTo x { f with pc := f.pc + 1, back := false } e ∧ (e.site x).run.idle = false ∧
        (e.site x).holdTicks = (s.dev.site x).holdTicks + (r.t - w.t) / 256)) ∧
    (g.hasEngine = false → Completes (.holdResume x) s (fun e => (e.site x).run.flow = f ∧ (e.site x).run.vec = 0)) := by
  obtain ⟨-, member⟩ := atBoundary_member hat
  subst hr hf
  have exec_eq : exec (.holdResume x) s = s.act fun d => d.holdResume x := rfl
  refine ⟨fun hengine hmargin => ?_, fun hengine => ?_⟩
  · refine completes_act exec_eq ?_
    rw [holdResume_idle hat hins hlead, holdIdle_resumes hengine hmargin]
    obtain ⟨y, r', run, stands, ticks⟩ := passBoundary_go (s.dev.setGroup k { g with refill := false }) (g := { g with refill := false }) i (k := k) (x := x)
      (o := endNop) (f := (s.dev.site x).run.flow.succ) member hmembers hstop hsmother (deaf_of_hold hwait hrdv) fun w => ⟨_, rfl⟩
    have after := stands.trans (boundary_stands _ i _)
    obtain ⟨-, idle, same⟩ := after.free (by rw [run]; rfl)
    rw [run] at idle
    exact ⟨goesTo_of_enter run after, idle, same.trans (ticks w hwait hrdv)⟩
  · refine completes_act exec_eq ?_
    rw [holdResume_idle hat hins hlead, holdIdle_waits hengine]
    have caused : Beside x s.dev (s.dev.holdCause k) := .holdCause _ k
    obtain ⟨v, run, same⟩ := caused.run.deaf (deaf_of_hold hwait hrdv)
    obtain ⟨y, u, -, repeated, stands⟩ := boundary_again (s.dev.holdCause k) i (k := k) member hmembers (by rw [run]; exact hstop)
      (by rw [run]; exact hsmother) (by rw [run]; exact (deaf_of_hold hwait hrdv).of_uncaused same) id
    exact ⟨stands.flow.trans (by rw [repeated, run]; rfl), stands.vec.trans (by rw [repeated]; rfl)⟩

/-- A rendezvous at the end of an execution that counted (R196). -/
theorem rendezvous_completes {n : Nat} (hend : AtEnd s.dev x k g i (.rendezvous n)) (hlead : (s.dev.site g.lead).run.idle = false) :
    Completes (.rendezvous x) s (fun e => (e.site x).run.flow = f ∧ (e.site x).run.vec = 0 ∧
      ((e.site x).st = .running → (e.site x).run.idle = true ∧ ∃ w, (e.site x).run.wait = some w ∧ w.rdv = true ∧ w.point = n)) := by
  obtain ⟨hat, hmembers, hins, -, hstop, hsmother, hwait⟩ := hend
  obtain ⟨-, member⟩ := atBoundary_member hat
  subst hr hf
  refine completes_act (f := fun d => d.rendezvous x) rfl ?_
  rw [rendezvous_begins hat hins hlead]
  obtain ⟨y, w, -, run, repeated⟩ := boundary_again s.dev i (k := k) member hmembers hstop hsmother (deaf_of_none hwait) (metAt i n s.dev.flue.epoch)
  have stands := repeated.trans (.of_undisturbed (Beside.rdvCheck (x := x) _ (s.dev.site g.lead).start))
  refine ⟨stands.flow.trans (by rw [run]; rfl), stands.vec.trans (by rw [run]; rfl), fun running => ?_⟩
  obtain ⟨-, -, idle, kind⟩ := stands.goes running
  rw [run] at idle kind
  obtain ⟨v, hv, same⟩ := Option.map_eq_some_iff.mp kind
  exact ⟨idle, v, hv, congrArg Prod.fst same, congrArg Prod.snd same⟩

end

/-- A released site leaves its rendezvous by the condition (R200). -/
theorem rdvResume_completes {s : State} {x : Fin 256} {k n : Nat} {g : Group} {i : Image} {r : SiteRun} {p : RdvPt} (hr : r = (s.dev.site x).run)
    (hat : s.dev.atBoundary x = some (k, g, i)) (hmembers : g.members.Nodup)
    (hins : s.dev.groupIns g i = .rendezvous n) (hlead : g.lead = x.val) (hidle : r.idle = true) (hp : i.z.rdvs[n]? = some p)
    (hstop : r.stop = false) (hsmother : r.smother = []) (hfree : s.dev.rdvFree x = true) :
    Completes (.rdvResume x) s (GoesTo x (rdvNext i.z p r)) := by
  obtain ⟨-, member⟩ := atBoundary_member hat
  subst hr
  refine completes_act (f := fun d => d.rdvResume x) rfl ?_
  obtain ⟨y, r', run, passed, -⟩ := passBoundary_go s.dev i (k := k) member hmembers hstop hsmother (deaf_of_rdvFree hfree)
    (fun w => endRdv_waits i.z p (s.dev.site x).run w)
  exact goesTo_of_enter run (passed.trans (rdvResume_goes hat hins hlead hidle hp hfree))

/-- The limit of a rendezvous wait (R202). -/
theorem rdvWaitLimit_completes {s : State} {x : Fin 256} {w : IdleWait} {max_ : Nat} (hwait : s.dev.rdvWait x = some w)
    (hmax : max_ = s.dev.getF R.HRT_SEQ_CFG F.HRT_SEQ_CFG_RDV_MAX_EPOCHS) :
    (max_ ≠ 0 → s.dev.flue.known = true → w.epoch + max_ + 1 ≤ s.dev.flue.epoch →
      Completes (.rdvWaitLimit x) s (fun e => (e.site x).run.smother = insertNat 4 (s.dev.site x).run.smother ∧
        (e.site x).run.wait = some { w with limitHit := true } ∧ (e.site x).st = (s.dev.site x).st)) ∧
    (s.Inv → max_ = 0 ∨ s.dev.flue.epoch < w.epoch + max_ + 1 → exec (.rdvWaitLimit x) s = .next s) := by
  subst hmax
  have exec_eq : exec (.rdvWaitLimit x) s = s.act fun d => d.rdvLimit x := rfl
  refine ⟨fun hmax hknown hdue => ?_, fun hinv h => exec_eq_self exec_eq (rdvLimit_early hwait h) hinv⟩
  refine completes_act exec_eq ?_
  rw [rdvLimit_hit hwait hmax hknown hdue]
  obtain ⟨st, smother, waits⟩ := rdvWithdraw_rdvCheck hwait (s.dev.site x).start
  exact ⟨smother, waits, st⟩

/-- Settles O37: it holds. At the boundary of its group a member stands beside the other members' turns, takes its own, and then stands where that turn
left it unless its run ends; a hold or a rendezvous is one such turn that repeats the granule, its end one that goes on. That the duration of a hold is
counted in grid ticks rounded down is the model's choice (log entry 126). -/
theorem holdsAndRendezvous : Obligations.HoldsAndRendezvous := by
  unfold Obligations.HoldsAndRendezvous
  intro s x k g i r f hr hf
  refine ⟨fun n hend hlead => holdPoint_completes hr hf hend hlead, ?_, fun n hend hlead => rendezvous_completes hr hf hend hlead, ?_, ?_⟩
  · intro n w hat hmembers hins hlead hwait hrdv hstop hsmother
    exact holdResume_completes hr hf hat hmembers hins hlead hwait hrdv hstop hsmother
  · intro n p w hat hmembers hins hlead hidle hp _ hstop hsmother hfree
    subst hf
    exact rdvResume_completes hr hat hmembers hins hlead hidle hp hstop hsmother hfree
  · intro w max_ hwait hmax
    subst hr
    exact rdvWaitLimit_completes hwait hmax

end Sys2Proof.Proofs
end

section
/-! PROOFS. What the movement of stamps, records and markers leaves of the TMU's channels, and what an arming makes of one (spec/09 R265-R276). -/

namespace Sys2Proof.Proofs

open Sys2Proof Sys2Proof.Machine

set_option Elab.async false

/-! ### One channel -/

section
variable (d : Dev) (n : Nat) (f : TmuCh → TmuCh)

@[simp] theorem tmuCh_modTmu_same : (d.modTmu n f).tmuCh n = f (d.tmuCh n) := mapGet_mapSet_same _ _ _ _

theorem tmuCh_modTmu_other {k : Nat} (h : k ≠ n) : (d.modTmu n f).tmuCh k = d.tmuCh k := mapGet_mapSet_other _ _ _ _ _ h

@[simp] theorem canon_tmuCh : d.canon.tmuCh n = d.tmuCh n := rfl

@[simp] theorem tmuCh_setReg (off : Nat) (w : Word) : (d.setReg off w).tmuCh n = d.tmuCh n := rfl

/-- What a change of one channel leaves of it, it leaves of all. -/
theorem tmuCh_modTmu_of {α : Type} {g : TmuCh → α} (hf : ∀ c, g (f c) = g c) (k : Nat) : g ((d.modTmu n f).tmuCh k) = g (d.tmuCh k) := by
  by_cases hk : k = n
  · rw [hk, tmuCh_modTmu_same, hf]
  · rw [tmuCh_modTmu_other d n f hk]

end

/-- A field of a channel's odd partner decides whether the pair measures differences (R276). -/
theorem tmuDiff_congr {d e : Dev} {n : Nat} (h : (e.tmuCh (n + 1)).st = (d.tmuCh (n + 1)).st) : e.tmuDiff n = d.tmuDiff n := by
  rw [Dev.tmuDiff, h]
  rfl

/-! ### Stamps, records and markers move (R265, R269) -/

/-- A channel without its stamps and records: its state, its settings and its counts. -/
def bare (c : TmuCh) : TmuCh := { c with held := [], fifo := [], fifoGap := none, recent := [] }

/-- Stamps and records have moved, counts of lost ones with them, and nothing else of the channels, registers, runs, rings and power groups. -/
structure MovesRecords (d e : Dev) : Prop where
  bare : ∀ k, bare (e.tmuCh k) = bare (d.tmuCh k)
  reg : ∀ off, (∀ k, off ≠ R.TMU_CH_LOST k) → e.reg off = d.reg off
  groups : e.tmu.groups = d.tmu.groups
  seq : e.seq = d.seq
  rings : e.rings = d.rings

namespace MovesRecords

variable {d e g : Dev}

theorem refl (d : Dev) : MovesRecords d d := ⟨fun _ => rfl, fun _ _ => rfl, rfl, rfl, rfl⟩

theorem trans (h : MovesRecords d e) (h' : MovesRecords e g) : MovesRecords d g :=
  ⟨fun k => (h'.bare k).trans (h.bare k), fun off hoff => (h'.reg off hoff).trans (h.reg off hoff), h'.groups.trans h.groups, h'.seq.trans h.seq,
    h'.rings.trans h.rings⟩

theorem ite {c : Prop} [Decidable c] {a b : Dev} (ha : MovesRecords d a) (hb : MovesRecords d b) : MovesRecords d (if c then a else b) := by
  split <;> assumption

theorem foldl {α : Type} {f : Dev → α → Dev} (xs : List α) (d : Dev) (h : ∀ d x, MovesRecords d (f d x)) : MovesRecords d (xs.foldl f d) :=
  List.foldlRecOn xs f (motive := MovesRecords d) (refl d) fun e he x _ => he.trans (h e x)

theorem modTmu (d : Dev) (n : Nat) {f : TmuCh → TmuCh} (hf : ∀ c, Proofs.bare (f c) = Proofs.bare c) : MovesRecords d (d.modTmu n f) :=
  ⟨tmuCh_modTmu_of d n f hf, fun _ _ => rfl, rfl, rfl, rfl⟩

theorem tbNow (d : Dev) : MovesRecords d d.tbNow := ⟨fun _ => rfl, fun _ _ => rfl, rfl, rfl, rfl⟩

theorem countLost (d : Dev) (n : Nat) : MovesRecords d (d.bump (R.TMU_CH_LOST n) F.TMU_CH_LOST_LOST) :=
  ⟨fun _ => rfl, fun off hoff => reg_bump_other d _ off _ _ (hoff n), rfl, rfl, rfl⟩

theorem tmuQueue (d : Dev) (n : Nat) (x : TmuItem) : MovesRecords d (d.tmuQueue n x) := by
  have gap : MovesRecords d (d.modTmu n fun c => { c with fifoGap := some (gapAdd c.fifoGap x.lostSeq 1) }) := modTmu d n fun _ => rfl
  exact ite (refl d) (ite (ite (gap.trans (countLost _ n)) gap) (modTmu d n fun _ => rfl))

theorem tmuAfter (d : Dev) (h n : Nat) (x : TmuItem) : MovesRecords d (d.tmuAfter h n x) := by
  unfold Dev.tmuAfter
  split
  · exact tmuQueue d n x
  · exact modTmu d h fun _ => rfl

theorem tmuMark (d : Dev) (n ev : Nat) : MovesRecords d (d.tmuMark n ev) := ite (refl d) (tmuAfter d n n _)

theorem tmuCommit (d : Dev) (n : Nat) : MovesRecords d (d.tmuCommit n) := by
  unfold Dev.tmuCommit
  split
  · exact refl d
  · next s rest _ =>
    have taken : MovesRecords d (d.modTmu n fun c => { c with held := rest }) := modTmu d n fun _ => rfl
    dsimp only
    refine (taken.trans ?_).trans (foldl _ _ fun d x => tmuQueue d _ x)
    split
    · exact tmuQueue _ _ _
    · have kept : ∀ d, MovesRecords d (d.modTmu n fun c => { c with recent := c.recent ++ [s] }) := fun d => modTmu d n fun _ => rfl
      exact (kept _).trans (tmuQueue _ _ _)

theorem tmuFlush (d : Dev) (n : Nat) : MovesRecords d (d.tmuFlush n) := foldl _ d fun d _ => tmuCommit d n

theorem st (h : MovesRecords d e) (k : Nat) : (e.tmuCh k).st = (d.tmuCh k).st := (congrArg TmuCh.st (h.bare k) :)

theorem byReg (h : MovesRecords d e) (k : Nat) : (e.tmuCh k).byReg = (d.tmuCh k).byReg := (congrArg TmuCh.byReg (h.bare k) :)

theorem count (h : MovesRecords d e) (k : Nat) : (e.tmuCh k).seq = (d.tmuCh k).seq := (congrArg TmuCh.seq (h.bare k) :)

theorem calWant (h : MovesRecords d e) (k : Nat) : (e.tmuCh k).calWant = (d.tmuCh k).calWant := (congrArg TmuCh.calWant (h.bare k) :)

theorem tbValid (h : MovesRecords d e) : e.tbValid = d.tbValid := by
  have status : e.reg R.TMU_REF_STATUS = d.reg R.TMU_REF_STATUS := h.reg _ fun k => by simp only [R.TMU_REF_STATUS, R.TMU_CH_LOST]; omega
  rw [Dev.tbValid, Dev.flag, getF_eq_of_reg _ status]
  rfl

end MovesRecords

/-! Each channel has a FIFO of its own. -/

section
variable (d : Dev) {k n : Nat} (h : k ≠ n)
include h

theorem tmuCh_tmuQueue_other (x : TmuItem) : (d.tmuQueue n x).tmuCh k = d.tmuCh k := by
  unfold Dev.tmuQueue
  dsimp only
  split
  · rfl
  split
  · split <;> exact tmuCh_modTmu_other d n (fun c => { c with fifoGap := some (gapAdd c.fifoGap x.lostSeq 1) }) h
  · exact tmuCh_modTmu_other d n _ h

theorem tmuCh_tmuMark_other (ev : Nat) : (d.tmuMark n ev).tmuCh k = d.tmuCh k := by
  unfold Dev.tmuMark Dev.tmuAfter
  split
  · rfl
  split
  · exact tmuCh_tmuQueue_other d h _
  · exact tmuCh_modTmu_other d n _ h

end

theorem tmuFlush_nil {d : Dev} {n : Nat} (h : (d.tmuCh n).held = []) : d.tmuFlush n = d := by
  rw [Dev.tmuFlush, h]
  rfl

/-! ### An arming takes effect (R265, R266, R271) -/

/-- Channel `n` is armed, or suspended where TB is not valid, and counts from 0; the other channels are armed as they were. -/
structure ArmsChannel (n : Nat) (d e : Dev) : Prop where
  st : (e.tmuCh n).st = if d.tbValid then tmArmed else tmSuspended
  byReg : (e.tmuCh n).byReg = (d.tmuCh n).byReg
  seq : (e.tmuCh n).seq = 0
  wr : e.reg (R.TMU_CH_WR n) = 0
  rd : e.reg (R.TMU_CH_RD n) = 0
  other : ∀ k, k ≠ n → (e.tmuCh k).st = (d.tmuCh k).st
  tbValid : e.tbValid = d.tbValid
  groups : e.tmu.groups = d.tmu.groups

namespace ArmsChannel

variable {d e g : Dev} {n : Nat}

theorem after (h : ArmsChannel n e g) (m : MovesRecords d e) : ArmsChannel n d g :=
  ⟨m.tbValid ▸ h.st, h.byReg.trans (m.byReg n), h.seq, h.wr, h.rd, fun k hk => (h.other k hk).trans (m.st k),
    h.tbValid.trans m.tbValid, h.groups.trans m.groups⟩

theorem before (h : ArmsChannel n d e) (m : MovesRecords e g) : ArmsChannel n d g :=
  ⟨(m.st n).trans h.st, (m.byReg n).trans h.byReg, (m.count n).trans h.seq,
    (m.reg _ fun k => by simp only [R.TMU_CH_WR, R.TMU_CH_LOST]; omega).trans h.wr,
    (m.reg _ fun k => by simp only [R.TMU_CH_RD, R.TMU_CH_LOST]; omega).trans h.rd,
    fun k hk => (m.st k).trans (h.other k hk), m.tbValid.trans h.tbValid, m.groups.trans h.groups⟩

end ArmsChannel

/-- The stop channel of a pair is reset, and nothing else but its counts. -/
structure StopReset (n : Nat) (d e : Dev) : Prop where
  own : e.tmuCh n = d.tmuCh n
  st : ∀ k, (e.tmuCh k).st = (d.tmuCh k).st
  regs : e.regs = d.regs
  groups : e.tmu.groups = d.tmu.groups

theorem stopReset (d : Dev) (n : Nat) (p : Prop) [Decidable p] :
    StopReset n d (if p then d.modTmu (n + 1) (fun c => { c with seq := 0, lastAt := none }) else d) := by
  split
  · exact ⟨tmuCh_modTmu_other _ _ _ (Nat.ne_of_lt n.lt_succ_self), tmuCh_modTmu_of _ _ _ fun _ => rfl, rfl, rfl⟩
  · exact ⟨rfl, fun _ => rfl, rfl, rfl⟩

/-- WR and RD go back to 0 once the channel counts from 0 in the state that TB gives it. -/
theorem armsChannel_of_reset {d e : Dev} {n : Nat} {valid : Bool} (hst : (e.tmuCh n).st = if valid then tmArmed else tmSuspended)
    (hbyReg : (e.tmuCh n).byReg = (d.tmuCh n).byReg) (hseq : (e.tmuCh n).seq = 0) (hother : ∀ k, k ≠ n → (e.tmuCh k).st = (d.tmuCh k).st)
    (hvalid : valid = d.tbValid) (hregs : e.regs = d.regs) (hgroups : e.tmu.groups = d.tmu.groups) :
    ArmsChannel n d ((e.setReg (R.TMU_CH_WR n) 0).setReg (R.TMU_CH_RD n) 0) := by
  have apart : R.TMU_CH_WR n ≠ R.TMU_CH_RD n := by simp only [R.TMU_CH_WR, R.TMU_CH_RD]; omega
  have status : ((e.setReg (R.TMU_CH_WR n) 0).setReg (R.TMU_CH_RD n) 0).reg R.TMU_REF_STATUS = d.reg R.TMU_REF_STATUS := by
    rw [reg_setReg_other, reg_setReg_other, Dev.reg, hregs]
    · rfl
    all_goals simp only [R.TMU_REF_STATUS, R.TMU_CH_WR, R.TMU_CH_RD]; omega
  refine ⟨hvalid ▸ hst, hbyReg, hseq, (reg_setReg_other _ _ _ _ apart).trans (reg_setReg_same _ _ _), reg_setReg_same _ _ _, hother, ?_, hgroups⟩
  rw [Dev.tbValid, Dev.flag, getF_eq_of_reg _ status]
  rfl

theorem armNow_arms (d : Dev) (n : Nat) : ArmsChannel n d (d.armNow n) := by
  have flushed : MovesRecords d ((d.tmuFlush n).tmuFlush (if d.tmuDiff n then n + 1 else n)) :=
    (MovesRecords.tmuFlush d n).trans (.tmuFlush _ _)
  have marked : ∀ e : Dev, MovesRecords e (if (e.tmuMark n 0).tbValid then e.tmuMark n 0 else (e.tmuMark n 0).tmuMark n 2) := fun e =>
    (MovesRecords.tmuMark e n 0).trans (.ite (.refl _) (.tmuMark _ n 2))
  unfold Dev.armNow
  dsimp only
  generalize (d.tmuFlush n).tmuFlush (if d.tmuDiff n then n + 1 else n) = f at flushed ⊢
  refine (ArmsChannel.after ?_ flushed).before (marked _)
  refine armsChannel_of_reset (valid := f.tbValid) ?st ?byReg ?seq (fun k hk => ?other) rfl (stopReset _ n _).regs (stopReset _ n _).groups
  case st | byReg | seq => rw [(stopReset _ n _).own, tmuCh_modTmu_same]
  case other => rw [(stopReset _ n _).st, tmuCh_modTmu_other _ _ _ hk]

/-- With no stamp to commit and no partner an arming leaves the other channels. -/
theorem tmuCh_armNow_other {d : Dev} {k n : Nat} (h : k ≠ n) (hheld : (d.tmuCh n).held = []) (hdiff : d.tmuDiff n = false) :
    (d.armNow n).tmuCh k = d.tmuCh k := by
  have single : ∀ f, (d.modTmu n f).tmuDiff n = false := fun f =>
    (tmuDiff_congr (congrArg TmuCh.st (tmuCh_modTmu_other d n f n.succ_ne_self))).trans hdiff
  have marked : ∀ e : Dev, (if (e.tmuMark n 0).tbValid then e.tmuMark n 0 else (e.tmuMark n 0).tmuMark n 2).tmuCh k = e.tmuCh k := fun e => by
    split
    · exact tmuCh_tmuMark_other e h 0
    · exact (tmuCh_tmuMark_other _ h 2).trans (tmuCh_tmuMark_other e h 0)
  unfold Dev.armNow
  simp only [hdiff, tmuFlush_nil hheld, Bool.false_eq_true, if_false, single]
  rw [marked, tmuCh_setReg, tmuCh_setReg, tmuCh_modTmu_other d n _ h]

end Sys2Proof.Proofs
end

section
/-! PROOFS. TMU channels are armed, disarmed, tested and powered (spec/09 R271, R275, R276, R279, R281). -/

namespace Sys2Proof.Proofs

open Sys2Proof Sys2Proof.Machine

set_option Elab.async false

/-! ### Registers whose write only starts something -/

/-- A register of RO and WO fields keeps its content (R9, R10). -/
theorem store_unchanged {r : RDesc} (h : ∀ f ∈ r.fields, f.ty = .ro ∨ f.ty = .wo) (old w : Word) : r.store old w = old := by
  have fields : r.fields.foldl (fun acc f => f.store old.toNat w.toNat acc) old.toNat = old.toNat :=
    List.foldlRecOn _ _ (motive := (· = old.toNat)) rfl fun acc hacc f hf => by
      rcases h f hf with ty | ty <;> simpa only [RField.store, ty] using hacc
  rw [RDesc.store, fields, BitVec.ofNat_toNat, BitVec.setWidth_eq]

/-- A write that only starts something has been logged: registers read as they did, and the TMU, the sequencers, rings, calibration and board stay. -/
structure Started (d e : Dev) : Prop where
  reg : ∀ off, e.reg off = d.reg off
  tmu : e.tmu = d.tmu
  seq : e.seq = d.seq
  rings : e.rings = d.rings
  board : e.board = d.board

namespace Started

variable {d e : Dev} (h : Started d e)
include h

theorem tmuCh (n : Nat) : e.tmuCh n = d.tmuCh n := by rw [Dev.tmuCh, h.tmu]; rfl

theorem tmuDiff (n : Nat) : e.tmuDiff n = d.tmuDiff n := tmuDiff_congr (congrArg TmuCh.st (h.tmuCh _))

theorem tmuClaim (n : Nat) : e.tmuClaim n = d.tmuClaim n := by rw [Dev.tmuClaim, h.seq]; rfl

theorem tmuGroup (g : Nat) : e.tmuGroup g = d.tmuGroup g := by rw [Dev.tmuGroup, h.tmu]; rfl

theorem getF (off : Nat) (f : Fld) : e.getF off f = d.getF off f := getF_eq_of_reg f (h.reg off)

theorem tbValid : e.tbValid = d.tbValid := by rw [Dev.tbValid, Dev.flag, h.getF]; rfl

theorem armErr (n : Nat) : e.armErr n = d.armErr n := by
  simp only [Dev.armErr, Dev.inHost, Dev.hostEnd, Dev.absent, h.getF, h.reg, h.tmuCh, h.tmuClaim, h.tbValid, h.board]
  rfl

end Started

/-- A write of such a register of the TMU that is let through is logged, and does what the register does. -/
theorem writeReg_started {d : Dev} {o : Origin} {off : Nat} {w : Word} {r : RDesc} (h : Accepts d o off w) (hcanon : regCanon off = off)
    (hrow : regRow off = some r) (hfields : ∀ f ∈ r.fields, f.ty = .ro ∨ f.ty = .wo) (hwindow : off / 65536 = 12) (hnorm : tmuNorm off w = w) :
    ∃ e, Started d e ∧ d.writeReg o.id off w = e.tmuEffect off w := by
  obtain ⟨running, judged⟩ := h
  have low : ¬ off ≥ 0x100000 := by omega
  have norm : regNorm off w = w := by
    rw [regNorm, if_neg low, hwindow]
    exact hnorm
  have other : isFaultWord off = false := by
    simp only [isFaultWord, R.FLT_WORD_LO, R.FLT_WORD_HI, Bool.or_eq_false_iff, beq_eq_false_iff_ne]
    omega
  refine ⟨(d.logWrite o.id off w).setReg off (d.reg off), ⟨fun x => ?_, ?_, ?_, ?_, ?_⟩, ?_⟩
  · by_cases hx : x = off
    · rw [hx, reg_setReg_same]
    · rw [reg_setReg_other _ _ _ _ hx, logWrite_reg]
  iterate 4 rw [logWrite_only]; rfl
  · rw [Dev.writeReg, writeVia_accepted running judged (by rw [hcanon]; exact hrow) (by rw [hcanon]; exact other), hcanon, norm,
      store_unchanged hfields, Dev.regEffect, if_neg low, hwindow]
    rfl

/-- The rows of TMU_CHn_CTRL and TMU_CAL_CTRL. -/
def chCtrlRow : RDesc := ⟨0xc0104, [(64, 32)], [⟨1, 1, .wo, 0, false⟩, ⟨0, 1, .wo, 0, false⟩]⟩
def calCtrlRow : RDesc := ⟨0xc0014, [], [⟨1, 1, .ro, 0, false⟩, ⟨0, 1, .wo, 0, false⟩]⟩

theorem regRow_chCtrl (n : Fin 32) : regRow (R.TMU_CH_CTRL n) = some chCtrlRow := by
  revert n
  decide +kernel

theorem regRow_calCtrl : regRow R.TMU_CAL_CTRL = some calCtrlRow := by decide +kernel

theorem tmuOf_chCtrl (n : Fin 32) : tmuOf (R.TMU_CH_CTRL n) = some (n.val, 4) := by
  revert n
  decide

/-- ARM and DISARM (R271). -/
theorem writeReg_chCtrl {d : Dev} {o : Origin} {n : Fin 32} {w : Word} (h : Accepts d o (R.TMU_CH_CTRL n) w) :
    ∃ e, Started d e ∧ d.writeReg o.id (R.TMU_CH_CTRL n) w =
      let a := if getBits w F.TMU_CH_CTRL_ARM = 1 then e.arm n else e
      if getBits w F.TMU_CH_CTRL_DISARM = 1 then a.disarm n else a := by
  have canonical : regCanon (R.TMU_CH_CTRL n) = R.TMU_CH_CTRL n := if_neg (by simp only [R.TMU_CH_CTRL]; omega)
  have norm : tmuNorm (R.TMU_CH_CTRL n) w = w := by
    rw [tmuNorm, if_neg (by simp only [R.TMU_CH_CTRL, R.TMU_TEST]; omega), tmuOf_chCtrl]
    rfl
  obtain ⟨e, started, written⟩ := writeReg_started h canonical (regRow_chCtrl n) (by decide) (by simp only [R.TMU_CH_CTRL]; omega) norm
  refine ⟨e, started, written.trans ?_⟩
  rw [Dev.tmuEffect, if_neg (by simp only [R.TMU_CH_CTRL, R.TMU_CAL_CTRL]; omega), tmuOf_chCtrl]
  rfl

/-- START (R279). -/
theorem writeReg_calCtrl {d : Dev} {o : Origin} {w : Word} (h : Accepts d o R.TMU_CAL_CTRL (setBits w F.TMU_CAL_CTRL_START 1)) :
    ∃ e, Started d e ∧ d.writeReg o.id R.TMU_CAL_CTRL (setBits w F.TMU_CAL_CTRL_START 1) = e.tmuCalStart := by
  obtain ⟨e, started, written⟩ := writeReg_started h (by decide) regRow_calCtrl (by decide) (by decide) rfl
  refine ⟨e, started, written.trans ?_⟩
  have start : getBits (setBits w F.TMU_CAL_CTRL_START 1) F.TMU_CAL_CTRL_START = 1 := getBits_setBits_same _ _ _ (by decide)
  rw [Dev.tmuEffect, if_pos rfl, if_pos start]

/-! ### Power groups (R275) -/

theorem tmuPower_only (d : Dev) : d.tmuPower = { d with tmu := { d.tmu with groups := d.tmuPower.tmu.groups } } := by
  unfold Dev.tmuPower
  refine List.foldlRecOn [0, 1] _ (motive := fun e : Dev => e = { d with tmu := { d.tmu with groups := e.tmu.groups } }) rfl fun e he g _ => ?_
  dsimp only
  split
  · exact he ▸ rfl
  split
  · exact he ▸ rfl
  · exact he

@[simp] theorem tmuPower_regs (d : Dev) : d.tmuPower.regs = d.regs := by rw [tmuPower_only]

@[simp] theorem tmuPower_reg (d : Dev) (off : Nat) : d.tmuPower.reg off = d.reg off := by rw [Dev.reg, tmuPower_regs]; rfl

@[simp] theorem tmuPower_tmuCh (d : Dev) (n : Nat) : d.tmuPower.tmuCh n = d.tmuCh n := by rw [tmuPower_only]; rfl

@[simp] theorem tmuPower_cal (d : Dev) : d.tmuPower.cal = d.cal := by rw [tmuPower_only]

/-! ### A pass over the channels, as one of them sees it -/

/-- Of a pass whose other steps leave channel `n` alone, what its own step makes true stays true. -/
theorem foldl_at {S : Dev → Dev → Prop} (refl : ∀ d, S d d) (trans : ∀ {d e g}, S d e → S e g → S d g) {P : Dev → Prop}
    (keep : ∀ {e g}, S e g → P e → P g) {f : Dev → Nat → Dev} {n : Nat} (beside : ∀ d k, k ≠ n → S d (f d k)) {l : List Nat} (hn : n ∈ l)
    (hl : l.Nodup) {d : Dev} (own : ∀ e, S d e → P (f e n)) : P (l.foldl f d) := by
  have skip : ∀ (l : List Nat) (d : Dev), n ∉ l → S d (l.foldl f d) := fun l d hl =>
    List.foldlRecOn l f (motive := S d) (refl d) fun e he k hk => trans he (beside e k fun h => hl (h ▸ hk))
  obtain ⟨before, after, rfl⟩ := List.append_of_mem hn
  obtain ⟨absent, -⟩ := List.nodup_cons.mp (List.nodup_middle.mp hl)
  rw [List.mem_append, not_or] at absent
  rw [List.foldl_append, List.foldl_cons]
  exact keep (skip after _ absent.2) (own _ (skip before d absent.1))

/-- Channel `n`, the claims, the calibration commits and whether TB is valid are as they were. -/
structure ChannelStands (n : Nat) (d e : Dev) : Prop where
  ch : e.tmuCh n = d.tmuCh n
  seq : e.seq = d.seq
  rings : e.rings = d.rings
  tbValid : e.tbValid = d.tbValid

namespace ChannelStands

variable {n k : Nat} {d e g : Dev}

theorem refl (d : Dev) : ChannelStands n d d := ⟨rfl, rfl, rfl, rfl⟩

theorem trans (h : ChannelStands n d e) (h' : ChannelStands n e g) : ChannelStands n d g :=
  ⟨h'.ch.trans h.ch, h'.seq.trans h.seq, h'.rings.trans h.rings, h'.tbValid.trans h.tbValid⟩

theorem modTmu (d : Dev) (f : TmuCh → TmuCh) (h : k ≠ n) : ChannelStands n d (d.modTmu k f) :=
  ⟨tmuCh_modTmu_other d k f h.symm, rfl, rfl, rfl⟩

theorem tmuMark (d : Dev) (ev : Nat) (h : k ≠ n) : ChannelStands n d (d.tmuMark k ev) :=
  have moved := MovesRecords.tmuMark d k ev
  ⟨tmuCh_tmuMark_other d h.symm ev, moved.seq, moved.rings, moved.tbValid⟩

theorem tmuClaim (h : ChannelStands n d e) : e.tmuClaim n = d.tmuClaim n := by rw [Dev.tmuClaim, h.seq]; rfl

theorem tmuCalReady (h : ChannelStands n d e) : e.tmuCalReady n = d.tmuCalReady n := by
  simp only [Dev.tmuCalReady, Dev.calPending, Dev.site, h.ch, h.seq, h.rings, h.tmuClaim]

end ChannelStands

/-- An IDLE channel that no claim holds, or that TB is valid for, is not suspended (R265). -/
theorem tmuClaims_idle {d : Dev} {n : Nat} (hn : n < 32) (hst : (d.tmuCh n).st = tmIdle) (h : d.tmuClaim n = none ∨ d.tbValid = true) :
    ChannelStands n d d.tmuClaims := by
  refine foldl_at (S := ChannelStands n) (P := ChannelStands n d) .refl .trans (fun stands h => h.trans stands) (fun d k hk => ?_)
    (List.mem_range.mpr hn) List.nodup_range fun e before => ?_
  · dsimp only
    split
    · exact (ChannelStands.modTmu d _ hk).trans (.tmuMark _ 2 hk)
    split
    · exact .modTmu d _ hk
    · exact .refl d
  · have idle : (e.tmuCh n).st = tmIdle := (congrArg TmuCh.st before.ch).trans hst
    have unclaimed : ((e.tmuClaim n).isSome && (e.tmuCh n).st == tmIdle && !e.tbValid) = false := by
      rw [before.tmuClaim, before.tbValid]
      rcases h with h | h <;> simp [h]
    dsimp only
    rw [if_neg (by rw [unclaimed]; decide), if_neg (by rw [idle]; simp [tmIdle, tmSuspended])]
    exact before

/-- A waiting test begins on a channel that is ready, and on no other (R279). -/
theorem tmuCalKick_tmuCh (d : Dev) {n : Nat} (hn : n < 32) : d.tmuCalKick.tmuCh n =
    if d.tmuCalReady n then { d.tmuCh n with st := tmCalibrating, calWant := false } else d.tmuCh n := by
  refine (tmuPower_tmuCh _ n).trans (foldl_at (S := ChannelStands n) (P := fun e => e.tmuCh n =
    if d.tmuCalReady n then { d.tmuCh n with st := tmCalibrating, calWant := false } else d.tmuCh n) .refl .trans
    (fun stands h => stands.ch.trans h) (fun d k hk => ?_) (List.mem_range.mpr hn) List.nodup_range fun e before => ?_)
  · split
    · exact .modTmu d _ hk
    · exact .refl d
  · rw [before.tmuCalReady]
    split
    · rw [tmuCh_modTmu_same, before.ch]
    · exact before.ch

/-! ### Arming (R271) -/

/-- The channel armed by register, before the arming takes effect. -/
def registered (d : Dev) (n : Nat) : Dev := d.modTmu n fun c => { c with byReg := true }

theorem tmuCh_registered_same (d : Dev) (n : Nat) : (registered d n).tmuCh n = { d.tmuCh n with byReg := true } := tmuCh_modTmu_same d n _

theorem tmuCh_registered_other (d : Dev) {k n : Nat} (h : k ≠ n) : (registered d n).tmuCh k = d.tmuCh k := tmuCh_modTmu_other d n _ h

section
variable {d : Dev} {n : Nat}

theorem armErr_lt (d : Dev) (n : Nat) : d.armErr n < 8 := by
  unfold Dev.armErr
  dsimp only
  split_ifs <;> decide

theorem tbValid_of_armErr (h : d.armErr n = 0) : d.tbValid = true := by
  by_contra invalid
  rw [Bool.not_eq_true] at invalid
  have noRef : d.armErr n = 1 := if_pos (by rw [invalid]; rfl)
  exact absurd (noRef.symm.trans h) (by decide)

theorem arm_refused (h : d.armErr n ≠ 0) : d.arm n = d.setF (R.TMU_CH_STATUS n) F.TMU_CH_STATUS_ARM_ERR (d.armErr n) := if_pos h

/-- An arming in STAMP mode takes effect, or waits for its power group. -/
theorem arm_single (h : d.armErr n = 0) (hmode : d.getF (R.TMU_CH_CFG n) F.TMU_CH_CFG_MODE = 0) : d.arm n =
    if d.tmuGroup (n / 16) = .on then (registered d n).tbNow.armNow n
    else ((registered d n).modTmu n fun c => { c with st := tmWaking }).tmuPower := by
  have stamps : ¬ d.getF (R.TMU_CH_CFG n) F.TMU_CH_CFG_MODE = 1 := by omega
  rw [Dev.arm, if_neg (not_not_intro h), if_neg stamps]
  rfl

/-- The channel is armed, and its sequence numbers and buffer begin at 0. -/
theorem arm_on (h : d.armErr n = 0) (hmode : d.getF (R.TMU_CH_CFG n) F.TMU_CH_CFG_MODE = 0) (hon : d.tmuGroup (n / 16) = .on) :
    ((d.arm n).tmuCh n).st = tmArmed ∧ ((d.arm n).tmuCh n).byReg = true ∧ ((d.arm n).tmuCh n).seq = 0 ∧ (d.arm n).reg (R.TMU_CH_WR n) = 0 ∧
      (d.arm n).reg (R.TMU_CH_RD n) = 0 := by
  rw [arm_single h hmode, if_pos hon]
  have arms := armNow_arms (registered d n).tbNow n
  have valid : (registered d n).tbNow.tbValid = true := (tbValid_of_armErr h : d.tbValid = true)
  refine ⟨?_, arms.byReg.trans (congrArg TmuCh.byReg (tmuCh_registered_same d n)), arms.seq, arms.wr, arms.rd⟩
  rw [arms.st, valid]
  rfl

theorem tmuCh_arm_other (h : d.armErr n = 0) (hmode : d.getF (R.TMU_CH_CFG n) F.TMU_CH_CFG_MODE = 0) (hon : d.tmuGroup (n / 16) = .on)
    (hheld : (d.tmuCh n).held = []) (hdiff : d.tmuDiff n = false) {k : Nat} (hk : k ≠ n) : (d.arm n).tmuCh k = d.tmuCh k := by
  rw [arm_single h hmode, if_pos hon]
  have held : ((registered d n).tbNow.tmuCh n).held = [] := (congrArg TmuCh.held (tmuCh_registered_same d n)).trans hheld
  have single : (registered d n).tbNow.tmuDiff n = false :=
    (tmuDiff_congr (congrArg TmuCh.st (tmuCh_registered_other d n.succ_ne_self))).trans hdiff
  exact (tmuCh_armNow_other hk held single).trans (tmuCh_registered_other d hk)

theorem arm_waking (h : d.armErr n = 0) (hmode : d.getF (R.TMU_CH_CFG n) F.TMU_CH_CFG_MODE = 0) (hoff : d.tmuGroup (n / 16) ≠ .on) :
    ((d.arm n).tmuCh n).st = tmWaking ∧ ((d.arm n).tmuCh n).byReg = true := by
  rw [arm_single h hmode, if_neg hoff, tmuPower_tmuCh, tmuCh_modTmu_same, registered, tmuCh_modTmu_same]
  exact ⟨rfl, rfl⟩

end

/-! ### Disarming (R265, R271) -/

/-- A channel armed by register is IDLE again, and no test begins that does not wait. -/
theorem disarm_idles {d : Dev} {n : Nat} (hn : n < 32) (hreg : (d.tmuCh n).byReg = true) (hwant : (d.tmuCh n).calWant = false)
    (h : d.tmuClaim n = none ∨ d.tbValid = true) :
    ((d.disarm n).tmuCh n).st = tmIdle ∧ ((d.disarm n).tmuCh n).byReg = false ∧ ((d.disarm n).tmuCh n).interval = none := by
  have moved : MovesRecords d (if (d.tmuCh n).st = tmWaking then d else d.tbNow.tmuMark n 1) :=
    .ite (.refl d) ((MovesRecords.tbNow d).trans (.tmuMark _ n 1))
  have partner : ∀ e : Dev, ChannelStands n e (if e.tmuDiff n then e.modTmu (n + 1) fun c => { c with st := tmIdle } else e) := fun e => by
    split
    · exact .modTmu e _ n.succ_ne_self
    · exact .refl e
  have armed : ¬ (!(d.tmuCh n).byReg) = true := by simp [hreg]
  rw [Dev.disarm, if_neg armed]
  dsimp only
  generalize (if (d.tmuCh n).st = tmWaking then d else d.tbNow.tmuMark n 1) = m at moved ⊢
  have stands := partner m
  generalize (if m.tmuDiff n then m.modTmu (n + 1) fun c => { c with st := tmIdle } else m) = m' at stands ⊢
  have idle : (m'.modTmu n fun c => { c with st := tmIdle, byReg := false, interval := none }).tmuCh n =
      { m'.tmuCh n with st := tmIdle, byReg := false, interval := none } := tmuCh_modTmu_same _ _ _
  have claim : m'.tmuClaim n = d.tmuClaim n := by rw [Dev.tmuClaim, stands.seq, moved.seq]; rfl
  have valid : m'.tbValid = d.tbValid := stands.tbValid.trans moved.tbValid
  have want : (m'.tmuCh n).calWant = false := (congrArg TmuCh.calWant stands.ch).trans ((moved.calWant n).trans hwant)
  have claims := (tmuClaims_idle (d := m'.modTmu n fun c => { c with st := tmIdle, byReg := false, interval := none }) hn
    (congrArg TmuCh.st idle) (claim ▸ valid ▸ h)).ch.trans idle
  rw [tmuCalKick_tmuCh _ hn, if_neg (by simp [Dev.tmuCalReady, claims, want]), claims]
  exact ⟨rfl, rfl, rfl⟩

/-! ### The code-density test (R279) -/

theorem meanTemp_only (d : Dev) (l : List Nat) : (d.meanTemp l).2 = { d with fresh := (d.meanTemp l).2.fresh } := by
  unfold Dev.meanTemp Dev.divFree
  dsimp only
  split <;> rfl

theorem tmuCalView_tmuCh (d : Dev) (n : Nat) : d.tmuCalView.tmuCh n = d.tmuCh n := by
  rw [Dev.tmuCalView, Dev.tmuCh, setF_tmu]
  rfl

/-- BUSY shows while a test waits or runs (R281). -/
theorem tmuCalView_busy {d : Dev} {n : Nat} (hn : n < 32) (h : (d.tmuCh n).calWant = true ∨ (d.tmuCh n).st = tmCalibrating) :
    d.tmuCalView.flag R.TMU_CAL_CTRL F.TMU_CAL_CTRL_BUSY = true := by
  have busy : (List.range 32).any (fun n => (d.tmuCh n).calWant || (d.tmuCh n).st == tmCalibrating) = true :=
    List.any_eq_true.mpr ⟨n, List.mem_range.mpr hn, by simpa using h⟩
  refine flag_of_getF ?_
  rw [Dev.tmuCalView, busy]
  exact getF_setF_same d R.TMU_CAL_CTRL F.TMU_CAL_CTRL_BUSY (bit true) (by decide)

/-- Every channel of the mask is asked for a test, at the sampled temperature. -/
def calAsked (d : Dev) (temp : Nat) : Dev :=
  (bitList (d.reg R.TMU_CAL_MASK).toNat 32).foldl (fun (d : Dev) n => d.modTmu n fun c => { c with calWant := true })
    { d with tmu := { d.tmu with calTemp := temp } }

theorem tmuCalStart_eq {d : Dev} (hbusy : d.flag R.TMU_CAL_CTRL F.TMU_CAL_CTRL_BUSY = false) :
    ∃ e temp, e = { d with fresh := e.fresh } ∧ d.tmuCalStart = (calAsked e temp).tmuCalKick.tmuCalView := by
  have mean := meanTemp_only d (List.range 16)
  rw [Dev.tmuCalStart, if_neg (by simp [hbusy])]
  generalize d.meanTemp (List.range 16) = m at mean ⊢
  exact ⟨m.2, m.1, mean, rfl⟩

theorem calAsked_asks {d e : Dev} {n temp : Nat} (he : e = { d with fresh := e.fresh }) (hn : n < 32) (hmask : d.bitOf R.TMU_CAL_MASK n = true) :
    (calAsked e temp).tmuCh n = { d.tmuCh n with calWant := true } ∧ (calAsked e temp).seq = d.seq ∧ (calAsked e temp).rings = d.rings := by
  have mask : e.reg R.TMU_CAL_MASK = d.reg R.TMU_CAL_MASK := by rw [he]; rfl
  have listed : n ∈ bitList (e.reg R.TMU_CAL_MASK).toNat 32 := by
    refine List.mem_filter.mpr ⟨List.mem_range.mpr hn, ?_⟩
    simpa [mask, Dev.bitOf, Dev.getF, getBits, natField, tbit] using hmask
  refine foldl_at (S := ChannelStands n) (P := fun g => g.tmuCh n = { d.tmuCh n with calWant := true } ∧ g.seq = d.seq ∧ g.rings = d.rings) .refl
    .trans (fun stands ⟨ch, seq, rings⟩ => ⟨stands.ch.trans ch, stands.seq.trans seq, stands.rings.trans rings⟩)
    (fun d k hk => .modTmu d _ hk) listed (List.nodup_range.filter _) fun g before => ⟨?_, before.seq.trans ?_, before.rings.trans ?_⟩
  · rw [tmuCh_modTmu_same, before.ch, he]
    rfl
  · rw [he]
  · rw [he]

/-- A test of a channel of the mask begins where nothing holds it, and waits where the channel is armed. -/
theorem tmuCalStart_starts {d : Dev} {n : Nat} (hbusy : d.flag R.TMU_CAL_CTRL F.TMU_CAL_CTRL_BUSY = false) (hn : n < 32)
    (hmask : d.bitOf R.TMU_CAL_MASK n = true) :
    d.tmuCalStart.flag R.TMU_CAL_CTRL F.TMU_CAL_CTRL_BUSY = true ∧
    ((d.tmuCh n).st = tmIdle → d.tmuClaim n = none → d.calPending 16 = false → (d.tmuCalStart.tmuCh n).st = tmCalibrating) ∧
    ((d.tmuCh n).st = tmArmed → (d.tmuCalStart.tmuCh n).st = tmArmed ∧ (d.tmuCalStart.tmuCh n).calWant = true) := by
  obtain ⟨e, temp, he, start⟩ := tmuCalStart_eq hbusy
  obtain ⟨ch, seq, rings⟩ := calAsked_asks (temp := temp) he hn hmask
  generalize calAsked e temp = a at start ch seq rings
  have kicked := tmuCalKick_tmuCh a hn
  have view : d.tmuCalStart.tmuCh n = a.tmuCalKick.tmuCh n := by rw [start, tmuCalView_tmuCh]
  have claim : a.tmuClaim n = d.tmuClaim n := by rw [Dev.tmuClaim, seq]; rfl
  have pending : a.calPending 16 = d.calPending 16 := by rw [Dev.calPending, rings]; rfl
  refine ⟨?_, fun hst hclaim hpend => ?_, fun hst => ?_⟩
  · rw [start]
    refine tmuCalView_busy hn ?_
    rw [kicked]
    split
    · exact .inr rfl
    · exact .inl (congrArg TmuCh.calWant ch)
  · have ready : a.tmuCalReady n = true := by simp only [Dev.tmuCalReady, ch, hst, claim, hclaim, pending, hpend]; rfl
    rw [view, kicked, if_pos ready]
  · have waits : a.tmuCalReady n = false := by simp [Dev.tmuCalReady, ch, hst, tmArmed, tmIdle]
    rw [view, kicked, waits, ch]
    exact ⟨hst, rfl⟩

/-- The end of a test (R279, R281). -/
theorem tmuCalEnd_ends {d : Dev} {n : Nat} (hn : n < 32) (hst : (d.tmuCh n).st = tmCalibrating) (failed : Bool) :
    ((d.tmuCalEnd n failed).tmuCh n).st = tmIdle ∧ (d.tmuCalEnd n failed).bitOf R.TMU_CAL_FAIL n = failed ∧ (d.tmuCalEnd n failed).cal = d.cal ∧
      (d.tmuCalEnd n failed).flag R.TMU_INT_STATUS F.TMU_INT_STATUS_CAL_DONE = true := by
  generalize hx : d.modTmu n (fun c => { c with st := if c.st = tmCalibrating then tmIdle else c.st }) = x
  have viewed : ∀ off, off ≠ R.TMU_CAL_CTRL → (d.tmuCalEnd n failed).reg off =
      ((x.setBit R.TMU_CAL_FAIL n failed).latch R.TMU_INT_STATUS F.TMU_INT_STATUS_CAL_DONE).reg off := fun off hoff => by
    rw [Dev.tmuCalEnd, hx, Dev.tmuCalView, reg_setF_other _ _ _ _ _ hoff, tmuPower_reg]
  have fail : (x.setBit R.TMU_CAL_FAIL n failed).bitOf R.TMU_CAL_FAIL n = failed := by
    rw [Dev.bitOf, Dev.setBit, getF_setF_same _ _ _ _ (by simp only; omega)]
    cases failed <;> rfl
  refine ⟨?_, ?_, ?_, flag_of_getF ?_⟩
  · have own : (d.tmuCalEnd n failed).tmuCh n = x.tmuCh n := by
      rw [Dev.tmuCalEnd, hx, tmuCalView_tmuCh, tmuPower_tmuCh]
      rfl
    rw [own, ← hx, tmuCh_modTmu_same]
    exact if_pos hst
  · exact (bitOf_eq_of_reg n ((viewed _ (by decide)).trans (reg_latch_other _ _ _ _ (by decide)))).trans fail
  · rw [Dev.tmuCalEnd, hx]
    exact (tmuPower_cal _).trans (hx ▸ rfl)
  · exact (getF_eq_of_reg _ (viewed _ (by decide))).trans (getF_setF_same _ _ _ _ (by decide))

section
variable {d : Dev} {n : Nat} {counts : List Nat} (hst : (d.tmuCh n).st = tmCalibrating)
include hst

theorem tmuCalDone_fails (h : (List.range 128).any (fun i => nth counts i 0 < 2048 || nth counts i 0 > 16384) = true) :
    d.tmuCalDone n counts = d.tmuCalEnd n true := by
  rw [Dev.tmuCalDone, if_neg (not_not_intro hst), if_pos h]

/-- The shadow TMU table with the widths that the counts give. -/
theorem tmuCalDone_stores (h : (List.range 128).any (fun i => nth counts i 0 < 2048 || nth counts i 0 > 16384) = false) :
    ∃ t : CalTab, t.body = splice (d.calShadow 16).body (288 * n) ((binWidths counts).flatMap (bytesOf 2)) ∧ t.temp = d.tmu.calTemp ∧
      d.tmuCalDone n counts = (d.calWriteShadow 16 t).tmuCalEnd n false := by
  rw [Dev.tmuCalDone, if_neg (not_not_intro hst), if_neg (Bool.eq_false_iff.mp h)]
  exact ⟨_, rfl, rfl, rfl⟩

end

/-! ### A power group that is ON (R275) -/

/-- The device with a power group that has come ON, before the pending armings take effect. -/
def groupOn (d : Dev) (g : Nat) : Dev := ({ d with tmu := { d.tmu with groups := mapSet d.tmu.groups g Dom.on } } : Dev).tbNow

/-- The group is ON, and the channels that woke with it are armed, or suspended where TB is not valid. -/
theorem tmuGroupOn_arms {d : Dev} {g : Nat} (h : d.tmuGroup g = .waking) : (d.tmuGroupOn g).tmuGroup g = .on ∧
    ∀ n, n / 16 = g → (d.tmuCh n).st = tmWaking → ((d.tmuGroupOn g).tmuCh n).st = if d.tbValid then tmArmed else tmSuspended := by
  have pass : d.tmuGroupOn g =
      ((List.range 16).map (fun i => 16 * g + i)).foldl (fun d n => if (d.tmuCh n).st = tmWaking then d.armNow n else d) (groupOn d g) :=
    if_neg (not_not_intro h)
  rw [pass]
  refine ⟨?_, fun n hn hst => ?_⟩
  · have groups : ∀ l : List Nat, (l.foldl (fun d n => if (d.tmuCh n).st = tmWaking then d.armNow n else d) (groupOn d g)).tmu.groups =
        (groupOn d g).tmu.groups := fun l =>
      List.foldlRecOn l _ (motive := fun e : Dev => e.tmu.groups = (groupOn d g).tmu.groups) rfl fun e he k _ => by
        split
        · exact (armNow_arms e k).groups.trans he
        · exact he
    rw [Dev.tmuGroup, groups]
    exact mapGet_mapSet_same _ _ _ _
  · have member : n ∈ (List.range 16).map (fun i => 16 * g + i) :=
      List.mem_map.mpr ⟨n % 16, List.mem_range.mpr (Nat.mod_lt _ (by decide)), by omega⟩
    have distinct : ((List.range 16).map (fun i => 16 * g + i)).Nodup := List.nodup_range.map fun a b hab => Nat.add_left_cancel hab
    refine foldl_at (S := fun e g => (g.tmuCh n).st = (e.tmuCh n).st ∧ g.tbValid = e.tbValid)
      (P := fun e => (e.tmuCh n).st = if d.tbValid then tmArmed else tmSuspended) (fun _ => ⟨rfl, rfl⟩)
      (fun h h' => ⟨h'.1.trans h.1, h'.2.trans h.2⟩) (fun h hp => h.1.trans hp) (fun e k hk => ?_) member distinct fun e before => ?_
    · split
      · exact ⟨(armNow_arms e k).other n hk.symm, (armNow_arms e k).tbValid⟩
      · exact ⟨rfl, rfl⟩
    · rw [if_pos (before.1.trans hst), (armNow_arms e n).st, before.2]
      rfl

/-! ### The obligation -/

@[simp] theorem canon_flag (d : Dev) (off : Nat) (f : Fld) : d.canon.flag off f = d.flag off f := rfl

@[simp] theorem canon_calShadow (d : Dev) (id : Nat) : d.canon.calShadow id = d.calShadow id := rfl

/-- Settles O47: ARM by `arm_on`, `arm_waking` and `arm_refused`, DISARM by `disarm_idles`, the test by `tmuCalStart_starts` and `tmuCalEnd_ends`, a
power group by `tmuGroupOn_arms`. That a channel whose group comes ON without a valid TB is SUSPENDED, and a claimed one that is disarmed then too, is
the model's choice (log entry 121). -/
theorem channelsAreArmed : Obligations.ChannelsAreArmed := by
  unfold Obligations.ChannelsAreArmed
  refine ⟨?arm, ?disarm, ?start, ?done, ?group⟩
  case arm =>
    intro s o n w haccept hdisarm
    obtain ⟨e, started, written⟩ := writeReg_chCtrl haccept
    have arm : getBits (setBits w F.TMU_CH_CTRL_ARM 1) F.TMU_CH_CTRL_ARM = 1 := getBits_setBits_same _ _ _ (by decide)
    have disarm : ¬ getBits (setBits w F.TMU_CH_CTRL_ARM 1) F.TMU_CH_CTRL_DISARM = 1 := by
      rw [getBits_setBits_other _ _ _ _ (by decide) (by decide), hdisarm]
      decide
    simp only [if_pos arm, if_neg disarm] at written
    have runs : ∀ P : Dev → Prop, P (e.arm n).canon → Completes (.arm o n w) s P := fun P hp =>
      completes_act (f := fun d => d.writeReg o.id (R.TMU_CH_CTRL n) (setBits w F.TMU_CH_CTRL_ARM 1)) rfl (by rw [written]; exact hp)
    rw [← started.armErr, ← started.tmuGroup, ← started.getF]
    refine ⟨fun herr hon hmode => runs _ ?_, fun herr hoff hmode => runs _ (arm_waking herr hmode hoff), fun herr => runs _ ?_⟩
    · obtain ⟨st, byReg, seq, wr, rd⟩ := arm_on herr hmode hon
      refine ⟨st, byReg, seq, wr, rd, fun hheld hdiff k hk => ?_⟩
      exact (tmuCh_arm_other herr hmode hon (started.tmuCh _ ▸ hheld) ((started.tmuDiff _).trans hdiff) hk).trans (started.tmuCh k)
    · rw [arm_refused herr]
      exact ⟨(getF_setF_same _ _ _ _ (by decide)).trans (Nat.mod_eq_of_lt (armErr_lt e n)), started.tmu⟩
  case disarm =>
    intro s o n w haccept harm hreg hwant hclaim
    obtain ⟨e, started, written⟩ := writeReg_chCtrl haccept
    have disarm : getBits (setBits w F.TMU_CH_CTRL_DISARM 1) F.TMU_CH_CTRL_DISARM = 1 := getBits_setBits_same _ _ _ (by decide)
    have arm : ¬ getBits (setBits w F.TMU_CH_CTRL_DISARM 1) F.TMU_CH_CTRL_ARM = 1 := by
      rw [getBits_setBits_other _ _ _ _ (by decide) (by decide), harm]
      decide
    simp only [if_pos disarm, if_neg arm] at written
    refine completes_act (f := fun d => d.writeReg o.id (R.TMU_CH_CTRL n) (setBits w F.TMU_CH_CTRL_DISARM 1)) rfl ?_
    rw [written]
    rw [← started.tmuCh] at hreg hwant
    rw [← started.tmuClaim, ← started.tbValid] at hclaim
    simp only [canon_tmuCh]
    exact disarm_idles n.isLt hreg hwant hclaim
  case start =>
    intro s o w n haccept hbusy hn hmask
    obtain ⟨e, started, written⟩ := writeReg_calCtrl haccept
    have pending : e.calPending 16 = s.dev.calPending 16 := by rw [Dev.calPending, started.rings]; rfl
    have idle : e.flag R.TMU_CAL_CTRL F.TMU_CAL_CTRL_BUSY = false := by rw [Dev.flag, started.getF]; exact hbusy
    refine completes_act (f := fun d => d.writeReg o.id R.TMU_CAL_CTRL (setBits w F.TMU_CAL_CTRL_START 1)) rfl ?_
    rw [written, canon_flag, ← started.tmuCh, ← started.tmuClaim, ← pending]
    simp only [canon_tmuCh]
    exact tmuCalStart_starts idle hn ((bitOf_eq_of_reg n (started.reg _)).trans hmask)
  case done =>
    intro s n counts hst
    refine ⟨fun hfails => ?_, fun hpasses => ?_⟩
    · refine completes_act (f := fun d => d.tmuCalDone n counts) rfl ?_
      obtain ⟨idle, fail, cal, -⟩ := tmuCalEnd_ends n.isLt hst true
      rw [tmuCalDone_fails hst hfails]
      simp only [canon_tmuCh, canon_bitOf, canon_cal]
      exact ⟨idle, fail, cal⟩
    · refine completes_act (f := fun d => d.tmuCalDone n counts) rfl ?_
      obtain ⟨t, body, temp, stored⟩ := tmuCalDone_stores hst hpasses
      obtain ⟨idle, fail, cal, done⟩ := tmuCalEnd_ends (d := s.dev.calWriteShadow 16 t) n.isLt hst false
      have shadow : ((s.dev.calWriteShadow 16 t).tmuCalEnd n false).calShadow 16 = t := by
        rw [Dev.calShadow, cal]
        exact mapGet_mapSet_same _ _ _ _
      rw [stored]
      simp only [canon_tmuCh, canon_bitOf, canon_calShadow, canon_cal, canon_flag, shadow]
      exact ⟨idle, fail, body, temp, (congrArg CalState.live cal :), done⟩
  case group =>
    intro s g hwaking
    refine completes_act (f := fun d => d.tmuGroupOn g) rfl ?_
    simp only [canon_tmuCh]
    exact tmuGroupOn_arms hwaking

end Sys2Proof.Proofs
end

section
/-! PROOFS. The pulses of the test source (spec/09 R260). -/

namespace Sys2Proof.Proofs

open Sys2Proof Sys2Proof.Machine

set_option Elab.async false

/-! ### The counterexample -/

/-- A test source whose INTERVAL is 0 and whose last pulse came at tick 0; TB is valid and reads 100, and TMU channel 3 is armed for rising edges of the
source. No write stores an INTERVAL below 20 (R260), and the statement does not say so. -/
def stalledDev : Dev :=
  { Dev.blank with
    regs := [(R.TMU_REF_STATUS, setBits 0 F.TMU_REF_STATUS_TB_VALID 1), (R.TMU_TEST, 0),
      (R.TMU_CH_CFG 3, setBits (setBits 0 F.TMU_CH_CFG_SOURCE 3) F.TMU_CH_CFG_POLARITY 1)]
    tmu := { Tmu.reset with tb := 100, chs := [(3, { TmuCh.reset with st := tmArmed })], pulse := some 0 } }

/-- The next pulse is the last one again, before the tick at which TB stands. -/
theorem stalledDev_nextPulse : stalledDev.nextPulse 0 = 0 := by decide +kernel

/-- The edge of that pulse is stamped where TB stands: TB does not run back (R261, log entry 106). -/
theorem stalledDev_stamped : ((stalledDev.testPulse 0).tmuCh 3).held.map TmuStamp.tb = [100] := by decide +kernel

theorem stalledDev_sources : ∀ k, k < 32 → k ≠ (3 : Fin 32).val → stalledDev.tmuSource k ≠ 3 := by decide +kernel

/-- Refutes O46: with INTERVAL at 0 the next pulse of the test source is not after its last one, and where TB has come further the edge takes TB's tick
and not the pulse's. -/
theorem not_stampsAreTaken : ¬ Obligations.StampsAreTaken := by
  unfold Obligations.StampsAreTaken
  rintro ⟨-, -, -, -, pulse⟩
  obtain ⟨t, hexec, -, -, -, -, x, hheld, -, htb, -⟩ := pulse ⟨[], stalledDev⟩ 3 0 _ rfl (by decide +kernel) stalledDev_sources (by decide +kernel)
    (by decide +kernel) rfl (by decide +kernel) (by decide +kernel) rfl
  have after : t = State.put ⟨[], stalledDev⟩ (stalledDev.testPulse 0) := (Host.Outcome.next.inj hexec).symm
  have stamped : (t.dev.tmuCh 3).held.map TmuStamp.tb = [100] := by
    rw [after, put_dev, canon_tmuCh, stalledDev_stamped]
  have pulsed : (t.dev.tmuCh 3).held.map TmuStamp.tb = [0] :=
    (congrArg (List.map TmuStamp.tb) hheld).trans (congrArg (· :: []) (htb.trans stalledDev_nextPulse))
  exact absurd (stamped.symm.trans pulsed) (by decide)

end Sys2Proof.Proofs
end

section
/-! PROOFS. DDS units at their transitions, and the settle time of their amplitudes (spec/10 R283–R286, R291). -/

namespace Sys2Proof.Proofs

open Sys2Proof Sys2Proof.Machine

set_option Elab.async false

section
variable (d : Dev) (u ch t : Nat) (v : Drv) (f : DdsUnit → DdsUnit)

/-! ### Units -/

@[simp] theorem canon_ddsUnit : d.canon.ddsUnit u = d.ddsUnit u := rfl

@[simp] theorem ddsUnit_modDds_same : (d.modDds u f).ddsUnit u = f (d.ddsUnit u) := mapGet_mapSet_same _ _ _ _

theorem ddsUnit_modDds_other {k : Nat} (h : k ≠ u) : (d.modDds u f).ddsUnit k = d.ddsUnit k := mapGet_mapSet_other _ _ _ _ _ h

@[simp] theorem chan_modDds (x : Nat) : (d.modDds u f).chan x = d.chan x := rfl

/-- One transition more turns the output (R283). -/
theorem high_next (x : DdsUnit) : DdsUnit.high { x with n := x.n + 1 } = !x.high := by
  have parity : ((x.n + 1) % 2 == 1) = !(x.n % 2 == 1) := by
    rcases Nat.mod_two_eq_zero_or_one x.n with h | h <;> simp [Nat.add_mod, h]
  rw [DdsUnit.high, parity, Bool.bne_not]
  rfl

/-! ### A driver at a transition (R73, R76, R89) -/

/-- A driver's transition moves the channels, the ledger and its residues. -/
theorem drive_only : ∃ chans time, d.drive ch v t = { d with seq := { d.seq with chans := chans }, time := time } := by
  unfold Dev.drive
  dsimp only
  split
  · exact ⟨_, _, rfl⟩
  · rw [(toggle_only _ ch).choose_spec]
    exact ⟨_, _, rfl⟩

@[simp] theorem ddsUnit_drive (k : Nat) : (d.drive ch v t).ddsUnit k = d.ddsUnit k := by
  obtain ⟨chans, time, only⟩ := drive_only d ch t v
  rw [only]
  rfl

@[simp] theorem drive_sites : (d.drive ch v t).seq.sites = d.seq.sites := by
  obtain ⟨chans, time, only⟩ := drive_only d ch t v
  rw [only]

@[simp] theorem chan_toggle (x : Nat) : (d.toggle ch).chan x = d.chan x := by
  rw [Dev.chan, toggle_seq, Dev.chan]

/-- A channel that is not in overload takes the output. -/
theorem drv_drive (h : (d.chan ch).overload = false) : ((d.drive ch v t).chan ch).drv = v := by
  by_cases hv : (d.chan ch).drv = v <;> simp [Dev.drive, h, hv]

theorem chan_drive_other {x : Nat} (h : x ≠ ch) : (d.drive ch v t).chan x = d.chan x := by
  unfold Dev.drive
  dsimp only
  split
  · rfl
  · rw [chan_toggle, chan_modChan_other d _ h]

end

/-! ### A unit at its pin (R285, R286) -/

/-- The level at which a unit's output drives its pin (R286). -/
def outLevel (x : DdsUnit) : Drv := if x.high then .h else .l

theorem ddsDrive_eq (d : Dev) (u ch t : Nat) : d.ddsDrive u ch t =
    if !(d.ddsUnit u).connected || (d.chan ch).drv = outLevel (d.ddsUnit u) then d
    else if (d.chan ch).lastT + 256 ≤ t || (d.chan ch).drv = .z then d.drive ch (outLevel (d.ddsUnit u)) t
    else (d.drive ch (outLevel (d.ddsUnit u)) ((d.chan ch).lastT + 256)).modDds u
      (fun x => { x with delayed := capAt (x.delayed + 1) (2 ^ 32 - 1) }) := rfl

/-- Unit `u` has driven its output level to channel `ch`: of the units its count of delayed transitions alone moves, and of the channels this one. -/
structure DrivesPin (u ch : Nat) (d e : Dev) : Prop where
  unit : ∃ delayed, e.ddsUnit u = { d.ddsUnit u with delayed := delayed }
  units : ∀ k, k ≠ u → e.ddsUnit k = d.ddsUnit k
  level : (d.ddsUnit u).connected = true → (d.chan ch).overload = false → (e.chan ch).drv = outLevel (d.ddsUnit u)
  loose : (d.ddsUnit u).connected = false → e = d
  chans : ∀ x, x ≠ ch → e.chan x = d.chan x
  sites : e.seq.sites = d.seq.sites

namespace DrivesPin

variable {u ch : Nat} {d e : Dev}

theorem n (h : DrivesPin u ch d e) : (e.ddsUnit u).n = (d.ddsUnit u).n := by
  obtain ⟨delayed, hunit⟩ := h.unit
  rw [hunit]

theorem high (h : DrivesPin u ch d e) : (e.ddsUnit u).high = (d.ddsUnit u).high := by
  obtain ⟨delayed, hunit⟩ := h.unit
  rw [hunit]
  rfl

/-- A connected unit's driver takes the level at some instant. -/
theorem drive (d : Dev) (u ch t : Nat) (hconnected : (d.ddsUnit u).connected = true) :
    DrivesPin u ch d (d.drive ch (outLevel (d.ddsUnit u)) t) where
  unit := ⟨(d.ddsUnit u).delayed, ddsUnit_drive d ch t _ u⟩
  units k _ := ddsUnit_drive d ch t _ k
  level _ := drv_drive d ch t _
  loose hloose := Bool.noConfusion (hconnected.symm.trans hloose)
  chans _ := chan_drive_other d ch t _
  sites := drive_sites d ch t _

/-- A delayed transition is counted besides (R285). -/
theorem delay (h : DrivesPin u ch d e) (hconnected : (d.ddsUnit u).connected = true) (count : Nat → Nat) :
    DrivesPin u ch d (e.modDds u (fun x => { x with delayed := count x.delayed })) where
  unit := by
    obtain ⟨delayed, hunit⟩ := h.unit
    exact ⟨count delayed, by rw [ddsUnit_modDds_same, hunit]⟩
  units k hk := (ddsUnit_modDds_other e u _ hk).trans (h.units k hk)
  level := h.level
  loose hloose := Bool.noConfusion (hconnected.symm.trans hloose)
  chans := h.chans
  sites := h.sites

/-- The output level stands at the pin already or reaches it: at the instant, or 256 codes after the previous transition. -/
theorem ddsDrive (d : Dev) (u ch t : Nat) : DrivesPin u ch d (d.ddsDrive u ch t) := by
  rw [ddsDrive_eq]
  cases hconnected : (d.ddsUnit u).connected with
  | false => exact ⟨⟨_, rfl⟩, fun _ _ => rfl, fun h => Bool.noConfusion (hconnected.symm.trans h), fun _ => rfl, fun _ _ => rfl, rfl⟩
  | true =>
    split
    case isTrue stands => exact ⟨⟨_, rfl⟩, fun _ _ => rfl, fun _ _ => by simpa using stands, fun _ => rfl, fun _ _ => rfl, rfl⟩
    split
    · exact drive d u ch t hconnected
    · exact (drive d u ch _ hconnected).delay hconnected fun k => capAt (k + 1) (2 ^ 32 - 1)

end DrivesPin

/-- A transition of the unit of a running site: one more is counted, and the unit drives its pin at the instant computed (R284). -/
theorem ddsTransition_running {d : Dev} {u : Nat} {c : LiveClaim} (hclaim : d.seq.claims.find? (fun c => c.kind == 1 && c.unit == u) = some c)
    (hrun : (d.site c.site).st = .running) (hftw : (d.ddsUnit u).ftw ≠ 0) :
    d.ddsTransition u = (d.modDds u (fun x => { x with n := x.n + 1 })).ddsDrive u c.ch (d.ddsUnit u).next := by
  simp [Dev.ddsTransition, hclaim, hrun, hftw]

/-! ### The obligation -/

/-- Settles O35: the transition is counted before the unit drives its pin, which then carries the turned level; the end of a settle time takes it off the
list of those that hold starts. The statement's clauses say nothing of realignment (R294). That a transition is a command of its own, with no effect at
FTW 0, is the model's choice (log entry 39). -/
theorem synthClocks : Obligations.SynthClocks := by
  unfold Obligations.SynthClocks
  refine ⟨fun s u c hclaim hrun hftw => ?_, fun s x hinv => ?_⟩
  · refine completes_act (f := fun d => d.ddsTransition u) rfl ?_
    rw [ddsTransition_running hclaim hrun hftw]
    have drives := DrivesPin.ddsDrive (s.dev.modDds u (fun x => { x with n := x.n + 1 })) u c.ch (s.dev.ddsUnit u).next
    have high := drives.high
    have level := drives.level
    have loose := drives.loose
    rw [ddsUnit_modDds_same] at high level loose
    refine ⟨?_, high.trans (high_next _), fun k hk => ?_, fun hconnected hover => ?_, fun hloose => ?_, drives.chans, drives.sites⟩
    · rw [canon_ddsUnit, drives.n, ddsUnit_modDds_same]
    · exact (drives.units k hk).trans (ddsUnit_modDds_other _ _ _ hk)
    · rw [canon_chan, canon_ddsUnit, level hconnected hover, outLevel, high]
    · rw [canon_seq, loose hloose]
      rfl
  · refine completes_act (f := fun d => d.ampSettleEnd x) rfl ?_
    rw [canon_of_wf (d := s.dev.ampSettleEnd x) hinv]
    exact ⟨rfl, rfl⟩

end Sys2Proof.Proofs
end

section
/-! PROOFS. A DRAM PLL that locks late asserts the fault line of uncorrectable errors, whose douse opens the static forces of PPMUs (spec/03 R92,
spec/11 R307, spec/16 R437, spec/18 R465, R469). -/

namespace Sys2Proof.Proofs

open Sys2Proof Sys2Proof.Machine

set_option Elab.async false

/-! ### A douse opens the static force of a grate's PPMU (R92, R469) -/

/-- A grate's static PPMU pin lies in a scope. -/
def ForceInScope (g scope : Nat) (d : Dev) : Prop := ∃ p, d.staticPin g = some p ∧ tbit scope (8 * g + p.pin) = true

/-- What is live decides which static pins lie in a scope. -/
theorem forceInScope_congr {g scope : Nat} {d e : Dev} (hlive : e.seq.live = d.seq.live) (h : ForceInScope g scope d) : ForceInScope g scope e := by
  unfold ForceInScope Dev.staticPin Dev.liveLevel
  rwa [hlive]

/-- The switches of a grate opened. -/
def forceOpened (d : Dev) (g scope : Nat) : Dev :=
  match d.staticPin g with
  | some p => if tbit scope (8 * g + p.pin) then d.modGrate g (fun x => { x with forceOff := true }) else d
  | none => d

/-- Of the sequencers a grate's PPMU under a douse moves that alone. -/
theorem ppmuDouse_seq (d : Dev) (g scope : Nat) : (d.ppmuDouse g scope).seq = (forceOpened d g scope).seq := by
  have finish : ∀ d : Dev, d.ppmuFinish.seq = d.seq := fun d => by
    obtain ⟨rings, only⟩ := ppmuFinish_only d
    rw [only]
  have endStep : ∀ (d : Dev) (p : PpmuPlan) (s : PpmuStep) (code flags : Nat), (d.ppmuEndStep p s code flags).seq = d.seq :=
    fun d p s _ _ => (Sends.ownerWrite d p.ring _ _).seq
  unfold Dev.ppmuDouse
  dsimp only
  split
  · rfl
  · refine (finish _).trans ?_
    refine List.foldlRecOn _ _ (motive := fun e : Dev => e.seq = (forceOpened d g scope).seq) ?_ fun e he x _ => ?_
    · exact endStep _ _ _ _ _
    · exact (endStep _ _ _ _ _).trans he

theorem ppmuDouse_grate (d : Dev) (k scope g : Nat) : ((d.ppmuDouse k scope).grate g) = (forceOpened d k scope).grate g := by
  rw [Dev.grate, ppmuDouse_seq, Dev.grate]

/-- An open force stays open. -/
theorem ppmuDouse_stays (d : Dev) (k scope : Nat) {g : Nat} (h : (d.grate g).forceOff = true) : ((d.ppmuDouse k scope).grate g).forceOff = true := by
  have opened : ((d.modGrate k (fun x => { x with forceOff := true })).grate g).forceOff = true := by
    by_cases hg : g = k
    · rw [hg, grate_modGrate_same]
    · rwa [grate_modGrate_other _ _ _ hg]
  rw [ppmuDouse_grate]
  unfold forceOpened
  split
  · split
    · exact opened
    · exact h
  · exact h

theorem ppmuDouse_opens {d : Dev} {g scope : Nat} (h : ForceInScope g scope d) : ((d.ppmuDouse g scope).grate g).forceOff = true := by
  obtain ⟨p, hpin, hin⟩ := h
  rw [ppmuDouse_grate, forceOpened, hpin]
  dsimp only
  rw [if_pos hin, grate_modGrate_same]

theorem foldl_ppmuDouse_opens {g scope : Nat} (gs : List Nat) (d : Dev) (hg : g ∈ gs) (h : ForceInScope g scope d) :
    ((gs.foldl (fun d k => d.ppmuDouse k scope) d).grate g).forceOff = true := by
  induction gs generalizing d with
  | nil => cases hg
  | cons k t ih =>
    rw [List.foldl_cons]
    rcases List.mem_cons.mp hg with rfl | ht
    · exact List.foldlRecOn t _ (motive := fun e : Dev => (e.grate g).forceOff = true) (ppmuDouse_opens h) fun e he k _ => ppmuDouse_stays e k scope he
    · exact ih _ ht (forceInScope_congr (Keeps.ppmuDouse d k scope).binds h)

theorem calEnd_seq (d : Dev) (h code pin : Nat) : (d.calEnd h (some (code, pin))).seq = d.seq := by
  unfold Dev.calEnd
  split
  · rfl
  · simp [apply_ite Dev.seq]

/-- The grates of a scope's channels. -/
theorem mem_scopeGrates {g ch scope : Nat} (hch : ch < 1024) (hin : tbit scope ch = true) (hg : chGrate ch = g) :
    g ∈ sortNats ((bitList scope 1024).map chGrate) :=
  mem_sortNats.mpr (List.mem_map.mpr ⟨ch, List.mem_filter.mpr ⟨List.mem_range.mpr hch, hin⟩, hg⟩)

/-- A douse outside BANKED opens the static force of each grate whose pin lies in its scope. -/
theorem douse_forceOff (d : Dev) (cause source b : Nat) {g : Nat} {p : StaticPpmu} (hbanked : d.banked = false) (hpin : d.staticPin g = some p)
    (hsource : tbit source (8 * g + p.pin) = true) (hlt : p.pin < 8) (hch : 8 * g + p.pin < 1024) :
    ((d.douse cause source b).grate g).forceOff = true := by
  have hin := tbit_closed hsource d
  have halted : ((d.douseHalt (d.closed source)).grate g).forceOff = true := by
    have calEnds : ∀ (l : List Nat) (e : Dev), (l.foldl (fun d h => d.calEnd h (some (5, 0))) e).seq = e.seq := fun l e =>
      List.foldlRecOn l _ (motive := fun f : Dev => f.seq = e.seq) rfl fun f hf h _ => (calEnd_seq f h 5 0).trans hf
    unfold Dev.douseHalt Dev.grate
    dsimp only
    rw [calEnds]
    refine foldl_ppmuDouse_opens _ _ (mem_scopeGrates hch hin (by unfold chGrate; omega)) (forceInScope_congr ?_ ⟨p, hpin, hin⟩)
    exact ((Keeps.foldl _ d fun d s => Keeps.endSite d s _ _ _).trans (Keeps.pinsSafe _ _)).binds
  have grates : (d.douse cause source b).seq.grates = (d.douseHalt (d.closed source)).seq.grates := by
    have entry : ∀ e : Dev, (e.douseEntry cause (d.closed source) b).seq = e.seq := fun e => by
      unfold Dev.douseEntry
      split <;> rfl
    have supplies : ∀ e : Dev, (e.douseSeq (d.closed source)).seq = e.seq := fun e => by
      unfold Dev.douseSeq
      split
      · split <;> rfl
      · rfl
    unfold Dev.douse
    rw [hbanked]
    exact congrArg SeqState.grates ((entry _).trans (supplies _))
  rwa [Dev.grate, grates]

/-- A line of the DRAM_UE bit whose reaction is the second douses every channel. -/
theorem raise_dramUe_douses (d : Dev) (c : Nat) (hclear : d.bitOf R.FLT_WORD_LO 7 = false) (hreact : d.cfgReact 7 = 2) :
    d.raise 7 c = (d.latchFault 7 c).douse dcFault allChannels 7 := by
  have smothers : ∀ e : Dev, e.faultSmother 7 c = e := fun e => ite_self e
  have react := (latchFault_faultReact d c (b := 7) (by decide)).trans hreact
  unfold Dev.raise
  rw [if_neg (by decide), if_neg (by simp [hclear])]
  dsimp only
  rw [smothers, if_pos react]
  rfl

/-! ### The counterexample -/

/-- DRAME is in SETTLE; while it was not LOCKED 64 refreshes of channel 7 fell due. The reaction of the DRAM_UE line is a douse, and a live static PPMU pin
holds its force on grate 5. -/
def overdueDev : Dev :=
  { Dev.blank with
    regs := [(R.FLT_CFG 0, 0x95EEAAAA), (R.EMB_PSTATE, setBits 0 F.EMB_PSTATE_STATE devGlow), (R.CLK_PLL_STATUS 4, setBits 0 F.CLK_PLL_STATUS_STATE plSettle),
      (R.DMC_CH_STATUS 7, setBits 0 F.DMC_CH_STATUS_STATE dsParked)]
    board := { Dev.blank.board with refPresent := true }
    seq := { SeqState.reset with
      grates := [(5, { Grate.reset with dom := .on })]
      live := { SeqState.reset.live with levels := [(5, { LevelEntry.reset with ppmu := some ⟨0, 1, 0, 0, 0, 0⟩ })] } }
    dram := { Dev.blank.dram with chs := [(7, { DramCh.reset with parkedDue := 64 })] } }

/-- The device at the instant at which the line asserts (R437). -/
def overdueFaulting : Dev :=
  let d := ((overdueDev.setPllState 4 plLocked).setDramState 7 dsActive).modDram 7 (fun x => { x with parkedDue := 0, rows := [] })
  ((d.bump (R.DMC_CH_REFSTAT 7) F.DMC_CH_REFSTAT_MAKEUP).latch (R.DMC_CH_STATUS 7) F.DMC_CH_STATUS_CONTENT_SUSPECT).latch R.DMC_INT_STATUS
    F.DMC_INT_STATUS_CONTENT_SUSPECT

/-- The first three channels of DRAME are not parked; the fourth is, and more than N + 1 refreshes fell due there. -/
theorem overdueDev_settleEnd : overdueDev.settleEnd 4 = overdueFaulting.raise 7 7 := by
  have settle : overdueDev.pllState 4 = plSettle := by decide +kernel
  have unparked : ∀ c ∈ [4, 5, 6], (overdueDev.setPllState 4 plLocked).dramState c ≠ dsParked := by decide +kernel
  have parked : (overdueDev.setPllState 4 plLocked).dramState 7 = dsParked := by decide +kernel
  have due : ((overdueDev.setPllState 4 plLocked).dramCh 7).parkedDue = 64 := by decide +kernel
  have cut : ¬(overdueDev.clk.cut.contains 4 ∧ overdueDev.pllState 4 = plAcquire) := by decide +kernel
  have unpark : (overdueDev.setPllState 4 plLocked).dramUnpark 4 = overdueFaulting.raise 7 7 := by
    rw [Dev.dramUnpark, show dramOfPll 4 = [4, 5, 6, 7] from rfl, List.foldl_cons, List.foldl_cons, List.foldl_cons, List.foldl_cons, List.foldl_nil,
      if_pos (unparked 4 (by decide)), if_pos (unparked 5 (by decide)), if_pos (unparked 6 (by decide)), if_neg (not_not.mpr parked)]
    dsimp only
    rw [due, if_pos (by decide)]
    rfl
  unfold Dev.settleEnd Dev.lockNow
  rw [if_neg cut, if_neg (by decide), if_neg (not_not.mpr settle)]
  dsimp only
  rw [unpark, if_neg (by decide)]

theorem overdueDev_forceOff : ((overdueDev.settleEnd 4).grate 5).forceOff = true := by
  rw [overdueDev_settleEnd, raise_dramUe_douses _ _ (by decide +kernel) (by decide +kernel)]
  exact douse_forceOff (p := ⟨0, 1, 0, 0, 0, 0⟩) _ _ _ _ (by decide +kernel) (by decide +kernel) (by decide +kernel) (by decide)
    (by decide)

/-- Where SETTLE_END leaves the sequencers as they were, so does `Dev.settleEnd`. -/
theorem seq_settleEnd {s : State} {p : Fin 6} {P : Dev → Prop} (h : Completes (.settleEnd p) s (fun e => P e ∧ e.seq = s.dev.seq)) :
    (s.dev.settleEnd p).seq = s.dev.seq := by
  obtain ⟨t, hexec, -, -, hseq⟩ := h
  have after : s.put (s.dev.settleEnd p) = t := Host.Outcome.next.inj hexec
  rwa [← after] at hseq

/-- Refutes O41: at the end of DRAME's settle count the sequencers do not stand as they were, for the channel's overdue refreshes assert the DRAM_UE line
(R437), which is set to douse (R465), and the douse opens the static force of grate 5's PPMU (R92). The clause on a settle count that the loss of REFCLK
broke rests on log entry 80, the model's choice; it plays no part here. -/
theorem not_pllStates : ¬ Obligations.PllStates := by
  unfold Obligations.PllStates
  intro h
  obtain ⟨-, -, -, -, settle, -⟩ := h ⟨[], overdueDev⟩ 4
  have kept : (overdueDev.settleEnd 4).seq = overdueDev.seq := seq_settleEnd (s := ⟨[], overdueDev⟩) (p := 4) (settle (by decide +kernel) rfl)
  have closed : (overdueDev.grate 5).forceOff = false := by decide +kernel
  have opened := overdueDev_forceOff
  rw [Dev.grate, kept, ← Dev.grate, closed] at opened
  exact Bool.noConfusion opened

end Sys2Proof.Proofs
end

section
/-! PROOFS. What the end of a run, a douse and a fault line leave of the epoch's number and of the ledger (spec/12 R340-R342, spec/20 R510). -/

namespace Sys2Proof.Proofs

open Sys2Proof Sys2Proof.Machine

set_option Elab.async false

/-- The number of the epoch, that of an accepted marker, and the ledger items other than the count of douses and the channels' counts stand. -/
structure NumbersStand (d e : Dev) : Prop where
  known : e.flue.known = d.flue.known := by rfl
  epoch : e.flue.epoch = d.flue.epoch := by rfl
  assign : e.flue.assign = d.flue.assign := by rfl
  ledger : ∀ i, i ≠ 2 → i < 0x400 → e.ledger i = d.ledger i := by exact fun _ _ _ => rfl

namespace NumbersStand

theorem refl (d : Dev) : NumbersStand d d := {}

theorem trans {d e f : Dev} (h : NumbersStand d e) (g : NumbersStand e f) : NumbersStand d f :=
  ⟨g.known.trans h.known, g.epoch.trans h.epoch, g.assign.trans h.assign, fun i hi hlt => (g.ledger i hi hlt).trans (h.ledger i hi hlt)⟩

theorem foldl {α : Type} {f : Dev → α → Dev} (xs : List α) (d : Dev) (h : ∀ d x, NumbersStand d (f d x)) : NumbersStand d (xs.foldl f d) :=
  List.foldlRecOn xs f (motive := NumbersStand d) (refl d) fun e he x _ => he.trans (h e x)

theorem ite {c : Prop} [Decidable c] {d a b : Dev} (ha : NumbersStand d a) (hb : NumbersStand d b) : NumbersStand d (if c then a else b) := by
  split <;> assumption

theorem upd {d e : Dev} (hf : e.flue = d.flue := by rfl) (ht : e.time.ledger = d.time.ledger := by rfl) : NumbersStand d e where
  known := by rw [hf]
  epoch := by rw [hf]
  assign := by rw [hf]
  ledger i _ _ := by rw [Dev.ledger, ht, Dev.ledger]

theorem modSite (d : Dev) (s : Nat) (f : Site → Site) : NumbersStand d (d.modSite s f) := {}

theorem write (d : Dev) (a : Nat) (bs : List Byte) : NumbersStand d (d.write a bs) := {}

theorem setReg (d : Dev) (off : Nat) (w : Word) : NumbersStand d (d.setReg off w) := {}

theorem setF (d : Dev) (off : Nat) (f : Fld) (v : Nat) : NumbersStand d (d.setF off f v) := {}

/-- A count of another item. -/
theorem count (d : Dev) {i : Nat} (n : Nat) (h : i = 2 ∨ 0x400 ≤ i) : NumbersStand d (d.count i n) where
  ledger k hk hlt := mapGet_mapSet_other _ _ _ _ _ (by omega)

/-! ### Pins, synthesizers, TMU channels -/

theorem toggle (d : Dev) (ch : Nat) : NumbersStand d (d.toggle ch) := by
  unfold Dev.toggle
  dsimp only
  split
  · exact NumbersStand.trans upd (count _ 1 (.inr (Nat.le_add_right _ _)))
  · exact upd

theorem drive (d : Dev) (ch : Nat) (v : Drv) (t : Nat) : NumbersStand d (d.drive ch v t) := ite (refl d) (NumbersStand.trans upd (toggle _ _))

theorem pinsSafe (d : Dev) (chs : List Nat) : NumbersStand d (d.pinsSafe chs) := (foldl chs d fun d ch => ite (refl d) (toggle d ch)).trans upd

theorem ddsStop (d : Dev) (s : Nat) : NumbersStand d (d.ddsStop s) := by
  have units : NumbersStand d ((d.ddsClaims s).foldl (fun d c => match d.ddsList c with
      | some l => d.modDds c.unit (fun u => ({ u with connected := false }).load l 0 0 0)
      | none => d.modDds c.unit (fun u => { u with connected := false })) d) :=
    foldl _ d fun d c => by split <;> exact upd
  unfold Dev.ddsStop
  dsimp only
  split
  · exact units.trans upd
  · exact units

theorem tmuQueue (d : Dev) (n : Nat) (x : TmuItem) : NumbersStand d (d.tmuQueue n x) := by
  unfold Dev.tmuQueue
  exact ite upd (ite (ite upd upd) upd)

theorem tmuMark (d : Dev) (n ev : Nat) : NumbersStand d (d.tmuMark n ev) := by
  unfold Dev.tmuMark
  refine ite upd ?_
  unfold Dev.tmuAfter
  split
  · exact tmuQueue d n _
  · exact upd

theorem tmuStop (d : Dev) (s : Nat) : NumbersStand d (d.tmuStop s) :=
  ite (refl d) ((upd : NumbersStand d d.tbNow).trans (foldl _ _ fun d c => (ite (refl d) (tmuMark d _ 1)).trans upd))

/-! ### Packets -/

theorem pump (d : Dev) (p fuel : Nat) : NumbersStand d (d.pump p fuel) := by
  induction fuel generalizing d with
  | zero => exact refl d
  | succ fuel ih =>
    unfold Dev.pump
    split
    · exact refl d
    split
    · exact refl d
    · exact ite (refl d) (NumbersStand.trans {} (ih _))

theorem enqueue (d : Dev) (p : Nat) (k : Packet) : NumbersStand d (d.enqueue p k) := NumbersStand.trans {} (pump _ p _)

theorem sendPacket (d : Dev) (k : Packet) : NumbersStand d (d.sendPacket k) := by
  unfold Dev.sendPacket
  refine ite (foldl _ d fun d p => enqueue d p k) ?_
  split
  · exact enqueue d _ k
  · exact refl d
  · exact ite {} {}

theorem sendEvent (d : Dev) (ring epoch kind site rdvId : Nat) (withdrawn : Bool) (startSeq : Nat) (more : List Nat) :
    NumbersStand d (d.sendEvent ring epoch kind site rdvId withdrawn startSeq more) := ite (refl d) (sendPacket d _)

theorem ownerWrite (d : Dev) (ring a : Nat) (bs : List Byte) : NumbersStand d (d.ownerWrite ring a bs) := ite (sendPacket d _) upd

/-! ### Capture units -/

section
variable (d : Dev) (s : Nat) (p : CapPlan)

theorem modCap (f : CapRun → CapRun) : NumbersStand d (d.modCap s f) := {}

theorem capPut (r : List Byte) : NumbersStand d (d.capPut s p r) := {}

theorem capStop (vc cause : Nat) : NumbersStand d (d.capStop s p vc cause) := ite ((modCap d s _).trans (capPut _ s p _)) (modCap d s _)

theorem capResult (i : WinInst) : NumbersStand d (d.capResult s p i) := ite (modCap d s _) upd

theorem fineRef (n : Nat) (stamp : Option (Nat × Nat)) (place : Nat) : NumbersStand d (d.fineRef n stamp place) := by
  cases stamp <;> exact upd

theorem capTry (vc : Nat) (r : List Byte) : NumbersStand d (d.capTry s p vc r).2 := by
  unfold Dev.capTry
  dsimp only
  split
  · exact refl d
  split
  · exact capStop d s p vc 1
  split
  · exact refl d
  · exact capPut d s p r

/-- An offered record, whatever became of it. -/
theorem of_capTry {d e : Dev} {s : Nat} {p : CapPlan} {vc : Nat} {r : List Byte} {t : CapTry} (h : d.capTry s p vc r = (t, e)) : NumbersStand d e := by
  have tried := capTry d s p vc r
  rwa [h] at tried

theorem capSample (v : VecRec) (mode : Nat) (x : Samp) : NumbersStand d (d.capSample s p v mode x) := by
  unfold Dev.capSample
  dsimp only
  split
  · exact refl d
  refine (modCap d s _).trans (ite ?_ (ite (modCap _ s _) (refl _)))
  split
  · next h => exact (of_capTry h).trans ((fineRef _ _ _ _).trans (modCap _ s _))
  · next h => exact (of_capTry h).trans (ite (modCap _ s _) (refl _))
  · next h => exact (of_capTry h).trans ((modCap _ s _).trans (ite (capStop _ s p _ 0) (refl _)))

theorem capWindows (v : VecRec) : NumbersStand d (d.capWindows s p v) := (modCap d s _).trans (foldl _ _ fun d i => capResult d s p i)

theorem capDamper (v : VecRec) : NumbersStand d (d.capDamper s p v) := by
  unfold Dev.capDamper
  dsimp only
  refine ite ?_ (refl d)
  split <;> rename_i h <;> refine (modCap d s _).trans ((of_capTry h).trans ?_)
  · exact modCap _ s _
  · exact modCap _ s _
  · exact refl _

theorem capLate (v : VecRec) : NumbersStand d (d.capLate s p v) := by
  unfold Dev.capLate
  split
  · exact refl d
  split
  · next h => exact (of_capTry h).trans (modCap _ s _)
  · next h => exact of_capTry h

theorem capTake (v : VecRec) : NumbersStand d (d.capTake s v) := by
  unfold Dev.capTake
  split
  · exact refl d
  · next p _ =>
    dsimp only
    refine (NumbersStand.trans ?_ (capWindows _ s p v)).trans (modCap _ s _)
    refine (NumbersStand.trans ?_ (capLate _ s p v)).trans (ite (capStop _ s p _ 0) (refl _))
    exact (capDamper d s p v).trans (ite (foldl _ _ fun d x => ite (capSample d s p v _ x) (refl d)) (refl _))

theorem capDecide : NumbersStand d (d.capDecide s) := by
  unfold Dev.capDecide
  split
  · exact refl d
  · exact modCap d s _

theorem capDrain (l : List CapItem) : NumbersStand d (d.capDrain s l) := by
  induction l generalizing d with
  | nil => exact modCap d s _
  | cons x t ih =>
    cases x with
    | boundary => exact (capDecide d s).trans (ih _)
    | vec v p j =>
      unfold Dev.capDrain
      exact ite (modCap d s _) ((capTake d s v).trans (ih _))

theorem capBegin : NumbersStand d (d.capBegin s) := by
  unfold Dev.capBegin
  dsimp only
  split
  · exact modSite d s _
  · exact (modSite d s _).trans (capPut _ s _ _)

theorem capFinish : NumbersStand d (d.capFinish s) := by
  unfold Dev.capFinish
  dsimp only
  split
  · exact modCap d s _
  · next p _ =>
    refine NumbersStand.trans ?_ (write _ _ _)
    refine (NumbersStand.trans ?_ (capPut _ s p _)).trans (capPut _ s p _)
    refine (NumbersStand.trans ?_ (modCap _ s _)).trans (foldl _ _ fun d i => capResult d s p i)
    split
    · exact (modCap d s _).trans (capStop _ s p _ 0)
    · exact modCap d s _

theorem lastEvents (atOnce : Bool) : NumbersStand d (d.lastEvents s atOnce) := by
  unfold Dev.lastEvents
  dsimp only
  refine (NumbersStand.trans ?_ (capDrain _ s _)).trans (modSite _ s _)
  split
  · exact modSite d s _
  · exact foldl _ d fun d x => drive d _ _ _

end

/-! ### Groups and engines -/

theorem nameGroup (d : Dev) (k : Nat) : NumbersStand d (d.nameGroup k) := by
  unfold Dev.nameGroup
  split
  · exact refl d
  · exact foldl _ d fun d s => modSite d s _

theorem holdCause (d : Dev) (k : Nat) : NumbersStand d (d.holdCause k) := by
  unfold Dev.holdCause
  split
  · exact refl d
  split
  · exact refl d
  · exact ite (foldl _ d fun d m => modSite d m _) (refl d)

theorem freeEngine (d : Dev) (e : Nat) : NumbersStand d (d.freeEngine e) := by
  unfold Dev.freeEngine
  split
  · exact upd
  dsimp only
  split
  · exact NumbersStand.trans upd (holdCause _ _)
  · exact upd

theorem leaveGroup (d : Dev) (s : Nat) : NumbersStand d (d.leaveGroup s) := by
  unfold Dev.leaveGroup
  split
  · exact refl d
  · exact ite (NumbersStand.trans upd (foldl _ _ fun d e => freeEngine d e)) ((upd : NumbersStand d (d.setGroup _ _)).trans (nameGroup _ _))

/-! ### Waits, rendezvous, reasons -/

theorem postReport (d : Dev) (s : Nat) (bytes : List Byte) : NumbersStand d (d.postReport s bytes) := ite {} {}

theorem endWait (d : Dev) (s endCode : Nat) : NumbersStand d (d.endWait s endCode) := by
  unfold Dev.endWait
  dsimp only
  split
  · exact refl d
  · exact (modSite d s _).trans (postReport _ _ _)

theorem rdvWithdraw (d : Dev) (s : Nat) : NumbersStand d (d.rdvWithdraw s) := modSite d s _

theorem rdvRelease (d : Dev) (s epoch : Nat) (fails : List Nat) : NumbersStand d (d.rdvRelease s epoch fails) := by
  unfold Dev.rdvRelease
  exact modSite d s _

theorem takeRelease (d : Dev) (r : Start) (x epoch : Nat) (fails : List Nat) : NumbersStand d (d.takeRelease r x epoch fails) := by
  unfold Dev.takeRelease
  dsimp only
  split
  · refine NumbersStand.trans ?_ (foldl _ _ fun d s => rdvWithdraw d s)
    exact upd
  · refine NumbersStand.trans ?_ (foldl _ _ fun d s => rdvRelease d s epoch fails)
    exact upd

theorem gather (d : Dev) (r : Start) (rep : RdvReport) : NumbersStand d (d.gather r rep) := by
  unfold Dev.gather
  refine ite upd ?_
  dsimp only
  split
  · exact upd
  · refine NumbersStand.trans ?_ (takeRelease _ r _ _ _)
    exact ite ((upd : NumbersStand d ((d.setMeet _).setMeet _)).trans (sendEvent _ _ _ _ _ _ _ _ _)) upd

theorem rdvCheck (d : Dev) (id : Nat) : NumbersStand d (d.rdvCheck id) := by
  have met : ∀ m, NumbersStand d (d.setMeet m) := fun _ => upd
  unfold Dev.rdvCheck
  split
  · exact refl d
  · exact ite (refl d) (ite upd (ite ((met _).trans (gather _ _ _)) (ite ((met _).trans (sendPacket _ _)) ((met _).trans (gather _ _ _)))))

theorem sendFail (d : Dev) (s : Nat) : NumbersStand d (d.sendFail s) := by
  unfold Dev.sendFail
  split
  · exact refl d
  · exact ite (refl d) (ite (foldl _ d fun d p => enqueue d p _) (sendEvent d _ _ _ _ _ _ _ _))

theorem addReason (d : Dev) (s reason : Nat) : NumbersStand d (d.addReason s reason) :=
  ite (refl d) ((modSite d s _).trans (ite (refl _) upd))

/-! ### Runs that end -/

theorem endSite (d : Dev) (s : Nat) (cause : EndCause) (reason : Nat) (fromFail : Bool) : NumbersStand d (d.endSite s cause reason fromFail) := by
  unfold Dev.endSite
  refine ite (refl d) ?_
  dsimp only
  -- from the last operation back to the site's passage to STOPPING
  refine NumbersStand.trans ?_ (rdvCheck _ _)
  refine NumbersStand.trans ?_ (ite (sendFail _ _) (refl _))
  refine ((NumbersStand.trans ?_ (tmuStop _ _)).trans (capFinish _ _)).trans (leaveGroup _ _)
  refine (NumbersStand.trans ?_ (pinsSafe _ _)).trans (ddsStop _ _)
  refine (NumbersStand.trans ?_ (ite upd (refl _))).trans (ite upd (refl _))
  refine NumbersStand.trans ?_ (ite (refl _) (capBegin _ _))
  -- what comes before it
  refine NumbersStand.trans ?_ (modSite _ s _)
  refine NumbersStand.trans ?_ (addReason _ s reason)
  exact ((endWait d s 1).trans (ite (lastEvents _ s _) (refl _))).trans (ite (foldl _ _ fun d r => addReason d s r) (refl _))

theorem smother (d : Dev) (s reason : Nat) (fromFail : Bool) : NumbersStand d (d.smother s reason fromFail) :=
  ite (endSite d s _ _ _) (ite (modSite d s _) (refl d))

theorem smotherAll (d : Dev) (l : List Nat) (reason : Nat) : NumbersStand d (d.smotherAll l reason) := foldl l d fun d s => smother d s reason false

theorem stopSite (d : Dev) (s : Nat) : NumbersStand d (d.stopSite s) := by
  unfold Dev.stopSite
  split
  · exact endSite d s .stop 7 false
  · exact modSite d s _
  · exact refl d

/-! ### Douses and fault lines -/

theorem ppmuEndStep (d : Dev) (p : PpmuPlan) (s : PpmuStep) (code flags : Nat) : NumbersStand d (d.ppmuEndStep p s code flags) := by
  unfold Dev.ppmuEndStep
  exact (ownerWrite d p.ring _ _).trans upd

theorem ppmuFinish (d : Dev) : NumbersStand d d.ppmuFinish := by
  obtain ⟨rings, only⟩ := ppmuFinish_only d
  rw [only]
  exact upd

theorem ppmuDouse (d : Dev) (g scope : Nat) : NumbersStand d (d.ppmuDouse g scope) := by
  have force : NumbersStand d (match d.staticPin g with
      | some p => if tbit scope (8 * g + p.pin) then d.modGrate g (fun x => { x with forceOff := true }) else d
      | none => d) := by
    split
    · exact ite upd (refl d)
    · exact refl d
  unfold Dev.ppmuDouse
  dsimp only
  split
  · exact force
  · refine NumbersStand.trans ?_ (ppmuFinish _)
    refine NumbersStand.trans ?_ (foldl _ _ fun d x => (upd : NumbersStand d d.drawNat.2).trans (ppmuEndStep _ _ _ _ _))
    exact (force.trans (upd : NumbersStand _ (Dev.drawNat _).2)).trans (ppmuEndStep _ _ _ _ _)

theorem calEnd (d : Dev) (h code pin : Nat) : NumbersStand d (d.calEnd h (some (code, pin))) := by
  have status : ∀ (f : Fld) (v : Nat) (e : Dev), NumbersStand e (e.setF R.CAL_PROC_STATUS f v) := fun f v e => setF e _ f v
  unfold Dev.calEnd
  split
  · exact refl d
  refine ite (refl d) ?_
  dsimp only
  have named := ite ((status F.CAL_PROC_STATUS_PIN pin d).trans (status F.CAL_PROC_STATUS_HEARTH h _)) (refl d)
    (c := d.getF R.CAL_PROC_STATUS F.CAL_PROC_STATUS_OUTCOME = 0)
  have outcome := named.trans (status F.CAL_PROC_STATUS_OUTCOME (if d.getF R.CAL_PROC_STATUS F.CAL_PROC_STATUS_OUTCOME = 0 then code
    else min (d.getF R.CAL_PROC_STATUS F.CAL_PROC_STATUS_OUTCOME) code) _)
  refine outcome.trans (ite ?_ upd)
  refine (NumbersStand.trans ?_ (status _ _ _)).trans (setF _ _ _ 1)
  exact (upd : NumbersStand _ _).trans (status _ _ _)

theorem douseHalt (d : Dev) (scope : Nat) : NumbersStand d (d.douseHalt scope) := by
  unfold Dev.douseHalt
  refine NumbersStand.trans ?_ (foldl _ _ fun d h => calEnd d h 5 0)
  refine NumbersStand.trans ?_ (foldl _ _ fun d g => ppmuDouse d g scope)
  exact (foldl _ d fun d s => endSite d s .douse 0 false).trans (pinsSafe _ _)

theorem douseSeq (d : Dev) (scope : Nat) : NumbersStand d (d.douseSeq scope) := by
  unfold Dev.douseSeq
  split
  · exact ite (refl d) upd
  · exact refl d

theorem douseEntry (d : Dev) (cause scope b : Nat) : NumbersStand d (d.douseEntry cause scope b) := ite upd upd

theorem douse (d : Dev) (cause source b : Nat) (resetAfter : Bool) : NumbersStand d (d.douse cause source b resetAfter) := by
  unfold Dev.douse
  refine ite (douseEntry d _ _ _) ?_
  exact ((((douseHalt d _).trans (douseSeq _ _)).trans (douseEntry _ _ _ _)).trans (count _ 1 (.inl rfl))).trans upd

theorem latchFault (d : Dev) (b unit : Nat) : NumbersStand d (d.latchFault b unit) := NumbersStand.trans upd (ite (refl _) (setReg _ _ _))

theorem faultSmother (d : Dev) (b unit : Nat) : NumbersStand d (d.faultSmother b unit) := by
  unfold Dev.faultSmother
  refine ite ?_ (refl d)
  split
  · exact smotherAll d _ _
  · exact refl d

theorem raise (d : Dev) (b unit : Nat) : NumbersStand d (d.raise b unit) :=
  ite (refl d) (ite (faultSmother d b unit) (((latchFault d b unit).trans (ite (douse _ _ _ _ _) (ite (douse _ _ _ _ _) (refl _)))).trans
    (faultSmother _ b unit)))

end NumbersStand

end Sys2Proof.Proofs
end

section
/-! PROOFS. What the TMU's part of a SYNC edge, of the loss of the time base and of a skew measurement leave (spec/09 R261-R265, spec/12 R339). -/

namespace Sys2Proof.Proofs

open Sys2Proof Sys2Proof.Machine

set_option Elab.async false

/-- What the end of a run leaves alone is left, and so are the numbers, the sites and the starts: time stamps alone change. -/
structure Stamping (d e : Dev) : Prop extends Keeps d e, NumbersStand d e where
  seq : e.seq = d.seq

namespace Stamping

theorem refl (d : Dev) : Stamping d d := ⟨.refl d, .refl d, rfl⟩

theorem trans {d e f : Dev} (h : Stamping d e) (g : Stamping e f) : Stamping d f :=
  ⟨h.toKeeps.trans g.toKeeps, h.toNumbersStand.trans g.toNumbersStand, g.seq.trans h.seq⟩

theorem foldl {α : Type} {f : Dev → α → Dev} (xs : List α) (d : Dev) (h : ∀ d x, Stamping d (f d x)) : Stamping d (xs.foldl f d) :=
  List.foldlRecOn xs f (motive := Stamping d) (refl d) fun e he x _ => he.trans (h e x)

theorem ite {c : Prop} [Decidable c] {d a b : Dev} (ha : Stamping d a) (hb : Stamping d b) : Stamping d (if c then a else b) := by
  split <;> assumption

theorem setReg (d : Dev) {off : Nat} (w : Word) (h : steadyReg off = false) : Stamping d (d.setReg off w) := ⟨.setReg d w h, .setReg d _ w, rfl⟩

theorem setF (d : Dev) {off : Nat} (f : Fld) (v : Nat) (h : steadyReg off = false) : Stamping d (d.setF off f v) := setReg d _ h

theorem latch (d : Dev) {off : Nat} (f : Fld) (h : steadyReg off = false) : Stamping d (d.latch off f) := setReg d _ h

theorem bump (d : Dev) {off : Nat} (f : Fld) (n : Nat) (h : steadyReg off = false) : Stamping d (d.bump off f n) := setReg d _ h

theorem modTmu (d : Dev) (n : Nat) (f : TmuCh → TmuCh) : Stamping d (d.modTmu n f) := ⟨.upd, {}, rfl⟩

theorem tmuMark (d : Dev) (n ev : Nat) : Stamping d (d.tmuMark n ev) := ⟨.tmuMark d n ev, .tmuMark d n ev, (MovesRecords.tmuMark d n ev).seq⟩

theorem tmuCalEnd (d : Dev) (n : Nat) (failed : Bool) : Stamping d (d.tmuCalEnd n failed) := by
  have power : ∀ e : Dev, Stamping e e.tmuPower := fun e => by
    rw [tmuPower_only]
    exact ⟨.upd, {}, rfl⟩
  refine Stamping.trans ?_ (setF _ _ _ (by decide))
  refine Stamping.trans ?_ (power _)
  exact ((modTmu d n _).trans (setF _ _ _ (by decide))).trans (latch _ _ (by decide))

theorem tmuClaims (d : Dev) : Stamping d d.tmuClaims :=
  foldl _ d fun d n => ite ((modTmu d n _).trans (tmuMark _ n 2)) (ite (modTmu d n _) (refl d))

/-- The time base is lost (R265). -/
theorem tbLost (d : Dev) : Stamping d d.tbLost := by
  have now : Stamping d d.tbNow := ⟨.upd, {}, rfl⟩
  refine ite (refl d) (Stamping.trans ?_ (tmuClaims _))
  exact (now.trans (setF _ _ _ (by decide))).trans
    (foldl _ _ fun d n => ite ((tmuMark d n 2).trans (modTmu _ n _)) (ite (tmuCalEnd d n true) (refl d)))

theorem flagBytes (d : Dev) (places : List Nat) : Stamping d (d.flagBytes places) := foldl places d fun _ _ => ⟨.upd, {}, rfl⟩

/-- REFCLK is lost: stamps are flagged (R265). -/
theorem tmuRefLost (d : Dev) (last : Nat) : Stamping d (d.tmuRefLost last) := by
  unfold Dev.tmuRefLost
  dsimp only
  refine Stamping.trans ?_ (flagBytes _ _)
  exact ⟨.upd, {}, rfl⟩

theorem tmu (d : Dev) (t : Tmu) : Stamping d { d with tmu := t } := ⟨.upd, {}, rfl⟩

theorem unrefFine (d : Dev) (late : Nat → Bool) : Stamping d (d.unrefFine late) := flagBytes d _

/-- A slip flags stamps (R264). -/
theorem tmuSlip (d : Dev) : Stamping d d.tmuSlip := by
  unfold Dev.tmuSlip
  extract_lets late d' d'' places d'''
  have slipped : Stamping d d' := (latch d _ (by decide)).trans (bump _ _ 1 (by decide))
  clear_value d'
  have latched : Stamping d d'' := slipped.trans (latch _ _ (by decide))
  clear_value d''
  exact ((latched.trans (tmu d'' _)).trans (flagBytes _ _)).trans (unrefFine _ _)

/-- Suspended channels come back with TB (R265). -/
theorem resumed (d : Dev) : Stamping d ((List.range 32).foldl (fun (d : Dev) n =>
    let c := d.tmuCh n
    if c.st = tmSuspended then
      (d.tmuMark n 3).modTmu n (fun c => { c with st := if c.byReg || c.claimRun then tmArmed else tmIdle })
    else d) d) :=
  foldl _ d fun d n => ite ((tmuMark d n 3).trans (modTmu _ n _)) (refl d)

/-- A SYNC edge sets the time base (R261, R262). -/
theorem tmuSync (d : Dev) (tick : Nat) : Stamping d (d.tmuSync tick) := by
  unfold Dev.tmuSync
  extract_lets e slip d' tb chs refs t d'' valid
  have slipped : Stamping d d' := ite (tmuSlip d) (refl d)
  clear_value d'
  have based : Stamping d d'' := slipped.trans (tmu d' _)
  clear_value d''
  exact ite ((based.trans (setF _ _ 1 (by decide))).trans (resumed _)) based

/-- A skew measurement is aborted (R339). -/
theorem skewAbort (d : Dev) : Stamping d d.skewAbort := by
  have ended : Stamping d { d with flue := { d.flue with skew := none } } := ⟨.upd, {}, rfl⟩
  have idle := ended.trans (setF (off := R.FLU_SKEW_CTRL) _ F.FLU_SKEW_CTRL_BUSY 0 (by decide))
  exact ite ((idle.trans (setF _ _ _ (by decide))).trans (latch _ _ (by decide))) (refl d)

end Stamping

end Sys2Proof.Proofs
end

section
/-! PROOFS. The epochs are counted at SYNC edges: O38 (spec/11 R316, R317, spec/12 R339-R342). -/

namespace Sys2Proof.Proofs

open Sys2Proof Sys2Proof.Machine

set_option Elab.async false

/-! ### What is due at an edge leaves the number -/

namespace NumbersStand

theorem stopsDue (d : Dev) : NumbersStand d d.stopsDue := by
  unfold Dev.stopsDue
  exact NumbersStand.trans {} (foldl _ _ fun d x => ite (stopSite d x.1) (refl d))

theorem failsDue (d : Dev) : NumbersStand d d.failsDue := by
  unfold Dev.failsDue
  exact NumbersStand.trans {} (foldl _ _ fun d x => ite (smother d x.1 9 true) (refl d))

theorem windowGuards (d : Dev) : NumbersStand d d.windowGuards := by
  have members : ∀ (d : Dev) (l : List Nat) (reason : Nat), NumbersStand d (l.foldl (fun d m => d.endSite m .smother reason) d) :=
    fun d l reason => foldl l d fun d m => endSite d m _ _ _
  refine foldl _ d fun d k => ?_
  split
  · exact refl d
  split
  · exact ite (refl d) (ite (members d _ 4) (ite (members d _ 8) (refl d)))
  · exact refl d

end NumbersStand

/-! ### A SYNC edge -/

/-- An edge of a known number opens that epoch, and no accepted marker is left (R340-R342). -/
theorem syncEdge_opens {d : Dev} {tick a : Nat} (hrun : d.running = true) (hedge : d.edgeEpoch = some a) (hnew : d.flue.known = false ∨ a ≠ d.flue.epoch) :
    (d.syncEdge tick).flue.known = true ∧ (d.syncEdge tick).flue.epoch = a ∧ (d.syncEdge tick).flue.assign = none := by
  have new : d.edgeNew = true := by
    rw [Dev.edgeNew, hedge]
    rcases hnew with h | h <;> simp [h]
  suffices h : ∃ o : Dev, (o.flue.known = true ∧ o.flue.epoch = a ∧ o.flue.assign = none) ∧ NumbersStand o (d.syncEdge tick) by
    obtain ⟨o, ⟨known, epoch, assign⟩, stands⟩ := h
    exact ⟨stands.known.trans known, stands.epoch.trans epoch, stands.assign.trans assign⟩
  unfold Dev.syncEdge
  rw [hrun, new, hedge, if_neg (by decide)]
  extract_lets e? fl opened synced guarded
  have numbers : opened.flue.known = true ∧ opened.flue.epoch = a ∧ opened.flue.assign = none := ⟨rfl, rfl, rfl⟩
  refine ⟨opened, numbers, ?_⟩
  have time : NumbersStand opened synced := (Stamping.tmuSync opened _).toNumbersStand
  have due : NumbersStand opened guarded := ((time.trans (.stopsDue _)).trans (.failsDue _)).trans (.windowGuards _)
  have known : synced.flue.known = true := time.known.trans numbers.1
  clear_value guarded
  rw [known, if_neg (by decide)]
  exact due.trans (.foldl _ _ fun d r => .rdvCheck d r.id)

/-! ### A missing edge -/

/-- The smothering for clock loss acts at once: it ends every run (R32). -/
theorem smother_clockLoss_ends (d : Dev) (s : Nat) (h : (d.site s).st = .starting ∨ (d.site s).st = .running) :
    EndsRun s .smother 2 d (d.smother s 2) := by
  unfold Dev.smother
  dsimp only
  rw [if_pos (h.imp_right fun hrunning => ⟨hrunning, by decide⟩)]
  exact endSite_ends d s .smother 2 false h

/-- The smothering of one site leaves the run of every other. -/
theorem smother_sameRun (d : Dev) {s x : Nat} (reason : Nat) (h : x ≠ s) : SameRun (d.site x) ((d.smother s reason).site x) := by
  unfold Dev.smother
  dsimp only
  split
  · exact endSite_sameRun d _ _ _ h
  split
  · rw [site_modSite_other d _ h]
    exact .refl _
  · exact .refl _

/-- Every listed site in a run is smothered for clock loss; one that is smothered stays so. -/
theorem smotherAll_clockLost {id x : Nat} (l : List Nat) (d : Dev)
    (h : (x ∈ l ∧ ((d.site x).st = .starting ∨ (d.site x).st = .running) ∧ (d.site x).start = id) ∨ clockLost id d x) :
    clockLost id (d.smotherAll l 2) x := by
  induction l generalizing d with
  | nil => exact h.resolve_left fun h => List.not_mem_nil h.1
  | cons s t ih =>
    refine ih (d.smother s 2) ?_
    by_cases hs : x = s
    · subst hs
      refine .inr ?_
      rcases h with ⟨_, active, start⟩ | lost
      · have ends := smother_clockLoss_ends d x active
        exact ⟨ends.ended, ends.start.trans start, ends.reason (by decide)⟩
      · rwa [smother_stopping d x lost.1.1]
    · have same := smother_sameRun d 2 hs
      refine h.imp (fun ⟨listed, active, start⟩ => ⟨(List.mem_cons.mp listed).resolve_left hs, ?_, same.start.trans start⟩) (clockLost_of_sameRun same)
      rwa [same.st]

/-- Clock loss smothers every run (R32). -/
theorem smotherAll_active_lost {d : Dev} {x : Nat} (h : (d.site x).st = .starting ∨ (d.site x).st = .running) :
    RunEnds x .smother (d.smotherAll d.activeSites 2) ∧ ((d.smotherAll d.activeSites 2).site x).reasons.contains 2 = true := by
  obtain ⟨ended, _, reason⟩ := smotherAll_clockLost d.activeSites d (.inl ⟨mem_activeSites h, h, rfl⟩)
  exact ⟨ended, List.contains_iff_mem.mpr reason⟩

/-- A count that saturates fits its field. -/
theorem getF_bump_same (d : Dev) (off : Nat) (f : Fld) (n : Nat) (hf : f.lsb + f.width ≤ 32) :
    (d.bump off f n).getF off f = capAt (d.getF off f + n) (2 ^ f.width - 1) := by
  have fits : capAt (d.getF off f + n) (2 ^ f.width - 1) < 2 ^ f.width := by
    have pos := Nat.two_pow_pos f.width
    rw [capAt]
    split <;> omega
  rw [Dev.bump, getF_setF_same _ _ _ _ hf, Nat.mod_eq_of_lt fits]

/-- The device once a missing edge is counted and its number lost, before time and runs are told. -/
def edgeMissed (d : Dev) : Dev :=
  let d := (d.bump R.CLK_SYNC_STATUS F.CLK_SYNC_STATUS_MISSED).latch R.CLK_INT_STATUS F.CLK_INT_STATUS_SYNC_MISSING
  { d with flue := { d.flue with known := false, assign := none } }

theorem edgeMissed_site (d : Dev) (x : Nat) : (edgeMissed d).site x = d.site x := rfl

theorem edgeMissed_missed (d : Dev) : (edgeMissed d).getF R.CLK_SYNC_STATUS F.CLK_SYNC_STATUS_MISSED =
    capAt (d.getF R.CLK_SYNC_STATUS F.CLK_SYNC_STATUS_MISSED + 1) (2 ^ F.CLK_SYNC_STATUS_MISSED.width - 1) := by
  have numbers : ∀ (e : Dev) (l : Flue) (off : Nat) (f : Fld), ({ e with flue := l } : Dev).getF off f = e.getF off f := fun _ _ _ _ => rfl
  unfold edgeMissed
  exact (numbers _ _ _ _).trans ((getF_eq_of_reg _ (reg_latch_other _ _ _ _ (by decide))).trans (getF_bump_same d _ _ 1 (by decide)))

/-- A missing edge loses the number, is counted, and ends every run with a smother for clock loss (R316, R342). -/
theorem syncMissing_loses {d : Dev} (hrun : d.running = true) : d.syncMissing.flue.known = false ∧
    d.syncMissing.getF R.CLK_SYNC_STATUS F.CLK_SYNC_STATUS_MISSED =
      capAt (d.getF R.CLK_SYNC_STATUS F.CLK_SYNC_STATUS_MISSED + 1) (2 ^ F.CLK_SYNC_STATUS_MISSED.width - 1) ∧
    ∀ x, (d.site x).st = .starting ∨ (d.site x).st = .running → RunEnds x .smother d.syncMissing ∧ (d.syncMissing.site x).reasons.contains 2 = true := by
  have time := (Stamping.skewAbort (edgeMissed d)).trans (.tbLost _)
  have step : d.syncMissing = (edgeMissed d).skewAbort.tbLost.smotherAll (edgeMissed d).activeSites 2 := by
    unfold Dev.syncMissing edgeMissed
    rw [hrun, if_neg (by decide)]
  generalize (edgeMissed d).skewAbort.tbLost = e at time step
  have active : (edgeMissed d).activeSites = e.activeSites := by rw [Dev.activeSites, ← time.seq, Dev.activeSites]
  rw [step, active]
  refine ⟨((NumbersStand.smotherAll e _ 2).known.trans time.known).trans rfl, ?_, fun x hx => smotherAll_active_lost ?_⟩
  · exact (getF_eq_of_reg _ (((Keeps.smotherAll e _ 2).reg _ rfl).trans (time.reg _ rfl))).trans (edgeMissed_missed d)
  · have site : e.site x = d.site x := by rw [Dev.site, time.seq, ← edgeMissed_site, Dev.site]
    rwa [site]

/-! ### O38 -/

/-- Settles O38: what is due at an edge leaves the number that the edge opened; the smothering for clock loss acts at once, so that each site in a
run ends by its own smothering or has ended before it. -/
theorem epochsAreCounted : Obligations.EpochsAreCounted := by
  refine ⟨fun s tick hrun => ⟨fun a hassign hnew => ?_, fun hassign hknown hrole => ?_⟩, fun s hrun => ?_, fun s hinv hgen hrole => ?_⟩
  · refine completes_act (f := fun d => d.syncEdge tick) rfl ?_
    exact syncEdge_opens hrun (by rw [Dev.edgeEpoch, hassign]) hnew
  · refine completes_act (f := fun d => d.syncEdge tick) rfl ?_
    refine syncEdge_opens hrun ?_ (.inr (by omega))
    rw [Dev.edgeEpoch, hassign]
    simp [hrole, hknown]
  · refine completes_act (f := fun d => d.syncMissing) rfl ?_
    exact syncMissing_loses hrun
  · refine completes_act (f := fun d => d.syncPulse) rfl ?_
    have pulse : s.dev.syncPulse = { s.dev with flue := { s.dev.flue with genCount := s.dev.flue.genCount + 1 }, outbox := s.dev.outbox ++ [.syncPulse] } := by
      unfold Dev.syncPulse
      rw [if_pos (by simp [hgen, hrole])]
      rfl
    have wf : Memory.wf s.dev.syncPulse.mem = true := by
      rw [pulse]
      exact hinv
    dsimp only
    rw [canon_of_wf wf, pulse]
    exact ⟨rfl, rfl, rfl⟩

end Sys2Proof.Proofs
end

section
/-! PROOFS. Band measurement, grid phase, clock outputs and the ember clock (spec/11 R302, R305, R315, R319, R320). -/

namespace Sys2Proof.Proofs

open Sys2Proof Sys2Proof.Machine

set_option Elab.async false

/-! ### Band measurement (R305) -/

/-- The row of CLK_BAND_SEL. -/
def bandSelRow : RDesc := ⟨0x30020, [], [⟨31, 1, .ro, 0, false⟩, ⟨30, 1, .wo, 0, false⟩, ⟨8, 3, .rw, 0, false⟩, ⟨0, 6, .rw, 0, false⟩]⟩

theorem bandSelRow_mem : bandSelRow ∈ regTable := by decide +kernel

theorem regRow_bandSel : regRow (regCanon R.CLK_BAND_SEL) = some bandSelRow := by decide +kernel

theorem regCanon_bandSel : regCanon R.CLK_BAND_SEL = R.CLK_BAND_SEL := by decide +kernel

/-- CLK_BAND_SEL takes the word as it is written. -/
theorem regNorm_bandSel (w : Word) : regNorm R.CLK_BAND_SEL w = w := rfl

/-- A write of it with MEASURE starts a measurement. -/
theorem regEffect_measure (d : Dev) (o : Nat) (old : Word) {w : Word} (h : getBits w F.CLK_BAND_SEL_MEASURE = 1) :
    d.regEffect o R.CLK_BAND_SEL old w = d.measure := by
  have effect : d.regEffect o R.CLK_BAND_SEL old w = d.clkEffect R.CLK_BAND_SEL old w := rfl
  rw [effect, Dev.clkEffect, if_pos rfl, if_pos h]

/-- With REFCLK present it marks the entry that is selected, and BUSY. -/
theorem measure_eq {d : Dev} (hfree : d.clk.measuring = none) (href : d.board.refPresent = true) : d.measure =
    { d with clk := { d.clk with measuring := some (64 * d.getF R.CLK_BAND_SEL F.CLK_BAND_SEL_PLL + d.getF R.CLK_BAND_SEL F.CLK_BAND_SEL_BAND) } }.setF
      R.CLK_BAND_SEL F.CLK_BAND_SEL_BUSY 1 := by
  unfold Dev.measure
  rw [hfree]
  exact if_pos href

section
variable (d : Dev) (o : Origin) (w : Word)

/-- The device in which a write of CLK_BAND_SEL with MEASURE is logged and stored. -/
def bandSelStored : Dev :=
  (d.logWrite o.id R.CLK_BAND_SEL (setBits w F.CLK_BAND_SEL_MEASURE 1)).setReg R.CLK_BAND_SEL
    (bandSelRow.store (d.reg R.CLK_BAND_SEL) (setBits w F.CLK_BAND_SEL_MEASURE 1))

/-- A field that selects the entry is stored as written. -/
theorem bandSelStored_field {f : RField} (hf : f ∈ bandSelRow.fields) (hrw : f.ty = .rw) (hbits : f.lsb + f.width ≤ 30) :
    (bandSelStored d o w).getF R.CLK_BAND_SEL ⟨f.lsb, f.width⟩ = getBits w ⟨f.lsb, f.width⟩ := by
  rw [Dev.getF, bandSelStored, reg_setReg_same, getBits_store_rw bandSelRow_mem hf hrw]
  exact getBits_setBits_other w _ _ 1 (by simp only; omega) (.inr hbits)

/-- MEASURE starts a measurement of the entry that the word selects. -/
theorem writeReg_measure (h : Accepts d o R.CLK_BAND_SEL (setBits w F.CLK_BAND_SEL_MEASURE 1)) :
    d.writeReg o.id R.CLK_BAND_SEL (setBits w F.CLK_BAND_SEL_MEASURE 1) = (bandSelStored d o w).measure := by
  obtain ⟨running, judged⟩ := h
  rw [Dev.writeReg, writeVia_accepted running judged regRow_bandSel (by rw [regCanon_bandSel]; decide), regCanon_bandSel, regNorm_bandSel]
  exact regEffect_measure _ _ _ (getBits_setBits_same w _ 1 (by decide))

variable {d o w}

theorem measure_starts (hfree : d.clk.measuring = none) (href : d.board.refPresent = true) :
    ((bandSelStored d o w).measure).clk.measuring = some (64 * getBits w F.CLK_BAND_SEL_PLL + getBits w F.CLK_BAND_SEL_BAND) ∧
      ((bandSelStored d o w).measure).getF R.CLK_BAND_SEL F.CLK_BAND_SEL_BUSY = 1 ∧ RegsBut [R.CLK_BAND_SEL] d (bandSelStored d o w).measure := by
  have pll := bandSelStored_field d o w (f := ⟨8, 3, .rw, 0, false⟩) (by decide) rfl (by decide)
  have band := bandSelStored_field d o w (f := ⟨0, 6, .rw, 0, false⟩) (by decide) rfl (by decide)
  have stored : RegsBut [R.CLK_BAND_SEL] d (bandSelStored d o w) := fun off hoff => by
    rw [bandSelStored, reg_setReg_other _ _ _ _ (fun h => hoff (List.mem_singleton.mpr h)), logWrite_reg]
  have free : (bandSelStored d o w).clk.measuring = none := by
    rw [bandSelStored, logWrite_only]
    exact hfree
  have present : (bandSelStored d o w).board.refPresent = true := by
    rw [bandSelStored, logWrite_only]
    exact href
  generalize bandSelStored d o w = e at pll band stored free present
  rw [measure_eq free present, pll, band]
  exact ⟨rfl, getF_setF_same _ _ _ _ (by decide), regsBut_trans stored (regsBut_trans (fun _ _ => rfl) (regsBut_setF _ _ _ 1))⟩

end

/-- A measurement that ends fills its entry, no other, and BUSY clears. -/
theorem measureEnd_fills {d : Dev} {k : Nat} (entry : Word) (h : d.clk.measuring = some k) : (d.measureEnd entry).clk.measuring = none ∧
    (d.measureEnd entry).getF R.CLK_BAND_SEL F.CLK_BAND_SEL_BUSY = 0 ∧ (∀ p b, k = 64 * p + b → (d.measureEnd entry).band p b = entry) ∧
    (∀ p b, k ≠ 64 * p + b → (d.measureEnd entry).band p b = d.band p b) ∧
    d.measureEnd entry = { d with regs := (d.measureEnd entry).regs, clk := (d.measureEnd entry).clk } ∧
    RegsBut [R.CLK_BAND_SEL] d (d.measureEnd entry) := by
  have filled : d.measureEnd entry =
      ({ d with clk := { d.clk with bands := mapSet d.clk.bands k entry, measuring := none } } : Dev).setF R.CLK_BAND_SEL F.CLK_BAND_SEL_BUSY 0 := by
    rw [Dev.measureEnd, h]
  rw [filled]
  refine ⟨rfl, getF_setF_same _ _ _ _ (by decide), fun p b hk => ?_, fun p b hk => ?_, rfl, regsBut_trans (fun _ _ => rfl) (regsBut_setF _ _ _ 0)⟩
  · subst hk
    exact mapGet_mapSet_same _ _ _ _
  · exact mapGet_mapSet_other _ _ _ _ _ (Ne.symm hk)

/-! ### Grid phase (R315) -/

theorem calKick_regs (d : Dev) : d.calKick.regs = d.regs := by
  unfold Dev.calKick
  exact List.foldlRecOn _ _ (motive := fun e : Dev => e.regs = d.regs) rfl fun e he c _ => he

/-- CURRENT moves one step the shorter way round to TARGET, and stands when it is there. -/
theorem phaseStep_moves {d : Dev} (h : d.pllState pllGrid = plLocked) {c t : Nat} (hc : c = d.getF R.CLK_GRID_PHASE F.CLK_GRID_PHASE_CURRENT)
    (ht : t = d.getF R.CLK_GRID_PHASE F.CLK_GRID_PHASE_TARGET) :
    RegsBut [R.CLK_GRID_PHASE] d d.phaseStep ∧ d.phaseStep.getF R.CLK_GRID_PHASE F.CLK_GRID_PHASE_TARGET = t ∧
      d.phaseStep.getF R.CLK_GRID_PHASE F.CLK_GRID_PHASE_CURRENT = if t = c then c else if (t + 256 - c) % 256 ≤ 128 then (c + 1) % 256 else (c + 255) % 256 := by
  have locked : d.pllLocked pllGrid = true := beq_iff_eq.mpr h
  have hc256 : c < 256 := hc ▸ natField_lt _ _
  have ht256 : t < 256 := ht ▸ natField_lt _ _
  unfold Dev.phaseStep
  rw [← hc, ← ht, locked]
  by_cases there : t = c
  · rw [if_pos (.inl (by omega)), if_pos there]
    exact ⟨fun _ _ => rfl, ht.symm, hc.symm⟩
  · rw [if_neg (by simp only [Bool.true_eq_false, or_false]; omega), if_neg there]
    refine ⟨regsBut_setF _ _ _ _, ?_, ?_⟩
    · rw [getF_setF_disjoint _ _ _ _ _ (by decide) (by decide), ht]
    · rw [getF_setF_same _ _ _ _ (by decide)]
      refine Nat.mod_eq_of_lt ?_
      show _ < 256
      split <;> omega

/-! ### Clock outputs (R319) -/

/-- The row of CLK_OUTn_CFG. -/
def outCfgRow : RDesc :=
  ⟨0x30200, [(16, 4)], [⟨31, 1, .rw, 0, false⟩, ⟨30, 1, .rw, 1, false⟩, ⟨18, 2, .rw, 0, false⟩, ⟨16, 2, .rw, 0, false⟩, ⟨0, 16, .rw, 40, false⟩]⟩

theorem outCfgRow_mem : outCfgRow ∈ regTable := by decide +kernel

theorem regRow_outCfg (n : Fin 4) : regRow (R.CLK_OUT_CFG n) = some outCfgRow ∧ regCanon (R.CLK_OUT_CFG n) = R.CLK_OUT_CFG n := by
  revert n
  decide +kernel

/-- CLK_OUTn_CFG takes the word as it is written. -/
theorem regNorm_outCfg (n : Fin 4) (w : Word) : regNorm (R.CLK_OUT_CFG n) w = w := by
  match n with
  | 0 => rfl
  | 1 => rfl
  | 2 => rfl
  | 3 => rfl

/-- A write of it does nothing but store. -/
theorem regEffect_outCfg (n : Fin 4) (d : Dev) (o : Nat) (old w : Word) : d.regEffect o (R.CLK_OUT_CFG n) old w = d := by
  match n with
  | 0 => rfl
  | 1 => rfl
  | 2 => rfl
  | 3 => rfl

/-- The entry of a write outside the time registers touches the audit log only. -/
theorem logWrite_audit (d : Dev) (o : Nat) (w : Word) {off : Nat} (h : off < 0xB0000) :
    d.logWrite o off w = { d with audit := (d.logWrite o off w).audit } := by
  have untimed : d.logTime o off w = none := by
    rw [Dev.logTime, if_neg (by simp only [R.MGT_TIME_ADJ]; omega), if_neg (by simp only [R.MGT_TIME_SET_SEC_HI]; omega),
      if_neg (by simp only [R.MGT_TIME_INC_HI, R.MGT_TIME_INC_LO]; omega)]
  unfold Dev.logWrite
  rw [untimed]
  split
  · rfl
  split
  · rfl
  · rfl

section
variable (d : Dev) (o : Origin) (n : Fin 4) (w : Word)

/-- The device in which a write of CLK_OUTn_CFG is logged and stored. -/
def outCfgStored : Dev := (d.logWrite o.id (R.CLK_OUT_CFG n) w).setReg (R.CLK_OUT_CFG n) (outCfgRow.store (d.reg (R.CLK_OUT_CFG n)) w)

variable {d o n w}

theorem writeReg_outCfg (h : Accepts d o (R.CLK_OUT_CFG n) w) : d.writeReg o.id (R.CLK_OUT_CFG n) w = outCfgStored d o n w := by
  obtain ⟨running, judged⟩ := h
  obtain ⟨row, canonical⟩ := regRow_outCfg n
  have other : isFaultWord (R.CLK_OUT_CFG n) = false := by
    simp only [isFaultWord, R.CLK_OUT_CFG, R.FLT_WORD_LO, R.FLT_WORD_HI, Bool.or_eq_false_iff, beq_eq_false_iff_ne]
    omega
  rw [Dev.writeReg, writeVia_accepted running judged (by rw [canonical]; exact row) (by rw [canonical]; exact other), canonical, regNorm_outCfg,
    regEffect_outCfg]
  rfl

/-- Every field is stored as written. -/
theorem outCfgStored_field {f : RField} (hf : f ∈ outCfgRow.fields) (hrw : f.ty = .rw) :
    (outCfgStored d o n w).getF (R.CLK_OUT_CFG n) ⟨f.lsb, f.width⟩ = getBits w ⟨f.lsb, f.width⟩ := by
  rw [Dev.getF, outCfgStored, reg_setReg_same]
  exact getBits_store_rw outCfgRow_mem hf hrw _ w

theorem outCfgStored_regsBut : RegsBut [R.CLK_OUT_CFG n] d (outCfgStored d o n w) := fun off hoff => by
  rw [outCfgStored, reg_setReg_other _ _ _ _ (fun h => hoff (List.mem_singleton.mpr h)), logWrite_reg]

theorem outCfgStored_only : OnlyRegsAudit d (outCfgStored d o n w) := by
  have below : R.CLK_OUT_CFG n < 0xB0000 := by
    simp only [R.CLK_OUT_CFG]
    omega
  rw [OnlyRegsAudit, outCfgStored, logWrite_audit d o.id w below]
  rfl

end

/-! ### The ember clock (R302) -/

/-- The device once the loss of the ember clock is counted, before it raises its fault line. -/
def emberFailing (d : Dev) : Dev :=
  let d := (d.setF R.CLK_EMBER_STATUS F.CLK_EMBER_STATUS_ON_BACKUP 1).count 3
  (d.setF R.CLK_EMBER_STATUS F.CLK_EMBER_STATUS_FAIL_COUNT (capAt (d.ledger 3) 65535)).latch R.CLK_INT_STATUS F.CLK_INT_STATUS_EMBER

theorem emberFail_eq {d : Dev} (h : d.flag R.CLK_EMBER_STATUS F.CLK_EMBER_STATUS_ON_BACKUP = false) :
    d.emberFail = ((emberFailing d).raise 14 0).setF R.EMB_RTC_STATUS F.EMB_RTC_STATUS_DEGRADED 1 := by
  unfold Dev.emberFail emberFailing
  rw [h, if_neg (by decide)]

theorem emberFailing_onBackup (d : Dev) : (emberFailing d).getF R.CLK_EMBER_STATUS F.CLK_EMBER_STATUS_ON_BACKUP = 1 := by
  unfold emberFailing
  refine (getF_setF_other _ _ _ _ _ _ (by decide)).trans ((getF_setF_disjoint _ _ _ _ _ (by decide) (by decide)).trans ?_)
  exact getF_setF_same d _ _ 1 (by decide)

theorem emberFailing_count (d : Dev) :
    (emberFailing d).getF R.CLK_EMBER_STATUS F.CLK_EMBER_STATUS_FAIL_COUNT = capAt ((emberFailing d).ledger 3) 65535 := by
  have fits : ∀ n, capAt n 65535 < 2 ^ 16 := fun n => by
    rw [capAt]
    split <;> omega
  unfold emberFailing
  refine (getF_setF_other _ _ _ _ _ _ (by decide)).trans ((getF_setF_same _ _ _ _ (by decide)).trans ?_)
  exact Nat.mod_eq_of_lt (fits _)

theorem emberFailing_latched (d : Dev) : (emberFailing d).getF R.CLK_INT_STATUS F.CLK_INT_STATUS_EMBER = 1 := getF_setF_same _ _ _ 1 (by decide)

/-- The ember clock falls back on its oscillator: told in its status, in the fault word, to the clocks' interrupt and to the RTC. -/
theorem emberFail_falls {d : Dev} (h : d.flag R.CLK_EMBER_STATUS F.CLK_EMBER_STATUS_ON_BACKUP = false) :
    d.emberFail.flag R.CLK_EMBER_STATUS F.CLK_EMBER_STATUS_ON_BACKUP = true ∧ d.emberFail.bitOf R.FLT_WORD_LO 14 = true ∧
      d.emberFail.flag R.CLK_INT_STATUS F.CLK_INT_STATUS_EMBER = true ∧ d.emberFail.flag R.EMB_RTC_STATUS F.EMB_RTC_STATUS_DEGRADED = true ∧
      d.emberFail.getF R.CLK_EMBER_STATUS F.CLK_EMBER_STATUS_FAIL_COUNT = capAt (d.emberFail.ledger 3) 65535 := by
  have spared := Spares.raise (emberFailing d) 14 0
  -- what the fault line and DEGRADED leave of the clocks' registers
  have kept : ∀ off, off ∈ [R.CLK_EMBER_STATUS, R.CLK_INT_STATUS] → d.emberFail.reg off = (emberFailing d).reg off := fun off hoff => by
    rw [emberFail_eq h]
    rcases List.mem_pair.mp hoff with rfl | rfl
    all_goals exact (reg_setF_other _ _ _ _ _ (by decide)).trans (spared.reg _ (by decide) (by decide) (by decide))
  have told := kept R.CLK_EMBER_STATUS (by decide)
  have counted : d.emberFail.ledger 3 = (emberFailing d).ledger 3 := by
    rw [emberFail_eq h]
    exact (NumbersStand.raise (emberFailing d) 14 0).ledger 3 (by decide) (by decide)
  refine ⟨flag_of_getF ?_, ?_, flag_of_getF ?_, flag_of_getF ?_, ?_⟩
  · exact (getF_eq_of_reg _ told).trans (emberFailing_onBackup d)
  · rw [emberFail_eq h]
    exact (bitOf_eq_of_reg 14 (reg_setF_other _ _ _ _ _ (by decide))).trans (raise_bitOf _ 0 (by decide))
  · exact (getF_eq_of_reg _ (kept _ (by decide))).trans (emberFailing_latched d)
  · rw [emberFail_eq h]
    exact getF_setF_same _ _ _ 1 (by decide)
  · exact (getF_eq_of_reg _ told).trans ((emberFailing_count d).trans (congrArg (capAt · 65535) counted.symm))

/-- The crystal is back: told in the status of the ember clock and to the clocks' interrupt. -/
theorem emberReturn_returns {d : Dev} (h : d.flag R.CLK_EMBER_STATUS F.CLK_EMBER_STATUS_ON_BACKUP = true) :
    d.emberReturn.flag R.CLK_EMBER_STATUS F.CLK_EMBER_STATUS_ON_BACKUP = false ∧ d.emberReturn.flag R.CLK_INT_STATUS F.CLK_INT_STATUS_EMBER = true ∧
      OnlyRegs d d.emberReturn ∧ RegsBut [R.CLK_EMBER_STATUS, R.CLK_INT_STATUS] d d.emberReturn := by
  unfold Dev.emberReturn
  rw [if_pos h]
  refine ⟨?_, flag_of_getF (getF_setF_same _ _ _ 1 (by decide)), rfl, fun off hoff => ?_⟩
  · rw [Dev.flag, getF_eq_of_reg _ (reg_latch_other _ _ _ _ (by decide)), getF_setF_same _ _ _ _ (by decide)]
    rfl
  · obtain ⟨hstatus, hint⟩ := not_or.mp (List.mem_pair.not.mp hoff)
    exact (reg_latch_other _ _ _ _ hint).trans (reg_setF_other _ _ _ _ _ hstatus)

end Sys2Proof.Proofs
end

section
/-! PROOFS. What leaves the clocks' registers, the latched fault lines and the runs that have ended (spec/11 R308, R311, spec/12 R333, spec/13
R377, spec/18 R464). -/

namespace Sys2Proof.Proofs

open Sys2Proof Sys2Proof.Machine

set_option Elab.async false

/-- No bit of a register clears. -/
def BitsStay (off : Nat) (d e : Dev) : Prop := ∀ b, b < 32 → d.bitOf off b = true → e.bitOf off b = true

namespace BitsStay

variable {off : Nat} {d e g : Dev}

theorem refl (d : Dev) : BitsStay off d d := fun _ _ => id

theorem trans (h : BitsStay off d e) (h' : BitsStay off e g) : BitsStay off d g := fun b hb hset => h' b hb (h b hb hset)

theorem of_reg (h : e.reg off = d.reg off) : BitsStay off d e := fun b _ hset => (bitOf_eq_of_reg b h).trans hset

/-- Nor does it when one is set. -/
theorem setBit (d : Dev) (k : Nat) : BitsStay off d (d.setBit off k true) := fun b hb hset => by
  by_cases hk : b = k
  · subst hk
    rw [Dev.bitOf, Dev.setBit, getF_setF_same _ _ _ _ (by simp only; omega)]
    rfl
  · rw [Dev.bitOf, Dev.setBit, getF_setF_disjoint _ _ _ _ _ (by simp only; omega) (by simp only; omega)]
    exact hset

end BitsStay

/-- The registers of the clocks, the PLLs and band tables, and REFCLK are as they were; no fault line that is latched clears, and no run that has ended
is another. -/
structure ClocksStand (d e : Dev) : Prop where
  reg : ∀ off, 0x30000 ≤ off → off < 0x40000 → e.reg off = d.reg off
  word : BitsStay R.FLT_WORD_LO d e
  board : e.board = d.board
  clk : e.clk = d.clk
  ended : ∀ x, (d.site x).st = .stopping → (e.site x).st = .stopping

namespace ClocksStand

theorem refl (d : Dev) : ClocksStand d d := ⟨fun _ _ _ => rfl, .refl d, rfl, rfl, fun _ => id⟩

theorem trans {d e f : Dev} (h : ClocksStand d e) (g : ClocksStand e f) : ClocksStand d f :=
  ⟨fun o lo hi => (g.reg o lo hi).trans (h.reg o lo hi), h.word.trans g.word, g.board.trans h.board, g.clk.trans h.clk,
    fun x hx => g.ended x (h.ended x hx)⟩

theorem foldl {α : Type} {f : Dev → α → Dev} (xs : List α) (d : Dev) (h : ∀ d x, ClocksStand d (f d x)) : ClocksStand d (xs.foldl f d) :=
  List.foldlRecOn xs f (motive := ClocksStand d) (refl d) fun e he x _ => he.trans (h e x)

theorem ite {c : Prop} [Decidable c] {d a b : Dev} (ha : ClocksStand d a) (hb : ClocksStand d b) : ClocksStand d (if c then a else b) := by
  split <;> assumption

/-- What leaves these registers, or moves registers of other windows alone. -/
theorem of_regs {d e : Dev} (hreg : ∀ off, 0x30000 ≤ off → off < 0x50000 → e.reg off = d.reg off) (hboard : e.board = d.board) (hclk : e.clk = d.clk)
    (hended : ∀ x, (d.site x).st = .stopping → (e.site x).st = .stopping) : ClocksStand d e :=
  ⟨fun o lo hi => hreg o lo (by omega), .of_reg (hreg _ (by decide) (by decide)), hboard, hclk, hended⟩

theorem of_keeps {d e : Dev} (h : Keeps d e) (hended : ∀ x, (d.site x).st = .stopping → (e.site x).st = .stopping) : ClocksStand d e :=
  of_regs (fun o lo hi => h.reg o (by simp [steadyReg]; omega)) h.board h.clk hended

theorem of_leaves {d e : Dev} (h : Keeps d e) (g : Leaves d e) : ClocksStand d e := of_keeps h fun x hx => (g.site x).st.trans hx

theorem of_stamping {d e : Dev} (h : Stamping d e) : ClocksStand d e := of_keeps h.toKeeps fun x hx => by rwa [Dev.site, h.seq]

/-- What moves neither registers, REFCLK, the PLLs nor the sites. -/
theorem upd {d e : Dev} (hr : e.regs = d.regs := by rfl) (hb : e.board = d.board := by rfl) (hc : e.clk = d.clk := by rfl)
    (hs : e.seq.sites = d.seq.sites := by rfl) : ClocksStand d e :=
  of_regs (fun o _ _ => by rw [Dev.reg, hr, Dev.reg]) hb hc fun x hx => by rwa [Dev.site, hs]

theorem setReg (d : Dev) {off : Nat} (w : Word) (h : 0x50000 ≤ off) : ClocksStand d (d.setReg off w) :=
  of_regs (fun o _ hi => reg_setReg_other d off o w (by omega)) rfl rfl fun _ => id

theorem setF (d : Dev) {off : Nat} (f : Fld) (v : Nat) (h : 0x50000 ≤ off) : ClocksStand d (d.setF off f v) := setReg d _ h

theorem latch (d : Dev) {off : Nat} (f : Fld) (h : 0x50000 ≤ off) : ClocksStand d (d.latch off f) := setReg d _ h

theorem bump (d : Dev) {off : Nat} (f : Fld) (n : Nat) (h : 0x50000 ≤ off) : ClocksStand d (d.bump off f n) := setReg d _ h

theorem modRing (d : Dev) (n : Nat) (f : RingSt → RingSt) : ClocksStand d (d.modRing n f) := upd

/-! ### Runs that end, fault lines -/

theorem smother (d : Dev) (s reason : Nat) (fromFail : Bool) : ClocksStand d (d.smother s reason fromFail) := by
  refine of_keeps (.smother d s reason fromFail) fun x hx => ?_
  unfold Dev.smother
  dsimp only
  split
  · exact endSite_stays d s _ _ _ hx
  split
  · next hrunning =>
    rw [site_modSite_other]
    · exact hx
    · rintro rfl
      simp [hrunning] at hx
  · exact hx

theorem smotherBoth (d : Dev) (s reason also : Nat) : ClocksStand d (d.smotherBoth s reason also) := by
  refine ClocksStand.trans ?_ (smother _ s reason false)
  refine of_keeps (.modSite d s _) fun x hx => ?_
  by_cases hs : x = s
  · rw [hs, site_modSite_same]
    exact hs ▸ hx
  · rwa [site_modSite_other d _ hs]

theorem smotherAll (d : Dev) (l : List Nat) (reason : Nat) : ClocksStand d (d.smotherAll l reason) := foldl l d fun d s => smother d s reason false

theorem calEnd (d : Dev) (h : Nat) (fail : Option (Nat × Nat)) : ClocksStand d (d.calEnd h fail) := by
  have spared := Spares.calEnd (l := []) d h fail
  refine of_regs (fun o lo hi => spared.reg o (by simp [steadyReg]; omega) (by omega) List.not_mem_nil) spared.board spared.clk fun x hx => ?_
  rwa [Dev.site, calEnd_sites]

/-- A line latches its bit and clears none (R464). -/
theorem latchFault_word (d : Dev) (k unit : Nat) : BitsStay R.FLT_WORD_LO d (d.latchFault k unit) := by
  refine (BitsStay.setBit d k).trans (.of_reg ?_)
  unfold Dev.latchFault
  dsimp only
  split
  · rfl
  · exact reg_setReg_other _ _ _ _ (by decide)

theorem raise_word (d : Dev) (k unit : Nat) : BitsStay R.FLT_WORD_LO d (d.raise k unit) := by
  have smothered : ∀ d : Dev, BitsStay R.FLT_WORD_LO d (d.faultSmother k unit) :=
    fun d => .of_reg ((Spares.faultSmother (l := []) d k unit).reg _ (by decide) (by decide) (by decide))
  have doused : ∀ (d : Dev) (source : Nat), BitsStay R.FLT_WORD_LO d (d.douse dcFault source k) :=
    fun d source => .of_reg ((Spares.douse d dcFault source k false).reg _ (by decide) (by decide) (by decide))
  have latched := latchFault_word d k unit
  unfold Dev.raise
  dsimp only
  split
  · exact .refl d
  split
  · exact smothered d
  refine BitsStay.trans ?_ (smothered _)
  split
  · exact latched.trans (doused _ _)
  split
  · exact latched.trans (doused _ _)
  · exact latched

theorem raise (d : Dev) (k unit : Nat) : ClocksStand d (d.raise k unit) := by
  have spared := Spares.raise d k unit
  refine ⟨fun o lo hi => spared.reg o ?_ (by omega) ?_, raise_word d k unit, spared.board, spared.clk, fun x hx => ?_⟩
  · simp [steadyReg]
    omega
  · simp [R.FLT_DOUSE_STATUS, R.FLT_WORD_LO, R.FLT_FIRST]
    omega
  · exact ((Halting.raise d k unit).st x).elim (·.trans hx) id

/-! ### The rings -/

theorem sendPacket (d : Dev) (k : Packet) : ClocksStand d (d.sendPacket k) := of_leaves (.sendPacket d k) (.sendPacket d k)

theorem ownerWrite (d : Dev) (ring a : Nat) (bs : List Byte) : ClocksStand d (d.ownerWrite ring a bs) := ite (sendPacket d _) upd

theorem dropFetch (d : Dev) (n : Nat) : ClocksStand d (d.dropFetch n) := upd

theorem writeBlock (d : Dev) (n : Nat) : ClocksStand d (d.writeBlock n) := by
  unfold Dev.writeBlock
  dsimp only
  refine ClocksStand.trans ?_ (modRing _ n _)
  exact ite ((foldl _ d fun d i => ownerWrite d n _ _).trans (sendPacket _ _)) upd

theorem ringState_ (d : Dev) (n st err : Nat) : ClocksStand d (d.ringState_ n st err) := by
  have status : 0x50000 ≤ R.RING_STATUS n := by
    simp only [R.RING_STATUS]
    omega
  have shown := (setF d F.RING_STATUS_STATE st status).trans (setF _ F.RING_STATUS_ERR err status)
  exact (shown.trans (ite (latch _ F.RING_STATUS_ERR_INT status) (refl _))).trans (ite (raise _ 16 n) (refl _))

theorem ringEnter (d : Dev) (n st err : Nat) : ClocksStand d (d.ringEnter n st err) := by
  unfold Dev.ringEnter
  extract_lets d' d''
  have left : ClocksStand d d' := ite (refl d) (dropFetch d n)
  have cut : ClocksStand d d'' := left.trans ((dropFetch d' n).trans (modRing _ n _))
  clear_value d' d''
  refine ite (ite (left.trans (ringState_ _ _ _ _)) (ite ?_ ?_)) (left.trans ((ringState_ _ _ _ _).trans (writeBlock _ _)))
  · exact cut.trans (ringState_ _ _ _ _)
  · exact cut.trans (ringState_ _ _ _ _)

theorem issueFetch (d : Dev) (n : Nat) : ClocksStand d (d.issueFetch n) := by
  unfold Dev.issueFetch
  dsimp only
  split
  · exact ringEnter d n _ _
  · exact (upd : ClocksStand d _).trans (sendPacket _ _)

/-- A fetch that times out is counted and tried again, or stops its ring (R380). -/
theorem fetchTimeout (d : Dev) (n : Nat) : ClocksStand d (d.fetchDone n .timeout) := by
  have errors : 0x50000 ≤ R.RING_ERRORS n := by
    simp only [R.RING_ERRORS]
    omega
  have counted := (upd : ClocksStand d { d with flue := { d.flue with reads := d.flue.reads.filter (fun x => x.2 != ReadFor.fetch n) } }).trans
    (bump _ F.RING_ERRORS_FETCH_TIMEOUTS 1 errors)
  exact ite (refl d) (counted.trans (ite (ringEnter _ n _ _) (issueFetch _ n)))

theorem dmaEnd (d : Dev) (n status : Nat) : ClocksStand d (d.dmaEnd n status) := by
  unfold Dev.dmaEnd
  split
  · exact upd
  · exact refl d

/-! ### The ports -/

theorem readTimeout (d : Dev) (tag : Nat) (f : ReadFor) : ClocksStand d (d.readTimeout tag f) := by
  have gone : ClocksStand d { d with flue := { d.flue with reads := d.flue.reads.filter (fun x => x.1 != tag) } } := upd
  refine gone.trans ?_
  cases f with
  | racc n w => exact (setF _ _ _ (by decide)).trans (setF _ _ _ (by decide))
  | fetch n => exact fetchTimeout _ n
  | dma n m => exact dmaEnd _ n _

theorem adaptLanes (d : Dev) (p : Nat) : ClocksStand d (d.adaptLanes p) := by
  refine foldl _ d fun d l => (upd : ClocksStand d d.drawNat.2).trans (setReg _ _ ?_)
  simp only [R.FLU_PORT_LANE]
  omega

theorem portEnter (d : Dev) (p st : Nat) : ClocksStand d (d.portEnter p st) := by
  have status : 0x50000 ≤ R.FLU_PORT_STATUS p := by
    simp only [R.FLU_PORT_STATUS]
    omega
  have lane : ∀ l, 0x50000 ≤ R.FLU_PORT_LANE p l := fun l => by
    simp only [R.FLU_PORT_LANE]
    omega
  have int : ∀ (d : Dev) (f : Fld), ClocksStand d (d.flueInt f) := fun d f => latch d f (by decide)
  unfold Dev.portEnter
  extract_lets old d₁ d₂ d₃ d₄ d₅ d₆ d₇ joined d₈
  have h₁ : ClocksStand d d₁ := ite (adaptLanes d p) (refl d)
  clear_value d₁
  have h₃ : ClocksStand d d₃ := (h₁.trans (setF _ _ _ status)).trans (setF _ _ _ status)
  clear_value d₃
  have h₄ : ClocksStand d d₄ := h₃.trans (foldl _ _ fun d l => (setF d _ _ (lane l)).trans (setF _ _ _ (lane l)))
  clear_value d₄
  have h₆ : ClocksStand d d₆ := (h₄.trans (ite (int _ _) (refl _))).trans (ite (raise _ 15 p) (refl _))
  clear_value d₆
  have h₈ : ClocksStand d d₈ := h₆.trans (ite ((int _ _).trans (ite (refl _) upd)) (refl _))
  clear_value d₈
  exact h₈.trans (ite (of_stamping (.skewAbort _)) (refl _))

theorem portDown (d : Dev) (p st : Nat) : ClocksStand d (d.portDown p st) := by
  have status : 0x50000 ≤ R.FLU_PORT_STATUS p := by
    simp only [R.FLU_PORT_STATUS]
    omega
  refine (portEnter d p st).trans (ite (refl _) ?_)
  exact ((upd : ClocksStand _ (Dev.modPort _ p _)).trans (setF _ _ _ status)).trans (foldl _ _ fun d x => readTimeout d x.1 x.2)

theorem flueDown (d : Dev) : ClocksStand d d.flueDown := by
  refine foldl _ d fun d p => ite ((setF d _ 5 ?_).trans (portDown _ p _)) (refl d)
  simp only [R.FLU_PORT_STATUS]
  omega

/-! ### The DRAM channels of a PLL -/

theorem dramPark (d : Dev) (p : Nat) : ClocksStand d (d.dramPark p) := by
  refine foldl _ d fun d c => ite (setF d _ dsParked ?_) (refl d)
  simp only [R.DMC_CH_STATUS]
  omega

end ClocksStand

end Sys2Proof.Proofs
end

section
/-! PROOFS. The loss and the return of REFCLK, PLL by PLL (spec/11 R305-R308, R310-R313). -/

namespace Sys2Proof.Proofs

open Sys2Proof Sys2Proof.Machine

set_option Elab.async false

/-! ### What a step of one PLL leaves of another -/

/-- The registers of a PLL. -/
def pllRegs (p : Nat) : List Nat := [R.CLK_PLL_CTRL p, R.CLK_PLL_LIMIT p, R.CLK_PLL_STATUS p]

theorem ctrl_mem (p : Nat) : R.CLK_PLL_CTRL p ∈ pllRegs p := by simp [pllRegs]

theorem limit_mem (p : Nat) : R.CLK_PLL_LIMIT p ∈ pllRegs p := by simp [pllRegs]

theorem status_mem (p : Nat) : R.CLK_PLL_STATUS p ∈ pllRegs p := by simp [pllRegs]

theorem status_window {p : Nat} (hp : p < 6) : 0x30000 ≤ R.CLK_PLL_STATUS p ∧ R.CLK_PLL_STATUS p < 0x40000 := by
  simp only [R.CLK_PLL_STATUS]
  omega

theorem mem_pllRegs {p off : Nat} : off ∈ pllRegs p ↔ off = 0x30100 + 32 * p ∨ off = 0x30104 + 32 * p ∨ off = 0x30108 + 32 * p := by
  simp [pllRegs]

theorem status_not_mem {p q : Nat} (h : q ≠ p) : R.CLK_PLL_STATUS q ∉ pllRegs p := by
  rw [mem_pllRegs, R.CLK_PLL_STATUS]
  omega

theorem ctrl_not_mem {p q : Nat} (h : q ≠ p) : R.CLK_PLL_CTRL q ∉ pllRegs p := by
  rw [mem_pllRegs, R.CLK_PLL_CTRL]
  omega

theorem int_not_mem {p : Nat} : R.CLK_INT_STATUS ∉ pllRegs p := by
  rw [mem_pllRegs, R.CLK_INT_STATUS]
  omega

/-- The band that fits a divider follows from the band tables and the PLL's limits (R306). -/
theorem bandFrom_congr {p : Nat} {d e : Dev} (hbands : e.clk.bands = d.clk.bands) (hlimit : e.reg (R.CLK_PLL_LIMIT p) = d.reg (R.CLK_PLL_LIMIT p))
    (n lo : Nat) : e.bandFrom p n lo = d.bandFrom p n lo := by
  have fits : ∀ b, e.bandFits p n b = d.bandFits p n b := fun b => by
    rw [Dev.bandFits, Dev.band, hbands, getF_eq_of_reg _ hlimit]
    rfl
  simp only [Dev.bandFrom, fits]

/-- The registers of PLL `p`, the band tables, REFCLK and a settle count of `p` that was broken are as they were. -/
structure PllStands (p : Nat) (d e : Dev) : Prop where
  reg : ∀ off, off ∈ pllRegs p → e.reg off = d.reg off
  bands : e.clk.bands = d.clk.bands
  cut : p ∈ d.clk.cut → p ∈ e.clk.cut
  board : e.board = d.board

namespace PllStands

variable {p q : Nat} {d e g : Dev}

theorem refl (d : Dev) : PllStands p d d := ⟨fun _ _ => rfl, rfl, id, rfl⟩

theorem trans (h : PllStands p d e) (h' : PllStands p e g) : PllStands p d g :=
  ⟨fun o ho => (h'.reg o ho).trans (h.reg o ho), h'.bands.trans h.bands, fun hc => h'.cut (h.cut hc), h'.board.trans h.board⟩

theorem ite {c : Prop} [Decidable c] {a b : Dev} (ha : PllStands p d a) (hb : PllStands p d b) : PllStands p d (if c then a else b) := by
  split <;> assumption

theorem of_clocks (hp : p < 6) (h : ClocksStand d e) : PllStands p d e := by
  refine ⟨fun o ho => h.reg o ?_ ?_, by rw [h.clk], fun hc => by rwa [h.clk], h.board⟩
  all_goals
    rw [mem_pllRegs] at ho
    omega

/-- Setting a field of another register. -/
theorem setF (d : Dev) {off : Nat} (f : Fld) (v : Nat) (h : off ∉ pllRegs p) :
    PllStands p d (d.setF off f v) :=
  ⟨fun _ ho => reg_setF_other _ _ _ _ _ fun e => h (e ▸ ho), rfl, id, rfl⟩

theorem pllState (h : PllStands p d e) : e.pllState p = d.pllState p := getF_eq_of_reg _ (h.reg _ (status_mem p))

theorem bandFrom (h : PllStands p d e) (n lo : Nat) : e.bandFrom p n lo = d.bandFrom p n lo :=
  bandFrom_congr h.bands (h.reg _ (limit_mem p)) n lo

end PllStands

/-! ### A PLL leaves LOCKED (R308) -/

/-- The device in which the loss is counted and the state set, before what hangs on the PLL suffers. -/
def unlocked (d : Dev) (p st : Nat) : Dev :=
  ((d.bump (R.CLK_PLL_STATUS p) F.CLK_PLL_STATUS_LOSS_COUNT).setBit R.CLK_INT_STATUS p true).setPllState p st

/-- What hangs on it is not the clocks. -/
theorem unlock_clocks {d : Dev} {p : Nat} (st : Nat) (h : d.pllLocked p = true) : ClocksStand (unlocked d p st) (d.unlock p st) := by
  unfold Dev.unlock
  rw [h, if_neg (by decide)]
  refine .ite ((ClocksStand.of_stamping (.tbLost _)).trans (.smotherAll _ _ 2)) (.ite (.smotherAll _ _ 2) (.ite ?_ (.ite ?_ (.refl _))))
  · exact (ClocksStand.dramPark _ p).trans (.smotherAll _ _ 2)
  · refine (ClocksStand.flueDown _).trans (ClocksStand.trans ?_ (.smotherAll _ _ 10))
    exact .foldl _ _ fun d s => .ite (.smotherBoth d s 2 10) (.smother d s 2 false)

section
variable (d : Dev) (p st : Nat)

theorem unlocked_state (h : st < 8) : (unlocked d p st).pllState p = st :=
  (getF_setF_same _ _ _ _ (by decide)).trans (Nat.mod_eq_of_lt h)

theorem unlocked_other {q : Nat} (h : q ≠ p) : PllStands p d (unlocked d q st) :=
  ((PllStands.setF d _ _ (status_not_mem h)).trans (.setF _ _ _ int_not_mem)).trans (.setF _ _ _ (status_not_mem h))

theorem unlocked_word : (unlocked d p st).reg R.FLT_WORD_LO = d.reg R.FLT_WORD_LO := by
  have status : R.FLT_WORD_LO ≠ R.CLK_PLL_STATUS p := by
    simp only [R.FLT_WORD_LO, R.CLK_PLL_STATUS]
    omega
  exact (reg_setF_other _ _ _ _ _ status).trans ((reg_setF_other _ _ _ _ _ (by decide)).trans (reg_setF_other _ _ _ _ _ status))

end

/-! ### A PLL acquires (R306, R310) -/

/-- The device in which the dividers are loaded, before a band is chosen. -/
def acquiring (d : Dev) (p : Nat) : Dev :=
  let d := (d.uncut p).setPll p ⟨d.getF (R.CLK_PLL_CTRL p) F.CLK_PLL_CTRL_N, d.getF (R.CLK_PLL_CTRL p) F.CLK_PLL_CTRL_POST, false⟩
  (d.setF (R.CLK_PLL_STATUS p) F.CLK_PLL_STATUS_NEAR_RAIL 0).setF (R.CLK_PLL_STATUS p) F.CLK_PLL_STATUS_ERR 0

/-- The band, or the error, of an acquisition. -/
theorem acquire_cases (d : Dev) (p : Nat) : (∃ b, d.acquire p = ((acquiring d p).setF (R.CLK_PLL_CTRL p) F.CLK_PLL_CTRL_BAND b).setPllState p plAcquire) ∨
    d.acquire p = (acquiring d p).pllError p 1 := by
  unfold Dev.acquire
  dsimp only
  split
  · exact .inr rfl
  · exact .inl ⟨_, rfl⟩

theorem acquire_some {d : Dev} {p b : Nat} (h : d.bandFrom p (d.getF (R.CLK_PLL_CTRL p) F.CLK_PLL_CTRL_N) 0 = some b) :
    d.acquire p = ((acquiring d p).setF (R.CLK_PLL_CTRL p) F.CLK_PLL_CTRL_BAND b).setPllState p plAcquire := by
  have limit : (acquiring d p).reg (R.CLK_PLL_LIMIT p) = d.reg (R.CLK_PLL_LIMIT p) := by
    have other : R.CLK_PLL_LIMIT p ≠ R.CLK_PLL_STATUS p := by
      simp only [R.CLK_PLL_LIMIT, R.CLK_PLL_STATUS]
      omega
    exact (reg_setF_other _ _ _ _ _ other).trans (reg_setF_other _ _ _ _ _ other)
  have bands : (acquiring d p).clk.bands = d.clk.bands := rfl
  have band : (acquiring d p).bandFrom p (d.getF (R.CLK_PLL_CTRL p) F.CLK_PLL_CTRL_N) 0 = some b := by rw [bandFrom_congr bands limit, h]
  unfold Dev.acquire
  unfold acquiring at band ⊢
  dsimp only at band ⊢
  rw [band]

/-- Acquisition ends in ACQUIRE with the band that fits, which is one of 64. -/
theorem acquire_acquires {d : Dev} {p b : Nat} (h : d.bandFrom p (d.getF (R.CLK_PLL_CTRL p) F.CLK_PLL_CTRL_N) 0 = some b) :
    (d.acquire p).pllState p = plAcquire ∧ (d.acquire p).getF (R.CLK_PLL_CTRL p) F.CLK_PLL_CTRL_BAND = b := by
  have small : b < 64 := List.mem_range.mp (List.mem_of_find?_eq_some h)
  have other : R.CLK_PLL_CTRL p ≠ R.CLK_PLL_STATUS p := by
    simp only [R.CLK_PLL_CTRL, R.CLK_PLL_STATUS]
    omega
  rw [acquire_some h]
  refine ⟨getF_setF_same _ _ _ _ (by decide), (getF_setF_other _ _ _ _ _ _ other).trans ?_⟩
  exact (getF_setF_same _ _ _ _ (by decide)).trans (Nat.mod_eq_of_lt small)

theorem acquiring_other {p q : Nat} (d : Dev) (h : q ≠ p) : PllStands p d (acquiring d q) := by
  have loaded : ∀ x, PllStands p d ((d.uncut q).setPll q x) := fun x =>
    ⟨fun _ _ => rfl, rfl, fun hc => List.mem_filter.mpr ⟨hc, by simpa using h.symm⟩, rfl⟩
  exact ((loaded _).trans (.setF _ _ _ (status_not_mem h))).trans (.setF _ _ _ (status_not_mem h))

/-- A PLL's acquisition leaves every other PLL. -/
theorem acquire_other {p q : Nat} (d : Dev) (hp : p < 6) (h : q ≠ p) : PllStands p d (d.acquire q) := by
  rcases acquire_cases d q with ⟨b, hacquire⟩ | hacquire
  · rw [hacquire]
    exact ((acquiring_other d h).trans (.setF _ _ _ (ctrl_not_mem h))).trans (.setF _ _ _ (status_not_mem h))
  · rw [hacquire]
    refine (acquiring_other d h).trans (PllStands.trans ?_ (.of_clocks hp (.raise _ 12 q)))
    exact ((PllStands.setF _ _ _ (status_not_mem h)).trans (.setF _ _ _ (status_not_mem h))).trans (.setF _ _ _ int_not_mem)

/-- It clears no interrupt of the clocks, and leaves REFCLK. -/
theorem acquire_int (d : Dev) (q : Nat) : BitsStay R.CLK_INT_STATUS d (d.acquire q) ∧ (d.acquire q).board = d.board := by
  have status : R.CLK_INT_STATUS ≠ R.CLK_PLL_STATUS q := by
    simp only [R.CLK_INT_STATUS, R.CLK_PLL_STATUS]
    omega
  have ctrl : R.CLK_INT_STATUS ≠ R.CLK_PLL_CTRL q := by
    simp only [R.CLK_INT_STATUS, R.CLK_PLL_CTRL]
    omega
  have begun : (acquiring d q).reg R.CLK_INT_STATUS = d.reg R.CLK_INT_STATUS :=
    (reg_setF_other _ _ _ _ _ status).trans (reg_setF_other _ _ _ _ _ status)
  rcases acquire_cases d q with ⟨b, hacquire⟩ | hacquire
  · rw [hacquire]
    exact ⟨.of_reg ((reg_setF_other _ _ _ _ _ status).trans ((reg_setF_other _ _ _ _ _ ctrl).trans begun)), rfl⟩
  · rw [hacquire, Dev.pllError]
    have erred : BitsStay R.CLK_INT_STATUS d (((acquiring d q).setPllState q plError).setF (R.CLK_PLL_STATUS q) F.CLK_PLL_STATUS_ERR 1) :=
      .of_reg ((reg_setF_other _ _ _ _ _ status).trans ((reg_setF_other _ _ _ _ _ status).trans begun))
    have raised := ClocksStand.raise ((((acquiring d q).setPllState q plError).setF (R.CLK_PLL_STATUS q) F.CLK_PLL_STATUS_ERR 1).latch
      R.CLK_INT_STATUS F.CLK_INT_STATUS_PLL_ERROR) 12 q
    exact ⟨(erred.trans (.setBit _ 13)).trans (.of_reg (raised.reg _ (by decide) (by decide))), raised.board.trans rfl⟩

/-! ### REFCLK comes back (R312) -/

/-- Each PLL in HOLDOVER acquires if AUTO_RELOCK is 1, and stays there if it is 0. -/
theorem refPresentAgain_relocks {d : Dev} (h : d.board.refPresent = false) : d.refPresentAgain.board.refPresent = true ∧
    d.refPresentAgain.flag R.CLK_INT_STATUS F.CLK_INT_STATUS_REF_RETURN = true ∧
    (∀ p, p < 6 → d.pllState p = plHoldover → d.flag (R.CLK_PLL_CTRL p) F.CLK_PLL_CTRL_AUTO_RELOCK = false → d.refPresentAgain.pllState p = plHoldover) ∧
    ∀ p b, p < 6 → d.pllState p = plHoldover → d.flag (R.CLK_PLL_CTRL p) F.CLK_PLL_CTRL_AUTO_RELOCK = true →
      d.bandFrom p (d.getF (R.CLK_PLL_CTRL p) F.CLK_PLL_CTRL_N) 0 = some b →
      d.refPresentAgain.pllState p = plAcquire ∧ d.refPresentAgain.getF (R.CLK_PLL_CTRL p) F.CLK_PLL_CTRL_BAND = b := by
  -- the device as the PLLs find it
  generalize hfound : ({ d with board := { d.board with refPresent := true }, clk := { d.clk with cut := [] } } : Dev).latch R.CLK_INT_STATUS
    F.CLK_INT_STATUS_REF_RETURN = found
  have again : d.refPresentAgain = (List.range 6).foldl (fun d p => d.relock p) found := by
    unfold Dev.refPresentAgain
    rw [h, if_neg (by decide), ← hfound]
  have present : found.board.refPresent = true := by
    rw [← hfound]
    rfl
  have told : found.bitOf R.CLK_INT_STATUS 9 = true := by
    rw [← hfound, Dev.bitOf, Dev.latch, getF_setF_same _ _ _ _ (by decide)]
    rfl
  have reg : ∀ p off, off ∈ pllRegs p → found.reg off = d.reg off := fun p off hoff => by
    rw [← hfound]
    exact reg_latch_other _ _ _ _ fun e => int_not_mem (e ▸ hoff)
  have bands : found.clk.bands = d.clk.bands := by
    rw [← hfound]
    rfl
  have state : ∀ p, found.pllState p = d.pllState p := fun p => getF_eq_of_reg _ (reg p _ (status_mem p))
  have ctrl : ∀ p f, found.getF (R.CLK_PLL_CTRL p) f = d.getF (R.CLK_PLL_CTRL p) f := fun p f => getF_eq_of_reg f (reg p _ (ctrl_mem p))
  have beside : ∀ p, p < 6 → ∀ (d : Dev) k, k ≠ p → PllStands p d (d.relock k) := fun p hp d k hk => .ite (acquire_other d hp hk) (.refl d)
  rw [again]
  refine ⟨?_, ?_, fun p hp hhold hauto => ?_, fun p b hp hhold hauto hband => ?_⟩
  · refine List.foldlRecOn _ _ (motive := fun e : Dev => e.board.refPresent = true) present fun e he p _ => ?_
    unfold Dev.relock
    split
    · rwa [(acquire_int e p).2]
    · exact he
  · refine List.foldlRecOn _ _ (motive := fun e : Dev => e.bitOf R.CLK_INT_STATUS 9 = true) told fun e he p _ => ?_
    unfold Dev.relock
    split
    · exact (acquire_int e p).1 9 (by decide) he
    · exact he
  · refine foldl_at (S := PllStands p) (P := fun e => e.pllState p = plHoldover) .refl .trans (fun stands he => stands.pllState.trans he) (beside p hp)
      (List.mem_range.mpr hp) List.nodup_range fun e stands => ?_
    have off : e.flag (R.CLK_PLL_CTRL p) F.CLK_PLL_CTRL_AUTO_RELOCK = false := by
      rw [Dev.flag, getF_eq_of_reg _ (stands.reg _ (ctrl_mem p)), ctrl]
      exact hauto
    unfold Dev.relock
    rw [if_neg (by simp [off]), stands.pllState, state]
    exact hhold
  · refine foldl_at (S := PllStands p) (P := fun e => e.pllState p = plAcquire ∧ e.getF (R.CLK_PLL_CTRL p) F.CLK_PLL_CTRL_BAND = b) .refl .trans
      (fun stands he => ⟨stands.pllState.trans he.1, (getF_eq_of_reg _ (stands.reg _ (ctrl_mem p))).trans he.2⟩) (beside p hp)
      (List.mem_range.mpr hp) List.nodup_range fun e stands => ?_
    have own : ∀ f, e.getF (R.CLK_PLL_CTRL p) f = d.getF (R.CLK_PLL_CTRL p) f := fun f =>
      (getF_eq_of_reg f (stands.reg _ (ctrl_mem p))).trans (ctrl p f)
    have on : e.flag (R.CLK_PLL_CTRL p) F.CLK_PLL_CTRL_AUTO_RELOCK = true := by
      rw [Dev.flag, own]
      exact hauto
    unfold Dev.relock
    rw [if_pos ⟨stands.pllState.trans ((state p).trans hhold), by rw [stands.board, present], on⟩]
    exact acquire_acquires (by rw [own, stands.bandFrom, bandFrom_congr bands (reg p _ (limit_mem p)), hband])

end Sys2Proof.Proofs
end

section
/-! PROOFS. The reference, bands, outputs and the ember clock: O42 (spec/11 R302, R305-R308, R310-R313, R315, R320). -/

namespace Sys2Proof.Proofs

open Sys2Proof Sys2Proof.Machine

set_option Elab.async false

/-! ### REFCLK goes: what is told first (R263, R265, R308) -/

/-- REFCLK is absent, and its loss is latched and counted. -/
def refGone (d : Dev) : Dev :=
  ((({ d with board := { d.board with refPresent := false } } : Dev).latch R.CLK_INT_STATUS F.CLK_INT_STATUS_REF_LOSS).latch R.TMU_INT_STATUS
    F.TMU_INT_STATUS_REF_LOSS).bump R.TMU_REF_STATUS F.TMU_REF_STATUS_LOSS_COUNT

/-- Its fault line is raised, and TB is lost. -/
def refTold (d : Dev) (last : Nat) : Dev := (((refGone d).raise 13 0).tmuRefLost last).tbLost

/-- The band measurement and the runs have ended. -/
def refHalted (d : Dev) (last : Nat) : Dev := ((refTold d last).measureEnd 0).smotherAll (refTold d last).activeSites 2

/-- So have calibration procedures that need REFCLK. -/
def refLost (d : Dev) (last : Nat) : Dev :=
  match (refHalted d last).cal.proc with
  | some q => if q.proc = 1 ∨ q.proc = 3 then q.running.foldl (fun d h => d.calEnd h.1 (some (4, 0))) (refHalted d last) else refHalted d last
  | none => refHalted d last

/-- What the loss of REFCLK does to one PLL. -/
def pllRefLost (d : Dev) (p : Nat) : Dev :=
  if d.pllLocked p then d.unlock p plHoldover
  else if d.pllState p = plSettle then ({ d with clk := { d.clk with cut := p :: d.clk.cut } } : Dev).setPllState p plAcquire
  else d

theorem refAbsent_eq {d : Dev} (h : d.board.refPresent = true) (last : Nat) :
    d.refAbsent last = (List.range 6).foldl pllRefLost (refLost d last) := by
  unfold Dev.refAbsent
  rw [h, if_neg (by decide)]
  rfl

section
variable (d : Dev) (last : Nat)

theorem refGone_status (p : Nat) : (refGone d).reg (R.CLK_PLL_STATUS p) = d.reg (R.CLK_PLL_STATUS p) := by
  have tmuInt : R.CLK_PLL_STATUS p ≠ R.TMU_INT_STATUS := by
    simp only [R.CLK_PLL_STATUS, R.TMU_INT_STATUS]
    omega
  have tmuRef : R.CLK_PLL_STATUS p ≠ R.TMU_REF_STATUS := by
    simp only [R.CLK_PLL_STATUS, R.TMU_REF_STATUS]
    omega
  have clkInt : R.CLK_PLL_STATUS p ≠ R.CLK_INT_STATUS := by
    simp only [R.CLK_PLL_STATUS, R.CLK_INT_STATUS]
    omega
  exact (reg_bump_other _ _ _ _ _ tmuRef).trans ((reg_latch_other _ _ _ _ tmuInt).trans (reg_latch_other _ _ _ _ clkInt))

theorem refTold_clocks : ClocksStand ((refGone d).raise 13 0) (refTold d last) :=
  (ClocksStand.of_stamping (.tmuRefLost _ last)).trans (.of_stamping (.tbLost _))

/-- Every run goes on, or has ended by the fault line's douse. -/
theorem refTold_st (x : Nat) : ((refTold d last).site x).st = (d.site x).st ∨ ((refTold d last).site x).st = .stopping := by
  have raised := (Halting.raise (refGone d) 13 0).st x
  have same : (refTold d last).seq = ((refGone d).raise 13 0).seq := ((Stamping.tmuRefLost _ last).trans (.tbLost _)).seq
  rwa [Dev.site, same]

/-- The end of a measurement moves the band tables and CLK_BAND_SEL. -/
theorem measureEnd_only (d : Dev) (entry : Word) : ∃ clk regs, d.measureEnd entry = { d with clk := clk, regs := regs } ∧
    ∀ off, off ≠ R.CLK_BAND_SEL → (d.measureEnd entry).reg off = d.reg off := by
  unfold Dev.measureEnd
  split
  · exact ⟨_, _, rfl, fun _ _ => rfl⟩
  · exact ⟨_, _, rfl, fun off hoff => reg_setF_other _ _ _ _ _ hoff⟩

/-- From the fault line on: the status of a PLL, REFCLK, the latched lines and what has ended stay. -/
theorem refTold_halted : (∀ p, p < 6 → (refHalted d last).reg (R.CLK_PLL_STATUS p) = (refTold d last).reg (R.CLK_PLL_STATUS p)) ∧
    (refHalted d last).board = (refTold d last).board ∧ BitsStay R.FLT_WORD_LO (refTold d last) (refHalted d last) := by
  obtain ⟨clk, regs, only, reg⟩ := measureEnd_only (refTold d last) 0
  have smothered := ClocksStand.smotherAll ((refTold d last).measureEnd 0) (refTold d last).activeSites 2
  have board : ((refTold d last).measureEnd 0).board = (refTold d last).board := by rw [only]
  refine ⟨fun p hp => (smothered.reg _ (status_window hp).1 (status_window hp).2).trans (reg _ ?_), smothered.board.trans board,
    (BitsStay.of_reg (reg _ (by decide))).trans smothered.word⟩
  simp only [R.CLK_PLL_STATUS, R.CLK_BAND_SEL]
  omega

/-- A run that was going on has ended. -/
theorem refHalted_st {x : Nat} (h : (d.site x).st = .starting ∨ (d.site x).st = .running) : ((refHalted d last).site x).st = .stopping := by
  obtain ⟨clk, regs, only, -⟩ := measureEnd_only (refTold d last) 0
  have site : ((refTold d last).measureEnd 0).site x = (refTold d last).site x := by
    rw [only]
    rfl
  have active : (refTold d last).activeSites = ((refTold d last).measureEnd 0).activeSites := by
    rw [only]
    rfl
  rw [refHalted]
  rcases refTold_st d last x with same | ended
  · rw [active]
    refine (smotherAll_active_lost ?_).1.1
    rwa [site, same]
  · exact (ClocksStand.smotherAll _ _ 2).ended x (by rw [site, ended])

theorem refLost_clocks : ClocksStand (refHalted d last) (refLost d last) := by
  unfold refLost
  split
  · exact .ite (.foldl _ _ fun d h => .calEnd d h.1 _) (.refl _)
  · exact .refl _

/-- What the PLLs find: REFCLK absent, its fault line latched, no run going on, and their own states as they were. -/
theorem refLost_found : (refLost d last).board.refPresent = false ∧ (refLost d last).bitOf R.FLT_WORD_LO 13 = true ∧
    (∀ p, p < 6 → (refLost d last).pllState p = d.pllState p) ∧
    ∀ x, (d.site x).st = .starting ∨ (d.site x).st = .running → ((refLost d last).site x).st = .stopping := by
  obtain ⟨status, board, word⟩ := refTold_halted d last
  have told := refTold_clocks d last
  have raised := ClocksStand.raise (refGone d) 13 0
  have lost := refLost_clocks d last
  refine ⟨?_, ?_, fun p hp => getF_eq_of_reg _ ?_, fun x hx => lost.ended x (refHalted_st d last hx)⟩
  · rw [lost.board, board, told.board, raised.board]
    rfl
  · exact lost.word 13 (by decide) (word 13 (by decide) (told.word 13 (by decide) (raise_bitOf _ 0 (by decide))))
  · obtain ⟨lo, hi⟩ := status_window hp
    calc (refLost d last).reg (R.CLK_PLL_STATUS p)
        = (refTold d last).reg (R.CLK_PLL_STATUS p) := (lost.reg _ lo hi).trans (status p hp)
      _ = (refGone d).reg (R.CLK_PLL_STATUS p) := (told.reg _ lo hi).trans (raised.reg _ lo hi)
      _ = d.reg (R.CLK_PLL_STATUS p) := refGone_status d p

/-! ### REFCLK goes: the PLLs (R307, R308, R313) -/

theorem pllRefLost_other {p q : Nat} (hp : p < 6) (h : q ≠ p) : PllStands p d (pllRefLost d q) := by
  unfold pllRefLost
  split
  · next hlocked => exact (unlocked_other d p plHoldover h).trans (.of_clocks hp (unlock_clocks plHoldover hlocked))
  split
  · have broken : PllStands p d { d with clk := { d.clk with cut := q :: d.clk.cut } } := ⟨fun _ _ => rfl, rfl, List.mem_cons_of_mem q, rfl⟩
    exact broken.trans (.setF _ _ _ (status_not_mem h))
  · exact .refl d

/-- No PLL brings back REFCLK, a fault line or a run. -/
theorem pllRefLost_keeps (p : Nat) : (pllRefLost d p).board = d.board ∧ BitsStay R.FLT_WORD_LO d (pllRefLost d p) ∧
    ∀ x, (d.site x).st = .stopping → ((pllRefLost d p).site x).st = .stopping := by
  have status : R.FLT_WORD_LO ≠ R.CLK_PLL_STATUS p := by
    simp only [R.FLT_WORD_LO, R.CLK_PLL_STATUS]
    omega
  unfold pllRefLost
  split
  · next hlocked =>
    have kept := unlock_clocks plHoldover hlocked
    exact ⟨kept.board.trans rfl, (BitsStay.of_reg (unlocked_word d p plHoldover)).trans kept.word, fun x hx => kept.ended x hx⟩
  split
  · exact ⟨rfl, .of_reg (reg_setF_other _ _ _ _ _ status), fun _ => id⟩
  · exact ⟨rfl, .refl d, fun _ => id⟩

/-- A LOCKED PLL goes to HOLDOVER. -/
theorem pllRefLost_locked {p : Nat} (hp : p < 6) (h : d.pllState p = plLocked) : (pllRefLost d p).pllState p = plHoldover := by
  have locked : d.pllLocked p = true := beq_iff_eq.mpr h
  rw [pllRefLost, if_pos locked]
  exact ((PllStands.of_clocks hp (unlock_clocks plHoldover locked)).pllState).trans (unlocked_state d p plHoldover (by decide))

/-- A PLL in SETTLE goes back to ACQUIRE, its count marked as broken. -/
theorem pllRefLost_settle {p : Nat} (h : d.pllState p = plSettle) : (pllRefLost d p).pllState p = plAcquire ∧ p ∈ (pllRefLost d p).clk.cut := by
  have unlocked : d.pllLocked p = false := by
    rw [Dev.pllLocked, h]
    rfl
  rw [pllRefLost, unlocked, if_neg (by decide), if_pos h]
  exact ⟨getF_setF_same _ _ _ _ (by decide), List.mem_cons_self⟩

end

/-- REFCLK lost takes locked PLLs to HOLDOVER and ends every run; a settle count under way is broken (R308, R313). -/
theorem refAbsent_loses {d : Dev} (h : d.board.refPresent = true) (last : Nat) : (d.refAbsent last).board.refPresent = false ∧
    (d.refAbsent last).bitOf R.FLT_WORD_LO 13 = true ∧ (∀ p, p < 6 → d.pllState p = plLocked → (d.refAbsent last).pllState p = plHoldover) ∧
    (∀ p, p < 6 → d.pllState p = plSettle → (d.refAbsent last).pllState p = plAcquire ∧ p ∈ (d.refAbsent last).clk.cut) ∧
    ∀ x, (d.site x).st = .starting ∨ (d.site x).st = .running → ((d.refAbsent last).site x).st = .stopping := by
  obtain ⟨absent, latched, states, ended⟩ := refLost_found d last
  rw [refAbsent_eq h last]
  have others : ((List.range 6).foldl pllRefLost (refLost d last)).board.refPresent = false ∧
      ((List.range 6).foldl pllRefLost (refLost d last)).bitOf R.FLT_WORD_LO 13 = true ∧
      ∀ x, (d.site x).st = .starting ∨ (d.site x).st = .running → (((List.range 6).foldl pllRefLost (refLost d last)).site x).st = .stopping := by
    refine List.foldlRecOn _ pllRefLost (motive := fun e : Dev => e.board.refPresent = false ∧ e.bitOf R.FLT_WORD_LO 13 = true ∧
      ∀ x, (d.site x).st = .starting ∨ (d.site x).st = .running → (e.site x).st = .stopping) ⟨absent, latched, ended⟩ fun e he p _ => ?_
    obtain ⟨board, word, st⟩ := pllRefLost_keeps e p
    exact ⟨by rw [board, he.1], word 13 (by decide) he.2.1, fun x hx => st x (he.2.2 x hx)⟩
  refine ⟨others.1, others.2.1, fun p hp hlocked => ?_, fun p hp hsettle => ?_, others.2.2⟩
  · exact foldl_at (S := PllStands p) (P := fun e => e.pllState p = plHoldover) .refl .trans (fun stands he => stands.pllState.trans he)
      (fun d k hk => pllRefLost_other d hp hk) (List.mem_range.mpr hp) List.nodup_range
      fun e stands => pllRefLost_locked e hp (stands.pllState.trans ((states p hp).trans hlocked))
  · exact foldl_at (S := PllStands p) (P := fun e => e.pllState p = plAcquire ∧ p ∈ e.clk.cut) .refl .trans
      (fun stands he => ⟨stands.pllState.trans he.1, stands.cut he.2⟩) (fun d k hk => pllRefLost_other d hp hk) (List.mem_range.mpr hp) List.nodup_range
      fun e stands => pllRefLost_settle e (stands.pllState.trans ((states p hp).trans hsettle))

/-- A calibration procedure that begins leaves the clocks. -/
theorem procKick_clk (d : Dev) : d.procKick.clk = d.clk := by
  obtain ⟨cal, grates, fresh, only⟩ := procKick_only d
  rw [only]

theorem procKick_pllState (d : Dev) (p : Nat) : d.procKick.pllState p = d.pllState p := procKick_getF ..

/-! ### O42 -/

/-- Settles O42: the loss of REFCLK by `refAbsent_loses`, its return by `refPresentAgain_relocks`, each PLL's own step beside the steps of the others; the
registers' writes by what is stored. That a PLL in SETTLE goes to ACQUIRE with its count marked as broken is the model's choice (log entry 80). -/
theorem referenceAndClocks : Obligations.ReferenceAndClocks := by
  unfold Obligations.ReferenceAndClocks
  refine ⟨fun s last href => ?absent, fun s href => ?present, fun s o w haccept hfree href => ?measure, fun s low high k hinv hmeasuring => ?done,
    fun s hlocked c t hc ht => ?phase, fun s o n w hinv haccept => ?out, fun s hbackup => ?fail, fun s hinv hbackup => ?back⟩
  case absent =>
    refine completes_act (f := fun d => (d.refAbsent last).procKick) rfl ?_
    obtain ⟨absent, latched, locked, settle, ended⟩ := refAbsent_loses href last
    refine ⟨?_, ?_, fun p hp h => ?_, fun p hp h => ⟨?_, ?_⟩, fun x hx => ?_⟩
    · rw [canon_board, (Quiet.procKick _).board, absent]
    · rw [canon_bitOf, procKick_bitOf, latched]
    · exact (procKick_pllState _ p).trans (locked p hp h)
    · exact (procKick_pllState _ p).trans (settle p hp h).1
    · rw [canon_clk, procKick_clk]
      exact (settle p hp h).2
    · rw [canon_site, procKick_site, ended x hx]
  case present =>
    refine completes_act (f := fun d => d.refPresentAgain) rfl ?_
    exact refPresentAgain_relocks href
  case measure =>
    refine completes_act (f := fun d => d.writeReg o.id R.CLK_BAND_SEL (setBits w F.CLK_BAND_SEL_MEASURE 1)) rfl ?_
    rw [writeReg_measure s.dev o w haccept]
    exact measure_starts hfree href
  case done =>
    refine completes_act (f := fun d => d.measureDone low high) rfl ?_
    obtain ⟨free, idle, filled, others, only, regs⟩ :=
      measureEnd_fills (BitVec.ofNat 32 (2 ^ 31 + (high + 1) % 4096 * 2 ^ 12 + low % 4096)) hmeasuring
    have wf : Memory.wf (s.dev.measureDone low high).mem = true := by
      rw [Dev.measureDone, only]
      exact hinv
    rw [canon_of_wf wf]
    exact ⟨free, idle, fun b _ p => filled p b, others, only, regs⟩
  case phase =>
    refine completes_act (f := fun d => d.gridPhaseStep) rfl ?_
    obtain ⟨others, target, current⟩ := phaseStep_moves hlocked hc ht
    have reg : ∀ off, s.dev.gridPhaseStep.reg off = s.dev.phaseStep.reg off := fun off => by rw [Dev.gridPhaseStep, Dev.reg, calKick_regs, Dev.reg]
    exact ⟨fun off hoff => (reg off).trans (others off hoff), (getF_eq_of_reg _ (reg _)).trans target, (getF_eq_of_reg _ (reg _)).trans current⟩
  case out =>
    refine completes_act (f := fun d => d.writeReg o.id (R.CLK_OUT_CFG n) w) rfl ?_
    have only : OnlyRegsAudit s.dev (outCfgStored s.dev o n w) := outCfgStored_only
    have wf : Memory.wf (outCfgStored s.dev o n w).mem = true := by
      rw [only]
      exact hinv
    rw [writeReg_outCfg haccept, canon_of_wf wf]
    refine ⟨fun f hf => ?_, outCfgStored_regsBut, only⟩
    simp only [List.mem_cons, List.not_mem_nil, or_false] at hf
    rcases hf with rfl | rfl | rfl | rfl | rfl
    · exact outCfgStored_field (f := ⟨16, 2, .rw, 0, false⟩) (by decide) rfl
    · exact outCfgStored_field (f := ⟨0, 16, .rw, 40, false⟩) (by decide) rfl
    · exact outCfgStored_field (f := ⟨18, 2, .rw, 0, false⟩) (by decide) rfl
    · exact outCfgStored_field (f := ⟨31, 1, .rw, 0, false⟩) (by decide) rfl
    · exact outCfgStored_field (f := ⟨30, 1, .rw, 1, false⟩) (by decide) rfl
  case fail =>
    refine completes_act (f := fun d => d.emberFail) rfl ?_
    exact emberFail_falls hbackup
  case back =>
    refine completes_act (f := fun d => d.emberReturn) rfl ?_
    obtain ⟨on, told, only, regs⟩ := emberReturn_returns hbackup
    have wf : Memory.wf s.dev.emberReturn.mem = true := by
      rw [only]
      exact hinv
    rw [canon_of_wf wf]
    exact ⟨on, told, only, regs⟩

end Sys2Proof.Proofs
end

section
/-! PROOFS. What the end of a run, a douse, a fault line and the end of a READ leave of the Flue ports: their states, and what a port that sends
nothing holds (spec/12 R332, R333, R335). -/

namespace Sys2Proof.Proofs

open Sys2Proof Sys2Proof.Machine

set_option Elab.async false

/-! ### Ports -/

theorem port_modPort_same (d : Dev) (p : Nat) (f : FluePort → FluePort) : (d.modPort p f).port p = f (d.port p) := by
  rw [Dev.port, Dev.modPort, mapGet_mapSet_same]

theorem port_modPort_other (d : Dev) {p q : Nat} (f : FluePort → FluePort) (h : q ≠ p) : (d.modPort p f).port q = d.port q := by
  rw [Dev.port, Dev.modPort, mapGet_mapSet_other _ _ _ _ _ h, Dev.port]

/-- What a port may send follows its state and whether its neighbour is known. -/
theorem portUp_congr {d e : Dev} {p : Nat} (hreg : e.reg (R.FLU_PORT_STATUS p) = d.reg (R.FLU_PORT_STATUS p))
    (hident : (e.port p).identOk = (d.port p).identOk) : e.portUp p = d.portUp p := by
  have state : e.portState p = d.portState p := getF_eq_of_reg _ hreg
  rw [Dev.portUp, state, hident, Dev.portUp]

/-- Sending changes neither registers nor which neighbours are known, and other ports not at all. -/
theorem pump_ports (d : Dev) (p fuel : Nat) : (∀ q, ((d.pump p fuel).port q).identOk = (d.port q).identOk) ∧
    ∀ q, q ≠ p → (d.pump p fuel).port q = d.port q := by
  induction fuel generalizing d with
  | zero => exact ⟨fun _ => rfl, fun _ _ => rfl⟩
  | succ fuel ih =>
    unfold Dev.pump
    split
    · exact ⟨fun _ => rfl, fun _ _ => rfl⟩
    split
    · exact ⟨fun _ => rfl, fun _ _ => rfl⟩
    next k _ =>
    dsimp only
    split
    · exact ⟨fun _ => rfl, fun _ _ => rfl⟩
    refine ⟨fun q => ((ih _).1 q).trans ?_, fun q hq => ((ih _).2 q hq).trans (port_modPort_other _ _ hq)⟩
    by_cases hq : q = p
    · rw [hq, port_modPort_same]
      cases hk : k.cls <;> simp only [FluePort.spend] <;> rfl
    · rw [port_modPort_other _ _ hq]
      rfl

theorem enqueue_port_other (d : Dev) {p q : Nat} (k : Packet) (h : q ≠ p) : (d.enqueue p k).port q = d.port q :=
  ((pump_ports _ p _).2 q h).trans (port_modPort_other d _ h)

theorem enqueue_identOk (d : Dev) (p q : Nat) (k : Packet) : ((d.enqueue p k).port q).identOk = (d.port q).identOk := by
  refine ((pump_ports _ p _).1 q).trans ?_
  by_cases hq : q = p
  · rw [hq, port_modPort_same]
  · rw [port_modPort_other _ _ hq]

theorem enqueue_portUp (d : Dev) (p q : Nat) (k : Packet) : (d.enqueue p k).portUp q = d.portUp q :=
  portUp_congr (by rw [Dev.reg, enqueue_regs, Dev.reg]) (enqueue_identOk d p q k)

/-- A route leads by a port that may send. -/
theorem portUp_of_route {d : Dev} {dest p : Nat} (h : d.route dest = .port p) : d.portUp p = true := by
  have via : ∀ q, (if d.portUp q then Route.port q else Route.none_) = .port p → d.portUp p = true := fun q hq => by
    split at hq
    · next up => exact Route.port.inj hq ▸ up
    · cases hq
  unfold Dev.route at h
  dsimp only at h
  split at h
  · cases h
  split at h
  · cases h
  split at h
  · exact via 0 h
  split at h
  · split at h
    · cases h
    · exact via _ h
  · split at h
    · cases h
    · exact via 0 h

/-! ### The frame -/

/-- FLU_STATUS, and the registers of the ports' states. -/
def portReg (off : Nat) : Bool := off == R.FLU_STATUS || (List.range 4).any (fun p => off == R.FLU_PORT_STATUS p)

theorem portReg_status {p : Nat} (hp : p < 4) : portReg (R.FLU_PORT_STATUS p) = true := by
  rw [portReg, Bool.or_eq_true, List.any_eq_true]
  exact .inr ⟨p, List.mem_range.mpr hp, beq_self_eq_true _⟩

theorem portReg_eq {off : Nat} (h : portReg off = true) : off = 0xA0004 ∨ ∃ p, p < 4 ∧ off = 0xA0104 + 256 * p := by
  rw [portReg, Bool.or_eq_true, List.any_eq_true] at h
  rcases h with h | ⟨p, hp, h⟩
  · exact .inl (beq_iff_eq.mp h)
  · exact .inr ⟨p, List.mem_range.mp hp, beq_iff_eq.mp h⟩

/-- The ports keep their states, FLU_STATUS reads as it did, and a port that may send nothing holds what it held. -/
structure PortsStand (d e : Dev) : Prop where
  status : ∀ off, portReg off = true → e.reg off = d.reg off
  silent : ∀ p, p < 4 → d.portUp p = false → e.port p = d.port p

namespace PortsStand

theorem refl (d : Dev) : PortsStand d d := ⟨fun _ _ => rfl, fun _ _ _ => rfl⟩

theorem trans {d e f : Dev} (h : PortsStand d e) (g : PortsStand e f) : PortsStand d f where
  status off hoff := (g.status off hoff).trans (h.status off hoff)
  silent p hp hup := by
    have same := h.silent p hp hup
    exact (g.silent p hp ((portUp_congr (h.status _ (portReg_status hp)) (by rw [same])).trans hup)).trans same

theorem foldl {α : Type} {f : Dev → α → Dev} (xs : List α) (d : Dev) (h : ∀ d x, PortsStand d (f d x)) : PortsStand d (xs.foldl f d) :=
  List.foldlRecOn xs f (motive := PortsStand d) (refl d) fun e he x _ => he.trans (h e x)

theorem ite {c : Prop} [Decidable c] {d a b : Dev} (ha : PortsStand d a) (hb : PortsStand d b) : PortsStand d (if c then a else b) := by
  split <;> assumption

/-- What writes no register and moves no port. -/
theorem upd {d e : Dev} (hr : e.regs = d.regs := by rfl) (hp : e.flue.ports = d.flue.ports := by rfl) : PortsStand d e :=
  ⟨fun off _ => by rw [Dev.reg, hr, Dev.reg], fun p _ _ => by rw [Dev.port, hp, Dev.port]⟩

theorem setReg (d : Dev) {off : Nat} (w : Word) (h : portReg off = false) : PortsStand d (d.setReg off w) :=
  ⟨fun o ho => reg_setReg_other d off o w (fun e => by rw [e, h] at ho; cases ho), fun _ _ _ => rfl⟩

theorem setF (d : Dev) {off : Nat} (f : Fld) (v : Nat) (h : portReg off = false) : PortsStand d (d.setF off f v) := setReg d _ h

theorem latch (d : Dev) {off : Nat} (f : Fld) (h : portReg off = false) : PortsStand d (d.latch off f) := setReg d _ h

theorem bump (d : Dev) {off : Nat} (f : Fld) (n : Nat) (h : portReg off = false) : PortsStand d (d.bump off f n) := setReg d _ h

theorem portReg_above {off : Nat} (h : 0xB0000 ≤ off) : portReg off = false := by
  by_contra hc
  rcases portReg_eq (Bool.of_not_eq_false hc) with e | ⟨p, hp, e⟩ <;> omega

theorem modSite (d : Dev) (s : Nat) (f : Site → Site) : PortsStand d (d.modSite s f) := upd

theorem write (d : Dev) (a : Nat) (bs : List Byte) : PortsStand d (d.write a bs) := upd

/-! ### Packets -/

theorem enqueue {d : Dev} {p : Nat} (k : Packet) (h : d.portUp p = true) : PortsStand d (d.enqueue p k) where
  status off _ := by rw [Dev.reg, enqueue_regs, Dev.reg]
  silent q _ hup := enqueue_port_other d k fun e => by rw [e, h] at hup; cases hup

theorem foldl_enqueue (ports : List Nat) {d : Dev} (k : Dev → Nat → Packet) (h : ∀ p ∈ ports, d.portUp p = true) :
    PortsStand d (ports.foldl (fun d p => d.enqueue p (k d p)) d) := by
  induction ports generalizing d with
  | nil => exact refl d
  | cons p t ih =>
    refine (enqueue (k d p) (h p List.mem_cons_self)).trans (ih fun q hq => ?_)
    rw [enqueue_portUp]
    exact h q (List.mem_cons_of_mem _ hq)

theorem sendPacket (d : Dev) (k : Packet) : PortsStand d (d.sendPacket k) := by
  unfold Dev.sendPacket
  refine ite (foldl_enqueue _ (fun _ _ => k) fun p hp => ?_) ?_
  · obtain ⟨-, hup⟩ := List.mem_filter.mp hp
    simp only [Bool.and_eq_true] at hup
    exact hup.1.1
  split
  · next p route => exact enqueue k (portUp_of_route route)
  · exact refl d
  · exact ite ((bump d _ 1 (by decide)).trans (latch _ _ (by decide))) (bump d _ 1 (by decide))

theorem sendEvent (d : Dev) (ring epoch kind site rdvId : Nat) (withdrawn : Bool) (startSeq : Nat) (more : List Nat) :
    PortsStand d (d.sendEvent ring epoch kind site rdvId withdrawn startSeq more) := ite (refl d) (sendPacket d _)

theorem ownerWrite (d : Dev) (ring a : Nat) (bs : List Byte) : PortsStand d (d.ownerWrite ring a bs) := ite (sendPacket d _) upd

/-! ### Pins, synthesizers, TMU channels -/

theorem toggle (d : Dev) (ch : Nat) : PortsStand d (d.toggle ch) := by
  obtain ⟨time, only⟩ := toggle_only d ch
  rw [only]
  exact upd

theorem drive (d : Dev) (ch : Nat) (v : Drv) (t : Nat) : PortsStand d (d.drive ch v t) := ite (refl d) (PortsStand.trans upd (toggle _ _))

theorem pinsSafe (d : Dev) (chs : List Nat) : PortsStand d (d.pinsSafe chs) := (foldl chs d fun d ch => ite (refl d) (toggle d ch)).trans upd

theorem ddsStop (d : Dev) (s : Nat) : PortsStand d (d.ddsStop s) := by
  have units : PortsStand d ((d.ddsClaims s).foldl (fun d c => match d.ddsList c with
      | some l => d.modDds c.unit (fun u => ({ u with connected := false }).load l 0 0 0)
      | none => d.modDds c.unit (fun u => { u with connected := false })) d) :=
    foldl _ d fun d c => by split <;> exact upd
  unfold Dev.ddsStop
  dsimp only
  split
  · exact units.trans upd
  · exact units

theorem tmuQueue (d : Dev) (n : Nat) (x : TmuItem) : PortsStand d (d.tmuQueue n x) := by
  have lost : portReg (R.TMU_CH_LOST n) = false := portReg_above (by simp only [R.TMU_CH_LOST]; omega)
  unfold Dev.tmuQueue
  exact ite upd (ite (ite ((upd : PortsStand d (d.modTmu n _)).trans (bump _ _ 1 lost)) upd) upd)

theorem tmuMark (d : Dev) (n ev : Nat) : PortsStand d (d.tmuMark n ev) := by
  unfold Dev.tmuMark Dev.tmuAfter
  refine ite upd ?_
  split
  · exact tmuQueue d n _
  · exact upd

theorem tmuStop (d : Dev) (s : Nat) : PortsStand d (d.tmuStop s) :=
  ite (refl d) ((upd : PortsStand d d.tbNow).trans (foldl _ _ fun d c => (ite (refl d) (tmuMark d _ 1)).trans upd))

/-! ### Capture units -/

section
variable (d : Dev) (s : Nat) (p : CapPlan)

theorem modCap (f : CapRun → CapRun) : PortsStand d (d.modCap s f) := upd

theorem capPut (r : List Byte) : PortsStand d (d.capPut s p r) := upd

theorem capStop (vc cause : Nat) : PortsStand d (d.capStop s p vc cause) := ite ((modCap d s _).trans (capPut _ s p _)) (modCap d s _)

theorem capResult (i : WinInst) : PortsStand d (d.capResult s p i) := ite (modCap d s _) upd

theorem fineRef (n : Nat) (stamp : Option (Nat × Nat)) (place : Nat) : PortsStand d (d.fineRef n stamp place) := by
  cases stamp <;> exact upd

theorem capTry (vc : Nat) (r : List Byte) : PortsStand d (d.capTry s p vc r).2 := by
  unfold Dev.capTry
  dsimp only
  split
  · exact refl d
  split
  · exact capStop d s p vc 1
  split
  · exact refl d
  · exact capPut d s p r

/-- An offered record, whatever became of it. -/
theorem of_capTry {d e : Dev} {s : Nat} {p : CapPlan} {vc : Nat} {r : List Byte} {t : CapTry} (h : d.capTry s p vc r = (t, e)) : PortsStand d e := by
  have tried := capTry d s p vc r
  rwa [h] at tried

theorem capSample (v : VecRec) (mode : Nat) (x : Samp) : PortsStand d (d.capSample s p v mode x) := by
  unfold Dev.capSample
  dsimp only
  split
  · exact refl d
  refine (modCap d s _).trans (ite ?_ (ite (modCap _ s _) (refl _)))
  split
  · next h => exact (of_capTry h).trans ((fineRef _ _ _ _).trans (modCap _ s _))
  · next h => exact (of_capTry h).trans (ite (modCap _ s _) (refl _))
  · next h => exact (of_capTry h).trans ((modCap _ s _).trans (ite (capStop _ s p _ 0) (refl _)))

theorem capDamper (v : VecRec) : PortsStand d (d.capDamper s p v) := by
  unfold Dev.capDamper
  dsimp only
  refine ite ?_ (refl d)
  split <;> rename_i h <;> refine (modCap d s _).trans ((of_capTry h).trans ?_)
  · exact modCap _ s _
  · exact modCap _ s _
  · exact refl _

theorem capLate (v : VecRec) : PortsStand d (d.capLate s p v) := by
  unfold Dev.capLate
  split
  · exact refl d
  split
  · next h => exact (of_capTry h).trans (modCap _ s _)
  · next h => exact of_capTry h

theorem capTake (v : VecRec) : PortsStand d (d.capTake s v) := by
  unfold Dev.capTake
  split
  · exact refl d
  · next p _ =>
    dsimp only
    refine PortsStand.trans ?_ (modCap _ s _)
    refine PortsStand.trans ?_ ((modCap _ s _).trans (foldl _ _ fun d i => capResult d s p i))
    refine PortsStand.trans ?_ (ite (capStop _ s p _ 0) (refl _))
    refine PortsStand.trans ?_ (capLate _ s p v)
    exact (capDamper d s p v).trans (ite (foldl _ _ fun d x => ite (capSample d s p v _ x) (refl d)) (refl _))

theorem capDrain (l : List CapItem) : PortsStand d (d.capDrain s l) := by
  induction l generalizing d with
  | nil => exact modCap d s _
  | cons x t ih =>
    cases x with
    | boundary =>
      refine PortsStand.trans ?_ (ih _)
      unfold Dev.capDecide
      split
      · exact refl d
      · exact modCap d s _
    | vec v p j =>
      unfold Dev.capDrain
      exact ite (modCap d s _) ((capTake d s v).trans (ih _))

theorem capBegin : PortsStand d (d.capBegin s) := by
  unfold Dev.capBegin
  dsimp only
  split
  · exact modSite d s _
  · exact (modSite d s _).trans (capPut _ s _ _)

theorem capFinish : PortsStand d (d.capFinish s) := by
  unfold Dev.capFinish
  dsimp only
  split
  · exact modCap d s _
  · next p _ =>
    refine PortsStand.trans ?_ (write _ _ _)
    refine (PortsStand.trans ?_ (capPut _ s p _)).trans (capPut _ s p _)
    refine (PortsStand.trans ?_ (modCap _ s _)).trans (foldl _ _ fun d i => capResult d s p i)
    split
    · exact (modCap d s _).trans (capStop _ s p _ 0)
    · exact modCap d s _

theorem lastEvents (atOnce : Bool) : PortsStand d (d.lastEvents s atOnce) := by
  unfold Dev.lastEvents
  dsimp only
  refine (PortsStand.trans ?_ (capDrain _ s _)).trans (modSite _ s _)
  split
  · exact modSite d s _
  · exact foldl _ d fun d x => drive d _ _ _

end

/-! ### Groups and engines -/

theorem leaveGroup (d : Dev) (s : Nat) : PortsStand d (d.leaveGroup s) := by
  have hold : ∀ (d : Dev) (k : Nat), PortsStand d (d.holdCause k) := fun d k => by
    unfold Dev.holdCause
    split
    · exact refl d
    split
    · exact refl d
    · exact ite (foldl _ d fun d m => modSite d m _) (refl d)
  have free : ∀ (d : Dev) (e : Nat), PortsStand d (d.freeEngine e) := fun d e => by
    unfold Dev.freeEngine
    split
    · exact upd
    dsimp only
    split
    · exact PortsStand.trans upd (hold _ _)
    · exact upd
  have name : ∀ (d : Dev) (k : Nat), PortsStand d (d.nameGroup k) := fun d k => by
    rw [nameGroup_only]
    exact upd
  unfold Dev.leaveGroup
  split
  · exact refl d
  · exact ite (PortsStand.trans upd (foldl _ _ fun d e => free d e)) ((upd : PortsStand d (d.setGroup _ _)).trans (name _ _))

/-! ### Waits, rendezvous, reasons -/

theorem endWait (d : Dev) (s endCode : Nat) : PortsStand d (d.endWait s endCode) := by
  have report : ∀ (d : Dev) (bytes : List Byte), PortsStand d (d.postReport s bytes) := fun d bytes =>
    ite upd (PortsStand.trans (e := { d with seq := { d.seq with reportSeq := (d.seq.reportSeq + 1) % 2 ^ 32 } }) upd (bump _ _ 1 (by decide)))
  unfold Dev.endWait
  dsimp only
  split
  · exact refl d
  · exact (modSite d s _).trans (report _ _)

theorem takeRelease (d : Dev) (r : Start) (x epoch : Nat) (fails : List Nat) : PortsStand d (d.takeRelease r x epoch fails) := by
  have met : ∀ m, PortsStand d (d.setMeet m) := fun _ => upd
  unfold Dev.takeRelease
  dsimp only
  split
  · refine PortsStand.trans ?_ (foldl _ _ fun d s => modSite d s _)
    exact (met _).trans ((bump _ _ 1 (by decide)).trans (latch _ _ (by decide)))
  · refine (met _).trans (foldl _ _ fun d s => ?_)
    unfold Dev.rdvRelease
    exact modSite d s _

theorem gather (d : Dev) (r : Start) (rep : RdvReport) : PortsStand d (d.gather r rep) := by
  unfold Dev.gather
  refine ite upd ?_
  dsimp only
  split
  · exact upd
  · refine PortsStand.trans ?_ (takeRelease _ r _ _ _)
    exact ite ((upd : PortsStand d ((d.setMeet _).setMeet _)).trans (sendEvent _ _ _ _ _ _ _ _ _)) upd

theorem rdvCheck (d : Dev) (id : Nat) : PortsStand d (d.rdvCheck id) := by
  have met : ∀ m, PortsStand d (d.setMeet m) := fun _ => upd
  unfold Dev.rdvCheck
  split
  · exact refl d
  · exact ite (refl d) (ite upd (ite ((met _).trans (gather _ _ _)) (ite ((met _).trans (sendPacket _ _)) ((met _).trans (gather _ _ _)))))

theorem sendFail (d : Dev) (s : Nat) : PortsStand d (d.sendFail s) := by
  unfold Dev.sendFail
  split
  · exact refl d
  · exact ite (refl d) (ite (foldl_enqueue _ (fun _ _ => eventPacket _ _ _ _ _ _ _ _ _ _) fun p hp => (List.mem_filter.mp hp).2) (sendEvent d _ _ _ _ _ _ _ _))

theorem addReason (d : Dev) (s reason : Nat) : PortsStand d (d.addReason s reason) :=
  ite (refl d) ((modSite d s _).trans (ite (refl _) upd))

/-! ### Runs that end -/

theorem endSite (d : Dev) (s : Nat) (cause : EndCause) (reason : Nat) (fromFail : Bool) : PortsStand d (d.endSite s cause reason fromFail) := by
  have int : ∀ (d : Dev) (f : Fld), PortsStand d (d.latch (R.HRT_INT_STATUS (homeHearth s)) f) := fun d f =>
    latch d f (portReg_above (by simp only [R.HRT_INT_STATUS]; omega))
  unfold Dev.endSite
  refine ite (refl d) ?_
  dsimp only
  -- from the last operation back to the site's passage to STOPPING
  refine PortsStand.trans ?_ (rdvCheck _ _)
  refine PortsStand.trans ?_ (ite (sendFail _ _) (refl _))
  refine ((PortsStand.trans ?_ (tmuStop _ _)).trans (capFinish _ _)).trans (leaveGroup _ _)
  refine (PortsStand.trans ?_ (pinsSafe _ _)).trans (ddsStop _ _)
  refine (PortsStand.trans ?_ (ite (int _ _) (refl _))).trans (ite (int _ _) (refl _))
  refine PortsStand.trans ?_ (ite (refl _) (capBegin _ _))
  -- what comes before it
  refine PortsStand.trans ?_ (modSite _ s _)
  refine PortsStand.trans ?_ (addReason _ s reason)
  exact ((endWait d s 1).trans (ite (lastEvents _ s _) (refl _))).trans (ite (foldl _ _ fun d r => addReason d s r) (refl _))

theorem smother (d : Dev) (s reason : Nat) (fromFail : Bool) : PortsStand d (d.smother s reason fromFail) :=
  ite (endSite d s _ _ _) (ite (modSite d s _) (refl d))

theorem smotherAll (d : Dev) (l : List Nat) (reason : Nat) : PortsStand d (d.smotherAll l reason) := foldl l d fun d s => smother d s reason false

/-! ### Douses and fault lines -/

theorem ppmuEndStep (d : Dev) (p : PpmuPlan) (s : PpmuStep) (code flags : Nat) : PortsStand d (d.ppmuEndStep p s code flags) := by
  unfold Dev.ppmuEndStep
  exact (ownerWrite d p.ring _ _).trans upd

theorem ppmuDouse (d : Dev) (g scope : Nat) : PortsStand d (d.ppmuDouse g scope) := by
  have force : PortsStand d (match d.staticPin g with
      | some p => if tbit scope (8 * g + p.pin) then d.modGrate g (fun x => { x with forceOff := true }) else d
      | none => d) := by
    split
    · exact ite upd (refl d)
    · exact refl d
  have finish : ∀ d : Dev, PortsStand d d.ppmuFinish := fun d => by
    obtain ⟨rings, only⟩ := ppmuFinish_only d
    rw [only]
    exact upd
  unfold Dev.ppmuDouse
  dsimp only
  split
  · exact force
  · refine PortsStand.trans ?_ (finish _)
    refine PortsStand.trans ?_ (foldl _ _ fun d x => (upd : PortsStand d d.drawNat.2).trans (ppmuEndStep _ _ _ _ _))
    exact (force.trans (upd : PortsStand _ (Dev.drawNat _).2)).trans (ppmuEndStep _ _ _ _ _)

theorem calEnd (d : Dev) (h : Nat) (fail : Option (Nat × Nat)) : PortsStand d (d.calEnd h fail) := by
  have status : ∀ (f : Fld) (v : Nat) (e : Dev), PortsStand e (e.setF R.CAL_PROC_STATUS f v) := fun f v e => setF e f v (by decide)
  unfold Dev.calEnd
  split
  · exact refl d
  refine ite (refl d) ?_
  extract_lets proc _ d'
  have outcome : PortsStand d d' := by
    unfold d'
    split
    · exact status _ _ d
    · exact (ite ((status F.CAL_PROC_STATUS_PIN _ d).trans (status F.CAL_PROC_STATUS_HEARTH h _)) (refl d)).trans (status _ _ _)
  clear_value d'
  refine outcome.trans (ite ?_ upd)
  refine (PortsStand.trans ?_ (status _ _ _)).trans (latch _ _ (by decide))
  exact (upd : PortsStand d' _).trans (status _ _ _)

theorem douseHalt (d : Dev) (scope : Nat) : PortsStand d (d.douseHalt scope) := by
  unfold Dev.douseHalt
  refine PortsStand.trans ?_ (foldl _ _ fun d h => calEnd d h _)
  refine PortsStand.trans ?_ (foldl _ _ fun d g => ppmuDouse d g scope)
  exact (foldl _ d fun d s => endSite d s .douse 0 false).trans (pinsSafe _ _)

theorem douseSeq (d : Dev) (scope : Nat) : PortsStand d (d.douseSeq scope) := by
  have ctrl : ∀ (e : Dev) (f : Fld) (v : Nat), PortsStand e (e.setF R.PWR_SUP_CTRL f v) := fun e f v => setF e f v (by decide)
  unfold Dev.douseSeq
  split
  · refine ite (refl d) ?_
    exact (upd : PortsStand d { d with power := { d.power with seq := none } }).trans
      ((((ctrl _ _ _).trans (ctrl _ _ _)).trans (ctrl _ _ _)).trans (latch _ _ (by decide)))
  · exact refl d

theorem douse (d : Dev) (cause source b : Nat) (resetAfter : Bool) : PortsStand d (d.douse cause source b resetAfter) := by
  have entry : ∀ (d : Dev) (scope : Nat), PortsStand d (d.douseEntry cause scope b) := fun d scope => ite upd upd
  have view : ∀ (e : Dev) (f : Fld) (v : Nat), PortsStand e (e.setF R.FLT_DOUSE_STATUS f v) := fun e f v => setF e f v (by decide)
  unfold Dev.douse
  refine ite (entry d _) ?_
  refine PortsStand.trans ?_ ((view _ _ _).trans (view _ _ _))
  refine PortsStand.trans ?_ ((view _ _ _).trans (view _ _ _))
  exact (((douseHalt d _).trans (douseSeq _ _)).trans (entry _ _)).trans upd

theorem latchFault (d : Dev) (b unit : Nat) : PortsStand d (d.latchFault b unit) :=
  ((setF d ⟨b, 1⟩ 1 (by decide : portReg R.FLT_WORD_LO = false)).trans upd).trans (ite (refl _) (setReg _ _ (by decide)))

theorem faultSmother (d : Dev) (b unit : Nat) : PortsStand d (d.faultSmother b unit) := by
  unfold Dev.faultSmother
  refine ite ?_ (refl d)
  split
  · exact smotherAll d _ _
  · exact refl d

theorem raise (d : Dev) (b unit : Nat) : PortsStand d (d.raise b unit) :=
  ite (refl d) (ite (faultSmother d b unit) (((latchFault d b unit).trans (ite (douse _ _ _ _ _) (ite (douse _ _ _ _ _) (refl _)))).trans
    (faultSmother _ b unit)))

theorem skewAbort (d : Dev) : PortsStand d d.skewAbort := by
  refine ite ?_ (refl d)
  exact (((upd : PortsStand d { d with flue := { d.flue with skew := none } }).trans (setF _ _ _ (by decide))).trans
    (setF _ _ _ (by decide))).trans (latch _ _ (by decide))

/-! ### Rings' registers -/

theorem portReg_ringStatus (n : Nat) : portReg (R.RING_STATUS n) = false := by
  by_contra hc
  rcases portReg_eq (Bool.of_not_eq_false hc) with e | ⟨p, hp, e⟩ <;> simp only [R.RING_STATUS] at e <;> omega

theorem portReg_ringErrors (n : Nat) : portReg (R.RING_ERRORS n) = false := by
  by_contra hc
  rcases portReg_eq (Bool.of_not_eq_false hc) with e | ⟨p, hp, e⟩ <;> simp only [R.RING_ERRORS] at e <;> omega

end PortsStand

/-! ### READs that end -/

/-- The ports stand, runs go on or end, and what is live is as it was. -/
structure LinkStands (d e : Dev) : Prop extends PortsStand d e, Halting d e where
  live : e.seq.live = d.seq.live

namespace LinkStands

theorem refl (d : Dev) : LinkStands d d := ⟨.refl d, .refl d, rfl⟩

theorem trans {d e f : Dev} (h : LinkStands d e) (g : LinkStands e f) : LinkStands d f :=
  ⟨h.toPortsStand.trans g.toPortsStand, h.toHalting.trans g.toHalting, g.live.trans h.live⟩

theorem foldl {α : Type} {f : Dev → α → Dev} (xs : List α) (d : Dev) (h : ∀ d x, LinkStands d (f d x)) : LinkStands d (xs.foldl f d) :=
  List.foldlRecOn xs f (motive := LinkStands d) (refl d) fun e he x _ => he.trans (h e x)

theorem ite {c : Prop} [Decidable c] {d a b : Dev} (ha : LinkStands d a) (hb : LinkStands d b) : LinkStands d (if c then a else b) := by
  split <;> assumption

/-- What writes no register and moves neither a port nor the sequencers. -/
theorem upd {d e : Dev} (hr : e.regs = d.regs := by rfl) (hp : e.flue.ports = d.flue.ports := by rfl) (hs : e.seq = d.seq := by rfl) : LinkStands d e :=
  ⟨.upd hr hp, .of_regs hs hr, by rw [hs]⟩

theorem setF (d : Dev) {off : Nat} (f : Fld) (v : Nat) (h : portReg off = false) (hg : ∀ g, R.HRT_GRT_STATUS g ≠ off) : LinkStands d (d.setF off f v) :=
  ⟨.setF d f v h, .setF d f v hg, rfl⟩

theorem sendPacket (d : Dev) (k : Packet) : LinkStands d (d.sendPacket k) :=
  ⟨.sendPacket d k, .of_sends (.sendPacket d k), by rw [(Sends.sendPacket d k).seq]⟩

theorem ownerWrite (d : Dev) (ring a : Nat) (bs : List Byte) : LinkStands d (d.ownerWrite ring a bs) := ite (sendPacket d _) upd

theorem raise (d : Dev) (b unit : Nat) : LinkStands d (d.raise b unit) := ⟨.raise d b unit, .raise d b unit, (Spares.raise d b unit).binds⟩

theorem skewAbort (d : Dev) : LinkStands d d.skewAbort :=
  ⟨.skewAbort d, .of_sends (.skewAbort d), by rw [(Sends.skewAbort d).seq]⟩

theorem smotherAll (d : Dev) (l : List Nat) {reason : Nat} (h : smotherAtOnce reason = false) : LinkStands d (d.smotherAll l reason) :=
  ⟨.smotherAll d l reason, .smotherAll d l h, (Keeps.smotherAll d l reason).binds⟩

theorem modRing (d : Dev) (n : Nat) (f : RingSt → RingSt) : LinkStands d (d.modRing n f) := upd

theorem ringState_ (d : Dev) (n st err : Nat) : LinkStands d (d.ringState_ n st err) := by
  have set : ∀ (d : Dev) (f : Fld) (v : Nat), LinkStands d (d.setF (R.RING_STATUS n) f v) := fun d f v =>
    setF d f v (PortsStand.portReg_ringStatus n) fun g => by simp only [R.HRT_GRT_STATUS, R.RING_STATUS]; omega
  exact (((set d _ _).trans (set _ _ _)).trans (ite (set _ F.RING_STATUS_ERR_INT 1) (refl _))).trans (ite (raise _ 16 n) (refl _))

theorem writeBlock (d : Dev) (n : Nat) : LinkStands d (d.writeBlock n) := by
  unfold Dev.writeBlock
  dsimp only
  refine LinkStands.trans ?_ (modRing _ n _)
  exact ite ((foldl _ d fun d i => ownerWrite d n _ _).trans (sendPacket _ _)) upd

theorem ringEnter (d : Dev) (n st err : Nat) : LinkStands d (d.ringEnter n st err) := by
  have dropped : ∀ d : Dev, LinkStands d (d.dropFetch n) := fun _ => upd
  unfold Dev.ringEnter
  extract_lets d' d''
  have left : LinkStands d d' := ite (refl d) (dropped d)
  have cut : LinkStands d d'' := left.trans ((dropped d').trans (modRing _ n _))
  clear_value d' d''
  refine ite (ite (left.trans (ringState_ _ _ _ _)) (ite ?_ ?_)) (left.trans ((ringState_ _ _ _ _).trans (writeBlock _ _)))
  · exact cut.trans (ringState_ _ _ _ _)
  · exact cut.trans (ringState_ _ _ _ _)

theorem issueFetch (d : Dev) (n : Nat) : LinkStands d (d.issueFetch n) := by
  unfold Dev.issueFetch
  dsimp only
  split
  · exact ringEnter d n _ _
  · exact (upd : LinkStands d _).trans (sendPacket _ _)

theorem fetchTimeout (d : Dev) (n : Nat) : LinkStands d (d.fetchDone n .timeout) := by
  have counted : LinkStands d (Dev.bump { d with flue := { d.flue with reads := d.flue.reads.filter (fun x => x.2 != ReadFor.fetch n) } }
      (R.RING_ERRORS n) F.RING_ERRORS_FETCH_TIMEOUTS) :=
    (upd : LinkStands d { d with flue := { d.flue with reads := d.flue.reads.filter (fun x => x.2 != ReadFor.fetch n) } }).trans
      (setF _ _ _ (PortsStand.portReg_ringErrors n) fun g => by simp only [R.HRT_GRT_STATUS, R.RING_ERRORS]; omega)
  exact ite (refl d) (counted.trans (ite (ringEnter _ n _ _) (issueFetch _ n)))

/-- The end of a READ at its deadline (R338, R380). -/
theorem readTimeout (d : Dev) (tag : Nat) (f : ReadFor) : LinkStands d (d.readTimeout tag f) := by
  have gone : LinkStands d { d with flue := { d.flue with reads := d.flue.reads.filter (fun x => x.1 != tag) } } := upd
  refine gone.trans ?_
  cases f with
  | racc n w => exact (setF _ _ _ (by decide) (Halting.below (by decide))).trans (setF _ _ _ (by decide) (Halting.below (by decide)))
  | fetch n => exact fetchTimeout _ n
  | dma n m =>
    unfold Dev.readTimeout Dev.dmaEnd
    dsimp only
    split
    · exact upd
    · exact refl _

end LinkStands

end Sys2Proof.Proofs
end

section
/-! PROOFS. The states of a Flue port and what entering one leaves (spec/12 R325-R328, R332, R333, R336). -/

namespace Sys2Proof.Proofs

open Sys2Proof Sys2Proof.Machine

set_option Elab.async false

/-! ### Entering a state -/

/-- Neither a port, a packet sent nor the sequencers move. -/
structure PortMoves (d e : Dev) : Prop where
  ports : e.flue.ports = d.flue.ports := by rfl
  outbox : e.outbox = d.outbox := by rfl
  seq : e.seq = d.seq := by rfl

namespace PortMoves

theorem refl (d : Dev) : PortMoves d d := {}

theorem trans {d e f : Dev} (h : PortMoves d e) (g : PortMoves e f) : PortMoves d f :=
  ⟨g.ports.trans h.ports, g.outbox.trans h.outbox, g.seq.trans h.seq⟩

theorem ite {c : Prop} [Decidable c] {d a b : Dev} (ha : PortMoves d a) (hb : PortMoves d b) : PortMoves d (if c then a else b) := by
  split <;> assumption

theorem foldl {α : Type} {f : Dev → α → Dev} (xs : List α) (d : Dev) (h : ∀ d x, PortMoves d (f d x)) : PortMoves d (xs.foldl f d) :=
  List.foldlRecOn xs f (motive := PortMoves d) (refl d) fun e he x _ => he.trans (h e x)

theorem setF (d : Dev) (off : Nat) (f : Fld) (v : Nat) : PortMoves d (d.setF off f v) := {}

theorem skewAbort (d : Dev) : PortMoves d d.skewAbort := ite {} (refl d)

theorem port {d e : Dev} (h : PortMoves d e) (p : Nat) : e.port p = d.port p := by rw [Dev.port, h.ports, Dev.port]

end PortMoves

theorem foldl_range_reg {f : Dev → Nat → Dev} {off : Nat} (h : ∀ d l, l < 4 → (f d l).reg off = d.reg off) (d : Dev) :
    ((List.range 4).foldl f d).reg off = d.reg off :=
  List.foldlRecOn _ _ (motive := fun e : Dev => e.reg off = d.reg off) rfl fun e he l hl => (h e l (List.mem_range.mp hl)).trans he

theorem lane_ne_status {p q l : Nat} (hl : l < 4) : R.FLU_PORT_STATUS q ≠ R.FLU_PORT_LANE p l := by
  simp only [R.FLU_PORT_STATUS, R.FLU_PORT_LANE]
  omega

/-- A field of FLU_PORTp_STATUS that a port's state does not move: any but STATE and LANES_UP. -/
def Lasting (f : Fld) : Prop := 3 ≤ f.lsb ∧ (f.lsb + f.width ≤ 16 ∨ 20 ≤ f.lsb ∧ f.lsb + f.width ≤ 32)

/-- The device in which the registers of a port show the state that it enters. -/
def stateShown (d : Dev) (p st : Nat) : Dev :=
  (List.range 4).foldl (fun (d : Dev) l =>
    (d.setF (R.FLU_PORT_LANE p l) F.FLU_PORT_LANE_LOCK (bit (st == psActive))).setF (R.FLU_PORT_LANE p l) F.FLU_PORT_LANE_ALIGNED (bit (st == psActive)))
    (((if st = psIdle then d.adaptLanes p else d).setF (R.FLU_PORT_STATUS p) F.FLU_PORT_STATUS_STATE st).setF (R.FLU_PORT_STATUS p)
      F.FLU_PORT_STATUS_LANES_UP (if st = psActive then 15 else 0))

section
variable (d : Dev) (p st : Nat)

theorem adaptLanes_moves : PortMoves d (d.adaptLanes p) := PortMoves.foldl _ d fun _ _ => {}

theorem adaptLanes_status (q : Nat) : (d.adaptLanes p).reg (R.FLU_PORT_STATUS q) = d.reg (R.FLU_PORT_STATUS q) :=
  foldl_range_reg (fun d _ hl => reg_setReg_other d.drawNat.2 _ _ _ (lane_ne_status hl)) d

theorem stateShown_moves : PortMoves d (stateShown d p st) :=
  ((PortMoves.ite (adaptLanes_moves d p) (.refl d)).trans ((PortMoves.setF _ _ _ _).trans (.setF _ _ _ _))).trans
    (.foldl _ _ fun d _ => (PortMoves.setF d _ _ _).trans (.setF _ _ _ _))

theorem stateShown_status (f : Fld) : (stateShown d p st).getF (R.FLU_PORT_STATUS p) f =
    (((if st = psIdle then d.adaptLanes p else d).setF (R.FLU_PORT_STATUS p) F.FLU_PORT_STATUS_STATE st).setF (R.FLU_PORT_STATUS p)
      F.FLU_PORT_STATUS_LANES_UP (if st = psActive then 15 else 0)).getF (R.FLU_PORT_STATUS p) f :=
  getF_eq_of_reg f (foldl_range_reg (fun d _ hl =>
    (reg_setF_other _ _ _ _ _ (lane_ne_status hl)).trans (reg_setF_other d _ _ _ _ (lane_ne_status hl))) _)

theorem stateShown_state : (stateShown d p st).portState p = st % 8 := by
  rw [Dev.portState, stateShown_status, getF_setF_disjoint _ _ _ _ _ (by decide) (by decide)]
  exact getF_setF_same _ _ _ _ (by decide)

theorem stateShown_field {f : Fld} (h : Lasting f) : (stateShown d p st).getF (R.FLU_PORT_STATUS p) f = d.getF (R.FLU_PORT_STATUS p) f := by
  obtain ⟨low, high⟩ := h
  rw [stateShown_status, getF_setF_disjoint _ _ _ _ _ (by omega) (by simp only; omega),
    getF_setF_disjoint _ _ _ _ _ (by omega) (by simp only; omega)]
  refine getF_eq_of_reg f ?_
  split
  · exact adaptLanes_status d p p
  · rfl

/-- What entering a state does beyond showing it leaves the ports standing. -/
theorem portEnter_stands : LinkStands (stateShown d p st) (d.portEnter p st) := by
  have int : ∀ (d : Dev) (f : Fld), LinkStands d (d.flueInt f) := fun d f => .setF d f 1 (by decide) (Halting.below (by decide))
  unfold Dev.portEnter
  extract_lets old d₁ d₂ d₃ d₄ d₅ d₆ d₇ flue d₈
  refine LinkStands.trans ?_ (.ite (.skewAbort d₈) (.refl d₈))
  have raised : LinkStands (stateShown d p st) d₆ := LinkStands.trans (.ite (int d₄ _) (.refl d₄)) (.ite (.raise d₅ 15 p) (.refl d₅))
  exact raised.trans (.ite ((int d₆ _).trans (.ite (.refl d₇) .upd)) (.refl d₆))

variable {d p st}

theorem portEnter_state (hp : p < 4) (hst : st < 8) : (d.portEnter p st).portState p = st := by
  rw [Dev.portState, getF_eq_of_reg _ ((portEnter_stands d p st).status _ (portReg_status hp)), ← Dev.portState, stateShown_state,
    Nat.mod_eq_of_lt hst]

theorem portEnter_field (hp : p < 4) {f : Fld} (h : Lasting f) :
    (d.portEnter p st).getF (R.FLU_PORT_STATUS p) f = d.getF (R.FLU_PORT_STATUS p) f := by
  rw [getF_eq_of_reg _ ((portEnter_stands d p st).status _ (portReg_status hp)), stateShown_field d p st h]

/-- A port that loses no link raises no fault line. -/
theorem portEnter_moves (h : ¬((st = psDown ∨ st = psError) ∧ (d.portState p = psActive ∨ d.portState p = psIdle ∨ d.portState p = psWake))) :
    PortMoves d (d.portEnter p st) := by
  unfold Dev.portEnter
  extract_lets old d₁ d₂ d₃ d₄ d₅ d₆ d₇ flue d₈
  refine PortMoves.trans ?_ (.ite (.skewAbort d₈) (.refl d₈))
  have calm : d₆ = d₅ := if_neg h
  refine PortMoves.trans ?_ (.ite (PortMoves.trans (.setF d₆ _ _ _) (.ite (.refl d₇) {})) (.refl d₆))
  rw [calm]
  exact (stateShown_moves d p st).trans (.ite (.setF d₄ _ _ _) (.refl d₄))

/-- The device of which a port comes up: the next marker is owed to a downstream port (R341). -/
def portJoined (d : Dev) (p : Nat) : Dev :=
  let d := d.flueInt F.FLU_INT_STATUS_PORT_UP
  if p = 0 then d else { d with flue := { d.flue with joinDue := true } }

theorem portJoined_flag (d : Dev) (p : Nat) : (portJoined d p).flag R.FLU_INT_STATUS F.FLU_INT_STATUS_PORT_UP = true := by
  have latched : (d.flueInt F.FLU_INT_STATUS_PORT_UP).flag R.FLU_INT_STATUS F.FLU_INT_STATUS_PORT_UP = true :=
    flag_of_getF (getF_setF_same d _ _ 1 (by decide))
  unfold portJoined
  dsimp only
  split
  · exact latched
  · exact latched

/-- A port that training brings up says so (R351). -/
theorem portEnter_portUp (hst : st = psActive) (h : d.portState p = psTrain) :
    (d.portEnter p st).flag R.FLU_INT_STATUS F.FLU_INT_STATUS_PORT_UP = true := by
  unfold Dev.portEnter
  extract_lets old d₁ d₂ d₃ d₄ d₅ d₆ d₇ flue d₈
  clear_value d₆
  have joined : d₈ = portJoined d₆ p := if_pos ⟨hst, h⟩
  rw [if_neg fun hc => hc.2 hst, joined]
  exact portJoined_flag d₆ p

end

/-! ### Training -/

theorem portErr_err (d : Dev) (p : Nat) {err : Nat} (h : err < 16) : (d.portErr p err).getF (R.FLU_PORT_STATUS p) F.FLU_PORT_STATUS_ERR = err := by
  rw [Dev.portErr, getF_setF_same _ _ _ _ (by decide)]
  exact Nat.mod_eq_of_lt h

theorem portErr_state (d : Dev) (p err : Nat) : (d.portErr p err).portState p = d.portState p :=
  getF_setF_disjoint _ _ _ _ _ (by decide) (by decide)

theorem portErr_port (d : Dev) (p err q : Nat) : (d.portErr p err).port q = d.port q := rfl

section
variable {d : Dev} {p : Nat}

/-- The device of which a port takes the taps of its transmitter. -/
def tapsTaken (d : Dev) (p : Nat) : Dev := d.modPort p (fun q => { q with taps := d.reg (R.FLU_PORT_EQ p) &&& 0x7FFF#32 })

theorem portTrain_eq (d : Dev) (p : Nat) : d.portTrain p =
    (((tapsTaken d p).portEnter p psTrain).out (.block p .training)).out (.block p (.ident d.deviceNum d.role p)) := rfl

theorem portTrain_entered (d : Dev) (p : Nat) : PortMoves (tapsTaken d p) ((tapsTaken d p).portEnter p psTrain) :=
  portEnter_moves fun h => absurd h.1 (by decide)

theorem portTrain_reg (d : Dev) (p off : Nat) : (d.portTrain p).reg off = ((tapsTaken d p).portEnter p psTrain).reg off := by
  rw [portTrain_eq, Dev.reg, out_regs, out_regs, Dev.reg]

theorem portTrain_state (hp : p < 4) : (d.portTrain p).portState p = psTrain :=
  (getF_eq_of_reg _ (portTrain_reg d p _)).trans (portEnter_state hp (by decide))

theorem portTrain_err (hp : p < 4) :
    (d.portTrain p).getF (R.FLU_PORT_STATUS p) F.FLU_PORT_STATUS_ERR = d.getF (R.FLU_PORT_STATUS p) F.FLU_PORT_STATUS_ERR :=
  (getF_eq_of_reg _ (portTrain_reg d p _)).trans (portEnter_field hp ⟨by decide, by decide⟩)

theorem portTrain_outbox (d : Dev) (p : Nat) :
    (d.portTrain p).outbox = d.outbox ++ [.block p .training, .block p (.ident d.deviceNum d.role p)] := by
  rw [portTrain_eq, Dev.out, Dev.out, (portTrain_entered d p).outbox, List.append_assoc]
  rfl

/-- A port keeps for a resumed replay what is not acknowledged (R332). -/
theorem portTrain_replay (d : Dev) (p : Nat) : ((d.portTrain p).port p).replay = (d.port p).replay := by
  rw [Dev.port, portTrain_eq, out_flue, out_flue, ← Dev.port, (portTrain_entered d p).port, tapsTaken, port_modPort_same]

end

/-! ### Replay, and entering ACTIVE -/

theorem foldl_out {α : Type} (f : α → Output) (l : List α) (d : Dev) :
    l.foldl (fun d x => d.out (f x)) d = { d with outbox := d.outbox ++ l.map f } := by
  induction l generalizing d with
  | nil => simp
  | cons x t ih =>
    rw [List.foldl_cons, ih]
    simp [Dev.out]

section
variable {d : Dev} {p : Nat}

/-- What is not acknowledged is sent again, and the replay is counted (R332). -/
theorem resend_eq (h : (d.port p).replay ≠ []) : d.resend p =
    { (d.bump (R.FLU_PORT_ERRORS p) F.FLU_PORT_ERRORS_REPLAYS).modPort p (fun q => { q with replays := q.replays + 1 }) with
      outbox := d.outbox ++ (d.port p).replay.map (fun x => .packet p x.1 x.2) } := by
  unfold Dev.resend
  dsimp only
  rw [if_neg (by simpa using h), foldl_out]
  rfl

/-- Of the port it moves the count of replays, and other ports not at all. -/
theorem resend_port (d : Dev) (p : Nat) : (d.resend p).port p = d.port p ∨ (d.resend p).port p = { d.port p with replays := (d.port p).replays + 1 } := by
  by_cases empty : (d.port p).replay = []
  · unfold Dev.resend
    rw [if_pos (by simpa using empty)]
    exact .inl rfl
  · rw [resend_eq empty]
    exact .inr (mapGet_mapSet_same _ _ _ _)

theorem resend_reg (d : Dev) {p off : Nat} (h : off ≠ R.FLU_PORT_ERRORS p) : (d.resend p).reg off = d.reg off := by
  by_cases empty : (d.port p).replay = []
  · unfold Dev.resend
    rw [if_pos (by simpa using empty)]
  · rw [resend_eq empty]
    exact reg_bump_other _ _ _ _ _ h

theorem resend_identOk (d : Dev) (p : Nat) : ((d.resend p).port p).identOk = (d.port p).identOk := by
  rcases resend_port d p with same | counted
  · rw [same]
  · rw [counted]

/-- A port that enters ACTIVE moves, of the registers, those of its state and its replay count. -/
theorem portActive_reg {off : Nat} (h : off ≠ R.FLU_PORT_ERRORS p) : (d.portActive p).reg off = (d.portEnter p psActive).reg off := by
  unfold Dev.portActive
  extract_lets resume d₁ d₂
  rw [Dev.reg, pump_regs, ← Dev.reg]
  unfold d₂
  split
  · exact resend_reg d₁ h
  · rfl

theorem status_ne_errors (p q : Nat) : R.FLU_PORT_STATUS q ≠ R.FLU_PORT_ERRORS p := by
  simp only [R.FLU_PORT_STATUS, R.FLU_PORT_ERRORS]
  omega

theorem portActive_state (hp : p < 4) : (d.portActive p).portState p = psActive :=
  (getF_eq_of_reg _ (portActive_reg (status_ne_errors p p))).trans (portEnter_state hp (by decide))

theorem portActive_field (hp : p < 4) {f : Fld} (h : Lasting f) :
    (d.portActive p).getF (R.FLU_PORT_STATUS p) f = d.getF (R.FLU_PORT_STATUS p) f :=
  (getF_eq_of_reg _ (portActive_reg (status_ne_errors p p))).trans (portEnter_field hp h)

theorem portActive_identOk (d : Dev) (p : Nat) : ((d.portActive p).port p).identOk = true := by
  unfold Dev.portActive
  extract_lets resume d₁ d₂
  rw [(pump_ports d₂ p _).1 p]
  have known : (d₁.port p).identOk = true := congrArg FluePort.identOk (port_modPort_same _ p _)
  unfold d₂
  split
  · rw [resend_identOk, known]
  · exact known

theorem portActive_portUp (h : d.portState p = psTrain) : (d.portActive p).flag R.FLU_INT_STATUS F.FLU_INT_STATUS_PORT_UP = true := by
  rw [Dev.flag, getF_eq_of_reg _ (portActive_reg (by simp only [R.FLU_INT_STATUS, R.FLU_PORT_ERRORS]; omega))]
  exact portEnter_portUp rfl h

end

/-! ### The loss of a link (R333) -/

/-- The device of which a port has gone DOWN or to ERROR and forgotten its packets, before its READs time out. -/
def linkLost (d : Dev) (p st : Nat) : Dev :=
  ((d.portEnter p st).modPort p (fun q => { FluePort.reset with taps := q.taps })).setF (R.FLU_PORT_STATUS p) F.FLU_PORT_STATUS_NEIGHBOUR 0xFF

section
variable {d : Dev} {p st : Nat}

theorem portDown_stands (h : d.portHeld p = true) : LinkStands (linkLost d p st) (d.portDown p st) := by
  unfold Dev.portDown
  dsimp only
  rw [h, if_neg (by decide)]
  exact .foldl _ _ fun d x => .readTimeout d x.1 x.2

theorem portLost_stands (h : d.portHeld p = true) : LinkStands (linkLost d p st) (d.portLost p st) := by
  rw [Dev.portLost, if_pos h]
  exact (portDown_stands h).trans (.smotherAll _ _ rfl)

theorem linkLost_state (hp : p < 4) (hst : st < 8) : (linkLost d p st).portState p = st :=
  (getF_setF_disjoint _ _ _ _ _ (by decide) (by decide)).trans (portEnter_state hp hst)

/-- A port that loses its link shows the state it goes to, and ERR is left as it was. -/
theorem portLost_state (hp : p < 4) (hst : st < 8) (h : d.portHeld p = true) : (d.portLost p st).portState p = st :=
  (getF_eq_of_reg _ ((portLost_stands h).status _ (portReg_status hp))).trans (linkLost_state hp hst)

theorem portLost_err (hp : p < 4) (h : d.portHeld p = true) :
    (d.portLost p st).getF (R.FLU_PORT_STATUS p) F.FLU_PORT_STATUS_ERR = d.getF (R.FLU_PORT_STATUS p) F.FLU_PORT_STATUS_ERR := by
  rw [getF_eq_of_reg _ ((portLost_stands h).status _ (portReg_status hp)), linkLost, getF_setF_disjoint _ _ _ _ _ (by decide) (by decide)]
  exact portEnter_field hp ⟨by decide, by decide⟩

/-- It forgets its packets; the taps that its transmitter took stay. -/
theorem portLost_port (hp : p < 4) (hst : st = psDown ∨ st = psError) (h : d.portHeld p = true) :
    (d.portLost p st).port p = { FluePort.reset with taps := (d.port p).taps } := by
  have silent : ∀ {e : Dev}, e.portState p = st → (st = psDown ∨ st = psError) → e.portUp p = false := fun {e} he hs => by
    rcases hs with rfl | rfl <;> rw [Dev.portUp, he] <;> rfl
  have small : st < 8 := by
    rcases hst with rfl | rfl <;> decide
  have entered : (d.portEnter p st).port p = d.port p := by
    have shown := stateShown_state d p st
    rw [Nat.mod_eq_of_lt small] at shown
    rw [(portEnter_stands d p st).silent p hp (silent shown hst), (stateShown_moves d p st).port]
  rw [(portLost_stands h).silent p hp (silent (linkLost_state hp small) hst)]
  exact (port_modPort_same (d.portEnter p st) p fun q => { FluePort.reset with taps := q.taps }).trans (by rw [entered])

end

end Sys2Proof.Proofs
end

section
/-! PROOFS. Writes of the Flue window, and what FLU_PORTp_CTRL does with a port that trains or is lost (spec/12 R327, R328, R333, R351). -/

namespace Sys2Proof.Proofs

open Sys2Proof Sys2Proof.Machine

set_option Elab.async false

/-- What holds of the device that a meaning makes holds of it with its memory in canonical form. -/
theorem completes_canon {c : Instr} {s : State} {f : Dev → Dev} {P : Dev → Prop} (h : exec c s = s.act f) (hcanon : ∀ d : Dev, P d → P d.canon)
    (hp : P (f s.dev)) : Completes c s P := completes_act h (hcanon _ hp)

/-! ### Writes of the Flue window -/

/-- The device in which a write of a Flue register is logged and stored. -/
def flueStored (d : Dev) (o : Origin) (off : Nat) (row : RDesc) (w : Word) : Dev :=
  (d.logWrite o.id off w).setReg off (row.store (d.reg off) (flueNorm off w))

section
variable {d : Dev} {o : Origin} {off : Nat} {w : Word} {row : RDesc}

theorem writeReg_flue (hrow : regRow off = some row) (hcanon : regCanon off = off) (hwindow : off / 65536 = 10) (h : Accepts d o off w) :
    d.writeReg o.id off w = (flueStored d o off row w).flueEffect off (flueNorm off w) := by
  obtain ⟨running, judged⟩ := h
  have below : ¬ off ≥ 0x100000 := by omega
  have other : isFaultWord off = false := by
    simp only [isFaultWord, R.FLT_WORD_LO, R.FLT_WORD_HI, Bool.or_eq_false_iff, beq_eq_false_iff_ne]
    omega
  have norm : regNorm off w = flueNorm off w := by
    rw [regNorm, if_neg below, hwindow]
    rfl
  have effect : ∀ (d : Dev) (old v : Word), d.regEffect o.id off old v = d.flueEffect off v := fun d old v => by
    rw [Dev.regEffect, if_neg below, hwindow]
    rfl
  rw [Dev.writeReg, writeVia_accepted running judged (by rw [hcanon]; exact hrow) (by rw [hcanon]; exact other), hcanon, norm, effect]
  rfl

variable (d o off w row)

theorem flueStored_flue : (flueStored d o off row w).flue = d.flue := by rw [flueStored, setReg_flue, logWrite_only]
theorem flueStored_seq : (flueStored d o off row w).seq = d.seq := by rw [flueStored, setReg_seq, logWrite_only]
theorem flueStored_outbox : (flueStored d o off row w).outbox = d.outbox := by rw [flueStored, setReg_outbox, logWrite_only]

theorem flueStored_regsBut : RegsBut [off] d (flueStored d o off row w) := fun x hx => by
  rw [flueStored, reg_setReg_other _ _ _ _ fun h => hx (List.mem_singleton.mpr h), logWrite_reg]

variable {d o off w row}

/-- A field that software writes is stored as the word has it once its rules are kept. -/
theorem flueStored_field (hrow : row ∈ regTable) {f : RField} (hf : f ∈ row.fields) (hrw : f.ty = .rw) :
    (flueStored d o off row w).getF off ⟨f.lsb, f.width⟩ = getBits (flueNorm off w) ⟨f.lsb, f.width⟩ := by
  rw [Dev.getF, flueStored, reg_setReg_same]
  exact getBits_store_rw hrow hf hrw _ _

end

theorem getF_of_regsBut {d e : Dev} {l : List Nat} (h : RegsBut l d e) {off : Nat} (f : Fld) (hoff : off ∉ l) : e.getF off f = d.getF off f :=
  getF_eq_of_reg f (h off hoff)

/-! ### FLU_PORTp_CTRL -/

/-- The row of FLU_PORTp_CTRL. -/
def portCtrlRow : RDesc := ⟨0xa0100, [(256, 4)], [⟨31, 1, .rw, 0, true⟩, ⟨30, 1, .wo, 0, false⟩, ⟨29, 1, .rw, 1, false⟩, ⟨0, 16, .rw, 10, false⟩]⟩

theorem regRow_portCtrl (p : Fin 4) : regRow (R.FLU_PORT_CTRL p) = some portCtrlRow ∧ regCanon (R.FLU_PORT_CTRL p) = R.FLU_PORT_CTRL p := by
  revert p
  decide +kernel

theorem fluePort_ctrl (p : Fin 4) : fluePort (R.FLU_PORT_CTRL p) = some (p.val, 0) := by
  revert p
  decide

/-- A rule of FLU_PORTp_CTRL sets IDLE_DELAY alone. -/
theorem flueNorm_portCtrl (p : Fin 4) (w : Word) {f : Fld} (h : 16 ≤ f.lsb ∧ f.lsb + f.width ≤ 32) :
    getBits (flueNorm (R.FLU_PORT_CTRL p) w) f = getBits w f := by
  rw [flueNorm, if_neg (by simp only [R.FLU_PORT_CTRL, R.FLU_CFG]; omega), fluePort_ctrl]
  show getBits (if getBits w F.FLU_PORT_CTRL_IDLE_DELAY = 0 then setBits w F.FLU_PORT_CTRL_IDLE_DELAY 1 else w) f = _
  split
  · exact getBits_setBits_other _ _ _ _ h.2 (.inl h.1)
  · rfl

section
variable {d : Dev} {o : Origin} {p : Fin 4} {w : Word}

/-- The device in which a write of FLU_PORTp_CTRL is stored. -/
def portCtrlStored (d : Dev) (o : Origin) (p : Fin 4) (w : Word) : Dev := flueStored d o (R.FLU_PORT_CTRL p) portCtrlRow w

theorem writeReg_portCtrl (h : Accepts d o (R.FLU_PORT_CTRL p) w) :
    d.writeReg o.id (R.FLU_PORT_CTRL p) w = (portCtrlStored d o p w).portCtrl p (flueNorm (R.FLU_PORT_CTRL p) w) := by
  obtain ⟨row, canonical⟩ := regRow_portCtrl p
  rw [writeReg_flue row canonical (by simp only [R.FLU_PORT_CTRL]; omega) h, Dev.flueEffect, fluePort_ctrl]
  rfl

variable (d o p w)

theorem portCtrlStored_getF {off : Nat} (f : Fld) (h : off ≠ R.FLU_PORT_CTRL p) : (portCtrlStored d o p w).getF off f = d.getF off f :=
  getF_of_regsBut (flueStored_regsBut d o _ w _) f fun hmem => h (List.mem_singleton.mp hmem)

theorem portCtrlStored_state (q : Nat) : (portCtrlStored d o p w).portState q = d.portState q :=
  portCtrlStored_getF d o p w _ (by simp only [R.FLU_PORT_STATUS, R.FLU_PORT_CTRL]; omega)

theorem portCtrlStored_port (q : Nat) : (portCtrlStored d o p w).port q = d.port q := by
  rw [Dev.port, portCtrlStored, flueStored_flue, Dev.port]

end

/-! ### What a write of it does -/

section
variable {d : Dev} {p : Nat} {v : Word}

/-- Enabled, a port that is DOWN trains with the FLUE PLL locked, on a device in a tree. -/
theorem portCtrl_enable (hen : getBits v F.FLU_PORT_CTRL_ENABLE = 1) (hdown : d.portState p = psDown) (hpll : d.pllLocked pllFlue = true)
    (hrole : d.role ≠ 0) : d.portCtrl p v = (d.portErr p 0).portTrain p := by
  have pll : (d.portErr p 0).pllLocked pllFlue = true := by
    rw [Dev.pllLocked, Dev.pllState, Dev.portErr, getF_setF_other _ _ _ _ _ _ (by simp only [R.CLK_PLL_STATUS, R.FLU_PORT_STATUS, pllFlue]; omega)]
    exact hpll
  have role : (d.portErr p 0).role ≠ 0 := by
    rw [Dev.role, Dev.portErr, getF_setF_other _ _ _ _ _ _ (by simp only [R.GLB_ROLE, R.FLU_PORT_STATUS]; omega)]
    exact hrole
  unfold Dev.portCtrl
  dsimp only
  rw [hdown, if_neg (by omega), if_neg fun h => absurd h.2 (by decide), if_pos ⟨rfl, pll, role⟩]

/-- RETRAIN on a port that is ACTIVE or IDLE trains it again. -/
theorem portCtrl_retrain (hen : getBits v F.FLU_PORT_CTRL_ENABLE = 1) (hre : getBits v F.FLU_PORT_CTRL_RETRAIN = 1)
    (hst : d.portState p = psActive ∨ d.portState p = psIdle) : d.portCtrl p v = (d.portErr p 0).portTrain p := by
  unfold Dev.portCtrl
  dsimp only
  have up : d.portState p ≠ psDown := by
    rcases hst with h | h <;> rw [h] <;> decide
  rw [if_neg (by omega), if_pos ⟨hre, hst⟩, if_neg fun h => up h.1]

/-- Disabled, a port that is not DOWN loses its link. -/
theorem portCtrl_disable (hen : getBits v F.FLU_PORT_CTRL_ENABLE = 0) (hst : d.portState p = psActive) : d.portCtrl p v = d.portLost p psDown := by
  unfold Dev.portCtrl
  dsimp only
  rw [if_pos hen, hst, if_neg (by decide)]

end

/-! ### The loss of an ACTIVE link -/

section
variable {d : Dev} {p : Nat}

theorem portHeld_active (h : d.portState p = psActive) : d.portHeld p = true := by
  rw [Dev.portHeld, h]
  rfl

/-- The fault line of a link that is lost stays latched (R464). -/
theorem portLost_word (h : d.portState p = psActive) : (d.portLost p psDown).bitOf R.FLT_WORD_LO 15 = true := by
  have entered : (d.portEnter p psDown).bitOf R.FLT_WORD_LO 15 = true := by
    unfold Dev.portEnter
    extract_lets old d₁ d₂ d₃ d₄ d₅ d₆ d₇ flue d₈
    have raised : d₆ = d₅.raise 15 p := if_pos ⟨.inl rfl, .inl h⟩
    have same : d₈ = d₆ := if_neg fun hc => absurd hc.1 (by decide)
    have aborted : ClocksStand d₈ (if p = 0 ∧ psDown ≠ psActive then d₈.skewAbort else d₈) :=
      .ite (.of_stamping (.skewAbort d₈)) (.refl d₈)
    refine aborted.word 15 (by decide) ?_
    rw [same, raised]
    exact raise_bitOf d₅ p (by decide)
  have lost : ClocksStand (d.portEnter p psDown) (linkLost d p psDown) :=
    (ClocksStand.upd : ClocksStand _ (Dev.modPort _ p _)).trans (.setF _ _ _ (by simp only [R.FLU_PORT_STATUS]; omega))
  have timedOut : ClocksStand (linkLost d p psDown) (d.portDown p psDown) := by
    unfold Dev.portDown
    dsimp only
    rw [portHeld_active h, if_neg (by decide)]
    exact .foldl _ _ fun d x => .readTimeout d x.1 x.2
  rw [Dev.portLost, if_pos (portHeld_active h)]
  exact (lost.trans (timedOut.trans (.smotherAll _ _ 10))).word 15 (by decide) entered

/-- Whether a site spans devices follows what is live. -/
theorem isMulti_congr {d e : Dev} (h : e.seq.live = d.seq.live) (x : Nat) : e.isMulti x = d.isMulti x := by
  rw [Dev.isMulti, Dev.binding, h]
  rfl

/-- A site of a start over several devices that has not begun to run ends with the link (R333). -/
theorem portLost_smothers (h : d.portState p = psActive) {x : Nat} (hmulti : d.isMulti x = true) (hst : (d.site x).st = .starting) :
    ((d.portLost p psDown).site x).st = .stopping := by
  have shown := stateShown_moves d p psDown
  have entered := portEnter_stands d p psDown
  have down := portDown_stands (st := psDown) (portHeld_active h)
  have lostSeq : (linkLost d p psDown).seq = (d.portEnter p psDown).seq := rfl
  have begun : ((stateShown d p psDown).site x).st = .starting := by
    rw [Dev.site, shown.seq]
    exact hst
  have live : (d.portDown p psDown).seq.live = d.seq.live := by
    rw [down.live, lostSeq, entered.live, shown.seq]
  have there : ((d.portDown p psDown).site x).st = .starting ∨ ((d.portDown p psDown).site x).st = .stopping := by
    have lost : ((linkLost d p psDown).site x).st = .starting ∨ ((linkLost d p psDown).site x).st = .stopping := by
      rw [Dev.site, lostSeq]
      exact (entered.st x).imp (·.trans begun) id
    rcases down.st x with same | ended
    · rwa [same]
    · exact .inr ended
  rw [Dev.portLost, if_pos (portHeld_active h)]
  dsimp only
  rcases there with starting | stopping
  · have listed : x ∈ (d.portDown p psDown).activeSites.filter (d.portDown p psDown).isMulti :=
      List.mem_filter.mpr ⟨mem_activeSites (.inl starting), (isMulti_congr live x).trans hmulti⟩
    have halted := (Halting.smotherAll (d.portDown p psDown) ((d.portDown p psDown).activeSites.filter (d.portDown p psDown).isMulti)
      (reason := 10) rfl).st x
    rcases smotherAll_smothered (reason := 10) rfl _ listed (.inl starting) with ended | ⟨running, -⟩
    · exact ended
    · rcases halted with same | ended
      · exact absurd (running.symm.trans (same.trans starting)) (by decide)
      · exact ended
  · exact (ClocksStand.smotherAll _ _ 10).ended x stopping

end

end Sys2Proof.Proofs
end

section
/-! PROOFS. The states of a Flue port, command by command (spec/12 R325-R328, R332, R333, R336; log entries 41 and 118 are the model's choices). -/

namespace Sys2Proof.Proofs

open Sys2Proof Sys2Proof.Machine

set_option Elab.async false

section
variable {s : State} {p : Fin 4}

/-! ### FLU_PORTp_CTRL -/

theorem fluePortEnable_trains (o : Origin) {w : Word} (h : Accepts s.dev o (R.FLU_PORT_CTRL p) (setBits w F.FLU_PORT_CTRL_ENABLE 1))
    (hdown : s.dev.portState p = psDown) (hpll : s.dev.pllLocked pllFlue = true) (hrole : s.dev.role ≠ 0) :
    Completes (.fluePortEnable o p true w) s (fun e => e.portState p = psTrain ∧ e.getF (R.FLU_PORT_STATUS p) F.FLU_PORT_STATUS_ERR = 0 ∧
      e.outbox = s.dev.outbox ++ [.block p .training, .block p (.ident s.dev.deviceNum s.dev.role p)]) := by
  refine completes_canon (f := fun d => d.writeReg o.id (R.FLU_PORT_CTRL p) (setBits w F.FLU_PORT_CTRL_ENABLE 1)) rfl (fun _ h => h) ?_
  have enabled : getBits (flueNorm (R.FLU_PORT_CTRL p) (setBits w F.FLU_PORT_CTRL_ENABLE 1)) F.FLU_PORT_CTRL_ENABLE = 1 := by
    rw [flueNorm_portCtrl p _ ⟨by decide, by decide⟩, getBits_setBits_same _ _ _ (by decide)]
    rfl
  have num : ∀ f, (portCtrlStored s.dev o p (setBits w F.FLU_PORT_CTRL_ENABLE 1)).getF R.GLB_ROLE f = s.dev.getF R.GLB_ROLE f := fun f =>
    portCtrlStored_getF _ _ _ _ f (by simp only [R.GLB_ROLE, R.FLU_PORT_CTRL]; omega)
  have errNum : ∀ (d : Dev) f, (d.portErr p 0).getF R.GLB_ROLE f = d.getF R.GLB_ROLE f := fun d f =>
    getF_setF_other _ _ _ _ _ _ (by simp only [R.GLB_ROLE, R.FLU_PORT_STATUS]; omega)
  rw [writeReg_portCtrl h, portCtrl_enable enabled ((portCtrlStored_state _ _ _ _ _).trans hdown) ?_ ((num _).trans_ne hrole)]
  · refine ⟨portTrain_state p.isLt, (portTrain_err p.isLt).trans (portErr_err _ _ (by decide)), ?_⟩
    rw [portTrain_outbox, Dev.deviceNum, Dev.role, errNum, errNum, num, num, Dev.portErr, setF_outbox, portCtrlStored, flueStored_outbox]
    rfl
  · rw [Dev.pllLocked, Dev.pllState, portCtrlStored_getF _ _ _ _ _ (by simp only [R.CLK_PLL_STATUS, R.FLU_PORT_CTRL, pllFlue]; omega)]
    exact hpll

theorem fluePortEnable_loses (o : Origin) {w : Word} (h : Accepts s.dev o (R.FLU_PORT_CTRL p) (setBits w F.FLU_PORT_CTRL_ENABLE 0))
    (hst : s.dev.portState p = psActive) :
    Completes (.fluePortEnable o p false w) s (fun e => e.portState p = psDown ∧ e.port p = { FluePort.reset with taps := (s.dev.port p).taps } ∧
      e.bitOf R.FLT_WORD_LO 15 = true ∧ ∀ x, s.dev.isMulti x = true → (s.dev.site x).st = .starting → (e.site x).st = .stopping) := by
  refine completes_canon (f := fun d => d.writeReg o.id (R.FLU_PORT_CTRL p) (setBits w F.FLU_PORT_CTRL_ENABLE 0)) rfl (fun _ h => h) ?_
  have disabled : getBits (flueNorm (R.FLU_PORT_CTRL p) (setBits w F.FLU_PORT_CTRL_ENABLE 0)) F.FLU_PORT_CTRL_ENABLE = 0 := by
    rw [flueNorm_portCtrl p _ ⟨by decide, by decide⟩, getBits_setBits_same _ _ _ (by decide)]
    rfl
  have active := (portCtrlStored_state s.dev o p (setBits w F.FLU_PORT_CTRL_ENABLE 0) p).trans hst
  have seq : (portCtrlStored s.dev o p (setBits w F.FLU_PORT_CTRL_ENABLE 0)).seq = s.dev.seq := flueStored_seq _ _ _ _ _
  have held := portHeld_active active
  rw [writeReg_portCtrl h, portCtrl_disable disabled active, ← portCtrlStored_port s.dev o p (setBits w F.FLU_PORT_CTRL_ENABLE 0) p]
  refine ⟨portLost_state p.isLt (by decide) held, portLost_port p.isLt (.inl rfl) held, portLost_word active, fun x hmulti hstarting => ?_⟩
  refine portLost_smothers active ((isMulti_congr (by rw [seq]) x).trans hmulti) ?_
  rw [Dev.site, seq]
  exact hstarting

theorem retrain_trains (o : Origin) {w : Word} (h : Accepts s.dev o (R.FLU_PORT_CTRL p) (setBits w F.FLU_PORT_CTRL_RETRAIN 1))
    (hen : getBits w F.FLU_PORT_CTRL_ENABLE = 1) (hst : s.dev.portState p = psActive ∨ s.dev.portState p = psIdle) :
    Completes (.retrain o p w) s (fun e => e.portState p = psTrain ∧ (e.port p).replay = (s.dev.port p).replay) := by
  refine completes_canon (f := fun d => d.writeReg o.id (R.FLU_PORT_CTRL p) (setBits w F.FLU_PORT_CTRL_RETRAIN 1)) rfl (fun _ h => h) ?_
  have enabled : getBits (flueNorm (R.FLU_PORT_CTRL p) (setBits w F.FLU_PORT_CTRL_RETRAIN 1)) F.FLU_PORT_CTRL_ENABLE = 1 := by
    rw [flueNorm_portCtrl p _ ⟨by decide, by decide⟩, getBits_setBits_other _ _ _ _ (by decide) (by decide), hen]
  have retrain : getBits (flueNorm (R.FLU_PORT_CTRL p) (setBits w F.FLU_PORT_CTRL_RETRAIN 1)) F.FLU_PORT_CTRL_RETRAIN = 1 := by
    rw [flueNorm_portCtrl p _ ⟨by decide, by decide⟩, getBits_setBits_same _ _ _ (by decide)]
    rfl
  rw [writeReg_portCtrl h, portCtrl_retrain enabled retrain (by rwa [portCtrlStored_state])]
  refine ⟨portTrain_state p.isLt, ?_⟩
  rw [portTrain_replay, portErr_port, portCtrlStored_port]

/-! ### IDENT and the timeout of the training -/

/-- The device of which a port has taken its neighbour's IDENT. -/
def identShown (d : Dev) (p num pol : Nat) (lanes : List Word) : Dev :=
  (List.range 4).foldl (fun (d : Dev) l =>
    let w := nth lanes l 0
    let set := fun (d : Dev) f => d.setF (R.FLU_PORT_LANE p l) f (getBits w f)
    set (set (set (set d F.FLU_PORT_LANE_EYE_MV) F.FLU_PORT_LANE_DFE1) F.FLU_PORT_LANE_CTLE) F.FLU_PORT_LANE_SKEW_BLOCKS)
    ((d.setF (R.FLU_PORT_STATUS p) F.FLU_PORT_STATUS_NEIGHBOUR num).setF (R.FLU_PORT_STATUS p) F.FLU_PORT_STATUS_POL_INV pol)

theorem identShown_status (d : Dev) (p num pol : Nat) (lanes : List Word) (f : Fld) : (identShown d p num pol lanes).getF (R.FLU_PORT_STATUS p) f =
    ((d.setF (R.FLU_PORT_STATUS p) F.FLU_PORT_STATUS_NEIGHBOUR num).setF (R.FLU_PORT_STATUS p) F.FLU_PORT_STATUS_POL_INV pol).getF
      (R.FLU_PORT_STATUS p) f := by
  refine getF_eq_of_reg f (foldl_range_reg (fun d l hl => ?_) _)
  dsimp only
  rw [reg_setF_other _ _ _ _ _ (lane_ne_status hl), reg_setF_other _ _ _ _ _ (lane_ne_status hl), reg_setF_other _ _ _ _ _ (lane_ne_status hl),
    reg_setF_other _ _ _ _ _ (lane_ne_status hl)]

theorem identShown_state (d : Dev) (p num pol : Nat) (lanes : List Word) : (identShown d p num pol lanes).portState p = d.portState p := by
  rw [Dev.portState, identShown_status, getF_setF_disjoint _ _ _ _ _ (by decide) (by decide), getF_setF_disjoint _ _ _ _ _ (by decide) (by decide)]
  rfl

theorem identShown_neighbour (d : Dev) (p num pol : Nat) (lanes : List Word) :
    (identShown d p num pol lanes).getF (R.FLU_PORT_STATUS p) F.FLU_PORT_STATUS_NEIGHBOUR = num % 2 ^ F.FLU_PORT_STATUS_NEIGHBOUR.width := by
  rw [identShown_status, getF_setF_disjoint _ _ _ _ _ (by decide) (by decide), getF_setF_same _ _ _ _ (by decide)]

theorem identShown_rest (d : Dev) (p num pol : Nat) (lanes : List Word) :
    (identShown d p num pol lanes).flue = d.flue ∧ (identShown d p num pol lanes).outbox = d.outbox :=
  List.foldlRecOn _ _ (motive := fun e : Dev => e.flue = d.flue ∧ e.outbox = d.outbox) ⟨rfl, rfl⟩ fun _ he _ _ => he

theorem ident_good {d : Dev} {p num role from_ : Nat} (pol : Nat) {lanes : List Word} (both : Bool) (hst : d.portState p = psTrain)
    (hskew : lanes.any (fun w => maxSkewBlocks < getBits w F.FLU_PORT_LANE_SKEW_BLOCKS) = false) (hnone : d.identErr p num role from_ = none) :
    d.ident p num role from_ pol lanes both = if both then (identShown d p num pol lanes).portActive p else identShown d p num pol lanes := by
  unfold Dev.ident
  rw [if_neg (by rintro (h | h); exacts [h hst, by simp [hskew] at h]), hnone]
  rfl

theorem ident_bad {d : Dev} {p num role from_ : Nat} (pol : Nat) {lanes : List Word} (both : Bool) {err : Nat} (hst : d.portState p = psTrain)
    (hskew : lanes.any (fun w => maxSkewBlocks < getBits w F.FLU_PORT_LANE_SKEW_BLOCKS) = false) (herr : d.identErr p num role from_ = some err) :
    d.ident p num role from_ pol lanes both = (d.portErr p err).portLost p psError := by
  unfold Dev.ident
  rw [if_neg (by rintro (h | h); exacts [h hst, by simp [hskew] at h]), herr]

theorem identErr_lt {d : Dev} {p num role from_ err : Nat} (h : d.identErr p num role from_ = some err) : err < 16 := by
  have fails : ∀ {c : Bool} {k : Nat}, k < 16 → failWhen c k = some err → err < 16 := fun {c k} hk hc => by
    unfold failWhen at hc
    split at hc <;> cases hc
    exact hk
  unfold Dev.identErr at h
  dsimp only at h
  split at h
  · split at h
    · exact fails (by decide) h
    · split at h
      · cases h
        decide
      · exact fails (by decide) h
  · split at h
    · cases h
      decide
    · exact fails (by decide) h

/-- A port that training fails goes to ERROR and says why. -/
theorem trainFails {d : Dev} {err : Nat} (herr : err < 16) (hst : d.portState p = psTrain) :
    ((d.portErr p err).portLost p psError).portState p = psError ∧
      ((d.portErr p err).portLost p psError).getF (R.FLU_PORT_STATUS p) F.FLU_PORT_STATUS_ERR = err := by
  have held : (d.portErr p err).portHeld p = true := by
    rw [Dev.portHeld, portErr_state, hst]
    rfl
  exact ⟨portLost_state p.isLt (by decide) held, (portLost_err p.isLt held).trans (portErr_err d p herr)⟩

theorem ident_accepted {num role from_ : Nat} (pol : Nat) {lanes : List Word} (both : Bool) (hst : s.dev.portState p = psTrain)
    (hskew : lanes.any (fun w => maxSkewBlocks < getBits w F.FLU_PORT_LANE_SKEW_BLOCKS) = false) (hnone : s.dev.identErr p num role from_ = none) :
    Completes (.ident p num role from_ pol ⟨lanes, both⟩) s (fun e =>
      e.getF (R.FLU_PORT_STATUS p) F.FLU_PORT_STATUS_NEIGHBOUR = num % 2 ^ F.FLU_PORT_STATUS_NEIGHBOUR.width ∧
      (both = true → e.portState p = psActive ∧ (e.port p).identOk = true ∧ e.flag R.FLU_INT_STATUS F.FLU_INT_STATUS_PORT_UP = true) ∧
      (both = false → e.portState p = psTrain ∧ e.flue = s.dev.flue ∧ e.outbox = s.dev.outbox)) := by
  refine completes_canon (f := fun d => d.ident p num role from_ pol lanes both) rfl (fun _ h => h) ?_
  have training := (identShown_state s.dev p num pol lanes).trans hst
  rw [ident_good pol both hst hskew hnone]
  cases both with
  | true =>
    rw [if_pos rfl]
    refine ⟨(portActive_field p.isLt ⟨by decide, by decide⟩).trans (identShown_neighbour s.dev p num pol lanes), fun _ => ?_, nofun⟩
    exact ⟨portActive_state p.isLt, portActive_identOk _ _, portActive_portUp training⟩
  | false =>
    rw [if_neg nofun]
    exact ⟨identShown_neighbour s.dev p num pol lanes, nofun, fun _ => ⟨training, identShown_rest s.dev p num pol lanes⟩⟩

theorem ident_refused {num role from_ : Nat} (pol : Nat) {lanes : List Word} (both : Bool) {err : Nat} (hst : s.dev.portState p = psTrain)
    (hskew : lanes.any (fun w => maxSkewBlocks < getBits w F.FLU_PORT_LANE_SKEW_BLOCKS) = false) (herr : s.dev.identErr p num role from_ = some err) :
    Completes (.ident p num role from_ pol ⟨lanes, both⟩) s (fun e => e.portState p = psError ∧
      e.getF (R.FLU_PORT_STATUS p) F.FLU_PORT_STATUS_ERR = err) := by
  refine completes_canon (f := fun d => d.ident p num role from_ pol lanes both) rfl (fun _ h => h) ?_
  rw [ident_bad pol both hst hskew herr]
  exact trainFails (identErr_lt herr) hst

/-- Lanes with more skew than a receiver takes up leave the training as it was (R324). -/
theorem ident_skewed (hinv : s.Inv) (num role from_ pol : Nat) {lanes : List Word} (both : Bool)
    (hskew : lanes.any (fun w => maxSkewBlocks < getBits w F.FLU_PORT_LANE_SKEW_BLOCKS) = true) :
    exec (.ident p num role from_ pol ⟨lanes, both⟩) s = .next s :=
  exec_eq_self (f := fun d => d.ident p num role from_ pol lanes both) rfl (if_pos (.inr hskew)) hinv

theorem trainTimeout_fails (hst : s.dev.portState p = psTrain) :
    Completes (.trainTimeout p) s (fun e => e.portState p = psError ∧ e.getF (R.FLU_PORT_STATUS p) F.FLU_PORT_STATUS_ERR = 1) := by
  refine completes_canon (f := fun d => d.trainTimeout p) rfl (fun _ h => h) ?_
  rw [Dev.trainTimeout, if_pos hst]
  exact trainFails (by decide) hst

/-! ### Idle and wake -/

theorem portIdleEntry_idles (hst : s.dev.portState p = psActive) (hallowed : s.dev.flag (R.FLU_PORT_CTRL p) F.FLU_PORT_CTRL_IDLE_ALLOWED = true)
    (hqueue : (s.dev.port p).queue = []) (hreplay : (s.dev.port p).replay = []) (hbusy : s.dev.multiBusy = false) :
    Completes (.portIdleEntry p) s (fun e => e.portState p = psIdle ∧ e.flue.ports = s.dev.flue.ports ∧ e.seq = s.dev.seq) := by
  refine completes_canon (f := fun d => d.portIdle p) rfl (fun _ h => h) ?_
  have entered : s.dev.portIdle p = s.dev.portEnter p psIdle := if_pos ⟨hst, hallowed, by rw [hqueue]; rfl, by rw [hreplay]; rfl, hbusy⟩
  have moves : PortMoves s.dev (s.dev.portEnter p psIdle) := portEnter_moves fun h => absurd h.1 (by decide)
  rw [entered]
  exact ⟨portEnter_state p.isLt (by decide), moves.ports, moves.seq⟩

theorem portWake_wakes (hst : s.dev.portState p = psIdle) : Completes (.portWake p) s (fun e => e.portState p = psWake ∧
    e.outbox = s.dev.outbox ++ [.block p .exitBurst] ∧ e.flue.ports = s.dev.flue.ports) := by
  refine completes_canon (f := fun d => d.portWake p) rfl (fun _ h => h) ?_
  have moves : PortMoves s.dev (s.dev.portEnter p psWake) := portEnter_moves fun h => absurd h.1 (by decide)
  have state : (s.dev.portEnter p psWake).portState p = psWake := portEnter_state p.isLt (by decide)
  rw [Dev.portWake, if_pos hst]
  generalize s.dev.portEnter p psWake = e at moves state
  exact ⟨state, by rw [Dev.out, moves.outbox], moves.ports⟩

theorem wakeBurstAligned_active (hst : s.dev.portState p = psWake) : Completes (.wakeBurstAligned p) s (fun e => e.portState p = psActive) := by
  refine completes_canon (f := fun d => d.wakeAligned p) rfl (fun _ h => h) ?_
  rw [Dev.wakeAligned, if_pos hst]
  exact portActive_state p.isLt

theorem wakeTimeout_trains (hst : s.dev.portState p = psWake) :
    Completes (.wakeTimeout p) s (fun e => e.portState p = psTrain ∧ (e.port p).replay = (s.dev.port p).replay) := by
  refine completes_canon (f := fun d => d.wakeTimeout p) rfl (fun _ h => h) ?_
  rw [Dev.wakeTimeout, if_pos hst]
  exact ⟨portTrain_state p.isLt, portTrain_replay _ _⟩

end

end Sys2Proof.Proofs
end

section
/-! PROOFS. Acknowledgement, replay and discards of a Flue port, and READs that time out (spec/12 R323, R329-R332, R338; the LINK block that
acknowledges a packet and returns its space, for one with a bad field too, is the model's choice, log entries 42 and 54). -/

namespace Sys2Proof.Proofs

open Sys2Proof Sys2Proof.Machine

set_option Elab.async false

/-- A meaning that leaves memory in its canonical form leaves the device that it makes. -/
theorem completes_kept {c : Instr} {s : State} {f : Dev → Dev} {P : Dev → Prop} (h : exec c s = s.act f) (hinv : s.Inv)
    (hmem : (f s.dev).mem = s.dev.mem) (hp : P (f s.dev)) : Completes c s P :=
  completes_act h (by rwa [canon_of_wf (hmem.symm ▸ hinv)])

/-! ### Queueing a packet -/

theorem pump_only (d : Dev) (p fuel : Nat) :
    ∃ ports outbox, d.pump p fuel = { d with flue := { d.flue with ports := ports }, outbox := outbox } := by
  induction fuel generalizing d with
  | zero => exact ⟨_, _, rfl⟩
  | succ fuel ih =>
    unfold Dev.pump
    split
    · exact ⟨_, _, rfl⟩
    split
    · exact ⟨_, _, rfl⟩
    dsimp only
    split
    · exact ⟨_, _, rfl⟩
    · obtain ⟨ports, outbox, only⟩ := ih _
      exact ⟨ports, outbox, only⟩

theorem enqueue_only (d : Dev) (p : Nat) (k : Packet) :
    ∃ ports outbox, d.enqueue p k = { d with flue := { d.flue with ports := ports }, outbox := outbox } := pump_only _ p _

theorem enqueue_reg (d : Dev) (p : Nat) (k : Packet) (off : Nat) : (d.enqueue p k).reg off = d.reg off := by
  rw [Dev.reg, enqueue_regs, Dev.reg]

theorem enqueue_reads (d : Dev) (p : Nat) (k : Packet) : (d.enqueue p k).flue.reads = d.flue.reads := by
  obtain ⟨ports, outbox, only⟩ := enqueue_only d p k
  rw [only]

/-- A port with nothing in its queue sends nothing. -/
theorem pump_of_empty {d : Dev} {p : Nat} (h : (d.port p).queue = []) (fuel : Nat) : d.pump p fuel = d := by
  cases fuel with
  | zero => rfl
  | succ fuel =>
    have none : (d.port p).nextOut = none := by simp [FluePort.nextOut, h]
    rw [Dev.pump, none, ite_self]

/-! ### Acknowledgement and replay (R331, R332) -/

section
variable {s : State} {p : Fin 4}

theorem link_acknowledges (ack : Nat) (valid : Bool) (ev rsp req : Nat) (hst : s.dev.portState p = psActive) (hqueue : (s.dev.port p).queue = []) :
    Completes (.link p ack false valid ev rsp req) s (fun e =>
      (e.port p).replay = (if valid then ackDrop (s.dev.port p).replay ack else (s.dev.port p).replay) ∧
      (e.port p).evCr = (s.dev.port p).evCr + ev ∧ (e.port p).rspCr = (s.dev.port p).rspCr + rsp ∧ (e.port p).reqCr = (s.dev.port p).reqCr + req ∧
      e.regs = s.dev.regs) := by
  refine completes_canon (f := fun d => d.link p ack false valid ev rsp req) rfl (fun _ h => h) ?_
  unfold Dev.link
  rw [if_neg (not_not.mpr hst)]
  dsimp only
  rw [if_neg nofun, Bool.or_false, pump_of_empty (by rw [port_modPort_same]; exact hqueue), port_modPort_same]
  exact ⟨rfl, rfl, rfl, rfl, rfl⟩

theorem replayTimeout_resends (hst : s.dev.portState p = psActive) (hreplay : (s.dev.port p).replay ≠ []) (hfew : (s.dev.port p).replays < 8) :
    Completes (.replayTimeout p) s (fun e => e.outbox = s.dev.outbox ++ (s.dev.port p).replay.map (fun x => .packet p x.1 x.2) ∧
      (e.port p).replays = (s.dev.port p).replays + 1 ∧ (e.port p).replay = (s.dev.port p).replay ∧
      e.getF (R.FLU_PORT_ERRORS p) F.FLU_PORT_ERRORS_REPLAYS =
        capAt (s.dev.getF (R.FLU_PORT_ERRORS p) F.FLU_PORT_ERRORS_REPLAYS + 1) (2 ^ F.FLU_PORT_ERRORS_REPLAYS.width - 1)) := by
  refine completes_canon (f := fun d => d.replayTimeout p) rfl (fun _ h => h) ?_
  have port : (s.dev.resend p).port p = { s.dev.port p with replays := (s.dev.port p).replays + 1 } := by
    rw [resend_eq hreplay]
    exact mapGet_mapSet_same _ _ _ _
  have resent : s.dev.replayTimeout p = s.dev.resend p := by
    rw [Dev.replayTimeout, if_pos hst, Dev.replay, if_neg (by simpa using hreplay), if_neg (by omega)]
  rw [resent, port]
  refine ⟨by rw [resend_eq hreplay], rfl, rfl, ?_⟩
  rw [resend_eq hreplay]
  exact getF_bump_same _ _ _ _ (by decide)

theorem replayTimeout_trains (hst : s.dev.portState p = psActive) (hreplay : (s.dev.port p).replay ≠ []) (hmany : 8 ≤ (s.dev.port p).replays) :
    Completes (.replayTimeout p) s (fun e => e.portState p = psTrain ∧ e.getF (R.FLU_PORT_STATUS p) F.FLU_PORT_STATUS_ERR = 3) := by
  refine completes_canon (f := fun d => d.replayTimeout p) rfl (fun _ h => h) ?_
  have trained : s.dev.replayTimeout p = (s.dev.portErr p 3).portTrain p := by
    rw [Dev.replayTimeout, if_pos hst, Dev.replay, if_neg (by simpa using hreplay), if_pos hmany]
  rw [trained]
  exact ⟨portTrain_state p.isLt, (portTrain_err p.isLt).trans (portErr_err _ _ (by decide))⟩

end

/-! ### Packets taken and packets discarded (R323, R329, R330, R332) -/

theorem flueBad_counts (d : Dev) (p : Nat) : CountsBad p d (d.flueBad p) :=
  ⟨getF_bump_same d _ _ 1 (by decide), regsBut_setF d _ _ _⟩

theorem countsBad_of_regs {p : Nat} {d d' e e' : Dev} (h : CountsBad p d e) (hd : d.regs = d'.regs) (he : e.regs = e'.regs) : CountsBad p d' e' := by
  have before : ∀ off, d.reg off = d'.reg off := fun off => by rw [Dev.reg, hd, Dev.reg]
  have after : ∀ off, e.reg off = e'.reg off := fun off => by rw [Dev.reg, he, Dev.reg]
  refine ⟨?_, fun off hoff => ?_⟩
  · rw [getF_eq_of_reg _ (after _).symm, getF_eq_of_reg _ (before _).symm]
    exact h.1
  · rw [← after, ← before]
    exact h.2 off hoff

/-- What the LINK block of a packet taken returns: its blocks as credits of its class. -/
def creditFor (k : Packet) (c : PktClass) : Nat := if k.cls = c then k.blocks else 0

/-- The device in which a port has taken a packet and acknowledged it. -/
def linkTaken (d : Dev) (p : Nat) (k : Packet) : Dev :=
  (d.modPort p (fun q => { q with rxSeq := ((d.port p).rxSeq + 1) % 4096 })).out
    (.block p (.link (d.port p).rxSeq false true (creditFor k .ev) (creditFor k .rsp) (creditFor k .req)))

theorem linkTake_active {d : Dev} {p : Nat} (k : Packet) (h : d.portState p = psActive) : d.linkTake p k = some (linkTaken d p k) := by
  rw [Dev.linkTake, if_neg (not_not.mpr h)]
  rfl

theorem creditFor_total (k : Packet) : creditFor k .ev + creditFor k .rsp + creditFor k .req = k.blocks := by
  cases h : k.cls <;> simp [creditFor, h]

theorem linkTaken_rxSeq (d : Dev) (p : Nat) (k : Packet) : ((linkTaken d p k).port p).rxSeq = ((d.port p).rxSeq + 1) % 4096 :=
  congrArg FluePort.rxSeq (port_modPort_same d p fun q => { q with rxSeq := ((d.port p).rxSeq + 1) % 4096 })

theorem packetDiscard_unknown {d : Dev} {p : Nat} (hst : d.portState p = psActive) {t : Nat} (h : Nat) (bs : List FlueBlock)
    (htype : blockTypes.contains t = false) : d.packetDiscard p (.ctl t h :: bs) = d.flueBad p := by
  rw [Dev.packetDiscard, if_neg (not_not.mpr hst)]
  dsimp only
  rw [if_pos (by rw [htype]; rfl)]

section
variable {s : State} {p : Fin 4}

theorem discard_unknown (hinv : s.Inv) (hst : s.dev.portState p = psActive) {t : Nat} (h : Nat) (bs : List FlueBlock)
    (htype : blockTypes.contains t = false) :
    Completes (.fluePacketDiscard p (.ctl t h :: bs)) s (fun e => CountsBad p s.dev e ∧ OnlyRegs s.dev e) := by
  refine completes_kept (f := fun d => d.packetDiscard p (.ctl t h :: bs)) rfl hinv ?_ ?_ <;> rw [packetDiscard_unknown hst h bs htype]
  · rfl
  · exact ⟨flueBad_counts _ _, rfl⟩

/-- A packet that is not the expected one, or that the wire spoilt, is counted and answered with NAK. -/
theorem packetDiscard_nak {d : Dev} {p : Nat} (hst : d.portState p = psActive) {h : Nat} {bs : List FlueBlock}
    (hbad : readWire (.ctl btStart h :: bs) = none ∨ ∃ k seq crcOk lenOk, readWire (.ctl btStart h :: bs) = some (k, seq, crcOk, lenOk) ∧
      (crcOk = false ∨ seq ≠ (d.port p).rxSeq)) :
    d.packetDiscard p (.ctl btStart h :: bs) =
      (d.flueBad p).out (.block p (.link (((d.port p).rxSeq + 4095) % 4096) true false 0 0 0)) := by
  rw [Dev.packetDiscard, if_neg (not_not.mpr hst)]
  dsimp only
  rw [if_neg (by decide), if_neg (by decide)]
  rcases hbad with hnone | ⟨k, seq, crcOk, lenOk, hsome, hspoilt⟩
  · rw [hnone]
  · rw [hsome]
    dsimp only
    rw [if_pos (by rcases hspoilt with h | h <;> simp [h])]

theorem discard_spoilt (hinv : s.Inv) (hst : s.dev.portState p = psActive) {h : Nat} {bs : List FlueBlock}
    (hbad : readWire (.ctl btStart h :: bs) = none ∨ ∃ k seq crcOk lenOk, readWire (.ctl btStart h :: bs) = some (k, seq, crcOk, lenOk) ∧
      (crcOk = false ∨ seq ≠ (s.dev.port p).rxSeq)) :
    Completes (.fluePacketDiscard p (.ctl btStart h :: bs)) s (fun e => CountsBad p s.dev e ∧
      e.outbox = s.dev.outbox ++ [.block p (.link (((s.dev.port p).rxSeq + 4095) % 4096) true false 0 0 0)] ∧
      e = { s.dev with regs := e.regs, outbox := e.outbox }) := by
  refine completes_kept (f := fun d => d.packetDiscard p (.ctl btStart h :: bs)) rfl hinv ?_ ?_ <;> rw [packetDiscard_nak hst hbad]
  · rfl
  · exact ⟨countsBad_of_regs (flueBad_counts s.dev p) rfl rfl, rfl, rfl⟩

/-- A good packet whose TYPE or fields R330 does not have is acknowledged, its credits returned, and counted (log entries 42 and 54). -/
theorem packetDiscard_taken {d : Dev} {p : Nat} (hst : d.portState p = psActive) {h : Nat} {bs : List FlueBlock} {k : Packet} {lenOk : Bool}
    (hread : readWire (.ctl btStart h :: bs) = some (k, (d.port p).rxSeq, true, lenOk)) (hbad : lenOk = false ∨ k.fieldsOk = false) :
    d.packetDiscard p (.ctl btStart h :: bs) = (linkTaken d p k).flueBad p := by
  rw [Dev.packetDiscard, if_neg (not_not.mpr hst)]
  dsimp only
  rw [if_neg (by decide), if_neg (by decide), hread]
  dsimp only
  rw [if_neg (by simp), if_neg (by rcases hbad with h | h <;> simp [h]), linkTake_active k hst]

theorem discard_badFields (hinv : s.Inv) (hst : s.dev.portState p = psActive) {h : Nat} {bs : List FlueBlock} {k : Packet} {lenOk : Bool}
    (hread : readWire (.ctl btStart h :: bs) = some (k, (s.dev.port p).rxSeq, true, lenOk)) (hbad : lenOk = false ∨ k.fieldsOk = false) :
    Completes (.fluePacketDiscard p (.ctl btStart h :: bs)) s (fun e => CountsBad p s.dev e ∧
      (e.port p).rxSeq = ((s.dev.port p).rxSeq + 1) % 4096 ∧
      (∃ ev rsp req, e.outbox = s.dev.outbox ++ [.block p (.link (s.dev.port p).rxSeq false true ev rsp req)] ∧ ev + rsp + req = k.blocks) ∧
      e.mem = s.dev.mem ∧ e.seq = s.dev.seq) := by
  refine completes_kept (f := fun d => d.packetDiscard p (.ctl btStart h :: bs)) rfl hinv ?_ ?_ <;> rw [packetDiscard_taken hst hread hbad]
  · rfl
  · exact ⟨countsBad_of_regs (flueBad_counts (linkTaken s.dev p k) p) rfl rfl, linkTaken_rxSeq s.dev p k,
      ⟨_, _, _, rfl, creditFor_total k⟩, rfl, rfl⟩

end

/-! ### READs that time out (R338, R361) -/

theorem raccEnd_busy (d : Dev) (status : Nat) : (d.raccEnd status).getF R.FLU_RACC_CTRL F.FLU_RACC_CTRL_BUSY = 0 := by
  rw [Dev.raccEnd, getF_setF_disjoint _ _ _ _ _ (by decide) (by decide), getF_setF_same _ _ _ _ (by decide)]
  rfl

theorem raccEnd_status (d : Dev) {status : Nat} (h : status < 8) : (d.raccEnd status).getF R.FLU_RACC_CTRL F.FLU_RACC_CTRL_STATUS = status := by
  rw [Dev.raccEnd, getF_setF_same _ _ _ _ (by decide)]
  exact Nat.mod_eq_of_lt h

theorem raccEnd_regsBut (d : Dev) (status : Nat) : RegsBut [R.FLU_RACC_CTRL] d (d.raccEnd status) :=
  regsBut_trans (regsBut_setF d _ _ _) (regsBut_setF _ _ _ _)

/-- The FLUE_DMA of a ring that ends leaves a completion with the bytes moved. -/
theorem dmaEnd_ends {d : Dev} {n : Nat} {q : Desc} (h : (d.ring n).current = some q) (status : Nat) :
    DmaEnds n q status (d.ring n).dmaMoved d (d.dmaEnd n status) := by
  have ended : d.dmaEnd n status = (d.endCurrent n).complete n q status (d.ring n).dmaMoved := by
    rw [Dev.dmaEnd, h]
  rw [ended, DmaEnds, complete_ring, Dev.endCurrent, ring_modRing_same]
  exact ⟨rfl, rfl⟩

theorem dmaEnd_only (d : Dev) (n status : Nat) : ∃ rings, d.dmaEnd n status = { d with rings := rings } := by
  unfold Dev.dmaEnd
  split
  · exact ⟨_, rfl⟩
  · exact ⟨_, rfl⟩

/-- The device in which no READ has a tag. -/
def readGone (d : Dev) (tag : Nat) : Dev := { d with flue := { d.flue with reads := d.flue.reads.filter (fun x => x.1 != tag) } }

section
variable {s : State} {tag : Fin 1024}

theorem rspTimeout_eq {f : ReadFor} (h : mapFind s.dev.flue.reads tag = some f) : s.dev.rspTimeout tag = s.dev.readTimeout tag f := by
  rw [Dev.rspTimeout, h]

theorem rspTimeout_racc (hinv : s.Inv) {dest high : Nat} (h : mapFind s.dev.flue.reads tag = some (.racc dest high)) :
    Completes (.rspTimeout tag) s (fun e => e.getF R.FLU_RACC_CTRL F.FLU_RACC_CTRL_BUSY = 0 ∧ e.getF R.FLU_RACC_CTRL F.FLU_RACC_CTRL_STATUS = 4 ∧
      e.flue.reads = s.dev.flue.reads.filter (fun x => x.1 != tag.val) ∧
      e = { s.dev with regs := e.regs, flue := { s.dev.flue with reads := e.flue.reads } } ∧ RegsBut [R.FLU_RACC_CTRL] s.dev e) := by
  have ended : s.dev.readTimeout tag (.racc dest high) = (readGone s.dev tag).raccEnd 4 := rfl
  refine completes_kept (f := fun d => d.rspTimeout tag) rfl hinv ?_ ?_ <;> rw [rspTimeout_eq h, ended]
  · rfl
  · exact ⟨raccEnd_busy _ _, raccEnd_status _ (by decide), rfl, rfl, raccEnd_regsBut (readGone s.dev tag) 4⟩

theorem rspTimeout_dma {n dest : Nat} {q : Desc} (h : mapFind s.dev.flue.reads tag = some (.dma n dest))
    (hq : (s.dev.ring n).current = some q) :
    Completes (.rspTimeout tag) s (fun e => DmaEnds n q stLate (s.dev.ring n).dmaMoved s.dev e ∧
      e.flue.reads = s.dev.flue.reads.filter (fun x => x.1 != tag.val) ∧ e.regs = s.dev.regs) := by
  refine completes_canon (f := fun d => d.rspTimeout tag) rfl (fun _ h => h) ?_
  have ended : s.dev.readTimeout tag (.dma n dest) = (readGone s.dev tag).dmaEnd n stLate := rfl
  have ends : DmaEnds n q stLate (s.dev.ring n).dmaMoved s.dev ((readGone s.dev tag).dmaEnd n stLate) :=
    dmaEnd_ends (d := readGone s.dev tag) hq stLate
  obtain ⟨rings, only⟩ := dmaEnd_only (readGone s.dev tag) n stLate
  rw [rspTimeout_eq h, ended]
  exact ⟨ends, by rw [only]; rfl, by rw [only]; rfl⟩

end

end Sys2Proof.Proofs
end

section
/-! PROOFS. Routes, and the remote register access of the Flue (spec/12 R335, R338; that half of a block is named by the byte enables is the model's
reading, log entry 43). -/

namespace Sys2Proof.Proofs

open Sys2Proof Sys2Proof.Machine

set_option Elab.async false

theorem raccEnd_flue (d : Dev) (status : Nat) : (d.raccEnd status).flue = d.flue := rfl

/-! ### Routes (R335) -/

/-- A route follows the device's place, which ports may send and which devices are present. -/
theorem route_congr {d e : Dev} (hnum : e.deviceNum = d.deviceNum) (hup : ∀ p, e.portUp p = d.portUp p) (hjoined : e.flue.joined = d.flue.joined)
    (hpresent : ∀ i, i < 4 → e.reg (R.FLU_TREE_PRESENT i) = d.reg (R.FLU_TREE_PRESENT i)) (dest : Nat) : e.route dest = d.route dest := by
  have present : ∀ x, e.present x = d.present x := fun x => by
    unfold Dev.present
    rw [hnum]
    by_cases hx : x < 121
    · rw [bitOf_eq_of_reg _ (hpresent (x / 32) (by omega))]
    · simp only [hx, decide_false, Bool.false_and]
  simp only [Dev.route, Dev.isManager, hnum, hup, hjoined, present]
  rfl

theorem route_destAll (d : Dev) (p : Nat) : d.route destAll ≠ .port p := by
  unfold Dev.route
  dsimp only
  split
  · nofun
  · rw [if_pos (by decide)]
    nofun

/-- A packet that has a route is queued on its port. -/
theorem sendPacket_routed {d : Dev} {k : Packet} {p : Nat} (h : d.route k.dest = .port p) : d.sendPacket k = d.enqueue p k := by
  have single : k.dest ≠ destAll := fun e => route_destAll d p (e ▸ h)
  rw [Dev.sendPacket, if_neg single, h]

/-! ### FLU_RACC (R338) -/

/-- The row of FLU_RACC_CTRL. -/
def raccCtrlRow : RDesc :=
  ⟨0xa0040, [], [⟨31, 1, .ro, 0, false⟩, ⟨30, 1, .wo, 0, false⟩, ⟨29, 1, .rw, 0, false⟩, ⟨24, 3, .ro, 0, false⟩, ⟨8, 7, .rw, 0, false⟩]⟩

theorem raccCtrlRow_mem : raccCtrlRow ∈ regTable := by decide +kernel

theorem regRow_raccCtrl : regRow R.FLU_RACC_CTRL = some raccCtrlRow := by decide +kernel

theorem regCanon_raccCtrl : regCanon R.FLU_RACC_CTRL = R.FLU_RACC_CTRL := by decide +kernel

/-- FLU_RACC_CTRL takes the word as it is written. -/
theorem flueNorm_raccCtrl (w : Word) : flueNorm R.FLU_RACC_CTRL w = w := rfl

/-- A write of it with GO starts an access. -/
theorem flueEffect_go (d : Dev) {w : Word} (h : getBits w F.FLU_RACC_CTRL_GO = 1) : d.flueEffect R.FLU_RACC_CTRL w = d.raccGo := by
  have port : fluePort R.FLU_RACC_CTRL = none := by decide
  rw [Dev.flueEffect, port]
  exact if_pos ⟨rfl, h⟩

/-- A field that only the device writes is left as it was (R10). -/
theorem getBits_store_ro {r : RDesc} (hr : r ∈ regTable) {f : RField} (hf : f ∈ r.fields) (hro : f.ty = .ro) (old w : Word) :
    getBits (r.store old w) ⟨f.lsb, f.width⟩ = getBits old ⟨f.lsb, f.width⟩ := by
  obtain ⟨acc, hacc, hstore⟩ := getBits_store hr hf old w
  rw [hstore, ← hacc, RField.store, hro]

section
variable (d : Dev) (o : Origin) (w : Word)

/-- The device in which a write of FLU_RACC_CTRL with GO is stored. -/
def raccStored : Dev := flueStored d o R.FLU_RACC_CTRL raccCtrlRow (setBits w F.FLU_RACC_CTRL_GO 1)

theorem raccStored_regsBut : RegsBut [R.FLU_RACC_CTRL] d (raccStored d o w) := flueStored_regsBut _ _ _ _ _

theorem raccStored_flue : (raccStored d o w).flue = d.flue := flueStored_flue _ _ _ _ _

/-- The fields that name the access are stored as written. -/
theorem raccStored_field {f : RField} (hf : f ∈ raccCtrlRow.fields) (hrw : f.ty = .rw) (hbits : f.lsb + f.width ≤ 30) :
    (raccStored d o w).getF R.FLU_RACC_CTRL ⟨f.lsb, f.width⟩ = getBits w ⟨f.lsb, f.width⟩ := by
  rw [raccStored, flueStored_field raccCtrlRow_mem hf hrw, flueNorm_raccCtrl]
  exact getBits_setBits_other w _ _ 1 (by simp only; omega) (.inr hbits)

theorem raccStored_busy : (raccStored d o w).getF R.FLU_RACC_CTRL F.FLU_RACC_CTRL_BUSY = d.getF R.FLU_RACC_CTRL F.FLU_RACC_CTRL_BUSY := by
  rw [Dev.getF, raccStored, flueStored, reg_setReg_same]
  exact getBits_store_ro raccCtrlRow_mem (f := ⟨31, 1, .ro, 0, false⟩) (by decide) rfl _ _

variable {d o w}

theorem writeReg_raccGo (h : Accepts d o R.FLU_RACC_CTRL (setBits w F.FLU_RACC_CTRL_GO 1)) :
    d.writeReg o.id R.FLU_RACC_CTRL (setBits w F.FLU_RACC_CTRL_GO 1) = (raccStored d o w).raccGo := by
  rw [writeReg_flue regRow_raccCtrl regCanon_raccCtrl (by decide) h, flueNorm_raccCtrl,
    flueEffect_go _ (getBits_setBits_same _ _ 1 (by decide))]
  rfl

end

/-- A register other than FLU_RACC_CTRL decides a route. -/
theorem route_of_raccCtrl {d e : Dev} (h : RegsBut [R.FLU_RACC_CTRL] d e) (hports : e.flue.ports = d.flue.ports)
    (hjoined : e.flue.joined = d.flue.joined) (dest : Nat) : e.route dest = d.route dest := by
  have other : ∀ off, off ≠ R.FLU_RACC_CTRL → e.reg off = d.reg off := fun off ho => h off fun hmem => ho (List.mem_singleton.mp hmem)
  refine route_congr (getF_eq_of_reg _ (other _ (by decide))) (fun p => portUp_congr (other _ ?_) ?_) hjoined (fun i hi => other _ ?_) dest
  · simp only [R.FLU_PORT_STATUS, R.FLU_RACC_CTRL]
    omega
  · rw [Dev.port, hports, Dev.port]
  · simp only [R.FLU_TREE_PRESENT, R.FLU_RACC_CTRL]
    omega

theorem raccAddr_congr {d e : Dev} (h : RegsBut [R.FLU_RACC_CTRL] d e) : e.raccAddr = d.raccAddr := by
  rw [Dev.raccAddr, h _ (by decide), getF_of_regsBut h _ (by decide), Dev.raccAddr]

section
variable {d : Dev} {q : Nat}

/-- The packet with which FLU_RACC asks for a register, or sends it: half of an 8-byte block, named by the byte enables (log entry 43). -/
def raccPacket (d : Dev) (type dest tag arg : Nat) (payload : List Nat) : Packet :=
  ⟨type, dest, d.deviceNum, tag, if d.raccAddr / 4 % 2 = 1 then 0xF0 else 0x0F, arg, d.raccAddr - 4 * (d.raccAddr / 4 % 2), payload⟩

theorem raccGo_unrouted (hfree : d.flag R.FLU_RACC_CTRL F.FLU_RACC_CTRL_BUSY = false)
    (hroute : ∀ q, d.route (d.getF R.FLU_RACC_CTRL F.FLU_RACC_CTRL_DEST) ≠ .port q) : d.raccGo = d.raccEnd 2 := by
  unfold Dev.raccGo
  rw [if_neg (by rw [hfree]; nofun)]
  dsimp only
  split
  · next route => exact absurd route (hroute _)
  · rfl

theorem raccGo_write (hfree : d.flag R.FLU_RACC_CTRL F.FLU_RACC_CTRL_BUSY = false)
    (hroute : d.route (d.getF R.FLU_RACC_CTRL F.FLU_RACC_CTRL_DEST) = .port q) (hwrite : d.getF R.FLU_RACC_CTRL F.FLU_RACC_CTRL_WRITE = 1) :
    d.raccGo = (d.enqueue q (raccPacket d ptWrite (d.getF R.FLU_RACC_CTRL F.FLU_RACC_CTRL_DEST) 0 0
      [(d.reg R.FLU_RACC_DATA).toNat * 2 ^ (32 * (d.raccAddr / 4 % 2))])).raccEnd 0 := by
  unfold Dev.raccGo
  rw [if_neg (by rw [hfree]; nofun)]
  dsimp only
  rw [hroute]
  dsimp only
  rw [if_pos (flag_of_getF hwrite), sendPacket_routed hroute]
  rfl

theorem raccGo_read (hfree : d.flag R.FLU_RACC_CTRL F.FLU_RACC_CTRL_BUSY = false)
    (hroute : d.route (d.getF R.FLU_RACC_CTRL F.FLU_RACC_CTRL_DEST) = .port q) (hread : d.getF R.FLU_RACC_CTRL F.FLU_RACC_CTRL_WRITE = 0) :
    d.raccGo = (d.setF R.FLU_RACC_CTRL F.FLU_RACC_CTRL_BUSY 1).issueRead (d.getF R.FLU_RACC_CTRL F.FLU_RACC_CTRL_DEST)
      (d.raccAddr - 4 * (d.raccAddr / 4 % 2)) 1 (if d.raccAddr / 4 % 2 = 1 then 0xF0 else 0x0F)
      (.racc (d.getF R.FLU_RACC_CTRL F.FLU_RACC_CTRL_DEST) (d.raccAddr / 4 % 2)) := by
  unfold Dev.raccGo
  rw [if_neg (by rw [hfree]; nofun)]
  dsimp only
  rw [hroute]
  dsimp only
  rw [if_neg (by rw [Dev.flag, hread]; nofun)]

/-- The device in which a READ has taken its tag. -/
def readTagged (d : Dev) (purpose : ReadFor) : Dev :=
  { d with flue := { d.flue with nextTag := d.flue.nextTag % 1023 + 1, reads := d.flue.reads ++ [(d.flue.nextTag, purpose)] } }

theorem readTagged_reg (d : Dev) (purpose : ReadFor) (off : Nat) : (readTagged d purpose).reg off = d.reg off := by
  unfold Dev.reg readTagged
  rfl

theorem readTagged_route (d : Dev) (purpose : ReadFor) (dest : Nat) : (readTagged d purpose).route dest = d.route dest :=
  route_congr rfl (fun _ => rfl) rfl (fun _ _ => rfl) dest

/-- A READ that has a route waits for its response, and its packet is queued. -/
theorem issueRead_routed {dest : Nat} (a blocks be : Nat) (purpose : ReadFor) (h : d.route dest = .port q) :
    d.issueRead dest a blocks be purpose = (readTagged d purpose).enqueue q ⟨ptRead, dest, d.deviceNum, d.flue.nextTag, be, blocks, a, []⟩ :=
  sendPacket_routed (d := readTagged d purpose) ((readTagged_route d purpose dest).trans h)

end

section
variable {s : State} {o : Origin} {w : Word}

theorem fluRaccGo_unrouted (h : Accepts s.dev o R.FLU_RACC_CTRL (setBits w F.FLU_RACC_CTRL_GO 1))
    (hfree : s.dev.flag R.FLU_RACC_CTRL F.FLU_RACC_CTRL_BUSY = false) (hroute : ∀ q, s.dev.route (getBits w F.FLU_RACC_CTRL_DEST) ≠ .port q) :
    Completes (.fluRaccGo o w) s (fun e => e.getF R.FLU_RACC_CTRL F.FLU_RACC_CTRL_BUSY = 0 ∧
      e.getF R.FLU_RACC_CTRL F.FLU_RACC_CTRL_STATUS = 2 ∧ e.flue = s.dev.flue) := by
  refine completes_canon (f := fun d => d.writeReg o.id R.FLU_RACC_CTRL (setBits w F.FLU_RACC_CTRL_GO 1)) rfl (fun _ h => h) ?_
  have dest : (raccStored s.dev o w).getF R.FLU_RACC_CTRL F.FLU_RACC_CTRL_DEST = getBits w F.FLU_RACC_CTRL_DEST :=
    raccStored_field s.dev o w (f := ⟨8, 7, .rw, 0, false⟩) (by decide) rfl (by decide)
  have flue := raccStored_flue s.dev o w
  rw [writeReg_raccGo h, raccGo_unrouted]
  · exact ⟨raccEnd_busy _ _, raccEnd_status _ (by decide), (raccEnd_flue _ _).trans flue⟩
  · rw [Dev.flag, raccStored_busy]
    exact hfree
  · rw [dest]
    exact fun q => (route_of_raccCtrl (raccStored_regsBut s.dev o w) (by rw [flue]) (by rw [flue]) _).trans_ne (hroute q)

variable {q : Nat} (h : Accepts s.dev o R.FLU_RACC_CTRL (setBits w F.FLU_RACC_CTRL_GO 1))
  (hfree : s.dev.flag R.FLU_RACC_CTRL F.FLU_RACC_CTRL_BUSY = false) (hroute : s.dev.route (getBits w F.FLU_RACC_CTRL_DEST) = .port q)
include h hfree hroute

theorem fluRaccGo_reads {dest high : Nat} (hdest : dest = getBits w F.FLU_RACC_CTRL_DEST) (hhigh : high = s.dev.raccAddr / 4 % 2)
    (hread : getBits w F.FLU_RACC_CTRL_WRITE = 0) :
    Completes (.fluRaccGo o w) s (fun e => e.getF R.FLU_RACC_CTRL F.FLU_RACC_CTRL_BUSY = 1 ∧
      e.flue.reads = s.dev.flue.reads ++ [(s.dev.flue.nextTag, .racc dest high)] ∧
      Sent q ⟨ptRead, dest, s.dev.deviceNum, s.dev.flue.nextTag, (if high = 1 then 0xF0 else 0x0F), 1, s.dev.raccAddr - 4 * high, []⟩ e) := by
  subst hdest hhigh
  refine completes_canon (f := fun d => d.writeReg o.id R.FLU_RACC_CTRL (setBits w F.FLU_RACC_CTRL_GO 1)) rfl (fun _ h => h) ?_
  have regs := raccStored_regsBut s.dev o w
  have flue := raccStored_flue s.dev o w
  have dest : (raccStored s.dev o w).getF R.FLU_RACC_CTRL F.FLU_RACC_CTRL_DEST = getBits w F.FLU_RACC_CTRL_DEST :=
    raccStored_field s.dev o w (f := ⟨8, 7, .rw, 0, false⟩) (by decide) rfl (by decide)
  have write : (raccStored s.dev o w).getF R.FLU_RACC_CTRL F.FLU_RACC_CTRL_WRITE = getBits w F.FLU_RACC_CTRL_WRITE :=
    raccStored_field s.dev o w (f := ⟨29, 1, .rw, 0, false⟩) (by decide) rfl (by decide)
  have busy := raccStored_busy s.dev o w
  rw [writeReg_raccGo h]
  generalize raccStored s.dev o w = e at regs flue dest write busy
  have routed : ∀ e' : Dev, RegsBut [R.FLU_RACC_CTRL] e e' → e'.flue.ports = e.flue.ports → e'.flue.joined = e.flue.joined →
      e'.route (getBits w F.FLU_RACC_CTRL_DEST) = .port q := fun e' hr hp hj =>
    (route_of_raccCtrl (regsBut_trans regs hr) (hp.trans (by rw [flue])) (hj.trans (by rw [flue])) _).trans hroute
  have addr := raccAddr_congr regs
  have route : e.route (e.getF R.FLU_RACC_CTRL F.FLU_RACC_CTRL_DEST) = .port q := by
    rw [dest]
    exact routed e (fun _ _ => rfl) rfl rfl
  have free : e.flag R.FLU_RACC_CTRL F.FLU_RACC_CTRL_BUSY = false := by
    rw [Dev.flag, busy]
    exact hfree
  rw [raccGo_read free route (write.trans hread), dest, addr]
  have num : (e.setF R.FLU_RACC_CTRL F.FLU_RACC_CTRL_BUSY 1).deviceNum = s.dev.deviceNum :=
    getF_of_regsBut (regsBut_trans regs (regsBut_setF _ _ _ _)) _ (by decide)
  have shown : (e.setF R.FLU_RACC_CTRL F.FLU_RACC_CTRL_BUSY 1).getF R.FLU_RACC_CTRL F.FLU_RACC_CTRL_BUSY = 1 :=
    getF_setF_same e _ _ 1 (by decide)
  have set := regsBut_setF e R.FLU_RACC_CTRL F.FLU_RACC_CTRL_BUSY 1
  have flue' : (e.setF R.FLU_RACC_CTRL F.FLU_RACC_CTRL_BUSY 1).flue = e.flue := setF_flue _ _ _ _
  generalize e.setF R.FLU_RACC_CTRL F.FLU_RACC_CTRL_BUSY 1 = e' at num shown set flue' ⊢
  rw [issueRead_routed _ _ _ _ (routed e' set (congrArg Flue.ports flue') (congrArg Flue.joined flue')), num, flue', flue]
  refine ⟨?_, ?_, Sends.sent_enqueue _ _ _⟩
  · rw [getF_eq_of_reg _ ((enqueue_reg (readTagged e' _) q _ _).trans (readTagged_reg e' _ _)), shown]
  · rw [enqueue_reads, readTagged, flue', flue]

theorem fluRaccGo_writes {dest high : Nat} (hdest : dest = getBits w F.FLU_RACC_CTRL_DEST) (hhigh : high = s.dev.raccAddr / 4 % 2)
    (hwrite : getBits w F.FLU_RACC_CTRL_WRITE = 1) :
    Completes (.fluRaccGo o w) s (fun e => e.getF R.FLU_RACC_CTRL F.FLU_RACC_CTRL_BUSY = 0 ∧
      e.getF R.FLU_RACC_CTRL F.FLU_RACC_CTRL_STATUS = 0 ∧ e.flue.reads = s.dev.flue.reads ∧
      Sent q ⟨ptWrite, dest, s.dev.deviceNum, 0, (if high = 1 then 0xF0 else 0x0F), 0, s.dev.raccAddr - 4 * high,
        [(s.dev.reg R.FLU_RACC_DATA).toNat * 2 ^ (32 * high)]⟩ e) := by
  subst hdest hhigh
  refine completes_canon (f := fun d => d.writeReg o.id R.FLU_RACC_CTRL (setBits w F.FLU_RACC_CTRL_GO 1)) rfl (fun _ h => h) ?_
  have regs := raccStored_regsBut s.dev o w
  have flue := raccStored_flue s.dev o w
  have dest : (raccStored s.dev o w).getF R.FLU_RACC_CTRL F.FLU_RACC_CTRL_DEST = getBits w F.FLU_RACC_CTRL_DEST :=
    raccStored_field s.dev o w (f := ⟨8, 7, .rw, 0, false⟩) (by decide) rfl (by decide)
  have write : (raccStored s.dev o w).getF R.FLU_RACC_CTRL F.FLU_RACC_CTRL_WRITE = getBits w F.FLU_RACC_CTRL_WRITE :=
    raccStored_field s.dev o w (f := ⟨29, 1, .rw, 0, false⟩) (by decide) rfl (by decide)
  have busy := raccStored_busy s.dev o w
  rw [writeReg_raccGo h]
  generalize raccStored s.dev o w = e at regs flue dest write busy
  have routed : e.route (getBits w F.FLU_RACC_CTRL_DEST) = .port q :=
    (route_of_raccCtrl regs (by rw [flue]) (by rw [flue]) _).trans hroute
  have addr := raccAddr_congr regs
  have num : e.deviceNum = s.dev.deviceNum := getF_of_regsBut regs _ (by decide)
  rw [raccGo_write (by rw [Dev.flag, busy]; exact hfree) ((congrArg _ dest).trans routed) (write.trans hwrite), raccPacket, dest, addr, num,
    regs _ (by decide : R.FLU_RACC_DATA ∉ [R.FLU_RACC_CTRL])]
  refine ⟨raccEnd_busy _ _, raccEnd_status _ (by decide), ?_, sent_congr rfl rfl (Sends.sent_enqueue _ _ _)⟩
  rw [raccEnd_flue, enqueue_reads, flue]

end

end Sys2Proof.Proofs
end

section
/-! PROOFS. The join and the skew measurement of the Flue (spec/12 R336, R348, R349, spec/19 R488; log entries 40 and 118 are the model's
choices). -/

namespace Sys2Proof.Proofs

open Sys2Proof Sys2Proof.Machine

set_option Elab.async false

/-! ### The join (R336) -/

/-- A bit that is clear is set by adding its weight. -/
theorem add_two_pow_eq {m i : Nat} (h : m / 2 ^ i % 2 = 0) : m + 2 ^ i = natSetField m ⟨i, 1⟩ 1 := by
  have low := Nat.div_add_mod m (2 ^ i)
  have high := Nat.div_add_mod (m / 2 ^ i) 2
  rw [Nat.div_div_eq_div_mul, h, Nat.add_zero] at high
  rw [← high] at low
  have shifted : 2 ^ i * (2 * (m / (2 ^ i * 2))) = m / (2 ^ i * 2) * (2 ^ i * 2) := by ring
  simp only [natSetField, pow_succ, pow_zero, Nat.one_mul]
  omega

theorem tbit_add_two_pow {m i : Nat} (h : tbit m i = false) (k : Nat) : tbit (m + 2 ^ i) k = (tbit m k || k == i) := by
  have clear : m / 2 ^ i % 2 = 0 := by
    simp only [tbit, beq_eq_false_iff_ne] at h
    omega
  rw [tbit_eq_testBit, tbit_eq_testBit, add_two_pow_eq clear, testBit_natSetField]
  by_cases hk : k = i
  · rw [if_pos (by simp only; omega), hk, Nat.sub_self, beq_self_eq_true, Bool.or_true]
    rfl
  · rw [if_neg (by simp only; omega), beq_false_of_ne hk, Bool.or_false]

/-- A bit of a mask is set for the positions listed. -/
theorem tbit_maskOf (l : List Nat) (k : Nat) : tbit (maskOf l) k = l.contains k := by
  have all : ∀ m : Nat, tbit (l.foldl (fun m i => if tbit m i then m else m + 2 ^ i) m) k = (tbit m k || l.contains k) := by
    induction l with
    | nil => simp
    | cons i t ih =>
      intro m
      rw [List.foldl_cons, ih, List.contains_cons, ← Bool.or_assoc]
      congr 1
      split
      · next set =>
        by_cases hk : k = i
        · rw [hk, set]
          rfl
        · rw [beq_false_of_ne hk, Bool.or_false]
      · next clear => exact tbit_add_two_pow (Bool.eq_false_iff.mpr clear) k
  refine (all 0).trans ?_
  simp [tbit]

/-- The device in which the manager has fixed FLU_TREE_PRESENT. -/
def treeShown (d : Dev) (m : Nat) : Dev :=
  (List.range 4).foldl (fun (d : Dev) i => d.setReg (R.FLU_TREE_PRESENT i) (BitVec.ofNat 32 (m / 2 ^ (32 * i)))) d

theorem treeShown_bit (d : Dev) (m : Nat) {k : Nat} (hk : k < 32) : (treeShown d m).bitOf (R.FLU_TREE_PRESENT 0) k = tbit m k := by
  have first : (treeShown d m).reg (R.FLU_TREE_PRESENT 0) = BitVec.ofNat 32 (m / 2 ^ (32 * 0)) := by
    show ((((d.setReg (R.FLU_TREE_PRESENT 0) _).setReg (R.FLU_TREE_PRESENT 1) _).setReg (R.FLU_TREE_PRESENT 2) _).setReg
      (R.FLU_TREE_PRESENT 3) _).reg (R.FLU_TREE_PRESENT 0) = _
    rw [reg_setReg_other _ _ _ _ (by decide), reg_setReg_other _ _ _ _ (by decide), reg_setReg_other _ _ _ _ (by decide), reg_setReg_same]
  rw [Dev.bitOf, Dev.getF, first, getBits_ofNat _ (by simp only; omega), natField, tbit]
  simp

/-- Whether the manager counts a device that is itself or next to it: one that the profile lists, that can be reached over an ACTIVE port. -/
def nearJoined (d : Dev) (reach : List Nat) (k : Nat) : Bool :=
  k == 0 || (d.board.profile.tree.contains k && reach.contains k && d.portState k == psActive)

/-- What the manager counts once it has come to a device. -/
def joinStep (d : Dev) (reach acc : List Nat) (x : Nat) : List Nat :=
  let listed := fun x => d.board.profile.tree.contains x && reach.contains x
  if x = 0 then acc ++ [0]
  else if x ≤ 3 then (if listed x && d.portState x == psActive then acc ++ [x] else acc)
  else if listed x && acc.contains ((x - 1) / 3) then acc ++ [x] else acc

/-- The devices that the manager counts, in the order of their numbers. -/
def joinedDevices (d : Dev) (reach : List Nat) : List Nat := (List.range 121).foldl (joinStep d reach) []

theorem joinStep_near (d : Dev) (reach acc : List Nat) (x : Nat) {k : Nat} (hk : k ≤ 3) :
    (joinStep d reach acc x).contains k = (acc.contains k || (k == x && nearJoined d reach k)) := by
  have joins : ∀ c : Bool, (k = x → c = nearJoined d reach k) →
      (if c then acc ++ [x] else acc).contains k = (acc.contains k || (k == x && nearJoined d reach k)) := fun c hc => by
    by_cases hx : k = x
    · rw [← hc hx, beq_iff_eq.mpr hx]
      cases c <;> simp [hx]
    · rw [beq_false_of_ne hx, Bool.false_and, Bool.or_false]
      cases c <;> simp [hx]
  unfold joinStep
  dsimp only
  split
  · next h0 => exact h0 ▸ joins true fun hx => by rw [nearJoined, hx, h0]; rfl
  split
  · next h0 _ => exact joins _ fun hx => by rw [nearJoined, hx, beq_false_of_ne h0, Bool.false_or]
  · next h3 => exact joins _ fun hx => absurd (hx ▸ hk) h3

theorem joinedDevices_near (d : Dev) (reach : List Nat) {k : Nat} (hk : k ≤ 3) : (joinedDevices d reach).contains k = nearJoined d reach k := by
  have all : ∀ (xs acc : List Nat), (xs.foldl (joinStep d reach) acc).contains k = (acc.contains k || (xs.contains k && nearJoined d reach k)) := by
    intro xs
    induction xs with
    | nil => simp
    | cons x t ih =>
      intro acc
      rw [List.foldl_cons, ih, joinStep_near d reach acc x hk, List.contains_cons, Bool.or_assoc, Bool.and_or_distrib_right]
  rw [joinedDevices, all]
  have among : (List.range 121).contains k = true := List.contains_iff_mem.mpr (List.mem_range.mpr (by omega))
  rw [among]
  simp

/-- The manager's device once it has fixed the tree. -/
def treeFixed (d : Dev) (l : List Nat) : Dev :=
  { treeShown d (maskOf l) with flue := { d.flue with joined := true, kids := [1, 2, 3].filter l.contains } }

theorem treeFixed_reg (d : Dev) (l : List Nat) (off : Nat) : (treeFixed d l).reg off = (treeShown d (maskOf l)).reg off := rfl

theorem treeFixed_bit (d : Dev) (l : List Nat) {k : Nat} (hk : k < 32) :
    ((treeFixed d l).flueInt F.FLU_INT_STATUS_JOIN_DONE).bitOf (R.FLU_TREE_PRESENT 0) k = l.contains k := by
  rw [Dev.flueInt, bitOf_eq_of_reg k (reg_latch_other _ _ _ _ (by decide)), bitOf_eq_of_reg k (treeFixed_reg d l _), treeShown_bit d _ hk, tbit_maskOf]

theorem joinTimeout_manager {d : Dev} (reach : List Nat) (hjoined : d.flue.joined = false) (hrole : d.role = 1) :
    d.joinTimeout reach = (treeFixed d (joinedDevices d reach)).flueInt F.FLU_INT_STATUS_JOIN_DONE := by
  unfold Dev.joinTimeout
  rw [if_neg (by rw [hrole, hjoined]; simp), if_neg (by simp [hrole])]
  rfl

theorem contains_kids (f : Nat → Bool) {k : Nat} (h1 : 1 ≤ k) (h3 : k ≤ 3) : ([1, 2, 3].filter f).contains k = f k := by
  have listed : k ∈ [1, 2, 3] := by
    simp
    omega
  rw [Bool.eq_iff_iff, List.contains_iff_mem, List.mem_filter]
  exact and_iff_right listed

section
variable {s : State} (reach : List Nat) (hjoined : s.dev.flue.joined = false)
include hjoined

theorem joinTimeout_fixes (hrole : s.dev.role = 1) : Completes (.joinTimeout reach) s (fun e => e.flue.joined = true ∧
    e.bitOf (R.FLU_TREE_PRESENT 0) 0 = true ∧ (∀ k, 1 ≤ k → k ≤ 3 →
      e.bitOf (R.FLU_TREE_PRESENT 0) k = (s.dev.board.profile.tree.contains k && reach.contains k && s.dev.portState k == psActive) ∧
      e.flue.kids.contains k = e.bitOf (R.FLU_TREE_PRESENT 0) k) ∧ e.flag R.FLU_INT_STATUS F.FLU_INT_STATUS_JOIN_DONE = true) := by
  refine completes_canon (f := fun d => d.joinTimeout reach) rfl (fun _ h => h) ?_
  rw [joinTimeout_manager reach hjoined hrole]
  have bit := fun k => treeFixed_bit s.dev (joinedDevices s.dev reach) (k := k)
  refine ⟨rfl, (bit 0 (by decide)).trans (joinedDevices_near s.dev reach (by decide)), fun k h1 h3 => ⟨?_, ?_⟩,
    flag_of_getF (getF_setF_same _ _ _ 1 (by decide))⟩
  · rw [bit k (by omega), joinedDevices_near s.dev reach h3, nearJoined, beq_false_of_ne (by omega), Bool.false_or]
  · rw [bit k (by omega)]
    exact contains_kids _ h1 h3

theorem joinTimeout_worker (hinv : s.Inv) (hzero : s.dev.role ≠ 0) (hone : s.dev.role ≠ 1) :
    Completes (.joinTimeout reach) s (fun e => e.flue.joined = true ∧
      (∀ k, 1 ≤ k → k ≤ 3 → e.flue.kids.contains k = (s.dev.portState k == psActive && reach.contains (3 * s.dev.deviceNum + k))) ∧
      e = { s.dev with flue := { s.dev.flue with joined := true, kids := e.flue.kids } }) := by
  have fixed : s.dev.joinTimeout reach = { s.dev with flue := { s.dev.flue with
      joined := true, kids := [1, 2, 3].filter (fun k => s.dev.portState k == psActive && reach.contains (3 * s.dev.deviceNum + k)) } } := by
    unfold Dev.joinTimeout
    rw [if_neg (by rw [hjoined]; simp [hzero]), if_pos hone]
  refine completes_kept (f := fun d => d.joinTimeout reach) rfl hinv ?_ ?_ <;> rw [fixed]
  exact ⟨rfl, fun k h1 h3 => contains_kids (fun k => s.dev.portState k == psActive && reach.contains (3 * s.dev.deviceNum + k)) h1 h3, rfl⟩

end

/-! ### The skew measurement (R348, R349) -/

/-- The row of FLU_SKEW_CTRL. -/
def skewCtrlRow : RDesc := ⟨0xa0060, [], [⟨31, 1, .ro, 0, false⟩, ⟨30, 1, .wo, 0, false⟩, ⟨28, 2, .ro, 0, false⟩, ⟨0, 16, .ro, 0, false⟩]⟩

theorem regRow_skewCtrl : regRow R.FLU_SKEW_CTRL = some skewCtrlRow := by decide +kernel

theorem regCanon_skewCtrl : regCanon R.FLU_SKEW_CTRL = R.FLU_SKEW_CTRL := by decide +kernel

/-- A write of FLU_SKEW_CTRL with START starts a measurement. -/
theorem flueEffect_start (d : Dev) {w : Word} (h : getBits w F.FLU_SKEW_CTRL_START = 1) : d.flueEffect R.FLU_SKEW_CTRL w = d.skewStart := by
  have port : fluePort R.FLU_SKEW_CTRL = none := by decide
  rw [Dev.flueEffect, port]
  show (if _ then _ else if _ then _ else _) = _
  rw [if_neg (fun hc => absurd hc.1 (by decide)), if_pos ⟨rfl, h⟩]

theorem writeReg_skewStart {d : Dev} {o : Origin} {w : Word} (h : Accepts d o R.FLU_SKEW_CTRL (setBits w F.FLU_SKEW_CTRL_START 1)) :
    d.writeReg o.id R.FLU_SKEW_CTRL (setBits w F.FLU_SKEW_CTRL_START 1) =
      (flueStored d o R.FLU_SKEW_CTRL skewCtrlRow (setBits w F.FLU_SKEW_CTRL_START 1)).skewStart := by
  have norm : ∀ v, flueNorm R.FLU_SKEW_CTRL v = v := fun _ => rfl
  rw [writeReg_flue regRow_skewCtrl regCanon_skewCtrl (by decide) h, norm, flueEffect_start _ (getBits_setBits_same _ _ 1 (by decide))]

/-- A worker whose parent's port is ACTIVE and that knows the epoch begins with no pair done. -/
theorem skewStart_eq {d : Dev} (hskew : d.flue.skew = none) (hrole : d.role = 2) (hport : d.portState 0 = psActive) (hknown : d.flue.known = true) :
    d.skewStart = (Dev.setF { (d.meanTemp (List.range 16)).2 with
      flue := { (d.meanTemp (List.range 16)).2.flue with skew := some ⟨[], none, false, (d.meanTemp (List.range 16)).1⟩ } }
        R.FLU_SKEW_CTRL F.FLU_SKEW_CTRL_BUSY 1).setF R.FLU_SKEW_CTRL F.FLU_SKEW_CTRL_OUTCOME 0 := by
  unfold Dev.skewStart
  rw [hskew, hrole, if_neg (by decide), if_pos ⟨hport, hknown⟩]

section
variable {s : State}

theorem skewStart_measures {o : Origin} {w : Word} (h : Accepts s.dev o R.FLU_SKEW_CTRL (setBits w F.FLU_SKEW_CTRL_START 1))
    (hskew : s.dev.flue.skew = none) (hrole : s.dev.role = 2) (hport : s.dev.portState 0 = psActive) (hknown : s.dev.flue.known = true) :
    Completes (.skewStart o w) s (fun e => (∃ t, e.flue.skew = some ⟨[], none, false, t⟩) ∧
      e.getF R.FLU_SKEW_CTRL F.FLU_SKEW_CTRL_BUSY = 1 ∧ e.getF R.FLU_SKEW_CTRL F.FLU_SKEW_CTRL_OUTCOME = 0) := by
  refine completes_canon (f := fun d => d.writeReg o.id R.FLU_SKEW_CTRL (setBits w F.FLU_SKEW_CTRL_START 1)) rfl (fun _ h => h) ?_
  have regs := flueStored_regsBut s.dev o R.FLU_SKEW_CTRL (setBits w F.FLU_SKEW_CTRL_START 1) skewCtrlRow
  have flue := flueStored_flue s.dev o R.FLU_SKEW_CTRL (setBits w F.FLU_SKEW_CTRL_START 1) skewCtrlRow
  rw [writeReg_skewStart h]
  generalize flueStored s.dev o R.FLU_SKEW_CTRL skewCtrlRow (setBits w F.FLU_SKEW_CTRL_START 1) = e at regs flue
  rw [skewStart_eq (by rw [flue, hskew]) ((getF_of_regsBut regs _ (by decide)).trans hrole) ((getF_of_regsBut regs _ (by decide)).trans hport)
    (by rw [flue, hknown])]
  refine ⟨⟨_, rfl⟩, ?_, getF_setF_same _ _ _ 0 (by decide)⟩
  rw [getF_setF_disjoint _ _ _ _ _ (by decide) (by decide)]
  exact getF_setF_same _ _ _ 1 (by decide)

end

end Sys2Proof.Proofs
end

section
/-! PROOFS. The end of a skew measurement and the probes of the Flue (spec/12 R348, R349; log entry 40 is the model's choice). -/

namespace Sys2Proof.Proofs

open Sys2Proof Sys2Proof.Machine

set_option Elab.async false

/-! ### The end of a measurement (R349) -/

/-- A measurement has ended with an outcome. -/
structure SkewEnded (outcome : Nat) (e : Dev) : Prop where
  skew : e.flue.skew = none
  busy : e.getF R.FLU_SKEW_CTRL F.FLU_SKEW_CTRL_BUSY = 0
  shown : e.flag R.FLU_INT_STATUS F.FLU_INT_STATUS_SKEW_DONE = true
  outcome : e.getF R.FLU_SKEW_CTRL F.FLU_SKEW_CTRL_OUTCOME = outcome

theorem skewEnd_ended (d : Dev) {outcome : Nat} (h : outcome < 4) : SkewEnded outcome (d.skewEnd outcome) where
  skew := rfl
  busy := by
    rw [Dev.skewEnd, Dev.flueInt, getF_eq_of_reg _ (reg_latch_other _ _ _ _ (by decide)), getF_setF_disjoint _ _ _ _ _ (by decide) (by decide)]
    exact getF_setF_same _ _ _ 0 (by decide)
  shown := flag_of_getF (getF_setF_same _ _ _ 1 (by decide))
  outcome := by
    rw [Dev.skewEnd, Dev.flueInt, getF_eq_of_reg _ (reg_latch_other _ _ _ _ (by decide))]
    exact (getF_setF_same _ _ _ outcome (by decide)).trans (Nat.mod_eq_of_lt h)

theorem SkewEnded.of_same {outcome : Nat} {d e : Dev} (h : SkewEnded outcome d) (skew : e.flue.skew = d.flue.skew)
    (ctrl : e.reg R.FLU_SKEW_CTRL = d.reg R.FLU_SKEW_CTRL) (ints : e.reg R.FLU_INT_STATUS = d.reg R.FLU_INT_STATUS) : SkewEnded outcome e where
  skew := skew.trans h.skew
  busy := (getF_eq_of_reg _ ctrl).trans h.busy
  shown := by rw [Dev.flag, getF_eq_of_reg _ ints]; exact h.shown
  outcome := (getF_eq_of_reg _ ctrl).trans h.outcome

/-- The table that a valid measurement fills shows in CAL_TAB_STATUS alone. -/
theorem SkewEnded.calWriteShadow {outcome : Nat} {d : Dev} (h : SkewEnded outcome d) (t : CalTab) : SkewEnded outcome (d.calWriteShadow 17 t) :=
  h.of_same rfl (reg_latch_other _ _ _ _ (by decide)) (reg_latch_other _ _ _ _ (by decide))

/-- A free number is drawn without a change of what the measurement shows. -/
theorem SkewEnded.drawn {outcome : Nat} {d : Dev} (h : SkewEnded outcome d) (p : Prop) [Decidable p] (n m : Nat) :
    SkewEnded outcome (if p then (n, d) else (d.drawNat.1 % m, d.drawNat.2)).2 := by
  split
  · exact h
  · exact h.of_same rfl rfl rfl

theorem skewDone_eq {d : Dev} {k : Skew} (hskew : d.flue.skew = some k) (hall : 64 ≤ k.twice.length) :
    ∃ (theta : Int) (d' : Dev), d.skewDone = if (k.twice.foldl max (k.twice.headD 0) - k.twice.foldl min (k.twice.headD 0)).toNat ≤ 640
      then (some theta, d'.skewEnd skValid) else (none, d'.skewEnd skUnstable) := by
  unfold Dev.skewDone
  rw [hskew]
  dsimp only
  rw [if_neg (by simp only [skewPairs]; omega)]
  exact ⟨_, _, rfl⟩

theorem skewFill_ended {d : Dev} {k : Skew} (hskew : d.flue.skew = some k) (hall : 64 ≤ k.twice.length) (hcal : d.calPending 17 = false) :
    SkewEnded (if (k.twice.foldl max (k.twice.headD 0) - k.twice.foldl min (k.twice.headD 0)).toNat ≤ 640 then skValid else skUnstable) d.skewFill := by
  obtain ⟨theta, d', done⟩ := skewDone_eq hskew hall
  have free : ¬d.calPending 17 = true := by rw [hcal]; decide
  rw [Dev.skewFill, if_neg free, done]
  by_cases steady : (k.twice.foldl max (k.twice.headD 0) - k.twice.foldl min (k.twice.headD 0)).toNat ≤ 640
  · rw [if_pos steady, if_pos steady]
    exact (SkewEnded.drawn (skewEnd_ended d' (by decide)) _ _ _).calWriteShadow _
  · rw [if_neg steady, if_neg steady]
    exact skewEnd_ended d' (by decide)

section
variable {s : State}

theorem skewDone_ends {k : Skew} (hskew : s.dev.flue.skew = some k) (hall : 64 ≤ k.twice.length) (hcal : s.dev.calPending 17 = false) :
    Completes .skewDone s (fun e => e.flue.skew = none ∧ e.getF R.FLU_SKEW_CTRL F.FLU_SKEW_CTRL_BUSY = 0 ∧
      e.flag R.FLU_INT_STATUS F.FLU_INT_STATUS_SKEW_DONE = true ∧ e.getF R.FLU_SKEW_CTRL F.FLU_SKEW_CTRL_OUTCOME =
        if (k.twice.foldl max (k.twice.headD 0) - k.twice.foldl min (k.twice.headD 0)).toNat ≤ 640 then skValid else skUnstable) := by
  refine completes_canon (f := Dev.skewFill) rfl (fun _ h => h) ?_
  obtain ⟨skew, busy, shown, outcome⟩ := skewFill_ended hskew hall hcal
  exact ⟨skew, busy, shown, outcome⟩

end

/-! ### Probes (R348) -/

section
variable {s : State} (hinv : s.Inv) {p : Fin 4} (hact : s.dev.portState p = psActive)
include hact

include hinv in
theorem probeSend_sends (hknown : s.dev.flue.known = true) (hp : p.val ≠ 0) :
    Completes (.probeSend p) s (fun e => e.outbox = s.dev.outbox ++ [.block p .probe] ∧ OnlyOut s.dev e) := by
  have sent : s.dev.probeSend p = s.dev.out (.block p .probe) := by
    unfold Dev.probeSend
    rw [if_neg (by simp [hact, hknown]), if_neg hp]
  refine completes_kept (f := fun d => d.probeSend p) rfl hinv ?_ ?_ <;> rw [sent]
  · rfl
  · exact ⟨rfl, rfl⟩

/-- A parent answers with the stamp of the probe (log entry 40). -/
theorem probe_answered (stamp : Int) {q : Nat} (hp : p.val ≠ 0) (hroute : s.dev.route (3 * s.dev.deviceNum + p) = .port q) :
    Completes (.probe p stamp) s (fun e => Sent q ⟨ptResponse, 3 * s.dev.deviceNum + p, s.dev.deviceNum, 0, 0, 0, 0, [unsgn stamp 64]⟩
      e ∧ e.regs = s.dev.regs) := by
  refine completes_canon (f := fun d => d.probe p stamp) rfl (fun _ h => h) ?_
  rw [Dev.probe, if_neg (by simp [hact]), if_neg hp, sendPacket_routed hroute]
  exact ⟨Sends.sent_enqueue _ _ _, enqueue_regs _ _ _⟩

include hinv in
theorem probe_stamped (stamp : Int) {k : Skew} (hp : p.val = 0) (hskew : s.dev.flue.skew = some k) (hnone : k.t1 = none)
    (hfew : k.twice.length < skewPairs) : Completes (.probe p stamp) s (fun e => e.flue.skew = some { k with t1 := some stamp } ∧
      e = { s.dev with flue := { s.dev.flue with skew := e.flue.skew } }) := by
  have stamped : s.dev.probe p stamp = { s.dev with flue := { s.dev.flue with skew := some { k with t1 := some stamp } } } := by
    unfold Dev.probe
    rw [if_neg (by simp [hact]), if_pos hp, hskew]
    dsimp only
    rw [if_pos (by simp [hnone, hfew])]
  refine completes_kept (f := fun d => d.probe p stamp) rfl hinv ?_ ?_ <;> rw [stamped]
  exact ⟨rfl, rfl⟩

end

/-- Settles O44, one lemma for each clause. The model's choices: credits return with the acknowledgement of a packet (log entry 42), one with bad
fields is acknowledged and counted (log entry 54), a register is half of an 8-byte block and an access without a route ends so (log entry 43), a
probe's answer has TAG 0 (log entry 40), and a worker fixes its own neighbours when the join ends (log entry 118). -/
theorem fluePorts : Obligations.FluePorts := by
  unfold Obligations.FluePorts
  refine ⟨fun s p => ⟨fun o w => fluePortEnable_trains o, fun o w => fluePortEnable_loses o, fun o w => retrain_trains o, ?_, trainTimeout_fails,
    portIdleEntry_idles, portWake_wakes, wakeBurstAligned_active, wakeTimeout_trains⟩, ?_, ?_, ?_, ?_, ?_, ?_, ?_, ?_, ?_⟩
  · intro num role from_ pol lanes both hst
    exact ⟨fun hskew => ⟨ident_accepted pol both hst hskew, fun err => ident_refused pol both hst hskew⟩,
      fun hinv hskew => ident_skewed hinv num role from_ pol both hskew⟩
  · exact fun s p ack valid ev rsp req => link_acknowledges ack valid ev rsp req
  · exact fun s p hst hreplay => ⟨replayTimeout_resends hst hreplay, replayTimeout_trains hst hreplay⟩
  · exact fun s p h bs hinv hst => ⟨fun t => discard_unknown hinv hst h bs, discard_spoilt hinv hst, fun k lenOk => discard_badFields hinv hst⟩
  · exact fun s tag hinv => ⟨fun dest high => rspTimeout_racc hinv, fun n dest q => rspTimeout_dma⟩
  · exact fun s o w h hfree => ⟨fluRaccGo_unrouted h hfree, fun q dest high hdest hhigh hroute =>
      ⟨fluRaccGo_reads h hfree (hdest ▸ hroute) hdest hhigh, fluRaccGo_writes h hfree (hdest ▸ hroute) hdest hhigh⟩⟩
  · exact fun s reach hjoined => ⟨joinTimeout_fixes reach hjoined, joinTimeout_worker reach hjoined⟩
  · exact fun s o w => skewStart_measures
  · exact fun s k => skewDone_ends
  · exact fun s p hinv hact => ⟨probeSend_sends hinv hact, fun stamp q => probe_answered hact stamp, fun stamp k => probe_stamped hinv hact stamp⟩

end Sys2Proof.Proofs
end

section
/-! PROOFS. The arrival of a Flue packet, its requests of memory, and packets that go on (spec/12 R329, R330, R335, R337; that credits return
with the acknowledgement, and that a READ returns whole blocks, are the model's reading, log entries 42 and 54). -/

namespace Sys2Proof.Proofs

open Sys2Proof Sys2Proof.Machine

set_option Elab.async false

/-! ### Packets queued -/

/-- Packets have joined the queues of ports, or have left by them; nothing else has changed. -/
structure Queued (d e : Dev) : Prop where
  only : ∃ ports outbox, e = { d with flue := { d.flue with ports := ports }, outbox := outbox }
  identOk : ∀ p, (e.port p).identOk = (d.port p).identOk

namespace Queued

theorem refl (d : Dev) : Queued d d := ⟨⟨_, _, rfl⟩, fun _ => rfl⟩

theorem trans {d e f : Dev} (h : Queued d e) (g : Queued e f) : Queued d f := by
  refine ⟨?_, fun p => (g.identOk p).trans (h.identOk p)⟩
  obtain ⟨_, _, rfl⟩ := h.only
  exact g.only

theorem enqueue (d : Dev) (p : Nat) (k : Packet) : Queued d (d.enqueue p k) := ⟨enqueue_only d p k, fun q => enqueue_identOk d p q k⟩

theorem foldl_enqueue (d : Dev) (ports : List Nat) (k : Packet) : Queued d (ports.foldl (fun d p => d.enqueue p k) d) :=
  List.foldlRecOn ports _ (motive := Queued d) (refl d) fun e he p _ => he.trans (enqueue e p k)

theorem spread (d : Dev) (k : Packet) : Queued d (d.spread k) := by
  unfold Dev.spread
  split
  · exact foldl_enqueue d _ k
  · exact refl d

theorem relay (d : Dev) (k : Packet) : Queued d (d.relay k) := by
  unfold Dev.relay
  split
  · exact spread d _
  · exact refl d

theorem linkTaken (d : Dev) (p : Nat) (k : Packet) : Queued d (linkTaken d p k) := by
  refine ⟨⟨_, _, rfl⟩, fun q => ?_⟩
  by_cases hq : q = p
  · subst hq
    have same := port_modPort_same d q fun x => { x with rxSeq := ((d.port q).rxSeq + 1) % 4096 }
    exact (congrArg FluePort.identOk same :)
  · have other := port_modPort_other d (fun x => { x with rxSeq := ((d.port p).rxSeq + 1) % 4096 }) hq
    exact (congrArg FluePort.identOk other :)

section
variable {d e : Dev} (h : Queued d e)
include h

theorem regs : e.regs = d.regs := by obtain ⟨_, _, rfl⟩ := h.only; rfl
theorem mem : e.mem = d.mem := by obtain ⟨_, _, rfl⟩ := h.only; rfl
theorem poison : e.poison = d.poison := by obtain ⟨_, _, rfl⟩ := h.only; rfl
theorem seq : e.seq = d.seq := by obtain ⟨_, _, rfl⟩ := h.only; rfl
theorem rings : e.rings = d.rings := by obtain ⟨_, _, rfl⟩ := h.only; rfl
theorem mbx : e.mbx = d.mbx := by obtain ⟨_, _, rfl⟩ := h.only; rfl
theorem known : e.flue.known = d.flue.known := by obtain ⟨_, _, rfl⟩ := h.only; rfl
theorem epoch : e.flue.epoch = d.flue.epoch := by obtain ⟨_, _, rfl⟩ := h.only; rfl
theorem assign : e.flue.assign = d.flue.assign := by obtain ⟨_, _, rfl⟩ := h.only; rfl
theorem reads : e.flue.reads = d.flue.reads := by obtain ⟨_, _, rfl⟩ := h.only; rfl
theorem skew : e.flue.skew = d.flue.skew := by obtain ⟨_, _, rfl⟩ := h.only; rfl
theorem stops : e.flue.stops = d.flue.stops := by obtain ⟨_, _, rfl⟩ := h.only; rfl
theorem fails : e.flue.fails = d.flue.fails := by obtain ⟨_, _, rfl⟩ := h.only; rfl
theorem joined : e.flue.joined = d.flue.joined := by obtain ⟨_, _, rfl⟩ := h.only; rfl

theorem reg (off : Nat) : e.reg off = d.reg off := by rw [Dev.reg, h.regs, Dev.reg]
theorem getF (off : Nat) (f : Fld) : e.getF off f = d.getF off f := getF_eq_of_reg f (h.reg off)
theorem flag (off : Nat) (f : Fld) : e.flag off f = d.flag off f := by rw [Dev.flag, h.getF, Dev.flag]
theorem ring (n : Nat) : e.ring n = d.ring n := by rw [Dev.ring, h.rings, Dev.ring]
theorem deviceNum : e.deviceNum = d.deviceNum := h.getF _ _

theorem route (dest : Nat) : e.route dest = d.route dest :=
  route_congr h.deviceNum (fun p => portUp_congr (h.reg _) (h.identOk p)) h.joined (fun _ _ => h.reg _) dest

theorem memRefusal (origin a n : Nat) (write : Bool) : e.memRefusal origin a n write = d.memRefusal origin a n write := by
  rw [Dev.memRefusal, Dev.capacity, Dev.hostEnd, h.getF, h.getF, Dev.memRefusal, Dev.capacity, Dev.hostEnd]

theorem poisoned (a n : Nat) : e.poisoned a n = d.poisoned a n := by rw [Dev.poisoned, h.poison, Dev.poisoned]
theorem readN (a n : Nat) : e.readN a n = d.readN a n := by rw [Dev.readN, Dev.read, h.mem, Dev.readN, Dev.read]
theorem dbAddr (n : Nat) : e.dbAddr n = d.dbAddr n := by rw [Dev.dbAddr, h.reg, h.getF, Dev.dbAddr]

theorem unwatched {a n : Nat} (hw : Unwatched d a n) : Unwatched e a n := fun i hi => by
  rw [Dev.ringState, h.getF, h.dbAddr]
  exact hw i hi

end

end Queued

/-! ### Arrival (R330, R332, R335) -/

/-- A packet that arrives is acknowledged and spread, and its type acts on the device then. -/
theorem exists_arrived {d : Dev} {p type : Nat} {k : Packet} (h : Arrives d p type k) :
    ∃ e, Queued d e ∧ ∀ f, d.onArrival p type k f = f e := by
  obtain ⟨htype, hours, hact, hfields, hrun⟩ := h
  refine ⟨(linkTaken d p k).spread k, (Queued.linkTaken d p k).trans (Queued.spread _ k), fun f => ?_⟩
  rw [Dev.onArrival, if_neg (by simp [htype, hours, hrun]), linkTake_active k hact]
  exact if_pos hfields

/-- An event that another device sent is relayed besides. -/
theorem exists_eventArrived {d : Dev} {p kind : Nat} {k : Packet} (h : Arrives d p ptEvent k) (hkind : k.evKind = kind) (hsrc : k.src ≠ d.deviceNum) :
    ∃ e, Queued d e ∧ ∀ f, d.onEvent p kind k f = f e := by
  obtain ⟨e, queued, acts⟩ := exists_arrived h
  have whole := queued.trans (Queued.relay e k)
  refine ⟨e.relay k, whole, fun f => ?_⟩
  rw [Dev.onEvent, if_neg (not_not.mpr hkind), acts]
  exact if_neg fun hs => hsrc (hs.trans whole.deviceNum)

/-! ### Requests of memory (R337) -/

theorem length_packetBytes (k : Packet) : k.bytes.length = 8 * k.payload.length := by
  rw [Packet.bytes, List.length_flatMap]
  simp [Nat.mul_comm]

/-- Bytes that an arriving packet brings stand in memory, and nothing else of memory, registers and rings has changed. -/
theorem writeMem_stored {d e : Dev} (h : Queued d e) (hinv : Memory.wf d.mem = true) {a : Nat} {bs : List Byte} (hw : Unwatched d a bs.length) :
    (e.writeMem a bs).canon.read a bs.length = bs ∧
      (∀ b, b < a ∨ a + bs.length ≤ b → memByte (e.writeMem a bs).canon.mem b = memByte d.mem b) ∧
      (e.writeMem a bs).canon.regs = d.regs ∧ (e.writeMem a bs).canon.rings = d.rings := by
  rw [writeMem_unwatched (h.unwatched hw), canon_of_wf (write_wf _ _ _ (h.mem ▸ hinv))]
  refine ⟨read_write_same _ _ _, fun b hb => ?_, h.regs, h.rings⟩
  rw [← h.mem]
  exact memByte_memWrite_other _ _ _ _ hb

/-- A DOORBELL brings one block. -/
theorem doorbell_block {d : Dev} {p : Nat} {k : Packet} (h : Arrives d p ptDoorbell k) : k.payload.length = 1 := by
  obtain ⟨htype, -, -, hfields, -⟩ := h
  rw [Packet.fieldsOk, htype] at hfields
  simp only [ptDoorbell, Bool.and_eq_true, beq_iff_eq] at hfields
  omega

theorem takePayload_full {d : Dev} {k : Packet} (hbe : k.be = 0xFF) : d.takePayload k = d.writeMem k.addr k.bytes := if_pos hbe

section
variable {s : State} {p : Fin 4} {k : Packet}

/-- The response to a READ that may be made. -/
def readAnswer (d : Dev) (k : Packet) : Packet :=
  ⟨ptResponse, k.src, d.deviceNum, k.tag, 0, 0, 0, (List.range k.arg).map (fun i => d.readN (k.addr + 8 * i) 8)⟩

theorem fluRead_answers {d : Dev} {q : Nat} (h : Arrives d p ptRead k) (hmem : inRegs k.addr = false)
    (hopen : d.memRefusal (0x40 + p) k.addr (8 * k.arg) false = none) (hgood : d.poisoned k.addr (8 * k.arg) = false)
    (hroute : d.route k.src = .port q) : ∃ e, Queued d e ∧ d.fluRead p k = e.enqueue q (readAnswer d k) := by
  obtain ⟨e, queued, acts⟩ := exists_arrived h
  refine ⟨e, queued, ?_⟩
  refine (acts _).trans ?_
  extract_lets origin deny
  have lets : e.memRefusal origin k.addr (8 * k.arg) false = none := (queued.memRefusal _ _ _ _).trans hopen
  rw [if_neg (by rw [hmem]; decide), lets]
  refine (if_neg (by rw [queued.poisoned, hgood]; decide)).trans ?_
  rw [Dev.respond, sendPacket_routed ((queued.route _).trans hroute)]
  simp only [queued.readN, queued.deviceNum, readAnswer]

theorem read_answered {q : Nat} (h : Arrives s.dev p ptRead k) (hmem : inRegs k.addr = false)
    (hopen : s.dev.memRefusal (0x40 + p) k.addr (8 * k.arg) false = none) (hgood : s.dev.poisoned k.addr (8 * k.arg) = false)
    (hroute : s.dev.route k.src = .port q) : Completes (.read p k) s (fun e => e.regs = s.dev.regs ∧ Sent q (readAnswer s.dev k) e) := by
  refine completes_canon (f := fun d => d.fluRead p k) rfl (fun _ h => h) ?_
  obtain ⟨e, queued, answers⟩ := fluRead_answers h hmem hopen hgood hroute
  rw [answers]
  exact ⟨(enqueue_regs _ _ _).trans queued.regs, Sends.sent_enqueue _ _ _⟩

theorem write_stored (hinv : s.Inv) (hw : Unwatched s.dev k.addr (8 * k.payload.length)) (h : Arrives s.dev p ptWrite k)
    (hmem : inRegs k.addr = false) (hbe : k.be = 0xFF) (hopen : s.dev.memRefusal (0x40 + p) k.addr (8 * k.payload.length) true = none) :
    Completes (.write p k) s (fun e => e.read k.addr (8 * k.payload.length) = k.bytes ∧
      (∀ a, a < k.addr ∨ k.addr + 8 * k.payload.length ≤ a → memByte e.mem a = memByte s.dev.mem a) ∧ e.regs = s.dev.regs ∧
      e.rings = s.dev.rings) := by
  obtain ⟨e, queued, acts⟩ := exists_arrived h
  have stored : s.dev.fluWrite p k = e.writeMem k.addr k.bytes := by
    rw [Dev.fluWrite, acts]
    dsimp only
    rw [if_neg (by rw [hmem]; decide), queued.memRefusal, hopen]
    exact takePayload_full hbe
  refine completes_act (f := fun d => d.fluWrite p k) rfl ?_
  rw [stored, ← length_packetBytes]
  exact writeMem_stored queued hinv (by rwa [length_packetBytes])

theorem doorbell_stored (n : Fin 64) (hinv : s.Inv) (hw : Unwatched s.dev k.addr 8) (h : Arrives s.dev p ptDoorbell k)
    (haddr : k.addr = s.dev.dbAddr n) (hbe : k.be = 0xFF) (hopen : s.dev.memRefusal (0x40 + p) k.addr 8 true = none) :
    Completes (.doorbell p k) s (fun e => e.read (s.dev.dbAddr n) 8 = k.bytes ∧
      (∀ a, a < s.dev.dbAddr n ∨ s.dev.dbAddr n + 8 ≤ a → memByte e.mem a = memByte s.dev.mem a) ∧ e.regs = s.dev.regs) := by
  obtain ⟨e, queued, acts⟩ := exists_arrived h
  have line : (List.range 64).any (fun n => e.dbAddr n == k.addr) = true :=
    List.any_eq_true.mpr ⟨n, List.mem_range.mpr n.isLt, by rw [queued.dbAddr, haddr]; exact beq_self_eq_true _⟩
  have stored : s.dev.fluDoorbell p k = e.writeMem k.addr k.bytes := by
    rw [Dev.fluDoorbell, acts, if_neg (by rw [line]; decide), queued.memRefusal, hopen]
    exact takePayload_full hbe
  have one : k.bytes.length = 8 := by
    have block := doorbell_block h
    rw [length_packetBytes, block]
  refine completes_act (f := fun d => d.fluDoorbell p k) rfl ?_
  rw [stored, ← haddr]
  obtain ⟨read, rest, regs, -⟩ := writeMem_stored queued hinv (a := k.addr) (bs := k.bytes) (by rwa [one])
  rw [one] at read rest
  exact ⟨read, rest, regs⟩

/-! ### Packets for other devices (R335) -/

theorem packetForward_sends {q : Nat} (hours : s.dev.ours k = false) (hact : s.dev.portState p = psActive) (hfields : k.fieldsOk = true)
    (hroute : s.dev.route k.dest = .port q) :
    Completes (.packetForward p k) s (fun e => Sent q k e ∧ e.regs = s.dev.regs ∧ e.mem = memCanon s.dev.mem) := by
  have queued := Queued.linkTaken s.dev p k
  have sent : s.dev.fluForward p k = (linkTaken s.dev p k).enqueue q k := by
    rw [Dev.fluForward, if_neg (by rw [hours]; decide), linkTake_active k hact]
    dsimp only
    rw [if_neg (by rw [hfields]; decide), (queued.route _).trans hroute]
  have whole := queued.trans (Queued.enqueue _ q k)
  refine completes_act (f := fun d => d.fluForward p k) rfl ?_
  rw [sent]
  exact ⟨sent_congr rfl rfl (Sends.sent_enqueue _ _ _), whole.regs, congrArg memCanon whole.mem⟩

end

end Sys2Proof.Proofs
end

section
/-! PROOFS. RESPONSE packets: the end of a READ of FLU_RACC, of a fetch and of a FLUE_DMA, and a response that is late (spec/12 R330, R338, spec/13
R361, R380; the half of a block that a register is, and one READ of a FLUE_DMA at a time, are the model's choices, log entries 43 and 56). -/

namespace Sys2Proof.Proofs

open Sys2Proof Sys2Proof.Machine

set_option Elab.async false

/-- How a RESPONSE ends the READ of its tag, on the device in which the tag is free again. -/
def readAnswered (d : Dev) (k : Packet) : ReadFor → Dev
  | .racc _ high => d.raccResponse high k.arg k.payload
  | .fetch n => d.fetchDone n (if k.arg = 0 then .arrived k.bytes else .denied)
  | .dma n _ => d.dmaTake n k.arg k.bytes

/-- A RESPONSE tells of one of four outcomes. -/
theorem response_status {d : Dev} {p : Nat} {k : Packet} (h : Arrives d p ptResponse k) : k.arg < 8 := by
  obtain ⟨htype, -, -, hfields, -⟩ := h
  rw [Packet.fieldsOk, htype] at hfields
  simp only [ptResponse, Bool.and_eq_true, decide_eq_true_eq] at hfields
  omega

theorem mapFind_readGone (d : Dev) (tag : Nat) : mapFind (readGone d tag).flue.reads tag = none := by
  show mapFind (d.flue.reads.filter (fun x => x.1 != tag)) tag = none
  rw [mapFind_filter _ (fun i => i != tag)]
  simp

section
variable {d : Dev} {p : Nat} {k : Packet}

theorem response_ends {f : ReadFor} (h : Arrives d p ptResponse k) (hskew : d.flue.skew = none) (hread : mapFind d.flue.reads k.tag = some f)
    (hblocks : k.arg = 0 → k.payload.length = f.blocks) : ∃ e, Queued d e ∧ d.fluResponse p k = readAnswered (readGone e k.tag) k f := by
  obtain ⟨e, queued, acts⟩ := exists_arrived h
  have found : mapFind e.flue.reads k.tag = some f := queued.reads.symm ▸ hread
  refine ⟨e, queued, (acts _).trans ?_⟩
  refine (if_neg (by rw [queued.skew, hskew]; simp)).trans ?_
  rw [found]
  refine (if_neg fun hbad => hbad.2 (hblocks hbad.1)).trans ?_
  cases f <;> rfl

theorem response_late (h : Arrives d p ptResponse k) (hskew : d.flue.skew = none) (hread : mapFind d.flue.reads k.tag = none) :
    ∃ e, Queued d e ∧ d.fluResponse p k = e.flueLate F.FLU_LATE_RESPONSES := by
  obtain ⟨e, queued, acts⟩ := exists_arrived h
  refine ⟨e, queued, (acts _).trans ?_⟩
  refine (if_neg (by rw [queued.skew, hskew]; simp)).trans ?_
  rw [queued.reads, hread]

end

/-- What comes late is counted in its field of FLU_LATE. -/
theorem flueLate_count (d : Dev) {f : Fld} (hf : f.lsb + f.width ≤ 32) :
    (d.flueLate f).getF R.FLU_LATE f = capAt (d.getF R.FLU_LATE f + 1) (2 ^ f.width - 1) := by
  rw [Dev.flueLate, Dev.flueInt, getF_eq_of_reg _ (reg_latch_other _ _ _ _ (by decide)), getF_bump_same _ _ _ _ hf]

/-! ### FLU_RACC -/

theorem raccResponse_data (d : Dev) (high : Nat) (payload : List Nat) :
    (d.raccResponse high 0 payload).reg R.FLU_RACC_DATA = BitVec.ofNat 32 (nth payload 0 0 / 2 ^ (32 * high)) := by
  rw [Dev.raccResponse, raccEnd_regsBut _ _ _ (by decide)]
  exact reg_setReg_same _ _ _

theorem raccResponse_flue (d : Dev) (high status : Nat) (payload : List Nat) : (d.raccResponse high status payload).flue = d.flue := by
  rw [Dev.raccResponse, raccEnd_flue]
  split <;> rfl

/-! ### FLUE_DMA -/

theorem dmaEnd_mem (d : Dev) (n status : Nat) : (d.dmaEnd n status).mem = d.mem ∧ (d.dmaEnd n status).flue = d.flue := by
  obtain ⟨rings, only⟩ := dmaEnd_only d n status
  rw [only]
  exact ⟨rfl, rfl⟩

theorem slice_whole {bs : List Byte} {n : Nat} (h : bs.length = n) : slice bs 0 n = bs := by
  subst h
  simp [slice]

section
variable {d : Dev} {n : Nat} {q : Desc} (hq : (d.ring n).current = some q)
include hq

theorem dmaTake_stopped {status : Nat} (bs : List Byte) (h : status ≠ 0) : d.dmaTake n status bs = d.dmaEnd n stAccessDenied := by
  rw [Dev.dmaTake, hq]
  exact if_pos h

/-- The device in which 64 bytes of a FLUE_DMA have been stored. -/
def dmaStored (d : Dev) (n a : Nat) (bs : List Byte) : Dev := (d.write a bs).modRing n (fun r => { r with dmaMoved := r.dmaMoved + 64 })

/-- The last 64 bytes of a FLUE_DMA are stored and end it. -/
theorem dmaTake_last {bs : List Byte} (hlocal : d.ringRemote n = false) (hlast : q.get 32 4 ≤ (d.ring n).dmaMoved + 64) (hbs : bs.length = 64)
    (hw : Unwatched d (q.get 16 8 + (d.ring n).dmaMoved) 64) :
    d.dmaTake n 0 bs = (dmaStored d n (q.get 16 8 + (d.ring n).dmaMoved) bs).dmaEnd n stOk := by
  have moved : ((dmaStored d n (q.get 16 8 + (d.ring n).dmaMoved) bs).ring n).dmaMoved = (d.ring n).dmaMoved + 64 := by
    rw [dmaStored, ring_modRing_same]
    rfl
  have local_ : ¬d.ringRemote n = true := by rw [hlocal]; decide
  rw [Dev.dmaTake, hq]
  refine (if_neg (not_not.mpr rfl)).trans ?_
  rw [slice_whole hbs]
  extract_lets a stored
  have unwatched : stored = d.write a bs := (if_neg local_).trans (writeMem_unwatched (hbs.symm ▸ hw))
  rw [unwatched]
  exact if_pos (moved.symm ▸ hlast)

end

/-! ### Fetches -/

/-- The device in which a ring has no READ in flight for a fetch. -/
def fetchGone (d : Dev) (n : Nat) : Dev := { d with flue := { d.flue with reads := d.flue.reads.filter (fun x => x.2 != ReadFor.fetch n) } }

theorem fetchDone_arrived {d : Dev} {n : Nat} (h : (d.ring n).fetching = true) (bs : List Byte) : d.fetchDone n (.arrived bs) =
    (fetchGone d n).modRing n (fun r => { r with fetching := false, fetchTries := 0, slotBytes := some (slice bs 0 64) }) := by
  rw [Dev.fetchDone, if_neg (by rw [h]; decide)]
  rfl

theorem mapFind_none_iff {α : Type} (m : List (Nat × α)) (i : Nat) : mapFind m i = none ↔ ∀ x ∈ m, x.1 ≠ i := by
  induction m with
  | nil => simp [mapFind]
  | cons c t ih =>
    rw [mapFind]
    split <;> simp_all

theorem mapFind_fetchGone {d : Dev} {n tag : Nat} (h : mapFind d.flue.reads tag = none) : mapFind (fetchGone d n).flue.reads tag = none :=
  (mapFind_none_iff _ _).mpr fun x hx => (mapFind_none_iff _ _).mp h x (List.mem_of_mem_filter hx)

/-! ### The clauses -/

section
variable {s : State} {p : Fin 4} {k : Packet} (h : Arrives s.dev p ptResponse k) (hskew : s.dev.flue.skew = none)
include h hskew

theorem response_racc {dest high : Nat} (hread : mapFind s.dev.flue.reads k.tag = some (.racc dest high)) (hblocks : k.arg = 0 → k.payload.length = 1) :
    Completes (.response p k) s (fun e => e.getF R.FLU_RACC_CTRL F.FLU_RACC_CTRL_BUSY = 0 ∧ e.getF R.FLU_RACC_CTRL F.FLU_RACC_CTRL_STATUS = k.arg ∧
      mapFind e.flue.reads k.tag = none ∧ (k.arg = 0 → e.reg R.FLU_RACC_DATA = BitVec.ofNat 32 (nth k.payload 0 0 / 2 ^ (32 * high)))) := by
  refine completes_canon (f := fun d => d.fluResponse p k) rfl (fun _ h => h) ?_
  obtain ⟨e, -, ended⟩ := response_ends h hskew hread hblocks
  rw [ended, readAnswered]
  refine ⟨raccEnd_busy _ _, raccEnd_status _ (response_status h), ?_, fun h0 => ?_⟩
  · rw [raccResponse_flue, mapFind_readGone]
  · rw [h0, raccResponse_data]

theorem response_dmaDenied {n dest : Nat} {q : Desc} (hread : mapFind s.dev.flue.reads k.tag = some (.dma n dest))
    (hq : (s.dev.ring n).current = some q) (harg : k.arg ≠ 0) :
    Completes (.response p k) s (fun e => DmaEnds n q stAccessDenied (s.dev.ring n).dmaMoved s.dev e ∧ mapFind e.flue.reads k.tag = none) := by
  refine completes_canon (f := fun d => d.fluResponse p k) rfl (fun _ h => h) ?_
  obtain ⟨e, queued, ended⟩ := response_ends h hskew hread fun h0 => absurd h0 harg
  have ring : (readGone e k.tag).ring n = s.dev.ring n := queued.ring n
  have current : ((readGone e k.tag).ring n).current = some q := ring ▸ hq
  have ends := dmaEnd_ends current stAccessDenied
  rw [DmaEnds, ring] at ends
  rw [ended, readAnswered, dmaTake_stopped current _ harg, (dmaEnd_mem _ _ _).2]
  exact ⟨ends, mapFind_readGone _ _⟩

theorem response_dmaLast {n dest a : Nat} {q : Desc} (hread : mapFind s.dev.flue.reads k.tag = some (.dma n dest))
    (hq : (s.dev.ring n).current = some q) (hinv : s.Inv) (harg : k.arg = 0) (hlen : k.payload.length = 8) (hlocal : s.dev.ringRemote n = false)
    (hlast : q.get 32 4 ≤ (s.dev.ring n).dmaMoved + 64) (ha : a = q.get 16 8 + (s.dev.ring n).dmaMoved) (hw : Unwatched s.dev a 64) :
    Completes (.response p k) s (fun e => DmaEnds n q stOk ((s.dev.ring n).dmaMoved + 64) s.dev e ∧ e.read a 64 = k.bytes ∧
      ∀ b, b < a ∨ a + 64 ≤ b → memByte e.mem b = memByte s.dev.mem b) := by
  obtain ⟨e, queued, ended⟩ := response_ends h hskew hread fun _ => hlen
  have bytes : k.bytes.length = 64 := by rw [length_packetBytes, hlen]
  have ring : (readGone e k.tag).ring n = s.dev.ring n := queued.ring n
  have current : ((readGone e k.tag).ring n).current = some q := ring ▸ hq
  have mem : (readGone e k.tag).mem = s.dev.mem := queued.mem
  have taken := dmaTake_last current (bs := k.bytes) ((queued.flag _ _).trans hlocal) (ring.symm ▸ hlast) bytes
    (by rw [ring, ← ha]; exact queued.unwatched hw)
  rw [ring, ← ha] at taken
  generalize readGone e k.tag = g at *
  have storedRing : (dmaStored g n a k.bytes).ring n = { s.dev.ring n with dmaMoved := (s.dev.ring n).dmaMoved + 64 } := by
    rw [← ring]
    exact ring_modRing_same _ _ _
  have storedMem : ((dmaStored g n a k.bytes).dmaEnd n stOk).mem = memWrite s.dev.mem a k.bytes := by
    rw [(dmaEnd_mem _ _ _).1, ← mem]
    rfl
  have ends := dmaEnd_ends (d := dmaStored g n a k.bytes) (q := q) (by rw [storedRing]; exact hq) stOk
  rw [DmaEnds, storedRing] at ends
  refine completes_act (f := fun d => d.fluResponse p k) rfl ?_
  rw [ended, readAnswered, harg, taken, canon_of_wf (storedMem ▸ write_wf s.dev a k.bytes hinv)]
  refine ⟨ends, ?_, fun b hb => ?_⟩
  · have back := read_write_same s.dev a k.bytes
    rw [bytes] at back
    rw [Dev.read, storedMem]
    exact back
  · rw [storedMem]
    exact memByte_memWrite_other _ _ _ _ (by rwa [bytes])

theorem response_fetch {n : Nat} (hread : mapFind s.dev.flue.reads k.tag = some (.fetch n)) (hfetching : (s.dev.ring n).fetching = true)
    (harg : k.arg = 0) (hlen : k.payload.length = 8) :
    Completes (.response p k) s (fun e => (e.ring n).slotBytes = some k.bytes ∧ (e.ring n).fetching = false ∧ mapFind e.flue.reads k.tag = none) := by
  refine completes_canon (f := fun d => d.fluResponse p k) rfl (fun _ h => h) ?_
  obtain ⟨e, queued, ended⟩ := response_ends h hskew hread fun _ => hlen
  have bytes : k.bytes.length = 64 := by rw [length_packetBytes, hlen]
  have fetching : ((readGone e k.tag).ring n).fetching = true := (queued.ring n).symm ▸ hfetching
  rw [ended, readAnswered, if_pos harg, fetchDone_arrived fetching, slice_whole bytes, ring_modRing_same]
  exact ⟨rfl, rfl, mapFind_fetchGone (mapFind_readGone e k.tag)⟩

theorem response_isLate (hread : mapFind s.dev.flue.reads k.tag = none) : Completes (.response p k) s (fun e =>
    e.getF R.FLU_LATE F.FLU_LATE_RESPONSES = capAt (s.dev.getF R.FLU_LATE F.FLU_LATE_RESPONSES + 1) (2 ^ F.FLU_LATE_RESPONSES.width - 1) ∧
      e.flue.reads = s.dev.flue.reads) := by
  refine completes_canon (f := fun d => d.fluResponse p k) rfl (fun _ h => h) ?_
  obtain ⟨e, queued, late⟩ := response_late h hskew hread
  rw [late, flueLate_count _ (by decide), queued.getF]
  exact ⟨rfl, queued.reads⟩

end

end Sys2Proof.Proofs
end

section
/-! PROOFS. MESSAGE packets: a word of another device enters a mailbox (spec/15 R406-R415, spec/12 R337; the permission that it needs
is the model's reading, log entry 54). -/

namespace Sys2Proof.Proofs

open Sys2Proof Sys2Proof.Machine

set_option Elab.async false

/-! ### Words that wait in a mailbox -/

theorem mbxBox_modMbx_same (d : Dev) (n : Nat) (f : Mbx → Mbx) : (d.modMbx n f).mbxBox n = f (d.mbxBox n) := mapGet_mapSet_same _ _ _ _

/-- The words of a mailbox, and every register but its STATUS, are as they were. -/
structure MailStands (n : Nat) (d e : Dev) : Prop where
  words : ∀ x, (e.mbxBox n).outQ x = (d.mbxBox n).outQ x := by exact fun _ => rfl
  reg : ∀ off, off ≠ R.MBX_STATUS n → e.reg off = d.reg off := by exact fun _ _ => rfl

namespace MailStands

variable {n : Nat}

theorem refl (d : Dev) : MailStands n d d := {}

theorem trans {d e f : Dev} (h : MailStands n d e) (g : MailStands n e f) : MailStands n d f :=
  ⟨fun x => (g.words x).trans (h.words x), fun off ho => (g.reg off ho).trans (h.reg off ho)⟩

theorem ite {c : Prop} [Decidable c] {d a b : Dev} (ha : MailStands n d a) (hb : MailStands n d b) : MailStands n d (if c then a else b) := by
  split <;> assumption

theorem modMbx (d : Dev) {f : Mbx → Mbx} (hf : ∀ m x, (f m).outQ x = m.outQ x) : MailStands n d (d.modMbx n f) where
  words x := by
    rw [mbxBox_modMbx_same]
    exact hf _ x

theorem setWait_outQ (m : Mbx) (s x : Side) (w : MbxWait) : (m.setWait s w).outQ x = m.outQ x := by
  cases s <;> cases x <;> rfl

theorem mbxEvent (d : Dev) (s : Side) : MailStands n d (d.mbxEvent n s) where
  reg off ho := reg_setF_other _ _ _ _ _ ho

theorem mbxEndWait (d : Dev) (s : Side) (result : Nat) : MailStands n d (d.mbxEndWait n s result) := by
  have ended : MailStands n d (d.modMbx n (fun m => m.setWait s { m.wait s with result := result })) := modMbx d fun m x => setWait_outQ m s x _
  exact ite ended (ended.trans (mbxEvent _ s))

theorem mbxLate (d : Dev) (s : Side) (mode : Nat) : MailStands n d (d.mbxLate n s mode) :=
  modMbx d fun m x => by
    split
    · exact setWait_outQ m s x _
    · rfl

theorem mbxWaits (d : Dev) : MailStands n d (d.mbxWaits n) := by
  have met : ∀ (d : Dev) s, MailStands n d (if (d.mbxBox n).waitMet s then d.mbxEndWait n s wrDone else d) := fun d s => ite (mbxEndWait d s _) (refl d)
  exact ((met d .a).trans (met _ .b)).trans (ite ((mbxEndWait _ .a _).trans (mbxEndWait _ .b _)) (refl _))

end MailStands

/-- An endpoint's epoch stands in the MBX_EPOCH registers. -/
theorem epochOf_congr {d e : Dev} (h : ∀ off, 0x50004 ≤ off → off ≤ 0x50010 → e.reg off = d.reg off) (id : Nat) : e.epochOf id = d.epochOf id := by
  have field : ∀ off f, 0x50004 ≤ off → off ≤ 0x50010 → e.getF off f = d.getF off f := fun off f lo hi => getF_eq_of_reg f (h off lo hi)
  simp only [Dev.epochOf, field _ _ (show 0x50004 ≤ R.MBX_EPOCH_CORE_LO by decide) (by decide), field _ _ (show 0x50004 ≤ R.MBX_EPOCH_CORE_HI by decide) (by decide),
    field _ _ (show 0x50004 ≤ R.MBX_EPOCH_OTHER by decide) (by decide), field _ _ (show 0x50004 ≤ R.MBX_EPOCH_FLUE by decide) (by decide)]

theorem outQ_setOut (m : Mbx) (s : Side) (l : List MbxMsg) : (m.setOut s l).outQ s = l := by
  cases s <;> rfl

/-- A word that enters a mailbox is the last of its queue, stamped with the epochs of both ends. -/
theorem mbxPost_posts (d : Dev) (n : Nat) (x : Side) (word : Nat) :
    ((d.mbxPost n x word).mbxBox n).outQ x =
      (d.mbxBox n).outQ x ++ [⟨word, d.mbxId n x, d.epochOf (d.mbxId n x), d.epochOf (d.mbxId n x.other)⟩] ∧
    ∀ id, (d.mbxPost n x word).epochOf id = d.epochOf id := by
  unfold Dev.mbxPost
  extract_lets word_ was entered told
  have posted : (entered.mbxBox n).outQ x = (d.mbxBox n).outQ x ++ [word_] :=
    (congrArg (fun m : Mbx => m.outQ x) (mbxBox_modMbx_same d n _)).trans (outQ_setOut _ _ _)
  have stands : MailStands n entered ((told.mbxLate n x.other wmMessage).mbxWaits n) :=
    (((MailStands.ite (MailStands.mbxEvent _ _) (MailStands.refl _) : MailStands n entered told).trans (MailStands.mbxLate _ _ _))).trans
      (MailStands.mbxWaits _)
  refine ⟨(stands.words x).trans posted, epochOf_congr fun off lo hi => ?_⟩
  exact stands.reg off (by simp only [R.MBX_STATUS]; omega)

/-! ### The arrival of a MESSAGE -/

section
variable {s : State} {p : Fin 4} {k : Packet}

theorem Queued.mbxId {d e : Dev} (h : Queued d e) (n : Nat) (x : Side) : e.mbxId n x = d.mbxId n x := by
  cases x <;> exact h.getF _ _

theorem Queued.mbxSide {d e : Dev} (h : Queued d e) (n id : Nat) : e.mbxSide n id = d.mbxSide n id := by
  rw [Dev.mbxSide, Dev.mbxOn, h.flag, h.mbxId, h.mbxId, Dev.mbxSide, Dev.mbxOn]

theorem Queued.permReg {d e : Dev} (h : Queued d e) (origin off : Nat) (write : Bool) : e.permReg origin off write = d.permReg origin off write := by
  rw [Dev.permReg, bitOf_eq_of_reg _ (h.reg _), Dev.permReg]

theorem mbxId_of_side {d : Dev} {n id : Nat} {x : Side} (h : d.mbxSide n id = some x) : d.mbxId n x = id := by
  unfold Dev.mbxSide at h
  split at h
  · cases h
  split at h
  · next ha => cases h; exact ha
  split at h
  · next hb => cases h; exact hb
  · cases h

/-- The epoch that a MESSAGE brings is its port's from then on. -/
theorem epochOf_port (d : Dev) {p : Nat} (hp : p < 4) {v : Nat} (hv : v < 256) : (d.setF R.MBX_EPOCH_FLUE ⟨8 * p, 8⟩ v).epochOf (0x40 + p) = v := by
  have kernel : ¬isKernel (0x40 + p) = true := by simp [isKernel]; omega
  rw [Dev.epochOf]
  dsimp only
  rw [if_neg kernel, if_neg (by omega), if_neg (by omega), if_neg (by omega), if_pos (by omega), Nat.add_sub_cancel_left, getF_setF_same _ _ _ _ (by simp only; omega)]
  exact Nat.mod_eq_of_lt hv

theorem message_posts {x : Side} {b : Nat} (h : Arrives s.dev p ptMessage k) (hpayload : k.payload = [b]) (hb : b < 2 ^ 40)
    (hperm : s.dev.permReg (0x40 + p) (R.MBX_TX k.arg) true = true) (hside : s.dev.mbxSide k.arg (0x40 + p) = some x)
    (hroom : s.dev.mbxFull k.arg x = false) : Completes (.message p k) s (fun e =>
      (e.mbxBox k.arg).outQ x = (s.dev.mbxBox k.arg).outQ x ++ [⟨b % 2 ^ 32, 0x40 + p, b / 2 ^ 32, e.epochOf (s.dev.mbxId k.arg x.other)⟩] ∧
        e.epochOf (0x40 + p) = b / 2 ^ 32) := by
  refine completes_canon (f := fun d => d.fluMessage p k) rfl (fun _ h => h) ?_
  obtain ⟨e, queued, acts⟩ := exists_arrived h
  have word : nth k.payload 0 0 = b := by rw [hpayload]; rfl
  have perm : e.permReg (0x40 + p) (R.MBX_TX k.arg) true = true := (queued.permReg _ _ _).trans hperm
  have box : ∀ n, e.mbxBox n = s.dev.mbxBox n := fun n => by rw [Dev.mbxBox, queued.mbx, Dev.mbxBox]
  have room : ¬e.mbxFull k.arg x = true := by rw [Dev.mbxFull, box, ← Dev.mbxFull, hroom]; decide
  have posted : s.dev.fluMessage p k = (e.setF R.MBX_EPOCH_FLUE ⟨8 * p, 8⟩ (b / 2 ^ 32)).mbxPost k.arg x (b % 2 ^ 32) := by
    rw [Dev.fluMessage, acts, word]
    refine (if_neg (by omega)).trans ((if_neg (by rw [perm]; decide)).trans ?_)
    rw [Dev.mbxMessage, queued.mbxSide, hside]
    exact if_neg room
  have sides : ∀ y, (e.setF R.MBX_EPOCH_FLUE ⟨8 * p, 8⟩ (b / 2 ^ 32)).mbxId k.arg y = s.dev.mbxId k.arg y := fun y => by
    rw [← queued.mbxId]
    cases y <;> exact getF_setF_other _ _ _ _ _ _ (by simp only [R.MBX_CFG, R.MBX_EPOCH_FLUE]; omega)
  have stamp := epochOf_port e p.isLt (v := b / 2 ^ 32) (by omega)
  obtain ⟨words, epochs⟩ := mbxPost_posts (e.setF R.MBX_EPOCH_FLUE ⟨8 * p, 8⟩ (b / 2 ^ 32)) k.arg x (b % 2 ^ 32)
  rw [sides, sides, mbxId_of_side hside, stamp] at words
  rw [posted, epochs, epochs, stamp, words]
  exact ⟨congrArg (fun m : Mbx => m.outQ x ++ _) (box _), rfl⟩

end

end Sys2Proof.Proofs
end

section
/-! PROOFS. Epoch markers (spec/12 R341; which multiples of MARKER_EVERY a marker names is the model's choice, log entry 118). -/

namespace Sys2Proof.Proofs

open Sys2Proof Sys2Proof.Machine

set_option Elab.async false

/-! ### The manager's marker -/

/-- The manager has named an epoch. -/
def markerNamed (d : Dev) (a : Nat) : Dev := { d with flue := { d.flue with marked := some a, joinDue := false } }

/-- The packet that names an epoch. -/
def markerPacket (d : Dev) (a : Nat) : Packet := ⟨ptMarker, destAll, d.deviceNum, 0, 0, 0, 0, [a]⟩

theorem markerSend_names {d : Dev} (hrole : d.role = 1) (hknown : d.flue.known = true) (hmarked : d.flue.marked ≠ some (d.flue.epoch + 1))
    (hdue : d.flue.joinDue = true ∨ (d.flue.epoch + 1) % d.getF R.FLU_CFG F.FLU_CFG_MARKER_EVERY = 0) :
    d.markerSend = d.downPorts.foldl (fun e q => e.enqueue q (markerPacket d (d.flue.epoch + 1))) (markerNamed d (d.flue.epoch + 1)) :=
  (if_pos ⟨hrole, hknown, hmarked, hdue.symm⟩).trans (if_pos rfl)

theorem markerSend_silent {d : Dev} (h : d.flue.marked = some (d.flue.epoch + 1) ∨
    (d.flue.joinDue = false ∧ (d.flue.epoch + 1) % d.getF R.FLU_CFG F.FLU_CFG_MARKER_EVERY ≠ 0)) : d.markerSend = d := by
  refine if_neg ?_
  rintro ⟨-, -, hmarked, hdue⟩
  rcases h with named | ⟨hjoin, hevery⟩
  · exact hmarked named
  · rcases hdue with every | join
    · exact hevery every
    · rw [hjoin] at join
      cases join

section
variable {s : State} {a : Nat} (ha : a = s.dev.flue.epoch + 1)
include ha

theorem epochMarkerSend_sends (hrole : s.dev.role = 1) (hknown : s.dev.flue.known = true) (hmarked : s.dev.flue.marked ≠ some a)
    (hdue : s.dev.flue.joinDue = true ∨ a % s.dev.getF R.FLU_CFG F.FLU_CFG_MARKER_EVERY = 0) :
    Completes .epochMarkerSend s (fun e => (∀ q ∈ s.dev.downPorts, Sent q (markerPacket s.dev a) e) ∧ e.regs = s.dev.regs ∧
      e.flue.epoch = s.dev.flue.epoch ∧ e.flue.marked = some a ∧ e.flue.joinDue = false) := by
  subst ha
  refine completes_canon (f := Dev.markerSend) rfl (fun _ h => h) ?_
  have queued := Queued.foldl_enqueue (markerNamed s.dev (s.dev.flue.epoch + 1)) s.dev.downPorts (markerPacket s.dev (s.dev.flue.epoch + 1))
  rw [markerSend_names hrole hknown hmarked hdue]
  refine ⟨fun q hq => Sends.sent_foldl_enqueue _ _ _ hq, queued.regs, queued.epoch, ?_, ?_⟩
  · obtain ⟨_, _, only⟩ := queued.only
    rw [only]
    rfl
  · obtain ⟨_, _, only⟩ := queued.only
    rw [only]
    rfl

theorem epochMarkerSend_silent (hinv : s.Inv) (h : s.dev.flue.marked = some a ∨
    (s.dev.flue.joinDue = false ∧ a % s.dev.getF R.FLU_CFG F.FLU_CFG_MARKER_EVERY ≠ 0)) : exec .epochMarkerSend s = .next s := by
  subst ha
  exact exec_eq_self (f := Dev.markerSend) rfl (markerSend_silent h) hinv

end

/-! ### A marker that arrives -/

/-- The device in which a marker in time has been taken. -/
def markerSeen (d : Dev) (a : Nat) : Dev := Dev.latch { d with flue := { d.flue with assign := some a } } R.FLU_STATUS F.FLU_STATUS_MARKER_SEEN

/-- The device in which a marker for another epoch than the next has been counted. -/
def markerClashed (d : Dev) (a : Nat) : Dev := ((markerSeen d a).bump R.FLU_STATUS F.FLU_STATUS_MISMATCH_COUNT).flueInt F.FLU_INT_STATUS_EPOCH_MISMATCH

theorem markerSeen_shown (d : Dev) (a : Nat) : (markerSeen d a).getF R.FLU_STATUS F.FLU_STATUS_MARKER_SEEN = 1 := getF_setF_same _ _ _ 1 (by decide)

theorem markerClashed_shown (d : Dev) (a : Nat) : (markerClashed d a).getF R.FLU_STATUS F.FLU_STATUS_MARKER_SEEN = 1 := by
  rw [markerClashed, Dev.flueInt, getF_eq_of_reg _ (reg_latch_other _ _ _ _ (by decide)), Dev.bump,
    getF_setF_disjoint _ _ _ _ _ (by decide) (by decide)]
  exact markerSeen_shown d a

/-- A marker in time is taken for the next edge. -/
theorem marker_taken {d : Dev} {a : Nat} (h : d.flue.known = false ∨ d.flue.epoch < a) :
    (d.marker a).flue.assign = some a ∧ (d.marker a).flag R.FLU_STATUS F.FLU_STATUS_MARKER_SEEN = true := by
  have early : ¬(d.flue.known && decide (a ≤ d.flue.epoch)) = true := by
    simp only [Bool.and_eq_true, decide_eq_true_eq, not_and]
    intro hknown
    rcases h with unknown | later
    · rw [unknown] at hknown
      cases hknown
    · omega
  have taken : d.marker a = if d.flue.known && a != d.flue.assign.getD (d.flue.epoch + 1)
      then (markerClashed d a).smotherAll (markerClashed d a).activeSites 2 else markerSeen d a := if_neg early
  rw [taken]
  split
  · have numbers := NumbersStand.smotherAll (markerClashed d a) (markerClashed d a).activeSites 2
    have ports := PortsStand.smotherAll (markerClashed d a) (markerClashed d a).activeSites 2
    exact ⟨numbers.assign, flag_of_getF ((getF_eq_of_reg _ (ports.status R.FLU_STATUS (by decide))).trans (markerClashed_shown d a))⟩
  · exact ⟨rfl, flag_of_getF (markerSeen_shown d a)⟩

/-- A marker that comes after the edge of its epoch is counted. -/
theorem marker_late {d : Dev} {a : Nat} (hknown : d.flue.known = true) (h : a ≤ d.flue.epoch) : d.marker a = d.flueLate F.FLU_LATE_EVENTS := by
  rw [Dev.marker, if_pos (by simp [hknown, h])]

section
variable {s : State} {p : Fin 4} {k : Packet} {a : Nat} (h : Arrives s.dev p ptMarker k) (hpayload : k.payload = [a])
include h hpayload

theorem exists_marked : ∃ e, Queued s.dev e ∧ s.dev.markerPacket p k = e.marker a := by
  obtain ⟨e, queued, acts⟩ := exists_arrived h
  refine ⟨e, queued, (acts _).trans ?_⟩
  rw [hpayload]
  rfl

theorem epochMarker_taken (hearly : s.dev.flue.known = false ∨ s.dev.flue.epoch < a) :
    Completes (.epochMarker p k) s (fun e => e.flue.assign = some a ∧ e.flag R.FLU_STATUS F.FLU_STATUS_MARKER_SEEN = true) := by
  refine completes_canon (f := fun d => d.markerPacket p k) rfl (fun _ h => h) ?_
  obtain ⟨e, queued, marked⟩ := exists_marked h hpayload
  rw [marked]
  exact marker_taken (by rwa [queued.known, queued.epoch])

theorem epochMarker_late (hknown : s.dev.flue.known = true) (hlate : a ≤ s.dev.flue.epoch) :
    Completes (.epochMarker p k) s (fun e => e.flue.assign = s.dev.flue.assign ∧ e.seq = s.dev.seq ∧
      e.getF R.FLU_LATE F.FLU_LATE_EVENTS = capAt (s.dev.getF R.FLU_LATE F.FLU_LATE_EVENTS + 1) (2 ^ F.FLU_LATE_EVENTS.width - 1)) := by
  refine completes_canon (f := fun d => d.markerPacket p k) rfl (fun _ h => h) ?_
  obtain ⟨e, queued, marked⟩ := exists_marked h hpayload
  rw [marked, marker_late (queued.known.trans hknown) (by rwa [queued.epoch]), flueLate_count _ (by decide), queued.getF]
  exact ⟨queued.assign, queued.seq, rfl⟩

end

end Sys2Proof.Proofs
end

section
/-! PROOFS. A start that comes as a Flue event (spec/12 R344, R346, spec/13 R363, R369, R381; outside GLOW and BLAZE it is only counted as late, the
model's choice, log entry 55). -/

namespace Sys2Proof.Proofs

open Sys2Proof Sys2Proof.Machine

set_option Elab.async false

/-! ### What the judgement looks at -/

namespace Queued

variable {d e : Dev} (h : Queued d e)
include h

theorem view : SameView d e := by
  obtain ⟨_, _, rfl⟩ := h.only
  exact {}

theorem judgeEvent (n : Nat) (q : Desc) : e.judgeEvent n q = d.judgeEvent n q := by
  obtain ⟨_, _, rfl⟩ := h.only
  rfl

theorem startOfDesc (n : Nat) (q : Desc) : e.startOfDesc n q true = d.startOfDesc n q true := by
  simp only [Dev.startOfDesc, h.seq, Bool.true_or]

theorem running : e.running = d.running := by
  obtain ⟨_, _, rfl⟩ := h.only
  rfl

end Queued

/-! ### The start that an event brings -/

/-- What a start that came as an event does on ring `n`: it is counted as late, declined, or waits there to be decided. -/
def eventActs (d : Dev) (n : Nat) (q : Desc) (r : Start) : Dev :=
  if !d.running then d.flueLate F.FLU_LATE_EVENTS
  else match d.judgeEvent n q with
    | some (.denied kind) => declined (d.violation q.origin 0 kind) r stAccessDenied 0 0 false
    | some (.refused c) => declined d r stRefused (refuseArg c) 0 false
    | none => (d.modRing n (fun x => { x with events := x.events ++ [q] })).startEvents n

theorem startEvent_acts {d : Dev} {p : Nat} {k : Packet} {q : Desc} {r : Start} (h : Arrives d p ptEvent k) (hkind : k.evKind = evStart)
    (hsrc : k.src ≠ d.deviceNum) (hq : q = ⟨slice k.evBody 0 64, d.ringOrigin k.arg, 0⟩) (hr : r = d.startOfDesc k.arg q true) :
    ∃ e, Queued d e ∧ d.startEvent p k = eventActs e k.arg q r := by
  obtain ⟨e, queued, acts⟩ := exists_eventArrived h hkind hsrc
  have sameDesc : (⟨slice k.evBody 0 64, e.ringOrigin k.arg, 0⟩ : Desc) = q := by rw [hq, Dev.ringOrigin, queued.getF, Dev.ringOrigin]
  have sameStart : e.startOfDesc k.arg q true = r := (queued.startOfDesc _ _).trans hr.symm
  refine ⟨e, queued, (acts _).trans ?_⟩
  rw [← sameStart, ← sameDesc]
  rfl

section
variable {d : Dev} {n : Nat} {q : Desc} {r : Start}

theorem eventActs_late (hrun : d.running = false) : eventActs d n q r = d.flueLate F.FLU_LATE_EVENTS := if_pos (by rw [hrun]; rfl)

section
variable (hrun : d.running = true)
include hrun

theorem eventActs_refused {c : Nat} (h : d.judgeEvent n q = some (.refused c)) : eventActs d n q r = declined d r stRefused (refuseArg c) 0 false := by
  rw [eventActs, if_neg (by rw [hrun]; decide), h]

theorem eventActs_denied {kind : Nat} (h : d.judgeEvent n q = some (.denied kind)) :
    eventActs d n q r = declined (d.violation q.origin 0 kind) r stAccessDenied 0 0 false := by
  rw [eventActs, if_neg (by rw [hrun]; decide), h]

theorem eventActs_waits (h : d.judgeEvent n q = none) :
    eventActs d n q r = (d.modRing n (fun x => { x with events := x.events ++ [q] })).startEvents n := by
  rw [eventActs, if_neg (by rw [hrun]; decide), h]

end

/-! ### A start that is declined -/

/-- The completion of a start that came as an event is its ring's last. -/
theorem declined_event (d : Dev) {r : Start} (status arg0 arg1 : Nat) (hevent : r.event = true) :
    ((declined d r status arg0 arg1 false).ring r.ring).held =
      (d.ring r.ring).held ++ [⟨r.hostSeq, opStart, status, 2 + 8 * bit r.irq, arg0, arg1, false⟩] := by
  have rings : (d.declineStart r).ring r.ring = d.ring r.ring := by rw [Dev.ring, Dev.ring, (Sends.declineStart d r).rings]
  refine (congrArg RingSt.held (ring_modRing_same _ _ _)).trans ?_
  rw [rings, hevent]
  rfl

theorem declined_bitOf (d : Dev) (r : Start) (status arg0 arg1 b : Nat) :
    (declined d r status arg0 arg1 false).bitOf R.FLT_WORD_LO b = d.bitOf R.FLT_WORD_LO b :=
  bitOf_eq_of_reg b ((Sends.declineStart d r).reg _ (by decide))

theorem violation_bitOf (d : Dev) (origin addr kind : Nat) : (d.violation origin addr kind).bitOf R.FLT_WORD_LO 20 = true :=
  raise_bitOf _ _ (by decide)

/-! ### A start that waits, and is decided -/

/-- The ring with the start that came as an event alone among its events. -/
def eventHeld (d : Dev) (n : Nat) (q : Desc) : Dev := d.modRing n (fun x => { x with events := x.events ++ [q] })

/-- The start has left the events of its ring, and is logged. -/
def eventTaken (d : Dev) (n : Nat) (q : Desc) : Dev := ((eventHeld d n q).modRing n (fun x => { x with events := [] })).logDesc n q

theorem eventHeld_view (d : Dev) (n : Nat) (q : Desc) : SameView d (eventHeld d n q) := {}

theorem eventTaken_view (d : Dev) (n : Nat) (q : Desc) : SameView d (eventTaken d n q) := by
  unfold eventTaken Dev.logDesc
  split <;> exact {}

theorem eventHeld_events (hevents : (d.ring n).events = []) : ((eventHeld d n q).ring n).events = [q] := by
  rw [eventHeld, ring_modRing_same]
  exact congrArg (· ++ [q]) hevents

variable (hr : r = d.startOfDesc n q true) (hevents : (d.ring n).events = [])
include hr hevents

theorem startEvents_one : (eventHeld d n q).startEvents n =
    if ((eventHeld d n q).decideStart r).isNone then eventHeld d n q else ((eventTaken d n q).decideStart r).getD (eventTaken d n q) := by
  have same : (eventHeld d n q).startOfDesc n q true = r := hr.symm
  rw [Dev.startEvents, eventHeld_events hevents]
  dsimp only
  rw [same]
  rfl

theorem startEvents_held (hheld : d.judgeStart r.sites r.epoch r.unadmitted = .held) : (eventHeld d n q).startEvents n = eventHeld d n q := by
  have none := decideStart_held (((eventHeld_view d n q).judgeStart r.sites r.epoch r.unadmitted).trans hheld)
  rw [startEvents_one hr hevents, none]
  rfl

theorem startEvents_accepted (haccepted : d.judgeStart r.sites r.epoch r.unadmitted = .accepted)
    (hgroups : (d.takeGroups (d.formGroups r.sites)).isSome = true) : ∃ e, (eventHeld d n q).startEvents n = e ∧ Accepted r (eventTaken d n q) e := by
  have view := eventTaken_view d n q
  have groups := takeGroups_seq ((eventTaken d n q).formGroups r.sites) view.seq
  rw [view.formGroups r.sites] at groups
  have engines := congrArg Option.isSome groups
  rw [Option.isSome_map, Option.isSome_map, hgroups, ← view.formGroups r.sites] at engines
  obtain ⟨e, haccept, accepted⟩ := acceptStart_some engines
  have decided := decideStart_accepted ((view.judgeStart r.sites r.epoch r.unadmitted).trans haccepted) haccept
  have first := (eventHeld_view d n q).judgeStart r.sites r.epoch r.unadmitted
  obtain ⟨_, some, -⟩ := decideStart_decided (d := eventHeld d n q) (r := r) (by rw [first, haccepted]; exact StartEnd.noConfusion)
  refine ⟨e, ?_, accepted⟩
  rw [startEvents_one hr hevents, some, decided]
  rfl

end

/-! ### The clauses -/

section
variable {s : State} {p : Fin 4} {k : Packet} {q : Desc} {r : Start} (h : Arrives s.dev p ptEvent k) (hkind : k.evKind = evStart)
  (hsrc : k.src ≠ s.dev.deviceNum) (hq : q = ⟨slice k.evBody 0 64, s.dev.ringOrigin k.arg, 0⟩) (hr : r = s.dev.startOfDesc k.arg q true)
include h hkind hsrc hq hr

theorem startEvent_late (hrun : s.dev.running = false) : Completes (.startEvent p k) s (fun e => e.seq = s.dev.seq ∧ e.rings = s.dev.rings ∧
    e.flag R.FLU_INT_STATUS F.FLU_INT_STATUS_LATE = true) := by
  refine completes_canon (f := fun d => d.startEvent p k) rfl (fun _ h => h) ?_
  obtain ⟨e, queued, acts⟩ := startEvent_acts h hkind hsrc hq hr
  have sends := Sends.flueLate e F.FLU_LATE_EVENTS
  rw [acts, eventActs_late (queued.running.trans hrun)]
  exact ⟨sends.seq.trans queued.seq, sends.rings.trans queued.rings, flag_latch_late _⟩

variable (hrun : s.dev.running = true)
include hrun

theorem startEvent_refused {c : Nat} (hjudge : s.dev.judgeEvent k.arg q = some (.refused c)) :
    Completes (.startEvent p k) s (fun e => e.seq = s.dev.seq ∧
      (e.ring k.arg).held = (s.dev.ring k.arg).held ++ [⟨r.hostSeq, opStart, stRefused, 2 + 8 * bit r.irq, refuseArg c, 0, false⟩]) := by
  refine completes_canon (f := fun d => d.startEvent p k) rfl (fun _ h => h) ?_
  obtain ⟨e, queued, acts⟩ := startEvent_acts h hkind hsrc hq hr
  have event : r.event = true := by rw [hr]; rfl
  have onRing : r.ring = k.arg := by rw [hr]; rfl
  have held := declined_event e stRefused (refuseArg c) 0 event
  rw [onRing, queued.ring] at held
  rw [acts, eventActs_refused (queued.running.trans hrun) ((queued.judgeEvent _ _).trans hjudge)]
  exact ⟨(Sends.declineStart e r).seq.trans queued.seq, held⟩

theorem startEvent_denied {kind : Nat} (hjudge : s.dev.judgeEvent k.arg q = some (.denied kind)) :
    Completes (.startEvent p k) s (fun e => e.bitOf R.FLT_WORD_LO 20 = true ∧
      (e.ring k.arg).held.getLast? = some ⟨r.hostSeq, opStart, stAccessDenied, 2 + 8 * bit r.irq, 0, 0, false⟩) := by
  refine completes_canon (f := fun d => d.startEvent p k) rfl (fun _ h => h) ?_
  obtain ⟨e, queued, acts⟩ := startEvent_acts h hkind hsrc hq hr
  have event : r.event = true := by rw [hr]; rfl
  have onRing : r.ring = k.arg := by rw [hr]; rfl
  have held := declined_event (e.violation q.origin 0 kind) stAccessDenied 0 0 event
  rw [onRing] at held
  rw [acts, eventActs_denied (queued.running.trans hrun) ((queued.judgeEvent _ _).trans hjudge)]
  refine ⟨(declined_bitOf _ _ _ _ _ _).trans (violation_bitOf _ _ _ _), ?_⟩
  rw [held]
  exact List.getLast?_concat

variable (hjudge : s.dev.judgeEvent k.arg q = none) (hevents : (s.dev.ring k.arg).events = [])
include hjudge hevents

theorem startEvent_held (hheld : s.dev.judgeStart r.sites r.epoch r.unadmitted = .held) :
    Completes (.startEvent p k) s (fun e => e.seq = s.dev.seq ∧ (e.ring k.arg).events = [q]) := by
  refine completes_canon (f := fun d => d.startEvent p k) rfl (fun _ h => h) ?_
  obtain ⟨e, queued, acts⟩ := startEvent_acts h hkind hsrc hq hr
  have start : r = e.startOfDesc k.arg q true := hr.trans (queued.startOfDesc _ _).symm
  have events : (e.ring k.arg).events = [] := by rw [queued.ring, hevents]
  have waits := startEvents_held start events ((queued.view.judgeStart _ _ _).trans hheld)
  rw [acts, eventActs_waits (queued.running.trans hrun) ((queued.judgeEvent _ _).trans hjudge), ← eventHeld, waits]
  exact ⟨queued.seq, eventHeld_events events⟩

theorem startEvent_accepted (haccepted : s.dev.judgeStart r.sites r.epoch r.unadmitted = .accepted)
    (hgroups : (s.dev.takeGroups (s.dev.formGroups r.sites)).isSome = true) (hclocks : s.dev.clocksHold r = true) :
    Completes (.startEvent p k) s (fun e => (∀ x ∈ r.sites, (e.site x).st = .starting ∧ (e.site x).start = r.id) ∧
      e.seq.starts = s.dev.seq.starts ++ [r]) := by
  refine completes_canon (f := fun d => d.startEvent p k) rfl (fun _ h => h) ?_
  obtain ⟨e, queued, acts⟩ := startEvent_acts h hkind hsrc hq hr
  have start : r = e.startOfDesc k.arg q true := hr.trans (queued.startOfDesc _ _).symm
  have events : (e.ring k.arg).events = [] := by rw [queued.ring, hevents]
  have groups := congrArg Option.isSome (takeGroups_seq (s.dev.formGroups r.sites) queued.seq)
  rw [Option.isSome_map, Option.isSome_map, hgroups, ← queued.view.formGroups r.sites] at groups
  obtain ⟨g, decided, accepted⟩ := startEvents_accepted start events ((queued.view.judgeStart _ _ _).trans haccepted) groups
  have view := queued.view.trans (eventTaken_view e k.arg q)
  have clocks : (eventTaken e k.arg q).clocksHold r = true := (clocksHold_congr r view.board fun o ho => view.reg o (.inl ho)).trans hclocks
  rw [acts, eventActs_waits (queued.running.trans hrun) ((queued.judgeEvent _ _).trans hjudge), ← eventHeld, decided]
  refine ⟨fun x hx => ?_, accepted.starts.trans (congrArg (fun q : SeqState => q.starts ++ [r]) view.seq)⟩
  obtain ⟨st, start, -⟩ := accepted.clocks clocks x hx
  exact ⟨st, start⟩

end

end Sys2Proof.Proofs
end

section
/-! PROOFS. STOP, FAIL, and the reports and releases of a rendezvous, as they come as Flue events (spec/12 R345, R347, spec/06 R197-R200; that a
STOP event posts its completion with the sites it hit, and the devices whose reports the manager waits for, are the model's choices, log entries 49
and 128). -/

namespace Sys2Proof.Proofs

open Sys2Proof Sys2Proof.Machine

set_option Elab.async false

/-! ### The starts and sites that an event names -/

namespace Queued

variable {d e : Dev} (h : Queued d e)
include h

theorem eventStarts (k : Packet) : e.eventStarts k = d.eventStarts k := by rw [Dev.eventStarts, h.seq, Dev.eventStarts]

theorem eventSites (k : Packet) (sites : List Nat) : e.eventSites k sites = d.eventSites k sites := by
  obtain ⟨_, _, rfl⟩ := h.only
  rfl

theorem withStart (sites : List Nat) : e.withStart sites = d.withStart sites := by
  obtain ⟨_, _, rfl⟩ := h.only
  rfl

theorem startDevices (r : Start) : e.startDevices r = d.startDevices r := by
  obtain ⟨_, _, rfl⟩ := h.only
  rfl

theorem meet (id : Nat) : e.meet id = d.meet id := by rw [Dev.meet, h.seq, Dev.meet]
theorem site (x : Nat) : e.site x = d.site x := by rw [Dev.site, h.seq, Dev.site]

theorem participants (r : Start) : e.participants r = d.participants r := by
  simp only [Dev.participants, h.site]

theorem rdvWait (x : Nat) : e.rdvWait x = d.rdvWait x := by rw [Dev.rdvWait, h.site, Dev.rdvWait]

theorem isManager : e.isManager = d.isManager := by rw [Dev.isManager, h.deviceNum, Dev.isManager]

end Queued

/-! ### STOP (R347) -/

/-- A site that a STOP reaches leaves what the rings hold. -/
theorem stopSite_around (d : Dev) (s : Nat) : Around d (d.stopSite s) := by
  unfold Dev.stopSite
  split
  · next hst => exact (endSite_ends d s .stop 7 false (.inl hst)).toAround
  · exact {}
  · exact .refl d

theorem stopAt_around (d : Dev) (epoch : Nat) (sites : List Nat) : Around d (d.stopAt epoch sites) := by
  unfold Dev.stopAt
  split
  · exact {}
  · have late : Around d (d.flueLate F.FLU_LATE_EVENTS) := (Leaves.of_sends (Sends.flueLate d _)).toAround
    exact List.foldlRecOn sites _ (motive := Around d) late fun e he s _ => he.trans (stopSite_around e s)

theorem stopAt_waits {d : Dev} {epoch : Nat} (sites : List Nat) (hknown : d.flue.known = true) (htime : d.flue.epoch + 2 ≤ epoch) :
    d.stopAt epoch sites = { d with flue := { d.flue with stops := d.flue.stops ++ [(epoch, d.withStart sites)] } } :=
  if_pos (by simp [hknown, htime])

/-! ### Rendezvous (R197-R200) -/

theorem meet_start (d : Dev) (id : Nat) : (d.meet id).start = id := by
  rw [Dev.meet]
  cases hfind : d.seq.meets.find? (fun m => m.start == id) with
  | none => rfl
  | some m =>
    have found := List.find?_some hfind
    exact beq_iff_eq.mp found

theorem meet_setMeet (d : Dev) {m : RdvMeet} {id : Nat} (h : m.start = id) : (d.setMeet m).meet id = m := by
  subst h
  have others : (d.seq.meets.filter (fun x => x.start != m.start)).find? (fun x => x.start == m.start) = none := by
    rw [List.find?_eq_none]
    intro x hx
    simpa using (List.mem_filter.mp hx).2
  rw [Dev.meet, Dev.setMeet]
  simp only [List.find?_append, others]
  simp

/-- The meeting of a start once a device has reported. -/
def metAfter (d : Dev) (r : Start) (rep : RdvReport) : RdvMeet :=
  { d.meet r.id with reports := (d.meet r.id).reports.filter (fun y => y.device != rep.device) ++ [rep] }

/-- A report of a rendezvous that other devices have yet to join is kept with those before it. -/
theorem gather_waits {d : Dev} {r : Start} {rep : RdvReport}
    (h : (d.startDevices r).any (fun v => v != rep.device && !((d.meet r.id).reports.any (fun y => y.device == v))) = true) :
    d.gather r rep = d.setMeet (metAfter d r rep) := by
  obtain ⟨v, hv, missing⟩ := List.any_eq_true.mp h
  simp only [Bool.and_eq_true, bne_iff_ne, Bool.not_eq_true', List.any_eq_false, beq_iff_eq] at missing
  obtain ⟨other, unreported⟩ := missing
  refine if_pos ?_
  rw [Bool.not_eq_true', List.all_eq_false]
  refine ⟨v, hv, ?_⟩
  rw [Bool.not_eq_true, List.any_eq_false]
  intro y hy
  rw [beq_iff_eq]
  rcases List.mem_append.mp hy with before | new
  · exact unreported y (List.mem_of_mem_filter before)
  · rw [List.mem_singleton.mp new]
    exact fun same => other same.symm

theorem rdvRelease_done (d : Dev) (x epoch : Nat) (fails : List Nat) : ((d.rdvRelease x epoch fails).site x).run.rdvDone = some epoch := by
  rw [Dev.rdvRelease, site_modSite_same]
  dsimp only
  split <;> rfl

theorem rdvRelease_other (d : Dev) {x s : Nat} (epoch : Nat) (fails : List Nat) (h : x ≠ s) : (d.rdvRelease s epoch fails).site x = d.site x :=
  mapGet_mapSet_other _ _ _ _ _ h

/-- Every site among those that wait has been released. -/
theorem foldl_rdvRelease_done (waiting : List Nat) (d : Dev) {x : Nat} (epoch : Nat) (fails : List Nat)
    (h : x ∈ waiting ∨ (d.site x).run.rdvDone = some epoch) :
    ((waiting.foldl (fun d s => d.rdvRelease s epoch fails) d).site x).run.rdvDone = some epoch := by
  induction waiting generalizing d with
  | nil => exact h.resolve_left List.not_mem_nil
  | cons s t ih =>
    refine ih (d.rdvRelease s epoch fails) ?_
    by_cases hs : x = s
    · exact .inr (hs ▸ rdvRelease_done d x epoch fails)
    · rw [rdvRelease_other d epoch fails hs]
      exact h.imp_left fun hx => (List.mem_cons.mp hx).resolve_left hs

/-- A participant that waits for a release that is in time takes it, and runs on. -/
theorem takeRelease_done {d : Dev} {r : Start} {x id epoch : Nat} {w : IdleWait} (fails : List Nat) (htime : d.flue.known = false ∨ d.flue.epoch + 1 < epoch)
    (hx : x ∈ d.participants r) (hwait : d.rdvWait x = some w) (hid : w.rdvId = id) :
    ((d.takeRelease r id epoch fails).site x).run.rdvDone = some epoch ∧ ((d.takeRelease r id epoch fails).site x).st = .running := by
  have running : (d.site x).st = .running := by
    have both := (List.mem_filter.mp hx).2
    simp only [Bool.and_eq_true, beq_iff_eq] at both
    exact both.1
  refine ⟨?_, ((Leaves.takeRelease d r id epoch fails).site x).st.trans running⟩
  have early : ¬(d.flue.known && decide (epoch ≤ d.flue.epoch + 1)) = true := by
    rcases htime with unknown | later
    · simp [unknown]
    · simp [Nat.not_le.mpr later]
  have taken : d.takeRelease r id epoch fails = _ := if_neg early
  rw [taken]
  refine foldl_rdvRelease_done _ _ epoch fails (.inl (List.mem_filter.mpr ⟨hx, ?_⟩))
  rw [hwait]
  exact beq_iff_eq.mpr hid

/-! ### The clauses -/

section
variable {s : State} {p : Fin 4} {k : Packet} (h : Arrives s.dev p ptEvent k) (hsrc : k.src ≠ s.dev.deviceNum)
include h hsrc

theorem stopEvent_stops (hkind : k.evKind = evStop) : Completes (.stopEvent p k) s (fun e =>
    (e.ring k.arg).held = (s.dev.ring k.arg).held ++ [⟨k.evSeq, opStop, stOk, 2, (s.dev.eventSites k k.evMask).length, 0, false⟩] ∧
    (s.dev.flue.known = true → s.dev.flue.epoch + 2 ≤ k.evEpoch →
      e.flue.stops = s.dev.flue.stops ++ [(k.evEpoch, s.dev.withStart (s.dev.eventSites k k.evMask))] ∧ e.seq = s.dev.seq)) := by
  refine completes_canon (f := fun d => d.stopEvent p k) rfl (fun _ h => h) ?_
  obtain ⟨e, queued, acts⟩ := exists_eventArrived h hkind hsrc
  have stopped : s.dev.stopEvent p k = (e.stopAt k.evEpoch (s.dev.eventSites k k.evMask)).post k.arg
      ⟨k.evSeq, opStop, stOk, 2, (s.dev.eventSites k k.evMask).length, 0, false⟩ := by
    rw [← queued.eventSites]
    exact acts _
  rw [stopped]
  refine ⟨?_, fun hknown htime => ?_⟩
  · rw [post_held, ((stopAt_around e _ _).ring k.arg).1, queued.ring]
  · rw [stopAt_waits _ (queued.known.trans hknown) (by rwa [queued.epoch]), ← queued.withStart, ← queued.stops, ← queued.seq]
    exact ⟨rfl, rfl⟩

theorem failEvent_waits (hkind : k.evKind = evFail) : Completes (.failEvent p k) s (fun e =>
    e.flue.fails = s.dev.flue.fails ++ s.dev.withStart (s.dev.eventSites k [k.evSite]) ∧ e.seq = s.dev.seq) := by
  refine completes_canon (f := fun d => d.failEvent p k) rfl (fun _ h => h) ?_
  obtain ⟨e, queued, acts⟩ := exists_eventArrived h hkind hsrc
  have failed : s.dev.failEvent p k = { e with flue := { e.flue with fails := e.flue.fails ++ e.withStart (e.eventSites k [k.evSite]) } } := acts _
  rw [failed, ← queued.eventSites, ← queued.withStart, ← queued.fails]
  exact ⟨rfl, queued.seq⟩

theorem rdvReport_gathered {r : Start} {t : List Start} (hkind : k.evKind = evReport) (hmanager : s.dev.isManager = true)
    (hstarts : s.dev.eventStarts k ++ s.dev.seq.met.filter (fun r => r.ring == k.arg && r.hostSeq == k.evSeq) = r :: t)
    (hmissing : (s.dev.startDevices r).any (fun v => v != k.src && !((s.dev.meet r.id).reports.any (fun y => y.device == v))) = true) :
    Completes (.rdvReport p k) s (fun e =>
      (e.meet r.id).reports = (s.dev.meet r.id).reports.filter (fun y => y.device != k.src) ++ [⟨k.src, k.evWithdrawn, k.evRdv, k.evEpoch, k.evMask⟩] ∧
      e.seq.sites = s.dev.seq.sites) := by
  refine completes_canon (f := fun d => d.rdvReport p k) rfl (fun _ h => h) ?_
  obtain ⟨e, queued, acts⟩ := exists_eventArrived h hkind hsrc
  have gathered : s.dev.rdvReport p k = e.gather r ⟨k.src, k.evWithdrawn, k.evRdv, k.evEpoch, k.evMask⟩ := by
    refine (acts _).trans ?_
    rw [queued.isManager, hmanager, queued.eventStarts, queued.seq, hstarts]
  rw [gathered, gather_waits (by rw [queued.startDevices, queued.meet]; exact hmissing)]
  refine ⟨?_, (congrArg SeqState.sites queued.seq :)⟩
  rw [meet_setMeet e (m := metAfter e r _) (meet_start e r.id), metAfter, queued.meet]

theorem rdvRelease_released {r : Start} {t : List Start} (hkind : k.evKind = evRelease) (hstarts : s.dev.eventStarts k = r :: t)
    (htime : s.dev.flue.known = false ∨ s.dev.flue.epoch + 1 < k.evEpoch) : Completes (.rdvRelease p k) s (fun e =>
      ∀ x ∈ s.dev.participants r, ∀ w, s.dev.rdvWait x = some w → w.rdvId = k.evRdv →
        (e.site x).run.rdvDone = some k.evEpoch ∧ (e.site x).st = .running) := by
  refine completes_canon (f := fun d => d.rdvReleaseEvent p k) rfl (fun _ h => h) ?_
  obtain ⟨e, queued, acts⟩ := exists_eventArrived h hkind hsrc
  have released : s.dev.rdvReleaseEvent p k = e.takeRelease r k.evRdv k.evEpoch k.evMask := by
    refine (acts _).trans ?_
    rw [queued.eventStarts, hstarts]
  rw [released]
  intro x hx w hwait hid
  exact takeRelease_done k.evMask (by rwa [queued.known, queued.epoch]) (by rwa [queued.participants]) (by rwa [queued.rdvWait]) hid

end

/-- Settles O45, one lemma for each clause: an arriving packet acts on a device that differs in its ports alone (`exists_arrived`). The model's
choices: whole blocks for a READ and the permission of a MESSAGE (log entry 54), a START event is judged as if posted and outside GLOW and BLAZE
only counted (log entry 55), a STOP event posts its completion with the sites it hit (log entry 49), which epochs a marker names (log entry 118),
and whose reports a meeting waits for (log entry 128). -/
theorem packets : Obligations.Packets := by
  unfold Obligations.Packets
  refine ⟨fun s p k => ⟨fun q => read_answered, write_stored, doorbell_stored, fun h hskew => ⟨fun dest high => response_racc h hskew, ?_, ?_⟩,
    response_isLate, fun x b => message_posts, fun q => packetForward_sends⟩, ?_, ?_, ?_, ?_⟩
  · exact fun n dest q hread hq => ⟨response_dmaDenied h hskew hread hq, fun a => response_dmaLast h hskew hread hq⟩
  · exact fun n => response_fetch h hskew
  · exact fun s a ha => ⟨epochMarkerSend_sends ha, epochMarkerSend_silent ha⟩
  · exact fun s p k a h hpayload => ⟨epochMarker_taken h hpayload, epochMarker_late h hpayload⟩
  · intro s p k q r h hkind hsrc hq hr
    refine ⟨startEvent_late h hkind hsrc hq hr, fun hrun => ⟨fun c => startEvent_refused h hkind hsrc hq hr hrun,
      fun kind => startEvent_denied h hkind hsrc hq hr hrun, fun hjudge hevents => ⟨?_, ?_⟩⟩⟩
    · exact startEvent_held h hkind hsrc hq hr hrun hjudge hevents
    · exact startEvent_accepted h hkind hsrc hq hr hrun hjudge hevents
  · intro s p k h hsrc
    exact ⟨stopEvent_stops h hsrc, failEvent_waits h hsrc, fun r t => rdvReport_gathered h hsrc, fun r t => rdvRelease_released h hsrc⟩

end Sys2Proof.Proofs
end
